-- ==== Sys2Proof/Word.lean ====
section
/-! DEFINITION. The word types of the HQ-1604 and their plainest arithmetic. -/

namespace Sys2Proof

/-- A byte. -/
abbrev Byte := BitVec 8

/-- A 64-bit word: a general register of a context, a register of the map, a column of a record. -/
abbrev Word := BitVec 64

end Sys2Proof
end

