-- ==== Sys2Proof/Syntax.lean ====
section
/-! DEFINITION. The commands of the HQ-1604 as syntax: the operand types, then one constructor per row of the opcode
table. A command is one step of the part, whole and indivisible (95_what_each_step_holds); its operands are what comes
from outside the part with it (a value written, the bytes of a frame, the answer of a host, the outcome of a check). -/

namespace Sys2Proof

/-- A PCIe function, numbered as its polder (17 R456): 4,096 · link + function number. -/
abbrev Fn := Fin 8192

/-- A physical function: PF 0 or PF 1. -/
abbrev Pf := Fin 2

/-- A context: 8 · engine + context for 0 to 1,535, then 1,536 + core for the twelve control cores. -/
abbrev CtxId := Fin 1548

/-- A general register g0 to g31 by number. -/
abbrev Reg := Fin 32

/-- A predicate p0 to p7 by number. -/
abbrev Pred := Fin 8

/-- A ticket k0 to k7 by number. -/
abbrev Tick := Fin 8

/-- The outcome of the ECC check of a memory that an access uses (02 R47). -/
inductive Ecc where
  | good | single | double
  deriving DecidableEq, Repr

/-- The outcomes of the checks of the two bucket reads of a table lookup, that of the primary and that of the alternate (07 R174). -/
structure ReadEcc where
  primary   : Ecc := .good
  alternate : Ecc := .good
  deriving DecidableEq, Repr

/-- Those of the two ingress lookups of a frame, by destination and by source (07 R174, R176). -/
structure FrameEcc where
  dest   : ReadEcc := {}
  source : ReadEcc := {}
  deriving DecidableEq, Repr

/-- A host access width: 4 or 8 bytes at a natural alignment (15 R402). -/
inductive Width where
  | w4 | w8
  deriving DecidableEq, Repr

/-- What a snoop asks of a cache (02 R40). -/
inductive SnoopKind where
  | invalidate | forward | backInvalidate
  deriving DecidableEq, Repr

/-- The condition codes of CMP and CMPI (03 R68), 0h to 7h in this order. -/
inductive Cond where
  | eq | ne | ltu | geu | lts | ges | tst | tstz
  deriving DecidableEq, Repr

/-- Who writes staging and command registers that have one set per writer (23 R565): the control cores, or a PF. -/
inductive Writer where
  | pf0 | pf1 | control
  deriving DecidableEq, Repr

/-- The number of a writer's set: PF 0, PF 1, control cores. -/
def Writer.view : Writer → Nat
  | .pf0 => 0
  | .pf1 => 1
  | .control => 2

/-- The base address register a memory request is for (15 R402). -/
inductive Bar where
  | bar0 | bar2
  deriving DecidableEq, Repr

/-- How a completion of a read comes back (15 R401). -/
inductive CplStatus where
  | ok | ur | ca | poisoned | ecrc | internal | malformed
  deriving DecidableEq, Repr

/-- How a write request arrives (15 R405): whole, poisoned, with an ECRC error, or malformed. -/
inductive TlpCheck where
  | good | poisoned | ecrc | malformed
  deriving DecidableEq, Repr

/-- An error of AER in a configuration write (15 R405), numbered as the model's list of errors is. -/
abbrev AerIndex := Fin 8

/-- What a configuration write sets (15 R397 to R410): the controls that the device's behaviour reads, or another dword
of configuration space. A read is `read`. -/
inductive CfgReq where
  | read (dword : Fin 1024)
  | memEnable (on : Bool)
  | busMaster (on : Bool)
  | maxPayload (code : Fin 3)
  | maxRead (code : Fin 6)
  | noSnoop (on : Bool)
  | relaxed (on : Bool)
  | tag10 (on : Bool)
  | tag14 (on : Bool)
  | timeoutValue (code : Fin 16)
  | timeoutOff (on : Bool)
  | ats (on : Bool)
  | pasid (on : Bool)
  | vfEnable (on : Bool) (num : Fin 4096)
  | romEnable (on : Bool)
  | msixEnable (on : Bool)
  | msixMask (on : Bool)
  | pmeEnable (on : Bool)
  | aspmL1 (on : Bool)
  | aerClear (err : AerIndex)
  | aerSeverity (err : AerIndex) (fatal : Bool)
  | cacheEnable
  | other (dword : Fin 1024) (data : BitVec 32)
  deriving DecidableEq, Repr

/-- A CXL.cache snoop (15 R419). -/
inductive CxlSnoop where
  | inv | data | cur
  deriving DecidableEq, Repr

/-- The outcome of the check of a match against its shadow (06 R162): the match stands, a single error was corrected, a
false hit was found at an entry, or the shadow or the action record of the match has an uncorrectable error; or a cell of an entry is
corrupted, which makes the entry miss (06 R163). -/
inductive AcsFind where
  | good | corrected
  | falseHit (bank : Fin 64) (index : Fin 2048)
  | shadowBad | actionBad
  | missed (bank : Fin 64) (index : Fin 2048)
  deriving DecidableEq, Repr

/-- A table descriptor as the control cores write it (07 R171). -/
structure TableDesc where
  en      : Bool
  kind    : Bool
  keylen  : Fin 64
  size    : Fin 32
  base    : Fin 16777216
  seed1   : BitVec 32
  seed2   : BitVec 32
  agemode : Fin 4
  agelim  : Fin 65536
  sweep   : Fin 65536
  deriving DecidableEq, Repr

/-- What the Dikewarden finds of one copy of a triple-store object (18 R489): ECC passes with the content committed, or
with another content, or ECC fails. -/
inductive Copy where
  | intact
  | holds (content : List Nat)
  | eccFails
  deriving DecidableEq, Repr

/-- A frame that a control core hands to the completion collector (08 R211): the core, the target in the layout of 03
R78, the transmit class, the ingress port it carries, and the bytes without the FCS. -/
structure Injection where
  core   : Fin 12
  target : Fin 524288
  cls    : Fin 8
  iport  : Fin 18
  bytes  : List Byte
  deriving DecidableEq, Repr

/-- What reaches the MAC of a port (05 R116 to R122, R126): a whole frame without its FCS, and whether the FCS is right; a start fragment
of a preemptable frame with its frame number, or a continuation fragment with its frame number and fragment count, without the FCS or
mCRC, whether more fragments follow (it ends in an mCRC) and whether that check is right; a frame that finds the receive frame FIFO
full; a frame that the link's end cuts off; codewords, with those corrected, those that cannot be, and the symbols corrected; a verify
message or its response. -/
inductive Arrival where
  | frame (bytes : List Byte) (fcsOk : Bool)
  | start (num : Fin 4) (bytes : List Byte) (more ok : Bool)
  | cont (num count : Fin 4) (bytes : List Byte) (more ok : Bool)
  | overrun
  | cutOff
  | codewords (corrected uncorrectable symbols : Nat)
  | verify
  | verifyResponse
  deriving DecidableEq, Repr

/-- The fields of a BIND (04 R94, R102), as the request carries them; `zeroOk` says that every reserved bit is zero. -/
structure BindReq where
  handle   : Nat
  mask     : Nat
  slot     : Nat
  fault    : Nat
  fallback : BitVec 64
  scope    : Nat
  cntBase  : Nat
  cntCount : Nat
  zeroOk   : Bool
  deriving DecidableEq, Repr

/-- What a loader QUERY asks for (04 R94): an image by its handle, or a slot of a pipeline. -/
inductive QueryOf where
  | image (handle : Byte)
  | slot (pipe : Fin 4) (slot : Fin 64)
  deriving DecidableEq, Repr

/-- The state of a storage TCP connection as a hand-over carries it (09 R226), and as the transport unit runs it. -/
structure TcpState where
  v6      : Bool := false
  laddr   : List Byte := []
  raddr   : List Byte := []
  lport   : Nat := 0
  rport   : Nat := 0
  queue   : Nat := 0
  ring    : Nat := 0
  una     : Nat := 0
  nxt     : Nat := 0
  rcv     : Nat := 0
  /-- the window the peer offers and the window offered to it, in bytes -/
  sndWnd  : Nat := 0
  rcvWnd  : Nat := 0
  /-- shift of the windows received and of those sent (RFC 7323) -/
  scale   : Nat := 0
  rscale  : Nat := 0
  mss     : Nat := 0
  /-- the timestamp option is in use, with the newest timestamp of the peer -/
  ts      : Option Nat := none
  cwnd    : Nat := 0
  ssthresh : Nat := 0
  /-- µs; 0 while no round trip was measured -/
  srtt    : Nat := 0
  rttvar  : Nat := 0
  /-- TLS: key slots and record sequence numbers, transmit and receive -/
  tls     : Option (Nat × Nat) := none
  txSeq   : Nat := 0
  rxSeq   : Nat := 0
  /-- header and data digests of NVMe/TCP are in use -/
  hdgst   : Bool := false
  ddgst   : Bool := false
  deriving DecidableEq, Repr

/-- A memory region of a polder (09 R229): its key, host address, length, and whether the remote end may write or read it. -/
structure Region where
  rkey  : Nat
  base  : Nat
  len   : Nat
  write : Bool
  read  : Bool
  deriving DecidableEq, Repr

/-- A queue pair as its create request carries it (09 R229). -/
structure QpReq where
  v6     : Bool := false
  laddr  : List Byte := []
  raddr  : List Byte := []
  dqpn   : Nat := 0
  queue  : Nat := 0
  ring   : Nat := 0
  cq     : Nat := 0
  mtu    : Nat := 0
  /-- ACK timeout exponent T, retry count, RNR retry count -/
  t      : Nat := 0
  retry  : Nat := 0
  rnr    : Nat := 0
  /-- first packet sequence numbers, sent and expected -/
  spsn   : Nat := 0
  epsn   : Nat := 0
  regions : List Region := []
  deriving DecidableEq, Repr

/-- Where a namespace, or a lane of a striped one, is (09 R234): its transport (false a storage TCP connection, true a queue
pair) and number, the secondary connection, and the namespace there. -/
structure LaneReq where
  conn      : Bool × Nat
  secondary : Option (Bool × Nat) := none
  nsid      : Nat
  deriving DecidableEq, Repr

/-- A namespace of a personality (09 R234, R237): its number, its lanes (one, or W = 2 to 16 for a stripe), the element size
of a stripe, the LBA size, and the AES-XTS-256 key slot. -/
structure NsReq where
  nsid  : Nat
  lanes : List LaneReq
  elem  : Nat := 1
  lba   : Nat := 512
  key   : Option Nat := none
  deriving DecidableEq, Repr

/-- A command as the controller reads it from the host: the 64-byte entry, the host buffers that its data pointer spells
(address, bytes), their content where the command carries data to the controller, and the descriptors of its SGL segments. -/
structure NvRead where
  sqe  : BitVec 512
  bufs : List (Nat × Nat) := []
  data : List Byte := []
  segs : List (BitVec 128) := []
  deriving DecidableEq, Repr

/-- A contract record of a set-up (R338), as submitted. -/
structure CRec where
  number   : Nat := 0
  op       : Nat := 0
  cclass   : Nat := 0
  flags    : Nat := 0
  tclass   : Nat := 0
  polder   : Nat := 0
  ports    : Nat := 0
  srcring  : Nat := 0
  target   : Nat := 0
  slot     : Nat := 0
  direct   : Bool := false
  profile  : Nat := 0
  njobs    : Nat := 0
  rate     : Nat := 0
  burst    : Nat := 0
  lmax     : Nat := 0
  lmin     : Nat := 0
  deadline : Nat := 0
  margin   : Nat := 0
  cdlen    : Nat := 0
  calen    : Nat := 0
  twin     : Nat := 0
  value    : Nat := 0
  mask     : Nat := 0
  /-- every field or bit that must be zero is zero -/
  zeroOk   : Bool := true
  deriving DecidableEq, Repr

/-- A list record of a set-up (R339), with the entries read from its host address. -/
structure LRec where
  port    : Nat
  mode    : Nat
  lena    : Nat
  fset    : Nat
  sec     : Nat
  ns      : Nat
  cycle   : Nat
  len     : Nat
  entries : List Nat
  /-- the bytes that must be zero are zero -/
  zeroOk  : Bool
  deriving DecidableEq, Repr
/-- What came down the sideband or a host link with an MCTP message (20 R523): SMBus, or the VDM of PF 0 or PF 1. -/
abbrev Via := Fin 3

/-- An NC-SI command of DSP0222 (20 R523), by what it asks; the numbers are those of that standard (log entry 30). -/
inductive NcsiReq where
  | clearInitial | selectPackage | deselectPackage | enableChannel | disableChannel | resetChannel | enableTx | disableTx
  | aenEnable (mask : BitVec 32)
  | getLink
  | setMac (slot : Nat) (mac : BitVec 48) (en : Bool)
  | enableBroadcast | disableBroadcast
  /-- Get Version ID to Get NC-SI Pass-through Statistics, 15h to 1Ah -/
  | info (which : Fin 6)
  | other (cmd : Byte)
  deriving DecidableEq, Repr

/-- An MCTP message of DSP0236 that is neither PLDM nor vendor-defined (20 R523; log entry 30). -/
inductive MctpReq where
  | setEid (eid : Byte) | getEid | getVersions | getTypes
  /-- another control command, a message type that is not supported, or a message above the MTU -/
  | otherControl (cmd : Byte) | otherType (type : Byte) | tooLong
  deriving DecidableEq, Repr

/-- A PLDM request of DSP0240 or DSP0248 (20 R523; log entry 30). A numeric sensor's reading comes with the request. -/
inductive PldmReq where
  | setTid (tid : Byte) | getTid | getVersion | getTypes | getCommands (type : Byte)
  | sensorReading (id : Nat) (value : BitVec 64)
  | stateReading (id : Nat)
  | other (type cmd : Byte)
  deriving DecidableEq, Repr

/-- What the sensors read at a snapshot (20 R526): temperature sensors, rails, device power, and module temperatures by cage,
each the word that the snapshot holds. -/
structure Readings where
  temps   : List (BitVec 64) := []
  rails   : List (BitVec 64) := []
  power   : BitVec 64 := 0
  modules : List (BitVec 64) := []
  deriving DecidableEq, Repr

/-- A control-core share in a window (20 R528): work was pending throughout, and the percentage it received. -/
structure ShareUse where
  pending : Bool
  got     : Fin 101
  deriving DecidableEq, Repr

/-- The image set that an update received (20 R537, R538), as its checks find it. -/
structure FwReceived where
  good    : Bool
  version : BitVec 32
  content : Nat
  bytes   : Nat
  deriving DecidableEq, Repr

/-- What the module bus controller finds on the data line with a segment selected (20 R533): high; low and high again after a
clock of 1 to 9; or low after nine clocks, and then low or not with every channel disconnected. -/
inductive SdaLine where
  | high | clocked | stuck (trunkLow : Bool)
  deriving DecidableEq, Repr

/-- What a poll of a module finds (20 R535): it answers, or it has answered no access for 2 s. -/
inductive ModuleAnswer where
  | answers | silent
  deriving DecidableEq, Repr


/-- What a TABLES request asks for (17 R466): a table entry written under a mask, a template of 128 bytes, an owner of a classifier
bank (0 the control cores, 1 and 2 the physical functions), a sluice or path setting by its register. -/
inductive TableReq where
  | entry (area : Fin 5) (bucket : Fin 16777216) (data : BitVec 512) (mask : Byte)
  | template (n : Fin 16384) (bytes : List Byte)
  | bank (pipe : Fin 4) (bank : Fin 64) (owner : Fin 3)
  | setting (off : Fin 268435456) (value : BitVec 64)
  deriving DecidableEq, Repr

/-- Who sends on a mailbox channel, or takes from one (17 R464, R473): a function, through its registers, or the control cores or the
management controller on their private channels, which no register stages: service and body come with the command. -/
inductive MailSender where
  | fn (f : Fn)
  | cores (svc : Byte) (body : List Byte)
  | manager (svc : Byte) (body : List Byte)
  deriving DecidableEq, Repr

/-- A party to the mailboxes as it picks up or withdraws. -/
inductive MailParty where
  | fn (f : Fn) | cores | manager
  deriving DecidableEq, Repr

/-- What falls in the same ECLK as a cancel, at the task entry (02 R50): nothing, a make-ready, the due time, the start of the task, or
the cancel of another context. -/
inductive CancelRace where
  | none | makeReady | due | start
  | cancel (other : CtxId)
  deriving DecidableEq, Repr

/-- The commands the device takes: one constructor per row of the opcode table. -/
inductive Instr where
  /-- REGISTER_WRITE (R12): A host write to a register field that has no row of its own takes effect under its access code (RW, RW1C, RW1S, RWL, RSV). -/
  | registerWrite (fn : Fn) (bar : Bar) (off : Fin 268435456) (width : Width) (data : Word) (tlp : TlpCheck)
  /-- READ_CLEAR (R12): A read of an RC field returns its value and then clears it to zero, keeping any increment made in the same cycle. -/
  | readClear (fn : Fn) (bar : Bar) (off : Fin 268435456) (len : Nat)
  /-- SECOND_BOUNDARY (R568): The nanoseconds field of network time passes zero and a new second begins for every per-second limit and count. -/
  | secondBoundary
  /-- FRAME_RECEIVE (R28): A frame arrives at a port MAC and passes the receive stages of the path of a received packet. -/
  | frameReceive (port : Fin 16) (a : Arrival) (f1 f2 : AcsFind) (ecc : FrameEcc)
  /-- HOME_SLICE_TAKE (R41): An L2 home slice takes one new transaction, a writeback first, else a request in rotating requester order. -/
  | homeSliceTake (slice : Fin 24) (ecc : Ecc)
  /-- DATA_GRANT (R43): A grant arrives at a cache, which completes the access that caused the miss. -/
  | dataGrant (who : Fin 204) (line : Nat) (ecc : Ecc)
  /-- SNOOP (R43): A snoop or back-invalidation arrives at a cache and is answered, after its own outstanding grant if any. -/
  | snoop (who : Fin 204) (line : Nat) (kind : SnoopKind)
  /-- STORE_RELOAD_DONE (R47): The reload of a bay's program store completes and the bay returns to service. -/
  | storeReloadDone (bay : Fin 12)
  /-- CONTEXT_WATCHDOG (R51): A context reaches twice its verified bound in context cycles and its engine fails. -/
  | contextWatchdog (x : Fin 1536) (bad : List Nat)
  /-- STALL_WATCHDOG (R51): An engine issues nothing for STALL_LIM × 256 ECLK with a context in RUN and fails. -/
  | stallWatchdog (n : Fin 192) (bad : List Nat)
  /-- RETEST (R54): A write of ENG.ECTL.RETEST starts the retest of a failed or offline engine. -/
  | retest (n : Fin 192)
  /-- RETEST_DONE (R54): The engine retest finishes and the engine returns ONLINE or keeps FAILED_TEST. -/
  | retestDone (n : Fin 192) (pass : Bool)
  /-- ENGINE_WITHDRAW (R56): A write of ENG.ECTL.WITHDRAW stops dispatch to an ONLINE or SLOW engine. -/
  | engineWithdraw (n : Fin 192)
  /-- WITHDRAW_DONE (R56): A withdrawn engine's contexts become IDLE and its state becomes FAILED with cause 5h. -/
  | withdrawDone (n : Fin 192)
  /-- ENGINE_ONLINE (R56): A write of ENG.ECTL.ONLINE returns an engine withdrawn by software to ONLINE. -/
  | engineOnline (n : Fin 192)
  /-- ENG_COMMIT (R56): A write of ENG.CFG.COMMIT validates and locks the coherent window fields or sets CERR. -/
  | engCommit
  /-- TASK_DUE (R49): Network time reaches an ARMED task's due time and the task becomes READY. -/
  | taskDue (bay : Fin 12) (entry : Fin 4096)
  /-- TASK_START (R49): A READY task starts in an eligible IDLE context of its bay. -/
  | taskStart (bay : Fin 12)
  /-- RESULT_ARRIVAL (R65): An asynchronous operation's result is written to its destination and its ticket becomes free. -/
  | resultArrival (x : CtxId) (k : Tick) (race : CancelRace)
  /-- DEFERRED_TERMINATION (R82): A terminating instruction waiting for busy tickets takes effect once every ticket is free. -/
  | deferredTermination (x : CtxId)
  /-- INTERRUPT_TRAP (R87): An enabled interrupt is taken by a control core between instructions and jumps to TVEC. -/
  | interruptTrap (core : Fin 12)
  /-- ADD (R67): rd = ra + rb. -/
  | add (x : CtxId) (rd ra rb : Reg)
  /-- SUB (R67): rd = ra − rb. -/
  | sub (x : CtxId) (rd ra rb : Reg)
  /-- AND (R67): rd = ra & rb. -/
  | and (x : CtxId) (rd ra rb : Reg)
  /-- OR (R67): rd = ra | rb. -/
  | or (x : CtxId) (rd ra rb : Reg)
  /-- XOR (R67): rd = ra ^ rb. -/
  | xor (x : CtxId) (rd ra rb : Reg)
  /-- ANDN (R67): rd = ra & ~rb. -/
  | andn (x : CtxId) (rd ra rb : Reg)
  /-- SHL (R67): Logical shift left by rb[5:0]. -/
  | shl (x : CtxId) (rd ra rb : Reg)
  /-- SHR (R67): Logical shift right by rb[5:0]. -/
  | shr (x : CtxId) (rd ra rb : Reg)
  /-- SAR (R67): Arithmetic shift right by rb[5:0]. -/
  | sar (x : CtxId) (rd ra rb : Reg)
  /-- ROL (R67): Rotate left by rb[5:0]. -/
  | rol (x : CtxId) (rd ra rb : Reg)
  /-- MINU (R67): rd = unsigned minimum of ra and rb. -/
  | minu (x : CtxId) (rd ra rb : Reg)
  /-- MAXU (R67): rd = unsigned maximum of ra and rb. -/
  | maxu (x : CtxId) (rd ra rb : Reg)
  /-- MUL (R67): rd = low 64 bits of ra × rb. -/
  | mul (x : CtxId) (rd ra rb : Reg)
  /-- MULHU (R67): rd = high 64 bits of the unsigned product. -/
  | mulhu (x : CtxId) (rd ra rb : Reg)
  /-- CLZ (R67): rd = leading zeros of ra. -/
  | clz (x : CtxId) (rd ra : Reg)
  /-- POPC (R67): rd = set bits of ra. -/
  | popc (x : CtxId) (rd ra : Reg)
  /-- BSWAP (R67): rd = bytes of ra reversed. -/
  | bswap (x : CtxId) (rd ra : Reg)
  /-- DIVU (R67): Control profile: rd = ra / rb, all ones for rb = 0. -/
  | divu (x : CtxId) (rd ra rb : Reg)
  /-- REMU (R67): Control profile: rd = ra % rb, ra for rb = 0. -/
  | remu (x : CtxId) (rd ra rb : Reg)
  /-- ADDI (R67): rd = ra + sign-extended imm16. -/
  | addi (x : CtxId) (rd ra : Reg) (imm : BitVec 16)
  /-- ANDI (R67): rd = ra & zero-extended imm16. -/
  | andi (x : CtxId) (rd ra : Reg) (imm : BitVec 16)
  /-- ORI (R67): rd = ra | zero-extended imm16. -/
  | ori (x : CtxId) (rd ra : Reg) (imm : BitVec 16)
  /-- XORI (R67): rd = ra ^ zero-extended imm16. -/
  | xori (x : CtxId) (rd ra : Reg) (imm : BitVec 16)
  /-- SHLI (R67): Shift left by an immediate count. -/
  | shli (x : CtxId) (rd ra : Reg) (sh : Fin 64)
  /-- SHRI (R67): Logical shift right by an immediate count. -/
  | shri (x : CtxId) (rd ra : Reg) (sh : Fin 64)
  /-- SARI (R67): Arithmetic shift right by an immediate count. -/
  | sari (x : CtxId) (rd ra : Reg) (sh : Fin 64)
  /-- MOVI (R67): rd = sign-extended imm16. -/
  | movi (x : CtxId) (rd : Reg) (imm : BitVec 16)
  /-- MOVK (R67): Writes imm16 into one 16-bit field of rd and keeps the rest. -/
  | movk (x : CtxId) (rd : Reg) (h : Fin 4) (imm : BitVec 16)
  /-- EXT (R67): Extracts a bit field of ra into rd. -/
  | ext (x : CtxId) (rd ra : Reg) (pos len1 : Fin 64)
  /-- INS (R67): Inserts the low bits of ra into a bit field of rd. -/
  | ins (x : CtxId) (rd ra : Reg) (pos len1 : Fin 64)
  /-- CRC (R67): Updates a CRC-32C seed in rd over ra and rb. -/
  | crc (x : CtxId) (rd ra rb : Reg)
  /-- CMP (R68): Sets a predicate from a condition on two registers. -/
  | cmp (x : CtxId) (pd : Pred) (cond : Cond) (ra rb : Reg)
  /-- CMPI (R68): Sets a predicate from a condition on a register and an immediate. -/
  | cmpi (x : CtxId) (pd : Pred) (cond : Cond) (ra : Reg) (imm : BitVec 15)
  /-- PLOG (R68): Sets a predicate to any two-input function of two predicates. -/
  | plog (x : CtxId) (pd pa pb : Pred) (tt : BitVec 4)
  /-- SEL (R68): rd = p ? ra : rb. -/
  | sel (x : CtxId) (rd ra rb : Reg) (p : Pred)
  /-- ASSERT (R68): Raises an assert fault with a code when the predicate condition holds. -/
  | assertP (x : CtxId) (p : Pred) (n : Bool) (code : BitVec 22)
  /-- WLD (R69): Loads big-endian bytes from the header window. -/
  | wld (x : CtxId) (rd : Reg) (off : Fin 128) (sz : Fin 4)
  /-- WST (R69): Stores big-endian bytes into the header window. -/
  | wst (x : CtxId) (ra : Reg) (off : Fin 128) (sz : Fin 4)
  /-- WLDX (R69): Indexed window load. -/
  | wldx (x : CtxId) (rd ra : Reg) (off : Fin 128) (sz : Fin 4)
  /-- WSTX (R69): Indexed window store. -/
  | wstx (x : CtxId) (rd ra : Reg) (off : Fin 128) (sz : Fin 4)
  /-- WGET (R69): Reads a window register. -/
  | wget (x : CtxId) (rd : Reg) (win : Fin 16)
  /-- WPUT (R69): Writes a window register. -/
  | wput (x : CtxId) (ra : Reg) (win : Fin 16)
  /-- WBASE (R69): Sets the window base B. -/
  | wbase (x : CtxId) (ra : Reg)
  /-- HADJ (R69): Moves the packet start S and adjusts LEN. -/
  | hadj (x : CtxId) (ra : Reg)
  /-- CSUM (R69): Computes a ones' complement sum over header bytes counted from S. -/
  | csum (x : CtxId) (rd ra : Reg) (off : Fin 128) (sz : Fin 4)
  /-- MDR (R70): Reads a metadata field into rd. -/
  | mdr (x : CtxId) (rd : Reg) (field : Fin 32)
  /-- MDW (R70): Writes a writable metadata field. -/
  | mdw (x : CtxId) (ra : Reg) (field : Fin 32)
  /-- LD (R71): Loads from scratch, the coherent window, the atomic region or the program store. -/
  | ld (x : CtxId) (rd ra : Reg) (sp : Fin 4) (sz : Fin 4) (sx : Bool) (imm : BitVec 11) (ecc : Ecc)
  /-- ST (R71): Stores to scratch, the coherent window or the atomic region. -/
  | st (x : CtxId) (rs ra : Reg) (sp : Fin 4) (sz : Fin 4) (imm : BitVec 11) (ecc : Ecc)
  /-- AMO (R72): Issues a far atomic operation on the atomic region and takes a ticket. -/
  | amo (x : CtxId) (rd ra rb : Reg) (k : Tick) (fn : Fin 8) (wide : Bool)
  /-- BR (R73): Branches on a predicate. -/
  | br (x : CtxId) (p : Pred) (n : Bool) (off : BitVec 22)
  /-- LOOP (R74): Starts a counted loop over a body. -/
  | loop (x : CtxId) (cnt : BitVec 8) (bodyEnd : BitVec 18)
  /-- LOOPR (R86): Control profile: starts a loop whose count is in a register. -/
  | loopr (x : CtxId) (ra : Reg) (bodyEnd : BitVec 18)
  /-- BREAK (R73): Leaves the innermost loop when the predicate holds. -/
  | brk (x : CtxId) (p : Pred) (n : Bool)
  /-- LIDX (R73): Reads the iteration index of the innermost loop. -/
  | lidx (x : CtxId) (rd : Reg)
  /-- CALL (R75): Pushes the return address and jumps to a function of the image. -/
  | call (x : CtxId) (fidx : BitVec 8)
  /-- RET (R75): Returns from a function. -/
  | ret (x : CtxId)
  /-- JT (R76): Jumps through a jump table of the image. -/
  | jt (x : CtxId) (ra : Reg) (table : Fin 32)
  /-- JR (R86): Control profile: jumps to the word number in ra. -/
  | jr (x : CtxId) (ra : Reg)
  /-- LKA (R156): Issues an associative lookup of a scratch key through a profile. -/
  | lka (x : CtxId) (rd ra : Reg) (k : Tick) (profile : Fin 32) (f1 f2 : AcsFind)
  /-- LKA_LATE (R158): An LKA whose search has not started within 7 PCLK is answered late. -/
  | lkaLate (x : CtxId) (k : Tick)
  /-- LKH (R173): Issues a hash-table lookup and writes the entry to scratch. -/
  | lkh (x : CtxId) (rd ra rb : Reg) (k : Tick) (table : Fin 16) (ecc : ReadEcc)
  /-- LKC (R178): Issues a connection lookup, creating the connection on a miss when asked. -/
  | lkc (x : CtxId) (rd ra rb : Reg) (k : Tick) (table : Fin 16) (create : Bool) (ecc : ReadEcc)
  /-- MTR (R305): Meters bytes through a policer and returns the colour. -/
  | mtr (x : CtxId) (rd ra rb : Reg) (k : Tick)
  /-- CIS_ONWARD (R251): Issues an onward cipher job whose output later merges into the frame. -/
  | cisOnward (x : CtxId) (rd ra rb : Reg) (k : Tick) (ecc : Ecc)
  /-- CIS_RETURN (R254): Issues a return cipher job whose output is written to scratch. -/
  | cisReturn (x : CtxId) (rd ra rb : Reg) (k : Tick)
  /-- TUN_ENCAPSULATE (R220): Pushes a template's outer headers onto the packet. -/
  | tunEncapsulate (x : CtxId) (rd ra : Reg) (k : Tick)
  /-- TUN_DECAPSULATE (R221): Strips the tunnel headers and tags a usable dual-path option. -/
  | tunDecapsulate (x : CtxId) (rd ra : Reg) (k : Tick)
  /-- TUN_MARK (R218): Marks the packet for checksum insertion and segmentation at egress. -/
  | tunMark (x : CtxId) (rd ra : Reg) (k : Tick)
  /-- RAND (R269): Requests 64 bits from the bay's DRBG. -/
  | rand (x : CtxId) (rd : Reg) (k : Tick)
  /-- AWAIT (R65): Holds the context until the named ticket is free. -/
  | await (x : CtxId) (k : Tick)
  /-- EMIT (R78): Ends the packet and hands it to an egress queue or receive ring. -/
  | emit (x : CtxId) (ra : Reg) (twoStep oneStep : Bool)
  /-- COPY (R79): Sends a copy of the packet to a target and continues. -/
  | copy (x : CtxId) (ra : Reg)
  /-- DROP (R78): Ends the packet by dropping it with a reason code. -/
  | drop (x : CtxId) (reason : Byte)
  /-- PUNT (R78): Ends the packet by sending it to the exception ring. -/
  | punt (x : CtxId) (code : Byte)
  /-- TDONE (R81): Ends a task with an 8-byte result and sends DONE to its owner. -/
  | tdone (x : CtxId) (ra : Reg)
  /-- CNT (R80): Posts a packet and byte increment to a program counter. -/
  | cnt (x : CtxId) (ra rb : Reg)
  /-- TIME (R80): Reads network time into rd. -/
  | timeRead (x : CtxId) (rd : Reg)
  /-- TARM (R81): Arms a task in the own bay with an argument and due time. -/
  | tarm (x : CtxId) (rd ra rb : Reg) (idx : Byte)
  /-- TRDY (R81): Makes a task of the own bay ready. -/
  | trdy (x : CtxId) (rd ra : Reg)
  /-- TCAN (R81): Cancels a task of the own bay. -/
  | tcan (x : CtxId) (rd ra : Reg) (race : CancelRace)
  /-- TRDYX (R81): Makes a task in any bay ready, asynchronously. -/
  | trdyx (x : CtxId) (rd ra : Reg) (k : Tick)
  /-- TCANX (R81): Cancels a task in any bay, asynchronously. -/
  | tcanx (x : CtxId) (rd ra : Reg) (k : Tick)
  /-- IOR (R86): Control profile: reads a device register. -/
  | ior (x : CtxId) (rd ra : Reg) (imm : BitVec 11)
  /-- IOW (R86): Control profile: writes a device register. -/
  | iow (x : CtxId) (rs ra : Reg) (imm : BitVec 11)
  /-- CSRR (R87): Control profile: reads a CSR. -/
  | csrr (x : CtxId) (rd : Reg) (csr : BitVec 12)
  /-- CSRW (R87): Control profile: writes a CSR. -/
  | csrw (x : CtxId) (ra : Reg) (csr : BitVec 12)
  /-- ERET (R87): Control profile: returns from a trap to EPC and enables interrupts. -/
  | eret (x : CtxId)
  /-- WFE (R87): Control profile: waits for an event or interrupt. -/
  | wfe (x : CtxId)
  /-- LOADER_LOAD (R96): The loader checks, verifies, places and copies a signed image into every bay store. -/
  | loaderLoad (pf : Pf) (len : Nat) (image : List Byte)
  /-- LOADER_BIND (R95): The loader stages the binding of an image to a slot in the named pipelines. -/
  | loaderBind (pf : Pf) (b : BindReq)
  /-- LOADER_UNBIND (R95): The loader stages the removal of a slot's binding. -/
  | loaderUnbind (pf : Pf) (mask slot : Nat) (zeroOk : Bool)
  /-- LOADER_COMMIT (R104): The loader applies the PF's staged bindings together in one PCLK under a new version epoch. -/
  | loaderCommit (pf : Pf)
  /-- LOADER_UNLOAD (R105): The loader marks an image draining, to be freed once unused. -/
  | loaderUnload (pf : Pf) (handle : Byte)
  /-- LOADER_QUERY (R94): The loader returns the state of an image or slot. -/
  | loaderQuery (pf : Pf) (what : QueryOf)
  /-- IMAGE_FREED (R105): A draining image is no longer used by any slot, packet or task and its handle is freed. -/
  | imageFreed (handle : Byte)
  /-- ENROL (R92): A PF enrols a signing key hash into OTP at index 1–3. -/
  | enrol (pf : Pf) (idx : Fin 4) (hash : BitVec 384)
  /-- REVOKE (R92): A signing key index is revoked in OTP. -/
  | revoke (pf : Pf) (idx : Fin 4)
  /-- CNTSEL_WRITE (R571): A write to PGM.CNTSEL latches the selected count into CNTA and CNTB. -/
  | cntselWrite (pf : Pf) (kind : Fin 4) (index : BitVec 20)
  /-- CNTCLR (R571): A write of PGM.CNTCLR.CLR clears the selected count. -/
  | cntclr (pf : Pf)
  /-- MODE_APPLY (R114): A write of PRT.MODE.APPLY starts a lane-mode change or is refused. -/
  | modeApply (port : Fin 16)
  /-- MODE_CHANGE_DONE (R114): The lanes of a group are reconfigured and STATE returns to idle. -/
  | modeChangeDone (group : Fin 4)
  /-- PORT_ENABLE (R117): Setting PRT.CTL.EN starts link training or PCS alignment. -/
  | portEnable (port : Fin 16) (lt : Bool)
  /-- LINK_UP (R117): A port's link comes up. -/
  | linkUp (port : Fin 16)
  /-- LINK_DOWN (R135): A port's link goes down, ending frames in progress and failing its path. -/
  | linkDown (port : Fin 16)
  /-- FEC_SECOND (R119): At the end of a second the corrected-symbol count is compared with SYMTHR and FECHI set or cleared. -/
  | fecSecond (port : Fin 16)
  /-- VERIFY_TIMER (R126): The preemption verify interval expires and a verify frame is sent, or verification fails after 3 attempts. -/
  | verifyTimer (port : Fin 16)
  /-- TRANSMIT_START (R123): The MAC starts the frame of the highest ready class whose gate is open. -/
  | transmitStart (port : Fin 16) (crcOk : Bool)
  /-- PREEMPTION (R125): An express frame that becomes ready preempts a preemptable frame in transmission. -/
  | preemption (port : Fin 16) (len : Nat)
  /-- TRANSMIT_END (R128): A frame finishes transmission and the HBM cut-through run count advances. -/
  | transmitEnd (port : Fin 16)
  /-- HBM_UNDERRUN (R128): The transmit buffer empties during an HBM frame, which is ended with an inverted FCS. -/
  | hbmUnderrun (port : Fin 16)
  /-- EXPRESS_UNDERRUN (R129): An express-buffer frame underruns and is reported as a checker failure. -/
  | expressUnderrun (port : Fin 16)
  /-- PROFILE_APPLY (R150): A write of ACS.PCTL.APPLY puts a staged lookup profile in force or refuses it. -/
  | profileApply (pipe : Fin 4) (n : Fin 32)
  /-- ACS_WRITE (R160): ACS.CMD WRITE writes a staged entry into a bank. -/
  | acsWrite (w : Writer) (pipe : Fin 4) (bank : Fin 64) (index : Fin 2048)
  /-- ACS_INVALIDATE (R164): ACS.CMD INVALIDATE clears an entry's valid bit. -/
  | acsInvalidate (w : Writer) (pipe : Fin 4) (bank : Fin 64) (index : Fin 2048)
  /-- ACS_READ (R164): ACS.CMD READ copies an entry's shadow and action into staging. -/
  | acsRead (w : Writer) (pipe : Fin 4) (bank : Fin 64) (index : Fin 2048)
  /-- ACS_SEARCH (R164): ACS.CMD SEARCH searches a profile with the staged key and posts the first match. -/
  | acsSearch (w : Writer) (pipe : Fin 4) (profile : Fin 32) (f1 f2 : AcsFind)
  /-- ACS_NEXT (R164): ACS.CMD NEXT continues the writer's last search. -/
  | acsNext (w : Writer) (pipe : Fin 4) (f1 f2 : AcsFind)
  /-- ACS_SETWIDTH (R164): ACS.CMD SETWIDTH sets a bank's entry width. -/
  | acsSetwidth (w : Writer) (pipe : Fin 4) (bank : Fin 64) (width : Fin 4)
  /-- SCRUB (R163): The scrubber compares an entry with its shadow and repairs a difference. -/
  | scrub (pipe : Fin 4) (bank : Fin 64) (index : Fin 2048) (differs : Bool)
  /-- AREAS_READY (R170): The placed forwarding and connection areas finish clearing and FWD.CFG.READY sets. -/
  | areasReady
  /-- TABLE_DESCRIPTOR (R171): The control cores write a table descriptor, which is enabled or refused. -/
  | tableDescriptor (pipe : Fin 4) (t : Fin 16) (desc : TableDesc)
  /-- AGE_TICK (R179): The age tick advances every TICK ms of network time. -/
  | ageTick
  /-- MARKING_WRITE (R179): A posted hit marking reaches an entry and writes AGE or HIT. -/
  | markingWrite
  /-- SWEEP_VISIT (R180): The sweeper visits a bucket and ages or removes its entry. -/
  | sweepVisit (area : Fin 5) (bucket : Fin 16777216)
  /-- TABLE_DMA (R183): A table DMA command locks a bucket and writes masked words. -/
  | tableDma (area : Fin 5) (bucket : Fin 16777216) (data : BitVec 512) (mask : Byte) (cmpv : Option Bool)
  /-- LOCK_RELEASE (R183): The table DMA write completes and the bucket's lock is released. -/
  | lockRelease (area : Fin 5) (bucket : Fin 16777216)
  /-- LOCK_TIMEOUT (R184): A lock held for 2 µs is abandoned and the old entry written back. -/
  | lockTimeout (area : Fin 5) (bucket : Fin 16777216)
  /-- SETTLE_EXPIRY (R188): A pending-learn entry's settle window ends and its notification is posted. -/
  | settleExpiry (pipe : Fin 4) (n : Fin 256)
  /-- LEARN_NOTIFICATION (R190): The learning policy resolves a learn notification and writes the entry. -/
  | learnNotification (pipe : Fin 4)
  /-- DAMP_EXPIRY (R190): A damped entry reaches DAMPTIME and is invalidated. -/
  | dampExpiry (area : Fin 5) (bucket : Fin 16777216)
  /-- DISPATCH (R199): A pipeline dispatches one packet to the least-occupied eligible engine's IDLE context. -/
  | dispatch
  /-- REDISPATCH (R207): A packet of a failed engine restarts from its in-flight store on another engine. -/
  | redispatch (pipe : Fin 4)
  /-- COLLECTOR_ACCEPT (R210): The completion collector accepts eligible retirements into the scheduler and ring engines. -/
  | collectorAccept (inject : Option Injection) (seq : Option (Fin 4))
  /-- TEMPLATE_COMMIT (R217): TUN.TCMD commits a staged template whole, or it is refused. -/
  | templateCommit (n : Fin 16384)
  /-- HAND_OVER (R226): Host software hands a storage TCP connection's state to the transport unit. -/
  | handOver (fn : Fn) (conn : Option (Fin 16384)) (state : TcpState)
  /-- TCP_SEGMENT_RECEIVE (R227): The transport unit processes a segment of an offloaded connection. -/
  | tcpSegmentReceive (conn : Fin 16384)
  /-- DELAYED_ACK (R227): The 200 µs delayed-ACK timer expires and an ACK is sent. -/
  | delayedAck (conn : Fin 16384)
  /-- RETRANSMIT_TIMER (R227): A TCP retransmission timer expires and the segment is resent. -/
  | retransmitTimer (conn : Fin 16384)
  /-- QUEUE_PAIR_CREATE (R229): A RoCEv2 queue pair is created through the polder's mailbox. -/
  | queuePairCreate (fn : Fn) (req : QpReq)
  /-- ROCE_FRAME_RECEIVE (R229): The transport unit processes a received RoCEv2 frame. -/
  | roceFrameReceive (bytes read : List Byte)
  /-- ACK_TIMEOUT (R229): A queue pair's ACK timer expires and go-back-N retransmission runs. -/
  | ackTimeout (qpn : Fin 65536) (covered : Bool)
  /-- RDMA_WORK_REQUEST (R438): An RDMA work request is taken from a submission ring. -/
  | rdmaWorkRequest (ring : Fin 262144) (data : List Byte)
  /-- STORAGE_COMMAND (R230): The initiator builds and sends a capsule for an NVMe command. -/
  | storageCommand (ring : Fin 262144) (bufs : List (Nat × Nat)) (data : List Byte)
  /-- NVME_QUEUE_DOORBELL (R231): A host writes an NVMe queue doorbell of a personality VF. -/
  | nvmeQueueDoorbell (fn : Fn) (index : Fin 256) (value : BitVec 32) (cmds : List NvRead)
  /-- REMOTE_COMPLETION (R233): A remote target's completion returns and is posted to the host. -/
  | remoteCompletion
  /-- CC_EN_CLEAR (R236): CC.EN changes to 0 or the function is reset and the controller stops fetching. -/
  | ccEnClear (fn : Fn)
  /-- CC_SHN (R236): A shutdown by CC.SHN begins. -/
  | ccShn (fn : Fn) (shn : Fin 4)
  /-- SHUTDOWN_COMPLETE (R236): No command is outstanding or 500 ms pass, and CSTS.RDY reads 0 or SHST becomes 2h. -/
  | shutdownComplete (fn : Fn)
  /-- PERSONALITY_ASSIGN (R231): A PF assigns the NVMe personality and namespaces to a VF. -/
  | personalityAssign (pf : Pf) (vf : Fn) (namespaces : List NsReq)
  /-- CHUNK_BOUNDARY (R244): A cipher core at a chunk boundary takes the head of the highest-ordered queue. -/
  | chunkBoundary (core : Fin 32) (ecc : Ecc)
  /-- RETURN_LATE (R245): A return job not started within 256 KCLK is answered LATE. -/
  | returnLate
  /-- JOB_COMPLETE (R243): A cipher job finishes processing on its core. -/
  | jobComplete (core : Fin 32)
  /-- MERGE (R251): A completed onward job whose packet is accepted merges its output into the frame. -/
  | merge (job : Nat)
  /-- KAT_RUN (R270): A core repeats its known-answer tests and is withdrawn on failure. -/
  | katRun (core : Fin 32) (pass : Bool)
  /-- SESSION (R262): The key loader opens an ECDH transport session for a PF. -/
  | session (pf : Pf) (hostKey : List Byte) (reply : Word)
  /-- KEY_LOAD (R263): The key loader unwraps a blob into an EMPTY slot. -/
  | keyLoad (pf : Pf) (slot : Fin 131072) (blob : List Byte)
  /-- GENERATE (R261): The key loader fills an EMPTY slot with DRBG output. -/
  | generate (pf : Pf) (slot : Fin 131072) (attrs : List Byte)
  /-- EXPORT (R264): The key loader returns a slot wrapped under the root key. -/
  | keyExport (pf : Pf) (slot : Fin 131072) (reply : Word) (ecc : Ecc)
  /-- IMPORT (R264): The key loader loads an exported blob into an EMPTY slot. -/
  | keyImport (pf : Pf) (slot : Fin 131072) (blob : List Byte)
  /-- RETIRE (R258): An ACTIVE slot becomes RETIRING. -/
  | retire (pf : Pf) (slot : Fin 131072)
  /-- RETIRING_DRAIN (R258): The last accepted job of a RETIRING slot finishes and the slot is zeroed. -/
  | retiringDrain (slot : Fin 131072)
  /-- KEY_QUERY (R261): The key loader returns a slot's attributes, state and counter. -/
  | keyQuery (pf : Pf) (slot : Fin 131072) (reply : Word)
  /-- CERT (R262): The key loader returns the device identity certificate. -/
  | cert (pf : Pf) (reply : Word)
  /-- ROOTGEN (R272): The battery domain moves from UNINIT to ARMED with a fresh root key. -/
  | rootgen (pf : Pf)
  /-- TAMPER_ACK (R276): The battery domain moves from TAMPERED to UNINIT. -/
  | tamperAck (pf : Pf)
  /-- TAMPER_CFG (R261): BAT.TCFG is written unless locked. -/
  | tamperCfg (pf : Pf) (tcfg : BitVec 16)
  /-- SET_RTC (R261): BAT.RTC is set and RTCVALID set. -/
  | setRtc (pf : Pf) (rtc : BitVec 47)
  /-- ZEROISE_ALL (R273): Every slot and the root key are zeroised as a commanded alarm. -/
  | zeroiseAll (pf : Pf)
  /-- ENTROPY_TEST_FAIL (R268): An entropy health test fails and the source stops. -/
  | entropyTestFail
  /-- DRBG_RESEED (R269): A DRBG instance reaches its reseed limit and reseeds or stops. -/
  | drbgReseed (inst : Fin 14)
  /-- TAMPER_INPUT (R273): A tamper input holds its active level and an alarm is recognised. -/
  | tamperInput (inputs : BitVec 4)
  /-- MESH_MISMATCH (R273): A mesh sense input differs from the driven sequence and an alarm is recognised. -/
  | meshMismatch
  /-- ACLK_STOP (R273): The ACLK monitor finds ACLK stopped for 1 ms and an alarm is recognised. -/
  | aclkStop
  /-- BATTERY_LOSS (R272): VBAT falls below 2.0 V without main supplies and the domain is lost. -/
  | batteryLoss
  /-- BATLOW (R272): VBAT below 2.2 V with main supplies sets BATLOW. -/
  | batlow (low : Bool)
  /-- CLASS_BUFFER_REQUEST (R285): A scheduler slice selects a frame down the tree for a class buffer with a free place. -/
  | classBufferRequest (port : Fin 16) (cls : Fin 8)
  /-- REFILL (R288): At a refill boundary every shaper and policer gains its INC up to its burst. -/
  | refill
  /-- NODE_READ (R309): SCH.NCMD READ copies a node, policer or class shaper record into staging. -/
  | nodeRead (w : Writer) (lvl : Fin 8) (n : Fin 262144)
  /-- NODE_WRITE (R309): SCH.NCMD WRITE writes a record, checked against the committed sums. -/
  | nodeWrite (w : Writer) (lvl : Fin 8) (n : Fin 262144)
  /-- TIME_SET (R312): SLU.TCMD SET loads network time. -/
  | timeSet (pf : Pf)
  /-- TIME_STEP (R312): SLU.TCMD STEP adds a signed offset to network time. -/
  | timeStep (pf : Pf)
  /-- RATE_WRITE (R312): A write to SLU.TRATE changes the counter frequency, clamped if needed. -/
  | rateWrite (pf : Pf) (rate : BitVec 32)
  /-- TNOWLO_READ (R313): A read of SLU.TNOWLO returns nanoseconds and latches the seconds for the reading PF. -/
  | tnowloRead (pf : Pf)
  /-- PPS_OUT_END (R314): PPS_OUT falls after PPSW ms. -/
  | ppsOutEnd
  /-- PPS_IN (R314): A rising edge on PPS_IN latches network time into PPSCAP. -/
  | ppsIn
  /-- TXTSA_READ (R316): A read of SLU.TXTSA removes the oldest two-step entry. -/
  | txtsaRead (fn : Fn) (port : Fin 16)
  /-- GATE_CHANGE (R322): A list entry or cycle begins and the port's gate state changes. -/
  | gateChange (port : Fin 16)
  /-- BERM_START (R324): A berm begins before a closing and preemptable fragments end. -/
  | bermStart (port : Fin 16) (cls : Option (Fin 8)) (len : Nat)
  /-- SLUICE_CHANGE (R328): SLU.PCTL.CHANGE requests a new sluice list, accepted with a T0 or refused. -/
  | sluiceChange (port : Fin 16)
  /-- SLUICE_CANCEL (R330): SLU.PCTL.CANCEL withdraws a pending change or is refused too late. -/
  | sluiceCancel (port : Fin 16)
  /-- TAKE_OVER (R329): At T0 the new list takes over at its entry 0. -/
  | takeOver (port : Fin 16)
  /-- COPY_BACK_DONE (R330): The new operational list is copied back into the administrative bank. -/
  | copyBackDone (port : Fin 16)
  /-- SETUP (R347): The admission compiler compiles a set-up and commits or refuses it whole. -/
  | setup (fn : Fn) (reply : Word) (buffer : List Byte) (entries : List (List Nat))
  /-- ADM_QUERY (R336): The compiler returns a contract's committed record and stage bounds. -/
  | admQuery (fn : Fn) (contract : Fin 1048576) (reply : Word)
  /-- EPOCHQ (R336): The compiler returns the admission epoch in force and its activation time. -/
  | epochq (fn : Fn)
  /-- ACTIVATION_COMPLETE (R348): A committed set-up's activation completes and its contracts become ACTIVE. -/
  | activationComplete
  /-- REVALIDATION (R359): The control cores revalidate every ACTIVE contract after a change of capacity or timing. -/
  | revalidation
  /-- HEARTBEAT_SEND (R377): Every HBINT a path sends a heartbeat frame. -/
  | heartbeatSend (path : Fin 4)
  /-- HEARTBEAT_MISS (R379): No counting heartbeat for 3 × HBINT + 100 µs fails the path or sets PEERLOST. -/
  | heartbeatMiss (path : Fin 4)
  /-- RESYNC_END (R380): After RSYNC × HBINT in RESYNC the path becomes UP. -/
  | resyncEnd (path : Fin 4)
  /-- ILK_OUT_PERIOD (R385): ILK_OUT repeats its 200 µs period encoding the device's role. -/
  | ilkOutPeriod
  /-- ILK_IN_PULSE (R385): A high time on ILK_IN is classified as PROXY or STANDBY. -/
  | ilkInPulse (high : Nat)
  /-- ILK_IN_LOST (R385): No edge on ILK_IN for 1 ms reads the partner LOST on the cable. -/
  | ilkInLost
  /-- INBAND_LOST (R385): No partner heartbeat for 3 × HBINT + 100 µs reads the partner LOST in band. -/
  | inbandLost
  /-- ROLE_DECISION (R387): The interlock sets the device's role to PROXY, STANDBY or BLOCKED. -/
  | roleDecision
  /-- HOST_LINK_UP (R393): A host link finishes training at its rate and width. -/
  | hostLinkUp (l : Fin 2) (rate width : Nat) (flit cxl : Bool)
  /-- HOST_LINK_DOWN (R408): A host link goes down and a link reset follows. -/
  | hostLinkDown (l : Fin 2)
  /-- LINK_RESET (R408): PERST assertion, Hot Reset or Link Disable resets link n and its functions. -/
  | linkReset (l : Fin 2) (perst : Bool)
  /-- PERST_RELEASE (R411): PERST# is released and link training starts. -/
  | perstRelease (l : Fin 2)
  /-- CONFIG_REQUEST (R402): A configuration request is answered, with RRS during FLR or UR. -/
  | configRequest (fn : Fn) (req : CfgReq)
  /-- UR_REQUEST (R402): An I/O, AtomicOp, locked or unsupported request is answered with UR. -/
  | urRequest (fn : Fn)
  /-- EXPANSION_ROM_READ (R412): A read of the expansion ROM window returns image or directory content. -/
  | expansionRomRead (fn : Fn) (off : Fin 1048576) (len : Nat)
  /-- COMPLETION_ARRIVAL (R400): A completion for an outstanding read arrives in the completion buffer. -/
  | completionArrival (l : Fin 2) (tag : Fin 16384) (status : CplStatus) (f1 f2 : AcsFind) (ecc : FrameEcc)
  /-- COMPLETION_TIMEOUT (R401): A read times out and its unit takes its host read error action. -/
  | completionTimeout (l : Fin 2) (tag : Fin 16384)
  /-- TRANSLATION_COMPLETION (R404): An ATS translation answer arrives and the held access proceeds or fails. -/
  | translationCompletion (fn : Fn) (page : Nat) (answer : Option Nat)
  /-- ATS_INVALIDATION (R404): An ATS invalidation request is completed after requests using the translation. -/
  | atsInvalidation (fn : Fn) (page : Option Nat)
  /-- INITIATE_FLR (R409): An Initiate FLR write puts a function in FLR and silences its DMA. -/
  | initiateFlr (fn : Fn)
  /-- FLR_COMPLETE (R409): The FLR finishes returning the function's state and configuration answers resume. -/
  | flrComplete (fn : Fn)
  /-- D3HOT_ENTRY (R407): A function enters D3hot. -/
  | d3hotEntry (fn : Fn)
  /-- D0_RETURN (R407): A function returns to D0 keeping its state. -/
  | d0Return (fn : Fn)
  /-- VECTOR_UNMASK (R406): Unmasking an MSI-X vector with its pending bit set sends the message. -/
  | vectorUnmask (fn : Fn) (vec : Fin 2048)
  /-- CXL_SNOOP (R419): The host-line cache answers a CXL.cache snoop. -/
  | cxlSnoop (line : Nat) (kind : CxlSnoop)
  /-- GLOBAL_OBSERVATION (R420): A GO message arrives and a waiting completion write or interrupt is issued. -/
  | globalObservation (cpl : Option Nat) (ring : Fin 131072)
  /-- CACHE_ENABLE_CLEAR (R420): Clearing Cache Enable drops every held line. -/
  | cacheEnableClear
  /-- WRITE_BACK_INVALIDATE (R420): A DVSEC write-back-and-invalidate request drops every held line. -/
  | writeBackInvalidate
  /-- SUBMISSION_TAIL_DOORBELL (R430): A doorbell publishes a new submission ring tail. -/
  | submissionTailDoorbell (fn : Fn) (slot : Nat) (value : Word)
  /-- RECEIVE_TAIL_DOORBELL (R430): A doorbell publishes a new receive ring tail. -/
  | receiveTailDoorbell (fn : Fn) (slot : Nat) (value : Word)
  /-- COMPLETION_HEAD_DOORBELL (R430): A doorbell publishes a completion ring head and may arm its interrupt. -/
  | completionHeadDoorbell (fn : Fn) (slot : Nat) (value : Word)
  /-- CONTEXT_WRITE (R433): RNG.CCMD WRITE writes a staged ring context. -/
  | contextWrite (w : Writer) (kind : Fin 4) (ring : Fin 262144)
  /-- CONTEXT_ENABLE (R433): RNG.CCMD ENABLE puts a ring in service. -/
  | contextEnable (w : Writer) (kind : Fin 4) (ring : Fin 262144)
  /-- CONTEXT_DISABLE (R434): RNG.CCMD DISABLE stops a ring, which reads STOPPING. -/
  | contextDisable (w : Writer) (kind : Fin 4) (ring : Fin 262144)
  /-- CONTEXT_READ (R433): RNG.CCMD READ copies a ring context into staging. -/
  | contextRead (w : Writer) (kind : Fin 4) (ring : Fin 262144)
  /-- DISABLE_DONE (R434): A stopping ring writes its last completion and becomes DISABLED. -/
  | disableDone (kind : Fin 3) (ring : Fin 262144)
  /-- ENTRY_FETCH (R437): The ring engine fetches entries up to a phase wait. -/
  | entryFetch (kind : Fin 2) (ring : Fin 262144) (units : List (BitVec 128)) (ok : Bool)
  /-- DESCRIPTOR_START (R448): A free DMA channel takes the waiting descriptor of highest priority. -/
  | descriptorStart (g : Fin 4) (payload : List Byte)
  /-- DMA_BURST (R448): A DMA channel issues one request for its descriptor. -/
  | dmaBurst (g : Fin 4) (crcOk : Bool)
  /-- TRANSMIT_COMPLETION (R443): A transmit completion is written once the packet has left memory. -/
  | transmitCompletion
  /-- COMPLETION_WRITE (R441): A completion is written to its ring or held in overflow. -/
  | completionWrite
  /-- COALESCE_TIMER (R445): CUSEC expires on an armed completion ring and its vector is sent. -/
  | coalesceTimer (ring : Fin 131072)
  /-- ISOLATION_TIMER (R446): A completion ring full for ISOLMS isolates it and its rings. -/
  | isolationTimer (ring : Fin 131072)
  /-- CHANNEL_STOP (R449): DMA.CHCTL.STOP stops a channel at its descriptor boundary. -/
  | channelStop (g : Fin 4) (c : Fin 32)
  /-- CHANNEL_START (R455): DMA.CHCTL.START returns a stopped channel to service. -/
  | channelStart (g : Fin 4) (c : Fin 32)
  /-- SEND (R467): MBX.TXCMD SEND enqueues a message on a channel or is refused. -/
  | send (who : MailSender)
  /-- WITHDRAW (R469): MBX.TXCMD WITHDRAW removes a pending message. -/
  | withdraw (who : MailParty) (wseq : BitVec 16)
  /-- POP (R468): MBX.RXCMD POP picks up the oldest message and shows the next. -/
  | pop (who : MailParty)
  /-- SECURE_SEND (R472): MBX.STXCMD SEND enqueues a message to the key loader. -/
  | secureSend (pf : Pf)
  /-- SECURE_WITHDRAW (R472): MBX.STXCMD WITHDRAW removes a pending secure message. -/
  | secureWithdraw (pf : Pf) (wseq : BitVec 16)
  /-- SECURE_POP (R472): MBX.SRXCMD POP picks up a secure answer. -/
  | securePop (pf : Pf)
  /-- CONTROL_SERVICE_PICKUP (R470): The control service picks up a request when the answer channel has room. -/
  | controlServicePickup
  /-- GRANT (R459): A RESOURCES GRANT changes a polder's resource ranges. -/
  | grant (fn : Fn) (body : List Byte)
  /-- LIMITS (R462): A RESOURCES LIMITS sets a polder's peak rate, weight and contract limits. -/
  | limits (fn : Fn) (body : List Byte)
  /-- RESOURCES_QUERY (R460): A RESOURCES QUERY returns a polder record. -/
  | resourcesQuery (fn : Fn) (body : List Byte)
  /-- TABLES_REQUEST (R466): The control service serves a TABLES request for entries, templates or settings. -/
  | tablesRequest (pf : Pf) (req : TableReq) (accepted : Bool)
  /-- PAIR_CHECK (R479): The Dikewarden pairs check each other and signal the reaction block. -/
  | pairCheck (pair : Fin 2) (agree : Bool)
  /-- REACTION_DEADLINE (R479): Neither Dikewarden pair signals for 4 ACLK and the device-wide safe state applies. -/
  | reactionDeadline
  /-- LOCKSTEP_MISMATCH (R480): A control-core pair disagrees and is isolated, reset and self-tested. -/
  | lockstepMismatch (core : Fin 12)
  /-- MGT_LOCKSTEP_MISMATCH (R480): The management controller pair disagrees and restarts. -/
  | mgtLockstepMismatch
  /-- MGT_RESTART_DONE (R522): The management controller finishes restarting and resumes service. -/
  | mgtRestartDone
  /-- GATE_COMPARATOR (R480): The gate comparator recomputes a port's gate state every ell and places it safe on mismatch. -/
  | gateComparator (port : Fin 16) (equal : Bool)
  /-- CONTROL_HEARTBEAT_MISS (R480): A control core misses its heartbeat and is isolated. -/
  | controlHeartbeatMiss (core : Fin 12)
  /-- CLOCK_MONITOR (R480): A clock domain leaves its limits and its targets enter safe state. -/
  | clockMonitor (dom : Fin 14) (inRange : Bool)
  /-- SUPPLY_MONITOR (R553): A rail outside its operating range for 2 µs places the device in safe state. -/
  | supplyMonitor (rail : Fin 9) (inRange : Bool)
  /-- SUPPLY_NEAR_LIMIT (R553): A rail more than 2 % from nominal for 100 µs raises EVT 1.8. -/
  | supplyNearLimit (rail : Fin 9)
  /-- TEMPERATURE_SAMPLE (R558): Junction temperature is sampled against the warning and critical thresholds. -/
  | temperatureSample (sensor : Fin 16) (temp : Int)
  /-- THROTTLE_END (R559): Junction temperature below the end threshold for 10 ms ends throttling. -/
  | throttleEnd
  /-- HW_COPY_COMPARE (R490): Hardware copies are compared with the triple-store majority and rewritten on difference. -/
  | hwCopyCompare (kind : Fin 6) (inst : Nat) (found : Option (List Nat))
  /-- OBJECT_SCAN (R489): Every triple-store object is read and its copies compared, repaired or restored. -/
  | objectScan (kind : Fin 6) (inst : Nat) (a b c : Copy)
  /-- PSCLR (R484): DKW.PSCLR ends ports' safe states if their causes are clear. -/
  | psclr (pf : Pf) (ports : BitVec 16)
  /-- POLCLR (R484): DKW.POLCLR ends a polder's safe state if its cause is clear. -/
  | polclr (pf : Pf) (polder : Fn)
  /-- FCLR_DEVICE (R484): DKW.FCLR.DEVICE ends the device-wide safe state if permitted. -/
  | fclrDevice (pf : Pf)
  /-- FCLR_RELEASE (R485): DKW.FCLR.RELEASE releases FAULT_N when no safe state or cause remains. -/
  | fclrRelease (pf : Pf)
  /-- INJECT (R499): DKW.INJECT injects a test fault into a safety mechanism. -/
  | inject (pf : Pf) (sm : Fin 32) (inst : Nat)
  /-- MASK_WRITE (R495): Setting an EVT.MASK bit over a set PEND bit sends the group's vector. -/
  | maskWrite (pf : Pf) (group : Fin 16) (value : BitVec 32)
  /-- RECA_READ (R496): A read of EVT.RECA removes the oldest event record. -/
  | recaRead (pf : Pf)
  /-- RANDCC_READ (R279): A read of CIP.RANDCC returns fresh control-core DRBG output. -/
  | randccRead (pf : Pf)
  /-- POWER_ON_RELEASE (R504): The internal power-on release starts a cold start. -/
  | powerOnRelease
  /-- READY_BIT_SET (R500): A function passes its self-test with its dependencies ready and its TOP.READY bit sets. -/
  | readyBitSet (bit : Fin 40) (cores : BitVec 32)
  /-- SELF_TEST_FAIL (R503): A function fails its self-test and its TOP.FAILED bit sets. -/
  | selfTestFail (bit : Fin 40) (sms : BitVec 16)
  /-- TOP_RESET_WARM (R505): A write of A5h to TOP.RESET.WARM by PF 0 starts a warm reset. -/
  | topResetWarm (pf : Pf)
  /-- WRST_N (R505): WRST_N held low for 10 µs starts a warm reset. -/
  | wrstN
  /-- WARM_RESET_COMPLETE (R506): Every present host-link bit has set again and the warm reset completes. -/
  | warmResetComplete
  /-- REFERENCE_EXCURSION (R518): A reference input stops or leaves ±200 ppm and EVT 1.2 is raised. -/
  | referenceExcursion (input : Fin 4)
  /-- FREQUENCY_MEASURE (R520): Every 1 ms each clock's frequency is measured into CLK.FREQ. -/
  | frequencyMeasure (freqs : List (BitVec 32)) (refs : BitVec 4)
  /-- CAL_COMMIT (R516): CAL.CTL.COMMIT locks the monitor trims. -/
  | calCommit (pf : Pf)
  /-- CAL_COMMIT_TIMEOUT (R516): No trim commit 250 ms after start locks the trims at zero. -/
  | calCommitTimeout
  /-- NCSI_COMMAND (R523): An NC-SI command from the board's controller is served or refused. -/
  | ncsiCommand (channel : Fin 32) (req : NcsiReq)
  /-- NCSI_PASSTHROUGH (R524): A frame from the board's controller enters its NC-SI queue. -/
  | ncsiPassthrough (channel : Fin 16) (frame : List Byte)
  /-- SIDEBAND_LOST (R524): The RBT clock stops for 1 ms or SMB_SCL is low for 25 ms. -/
  | sidebandLost
  /-- MCTP_MESSAGE (R523): An MCTP message over SMBus or VDM reaches the management controller. -/
  | mctpMessage (via : Via) (req : MctpReq)
  /-- PLDM_REQUEST (R523): A PLDM base or monitoring request is answered. -/
  | pldmRequest (via : Via) (req : PldmReq)
  /-- VENDOR_WARM_RESET (R523): Vendor request 01h starts a warm reset. -/
  | vendorWarmReset (via : Via)
  /-- VENDOR_SNAPSHOT_REQUEST (R523): Vendor request 02h requests a telemetry snapshot. -/
  | vendorSnapshotRequest (via : Via) (readings : Readings)
  /-- VENDOR_SNAPSHOT_READ (R523): Vendor request 03h reads a snapshot in 48-byte blocks. -/
  | vendorSnapshotRead (via : Via) (set : Fin 2) (block : Nat)
  /-- SNAPREQ (R525): A write of MGT.SNAPREQ.REQ requests a snapshot. -/
  | snapreq (pf : Pf) (readings : Readings)
  /-- SNAPSHOT_PERIOD (R525): The telemetry period expires and a snapshot is requested. -/
  | snapshotPeriod (readings : Readings)
  /-- SHARE_WINDOW (R527): A 1 ms control-core window ends and shares are judged met or missed. -/
  | shareWindow (mbox learn exc : ShareUse) (busy : Fin 101)
  /-- REQUEST_UPDATE (R538): A PLDM RequestUpdate starts a flash update or is refused. -/
  | requestUpdate (via : Via) (components : Nat)
  /-- VERIFY_COMPLETE (R538): The received image is checked and accepted or refused. -/
  | verifyComplete (image : FwReceived)
  /-- APPLY_COMPLETE (R538): The image has been written and read back into the inactive slot. -/
  | applyComplete (ok : Bool)
  /-- ACTIVATE_FIRMWARE (R538): A self-contained ActivateFirmware causes a warm reset. -/
  | activateFirmware (via : Via) (selfContained : Bool)
  /-- OTP_PROG (R539): MGT.OTPCMD.PROG programs the staged board settings into user OTP once. -/
  | otpProg (pf : Pf)
  /-- BUS_STUCK (R533): SDA stays low at idle and the controller clocks SCL or resets the multiplexers. -/
  | busStuck (seg : Fin 32) (line : SdaLine)
  /-- MODULE_BUS_PROBE (R534): On leaving reset the controller probes each configured segment. -/
  | moduleBusProbe (trunkLow : Bool) (lines : List SdaLine)
  /-- MBS_RETRY (R533): MBS.CTL.RETRY returns a stuck trunk to service after recovery. -/
  | mbsRetry (pf : Pf) (trunkLow : Bool)
  /-- SEGMENT_RETRY (R534): MBS.SEGCTL.RETRY runs recovery on one open segment. -/
  | segmentRetry (pf : Pf) (seg : Fin 32) (line : SdaLine)
  /-- PRESENCE_CHANGE (R536): A presence ball changes and the cage's latch bit sets. -/
  | presenceChange (cage : Fin 16) (present : Bool)
  /-- PRESENCE_SCAN (R536): A scan starts by timer or MBS.CTL.SCAN and reads and clears the latch. -/
  | presenceScan (pf : Option Pf)
  /-- SCAN_SETTLE (R536): After 10 ms the scan reads the latch again and reports or rescans. -/
  | scanSettle
  /-- MODULE_POLL (R535): Every 1 s the controller polls a module's flags and monitors. -/
  | modulePoll (cage : Fin 16) (answer : ModuleAnswer)
  /-- POWER_DOWN (R554): The main supplies are removed: all device state except the battery domain is lost, the key store is lost, ILK_OUT and FAULT_N are no longer driven, and the battery domain runs on VBAT. -/
  | powerDown
  /-- VBAT_APPLICATION (R272): VBAT is applied to a battery domain that has none, which starts the domain in UNINIT and its RTC and tamper monitoring. -/
  | vbatApplication
  /-- RNR_TIMER (R229): The RNR retry timer of a queue pair that received an RNR NAK expires and the request is sent again, or the queue pair goes to error once the RNR retry count is exhausted. -/
  | rnrTimer (qpn : Fin 65536)
  /-- CONTROLLER_ENABLE (R231): A host sets CC.EN of a personality VF's NVMe controller to 1 and the controller starts serving its admin queue and reports CSTS.RDY. -/
  | controllerEnable (fn : Fn)
  /-- CONTROL_CORE_RETURN (R480): A control core isolated by SM 1 or SM 11 finishes its reset and self-test and returns to service, or stays out if it fails. -/
  | controlCoreReturn (core : Fin 12) (pass : Bool)
  deriving DecidableEq, Repr

end Sys2Proof
end

