-- ==== Sys2Proof/Decode.lean ====
section
/-! DEFINITION. The decoder over the rows of the opcode table. The table gives no row of the HQ-1604 any bits (every
row's list of fields is empty): a command reaches the device as an access, a frame, a pin or an issue slot, not as a
word. So no word spells a command. -/

namespace Sys2Proof

/-- The command that `w` spells in `nbits` bits of the opcode table: none, as no row has bits. -/
def decodeTableWord (_nbits _w : Nat) : Option Instr := none

end Sys2Proof
end

