-- ==== Sys2Proof/Config.lean ====
section
/-! DEFINITION. What one part or its surroundings fix and the spec does not state, each an opaque constant: no proof
can see its value. Each names its entry of the assumption log. -/

namespace Sys2Proof.Config

/-- The factory OTP value of instance `i` of register field `id` (00_scope R17, entry OTP). Log entry 1. -/
opaque otp (id i : Nat) : Nat

/-- The free values: whatever the spec leaves open draws the next one (log entry 5). -/
opaque freeWord (n : Nat) : Word

/-- The hash of the factory key of index 0 in OTP (04 R92). Log entry 1. -/
opaque factoryKeyHash : Nat

/-- The device's identity key, a scalar of P-384 (10 R262). Log entry 1. -/
opaque identityKey : Nat

/-- The mask that a mask generator draws for a job: the generator, how often it was seeded, the job since (10 R267). Log entry 5. -/
opaque mask (gen seeds job : Nat) : Nat

/-- The device identity certificate (10 R262). Log entry 1. -/
opaque certificate : List Byte

/-- The UEFI images of a flash image set, by its content: the machine type and the bytes that follow the header of each (15 R412). Log
entry 34. -/
opaque uefiImages (content : Nat) : List (Nat × List Byte)

/-- The set of its L2 slice that a line falls into, modulo 2,048 (02 R31), which the spec does not state. Log entry 13. -/
opaque l2Set (line : Nat) : Nat

end Sys2Proof.Config
end

