-- ==== Sys2Proof/Machine/RegMap.lean ====
section
/-! DEFINITION. The register map of the HQ-1604: every field of every register table of the spec, with its place in
the BAR0 window of a physical function (23_register_index R564), its bits, its access code (00_scope R12) and its three
reset columns (R17). A register field has one home: the entry `key f i` of `Dev.regs`. -/

namespace Sys2Proof.Machine

/-- The access codes of R12. -/
inductive Acc where
  | ro | rw | rw1c | rw1s | rc | rp | wo | rwl
  deriving DecidableEq, Repr

/-- An entry of a reset column (R17): a value, `—`, OTP, OTP with bits that always read set (04 R111), the effective value of a
factory value and no user offset (19 R513: the factory field and the effective range), BAT, or a value that the named rule gives in
words. -/
inductive RV where
  | val (n : Nat) | keep | otp | otpSet (bits : Nat) | fact (factory lo hi : Nat) | bat | special
  deriving DecidableEq, Repr

/-- Which accesses share one copy of a register (R565): all, one copy per physical function, one per function. -/
inductive ViewKind where
  | shared | perPf | perFn
  deriving DecidableEq, Repr

/-- One field of one register, or of an array of registers. -/
structure Fld where
  /-- number of the field in this map -/
  id   : Nat
  /-- BAR0 offset of the first register of the array -/
  off  : Nat
  /-- for each index of the array, outermost first: how many there are, and the bytes from one to the next -/
  dims : List (Nat × Nat)
  /-- lowest bit of the field -/
  lo   : Nat
  /-- width of the field -/
  w    : Nat
  acc  : Acc
  cold : RV
  warm : RV
  flr  : RV
  view : ViewKind
  deriving DecidableEq, Repr

/-- How many registers the array of a field has. -/
def Fld.count (f : Fld) : Nat := (f.dims.map (fun d => d.1)).prod

/-- The number of views a register has (R565). -/
def ViewKind.copies : ViewKind → Nat
  | .shared => 1
  | .perPf => 2
  | .perFn => 8192

/-- The flat index that an offset into the array spells, with the bytes left over: outermost index first. -/
def flatIndex : List (Nat × Nat) → Nat → Nat → Option Nat
  | [], acc, 0 => some acc
  | [], _, _ + 1 => none
  | (n, stride) :: ds, acc, off =>
    if off / stride < n then flatIndex ds (acc * n + off / stride) (off % stride) else none

/-- The register of the array that stands at a BAR0 offset, if one does. -/
def Fld.indexAt (f : Fld) (off : Nat) : Option Nat :=
  if off < f.off then none else flatIndex f.dims 0 (off - f.off)

/-- The key of instance `i` of a field in the register store. -/
def Fld.key (f : Fld) (i : Nat) : Nat := f.id + 1024 * i

/-- The value instance `i` of a field has after the cold reset (R17, column Cold). OTP: log entry 1. BAT: log entry 2.
`special` columns are those of DUP.PAIR (R391: pair A 0h and 4h, pair B 8h and Ch). -/
def Fld.coldValue (f : Fld) (i : Nat) : Nat :=
  match f.cold with
  | .val n => n
  | .otp => Config.otp f.id i % 2 ^ f.w
  | .otpSet b => Config.otp f.id i % 2 ^ f.w ||| b
  | .fact x lo hi => max lo (min (Config.otp x i % 2 ^ f.w) hi)
  | .special => if f.lo = 0 then 8 * i else 8 * i + 4
  | .keep => 0
  | .bat => 0


/-! The ENG registers: rule R56 of 02_engines.md. -/

/-- ENG.CFG.COMMIT [0:0] -/
def ENG.CFG_COMMIT : Fld := ⟨0, 0x3400000, [], 0, 1, .wo, .val 0x0, .val 0x0, .keep, .shared⟩
/-- ENG.CFG.STALL_LIM [15:8] -/
def ENG.CFG_STALL_LIM : Fld := ⟨1, 0x3400000, [], 8, 8, .rw, .val 0x10, .val 0x10, .keep, .shared⟩
/-- ENG.CFG.MAXCTX [18:16] -/
def ENG.CFG_MAXCTX : Fld := ⟨2, 0x3400000, [], 16, 3, .rw, .val 0x1, .val 0x1, .keep, .shared⟩
/-- ENG.COH_BASE.BASE [34:30] -/
def ENG.COH_BASE_BASE : Fld := ⟨3, 0x3400008, [], 30, 5, .rwl, .val 0x0, .val 0x0, .keep, .shared⟩
/-- ENG.COH_SIZE.SIZE [3:0] -/
def ENG.COH_SIZE_SIZE : Fld := ⟨4, 0x3400010, [], 0, 4, .rwl, .val 0x0, .val 0x0, .keep, .shared⟩
/-- ENG.COH_SIZE.ATOM [24:16] -/
def ENG.COH_SIZE_ATOM : Fld := ⟨5, 0x3400010, [], 16, 9, .rwl, .val 0x0, .val 0x0, .keep, .shared⟩
/-- ENG.STATUS.COMMITTED [0:0] -/
def ENG.STATUS_COMMITTED : Fld := ⟨6, 0x3400018, [], 0, 1, .ro, .val 0x0, .val 0x0, .keep, .shared⟩
/-- ENG.STATUS.CERR [1:1] -/
def ENG.STATUS_CERR : Fld := ⟨7, 0x3400018, [], 1, 1, .ro, .val 0x0, .val 0x0, .keep, .shared⟩
/-- ENG.TASK_RACE.COUNT [31:0] -/
def ENG.TASK_RACE_COUNT : Fld := ⟨8, 0x3400020, [], 0, 32, .rc, .val 0x0, .val 0x0, .keep, .shared⟩
/-- ENG.TASK_FULL.COUNT [31:0] -/
def ENG.TASK_FULL_COUNT : Fld := ⟨9, 0x3400028, [], 0, 32, .rc, .val 0x0, .val 0x0, .keep, .shared⟩
/-- ENG.FAILED0.MAP [63:0] -/
def ENG.FAILED0_MAP : Fld := ⟨10, 0x3400030, [], 0, 64, .ro, .val 0x0, .val 0x0, .keep, .shared⟩
/-- ENG.FAILED1.MAP [63:0] -/
def ENG.FAILED1_MAP : Fld := ⟨11, 0x3400038, [], 0, 64, .ro, .val 0x0, .val 0x0, .keep, .shared⟩
/-- ENG.FAILED2.MAP [63:0] -/
def ENG.FAILED2_MAP : Fld := ⟨12, 0x3400040, [], 0, 64, .ro, .val 0x0, .val 0x0, .keep, .shared⟩
/-- ENG.L1ERR.CE [31:0] -/
def ENG.L1ERR_CE : Fld := ⟨13, 0x3400048, [], 0, 32, .rc, .val 0x0, .val 0x0, .keep, .shared⟩
/-- ENG.L1ERR.UE [63:32] -/
def ENG.L1ERR_UE : Fld := ⟨14, 0x3400048, [], 32, 32, .rc, .val 0x0, .val 0x0, .keep, .shared⟩
/-- ENG.ESTAT.STATE [2:0] -/
def ENG.ESTAT_STATE : Fld := ⟨15, 0x3400100, [(192, 0x8)], 0, 3, .ro, .val 0x0, .val 0x0, .keep, .shared⟩
/-- ENG.ESTAT.CAUSE [6:4] -/
def ENG.ESTAT_CAUSE : Fld := ⟨16, 0x3400100, [(192, 0x8)], 4, 3, .ro, .val 0x0, .val 0x0, .keep, .shared⟩
/-- ENG.ESTAT.CTXBUSY [15:8] -/
def ENG.ESTAT_CTXBUSY : Fld := ⟨17, 0x3400100, [(192, 0x8)], 8, 8, .ro, .val 0x0, .val 0x0, .keep, .shared⟩
/-- ENG.ESTAT.TASKCTX [23:16] -/
def ENG.ESTAT_TASKCTX : Fld := ⟨18, 0x3400100, [(192, 0x8)], 16, 8, .ro, .val 0x0, .val 0x0, .keep, .shared⟩
/-- ENG.ECTL.RETEST [0:0] -/
def ENG.ECTL_RETEST : Fld := ⟨19, 0x3400800, [(192, 0x8)], 0, 1, .wo, .val 0x0, .val 0x0, .keep, .shared⟩
/-- ENG.ECTL.WITHDRAW [1:1] -/
def ENG.ECTL_WITHDRAW : Fld := ⟨20, 0x3400800, [(192, 0x8)], 1, 1, .wo, .val 0x0, .val 0x0, .keep, .shared⟩
/-- ENG.ECTL.ONLINE [2:2] -/
def ENG.ECTL_ONLINE : Fld := ⟨21, 0x3400800, [(192, 0x8)], 2, 1, .wo, .val 0x0, .val 0x0, .keep, .shared⟩
/-- ENG.BSTAT.STORE_OK [0:0] -/
def ENG.BSTAT_STORE_OK : Fld := ⟨22, 0x3401000, [(12, 0x8)], 0, 1, .ro, .val 0x0, .val 0x0, .keep, .shared⟩
/-- ENG.BSTAT.RELOAD [1:1] -/
def ENG.BSTAT_RELOAD : Fld := ⟨23, 0x3401000, [(12, 0x8)], 1, 1, .ro, .val 0x0, .val 0x0, .keep, .shared⟩
/-- ENG.BSTAT.TASKS [28:16] -/
def ENG.BSTAT_TASKS : Fld := ⟨24, 0x3401000, [(12, 0x8)], 16, 13, .ro, .val 0x0, .val 0x0, .keep, .shared⟩
/-- ENG.L2ERR.CE [15:0] -/
def ENG.L2ERR_CE : Fld := ⟨25, 0x3401100, [(24, 0x8)], 0, 16, .rc, .val 0x0, .val 0x0, .keep, .shared⟩
/-- ENG.L2ERR.UE [31:16] -/
def ENG.L2ERR_UE : Fld := ⟨26, 0x3401100, [(24, 0x8)], 16, 16, .rc, .val 0x0, .val 0x0, .keep, .shared⟩
/-- ENG.L2ERR.POISONED [47:32] -/
def ENG.L2ERR_POISONED : Fld := ⟨27, 0x3401100, [(24, 0x8)], 32, 16, .ro, .val 0x0, .val 0x0, .keep, .shared⟩

/-! The PGM registers: rule R111 of 04_program_verification.md. -/

/-- PGM.STATUS.READY [0:0] -/
def PGM.STATUS_READY : Fld := ⟨28, 0x3800000, [], 0, 1, .ro, .val 0x0, .val 0x0, .keep, .shared⟩
/-- PGM.STATUS.FREE [48:32] -/
def PGM.STATUS_FREE : Fld := ⟨29, 0x3800000, [], 32, 17, .ro, .val 0x10000, .val 0x10000, .keep, .shared⟩
/-- PGM.STATUS.LARGEST [16:0] -/
def PGM.STATUS_LARGEST : Fld := ⟨30, 0x3800000, [], 0, 17, .ro, .val 0x10000, .val 0x10000, .keep, .shared⟩
/-- PGM.EPOCH.EPOCH [31:0] -/
def PGM.EPOCH_EPOCH : Fld := ⟨31, 0x3800008, [], 0, 32, .ro, .val 0x0, .val 0x0, .keep, .shared⟩
/-- PGM.KEYSTAT.ENROLLED [3:0] -/
def PGM.KEYSTAT_ENROLLED : Fld := ⟨32, 0x3800010, [], 0, 4, .ro, (.otpSet 1), (.otpSet 1), .keep, .shared⟩
/-- PGM.KEYSTAT.REVOKED [11:8] -/
def PGM.KEYSTAT_REVOKED : Fld := ⟨33, 0x3800010, [], 8, 4, .ro, .otp, .otp, .keep, .shared⟩
/-- PGM.REFUSED.COUNT [31:0] -/
def PGM.REFUSED_COUNT : Fld := ⟨34, 0x3800018, [], 0, 32, .rc, .val 0x0, .val 0x0, .keep, .shared⟩
/-- PGM.LAST.CODE [7:0] -/
def PGM.LAST_CODE : Fld := ⟨35, 0x3800020, [], 0, 8, .ro, .val 0x0, .val 0x0, .keep, .shared⟩
/-- PGM.LAST.WORD [25:8] -/
def PGM.LAST_WORD : Fld := ⟨36, 0x3800020, [], 8, 18, .ro, .val 0x0, .val 0x0, .keep, .shared⟩
/-- PGM.LAST.HANDLE [39:32] -/
def PGM.LAST_HANDLE : Fld := ⟨37, 0x3800020, [], 32, 8, .ro, .val 0x0, .val 0x0, .keep, .shared⟩
/-- PGM.NOSLOT.COUNT [31:0] -/
def PGM.NOSLOT_COUNT : Fld := ⟨38, 0x3800028, [], 0, 32, .rc, .val 0x0, .val 0x0, .keep, .shared⟩
/-- PGM.CNTSEL.KIND [1:0] -/
def PGM.CNTSEL_KIND : Fld := ⟨39, 0x3800030, [], 0, 2, .rw, .val 0x0, .val 0x0, .keep, .perPf⟩
/-- PGM.CNTSEL.INDEX [35:16] -/
def PGM.CNTSEL_INDEX : Fld := ⟨40, 0x3800030, [], 16, 20, .rw, .val 0x0, .val 0x0, .keep, .perPf⟩
/-- PGM.CNTSEL.VALID [63:63] -/
def PGM.CNTSEL_VALID : Fld := ⟨41, 0x3800030, [], 63, 1, .ro, .val 0x0, .val 0x0, .keep, .perPf⟩
/-- PGM.CNTA.VALUE [63:0] -/
def PGM.CNTA_VALUE : Fld := ⟨42, 0x3800038, [], 0, 64, .ro, .val 0x0, .val 0x0, .keep, .perPf⟩
/-- PGM.CNTB.VALUE [63:0] -/
def PGM.CNTB_VALUE : Fld := ⟨43, 0x3800040, [], 0, 64, .ro, .val 0x0, .val 0x0, .keep, .perPf⟩
/-- PGM.CNTCLR.CLR [0:0] -/
def PGM.CNTCLR_CLR : Fld := ⟨44, 0x3800048, [], 0, 1, .wo, .val 0x0, .val 0x0, .keep, .shared⟩
/-- PGM.COPYDROP.COUNT [31:0] -/
def PGM.COPYDROP_COUNT : Fld := ⟨45, 0x3800050, [], 0, 32, .rc, .val 0x0, .val 0x0, .keep, .shared⟩
/-- PGM.FBDROP.COUNT [31:0] -/
def PGM.FBDROP_COUNT : Fld := ⟨46, 0x3800058, [], 0, 32, .rc, .val 0x0, .val 0x0, .keep, .shared⟩
/-- PGM.SLOT.VALID [0:0] -/
def PGM.SLOT_VALID : Fld := ⟨47, 0x3800100, [(256, 0x8)], 0, 1, .ro, .val 0x0, .val 0x0, .keep, .shared⟩
/-- PGM.SLOT.FAULT [2:1] -/
def PGM.SLOT_FAULT : Fld := ⟨48, 0x3800100, [(256, 0x8)], 1, 2, .ro, .val 0x0, .val 0x0, .keep, .shared⟩
/-- PGM.SLOT.SCOPE [4:3] -/
def PGM.SLOT_SCOPE : Fld := ⟨49, 0x3800100, [(256, 0x8)], 3, 2, .ro, .val 0x0, .val 0x0, .keep, .shared⟩
/-- PGM.SLOT.OWNER [5:5] -/
def PGM.SLOT_OWNER : Fld := ⟨50, 0x3800100, [(256, 0x8)], 5, 1, .ro, .val 0x0, .val 0x0, .keep, .shared⟩
/-- PGM.SLOT.HANDLE [15:8] -/
def PGM.SLOT_HANDLE : Fld := ⟨51, 0x3800100, [(256, 0x8)], 8, 8, .ro, .val 0x0, .val 0x0, .keep, .shared⟩
/-- PGM.SLOT.EPOCH [63:32] -/
def PGM.SLOT_EPOCH : Fld := ⟨52, 0x3800100, [(256, 0x8)], 32, 32, .ro, .val 0x0, .val 0x0, .keep, .shared⟩
/-- PGM.IMGA.STATE [1:0] -/
def PGM.IMGA_STATE : Fld := ⟨53, 0x3801000, [(256, 0x10)], 0, 2, .ro, .val 0x0, .val 0x0, .keep, .shared⟩
/-- PGM.IMGA.WORDS [24:8] -/
def PGM.IMGA_WORDS : Fld := ⟨54, 0x3801000, [(256, 0x10)], 8, 17, .ro, .val 0x0, .val 0x0, .keep, .shared⟩
/-- PGM.IMGA.BASE [56:40] -/
def PGM.IMGA_BASE : Fld := ⟨55, 0x3801000, [(256, 0x10)], 40, 17, .ro, .val 0x0, .val 0x0, .keep, .shared⟩
/-- PGM.IMGB.BOUND [16:0] -/
def PGM.IMGB_BOUND : Fld := ⟨56, 0x3801008, [(256, 0x10)], 0, 17, .ro, .val 0x0, .val 0x0, .keep, .shared⟩
/-- PGM.IMGB.ISSUE [48:32] -/
def PGM.IMGB_ISSUE : Fld := ⟨57, 0x3801008, [(256, 0x10)], 32, 17, .ro, .val 0x0, .val 0x0, .keep, .shared⟩
/-- PGM.IMGB.KEYIDX [57:56] -/
def PGM.IMGB_KEYIDX : Fld := ⟨58, 0x3801008, [(256, 0x10)], 56, 2, .ro, .val 0x0, .val 0x0, .keep, .shared⟩

/-! The PRT registers: rule R137 of 05_ports_mac.md. -/

/-- PRT.CTL.EN [0:0] -/
def PRT.CTL_EN : Fld := ⟨59, 0x1000000, [(16, 0x10000)], 0, 1, .rw, .val 0x0, .val 0x0, .keep, .shared⟩
/-- PRT.CTL.DOWNACT [1:1] -/
def PRT.CTL_DOWNACT : Fld := ⟨60, 0x1000000, [(16, 0x10000)], 1, 1, .rw, .val 0x0, .val 0x0, .keep, .shared⟩
/-- PRT.CTL.LT [2:2] -/
def PRT.CTL_LT : Fld := ⟨61, 0x1000000, [(16, 0x10000)], 2, 1, .rw, .val 0x0, .val 0x0, .keep, .shared⟩
/-- PRT.CTL.LOOP [5:4] -/
def PRT.CTL_LOOP : Fld := ⟨62, 0x1000000, [(16, 0x10000)], 4, 2, .rw, .val 0x0, .val 0x0, .keep, .shared⟩
/-- PRT.MODE.GMODE [2:0] -/
def PRT.MODE_GMODE : Fld := ⟨63, 0x1000008, [(16, 0x10000)], 0, 3, .rw, .val 0x0, .val 0x0, .keep, .shared⟩
/-- PRT.MODE.APPLY [8:8] -/
def PRT.MODE_APPLY : Fld := ⟨64, 0x1000008, [(16, 0x10000)], 8, 1, .wo, .val 0x0, .val 0x0, .keep, .shared⟩
/-- PRT.MODE.STATE [17:16] -/
def PRT.MODE_STATE : Fld := ⟨65, 0x1000008, [(16, 0x10000)], 16, 2, .ro, .val 0x0, .val 0x0, .keep, .shared⟩
/-- PRT.STATUS.LINK [0:0] -/
def PRT.STATUS_LINK : Fld := ⟨66, 0x1000010, [(16, 0x10000)], 0, 1, .ro, .val 0x0, .val 0x0, .keep, .shared⟩
/-- PRT.STATUS.ALIGN [1:1] -/
def PRT.STATUS_ALIGN : Fld := ⟨67, 0x1000010, [(16, 0x10000)], 1, 1, .ro, .val 0x0, .val 0x0, .keep, .shared⟩
/-- PRT.STATUS.FECHI [2:2] -/
def PRT.STATUS_FECHI : Fld := ⟨68, 0x1000010, [(16, 0x10000)], 2, 1, .ro, .val 0x0, .val 0x0, .keep, .shared⟩
/-- PRT.STATUS.SPEED [6:4] -/
def PRT.STATUS_SPEED : Fld := ⟨69, 0x1000010, [(16, 0x10000)], 4, 3, .ro, .val 0x0, .val 0x0, .keep, .shared⟩
/-- PRT.STATUS.PVERIFY [9:8] -/
def PRT.STATUS_PVERIFY : Fld := ⟨70, 0x1000010, [(16, 0x10000)], 8, 2, .ro, .val 0x0, .val 0x0, .keep, .shared⟩
/-- PRT.MAXLEN.LEN [13:0] -/
def PRT.MAXLEN_LEN : Fld := ⟨71, 0x1000018, [(16, 0x10000)], 0, 14, .rw, .val 0x5f2, .val 0x5f2, .keep, .shared⟩
/-- PRT.TXCT.BASE [13:0] -/
def PRT.TXCT_BASE : Fld := ⟨72, 0x1000020, [(16, 0x10000)], 0, 14, .rw, .val 0x200, .val 0x200, .keep, .shared⟩
/-- PRT.TXCT.CUR [29:16] -/
def PRT.TXCT_CUR : Fld := ⟨73, 0x1000020, [(16, 0x10000)], 16, 14, .ro, .val 0x200, .val 0x200, .keep, .shared⟩
/-- PRT.TXCT.EXPTHR [45:32] -/
def PRT.TXCT_EXPTHR : Fld := ⟨74, 0x1000020, [(16, 0x10000)], 32, 14, .rw, .val 0x100, .val 0x100, .keep, .shared⟩
/-- PRT.PREEMPT.PMASK [7:0] -/
def PRT.PREEMPT_PMASK : Fld := ⟨75, 0x1000028, [(16, 0x10000)], 0, 8, .rw, .val 0x0, .val 0x0, .keep, .shared⟩
/-- PRT.PREEMPT.ADDFRAG [9:8] -/
def PRT.PREEMPT_ADDFRAG : Fld := ⟨76, 0x1000028, [(16, 0x10000)], 8, 2, .rw, .val 0x0, .val 0x0, .keep, .shared⟩
/-- PRT.PREEMPT.VERIFY [12:12] -/
def PRT.PREEMPT_VERIFY : Fld := ⟨77, 0x1000028, [(16, 0x10000)], 12, 1, .rw, .val 0x1, .val 0x1, .keep, .shared⟩
/-- PRT.PREEMPT.VTIME [22:16] -/
def PRT.PREEMPT_VTIME : Fld := ⟨78, 0x1000028, [(16, 0x10000)], 16, 7, .rw, .val 0xa, .val 0xa, .keep, .shared⟩
/-- PRT.FECTHR.SYMTHR [31:0] -/
def PRT.FECTHR_SYMTHR : Fld := ⟨79, 0x1000030, [(16, 0x10000)], 0, 32, .rw, .val 0x0, .val 0x0, .keep, .shared⟩
/-- PRT.TSLAT.RXEFF [31:0] -/
def PRT.TSLAT_RXEFF : Fld := ⟨80, 0x1000038, [(16, 0x10000)], 0, 32, .ro, (.fact 736 0 4294967295), .keep, .keep, .shared⟩
/-- PRT.TSLAT.TXEFF [63:32] -/
def PRT.TSLAT_TXEFF : Fld := ⟨81, 0x1000038, [(16, 0x10000)], 32, 32, .ro, (.fact 737 0 4294967295), .keep, .keep, .shared⟩
/-- PRT.RXFRAMES.COUNT [63:0] -/
def PRT.RXFRAMES_COUNT : Fld := ⟨82, 0x1000100, [(16, 0x10000)], 0, 64, .rc, .val 0x0, .val 0x0, .keep, .shared⟩
/-- PRT.RXOCTETS.COUNT [63:0] -/
def PRT.RXOCTETS_COUNT : Fld := ⟨83, 0x1000108, [(16, 0x10000)], 0, 64, .rc, .val 0x0, .val 0x0, .keep, .shared⟩
/-- PRT.RXFCS.COUNT [31:0] -/
def PRT.RXFCS_COUNT : Fld := ⟨84, 0x1000110, [(16, 0x10000)], 0, 32, .rc, .val 0x0, .val 0x0, .keep, .shared⟩
/-- PRT.RXRUNT.COUNT [31:0] -/
def PRT.RXRUNT_COUNT : Fld := ⟨85, 0x1000118, [(16, 0x10000)], 0, 32, .rc, .val 0x0, .val 0x0, .keep, .shared⟩
/-- PRT.RXOVERSIZE.COUNT [31:0] -/
def PRT.RXOVERSIZE_COUNT : Fld := ⟨86, 0x1000120, [(16, 0x10000)], 0, 32, .rc, .val 0x0, .val 0x0, .keep, .shared⟩
/-- PRT.RXREASM.COUNT [31:0] -/
def PRT.RXREASM_COUNT : Fld := ⟨87, 0x1000128, [(16, 0x10000)], 0, 32, .rc, .val 0x0, .val 0x0, .keep, .shared⟩
/-- PRT.RXOVERRUN.COUNT [31:0] -/
def PRT.RXOVERRUN_COUNT : Fld := ⟨88, 0x1000130, [(16, 0x10000)], 0, 32, .rc, .val 0x0, .val 0x0, .keep, .shared⟩
/-- PRT.TXFRAMES.COUNT [63:0] -/
def PRT.TXFRAMES_COUNT : Fld := ⟨89, 0x1000140, [(16, 0x10000)], 0, 64, .rc, .val 0x0, .val 0x0, .keep, .shared⟩
/-- PRT.TXOCTETS.COUNT [63:0] -/
def PRT.TXOCTETS_COUNT : Fld := ⟨90, 0x1000148, [(16, 0x10000)], 0, 64, .rc, .val 0x0, .val 0x0, .keep, .shared⟩
/-- PRT.TXUNDERRUN.HBM [31:0] -/
def PRT.TXUNDERRUN_HBM : Fld := ⟨91, 0x1000150, [(16, 0x10000)], 0, 32, .rc, .val 0x0, .val 0x0, .keep, .shared⟩
/-- PRT.TXUNDERRUN.EXP [63:32] -/
def PRT.TXUNDERRUN_EXP : Fld := ⟨92, 0x1000150, [(16, 0x10000)], 32, 32, .rc, .val 0x0, .val 0x0, .keep, .shared⟩
/-- PRT.TXDISCARD.COUNT [31:0] -/
def PRT.TXDISCARD_COUNT : Fld := ⟨93, 0x1000158, [(16, 0x10000)], 0, 32, .rc, .val 0x0, .val 0x0, .keep, .shared⟩
/-- PRT.TXPREEMPT.COUNT [31:0] -/
def PRT.TXPREEMPT_COUNT : Fld := ⟨94, 0x1000160, [(16, 0x10000)], 0, 32, .rc, .val 0x0, .val 0x0, .keep, .shared⟩
/-- PRT.FECCW.COUNT [63:0] -/
def PRT.FECCW_COUNT : Fld := ⟨95, 0x1000180, [(16, 0x10000)], 0, 64, .rc, .val 0x0, .val 0x0, .keep, .shared⟩
/-- PRT.FECUNC.COUNT [31:0] -/
def PRT.FECUNC_COUNT : Fld := ⟨96, 0x1000188, [(16, 0x10000)], 0, 32, .rc, .val 0x0, .val 0x0, .keep, .shared⟩
/-- PRT.FECSYM.COUNT [63:0] -/
def PRT.FECSYM_COUNT : Fld := ⟨97, 0x1000190, [(16, 0x10000)], 0, 64, .rc, .val 0x0, .val 0x0, .keep, .shared⟩
/-- PRT.TXCLASS.COUNT [63:0] -/
def PRT.TXCLASS_COUNT : Fld := ⟨98, 0x1000200, [(16, 0x10000), (8, 0x8)], 0, 64, .rc, .val 0x0, .val 0x0, .keep, .shared⟩
/-- PRT.WAKECTL.MAGIC [0:0] -/
def PRT.WAKECTL_MAGIC : Fld := ⟨99, 0x1008000, [(2, 0x1000)], 0, 1, .rw, .val 0x0, .val 0x0, .keep, .shared⟩
/-- PRT.WAKECTL.PROMISC [1:1] -/
def PRT.WAKECTL_PROMISC : Fld := ⟨100, 0x1008000, [(2, 0x1000)], 1, 1, .rw, .val 0x0, .val 0x0, .keep, .shared⟩
/-- PRT.WAKECTL.ALLMULTI [2:2] -/
def PRT.WAKECTL_ALLMULTI : Fld := ⟨101, 0x1008000, [(2, 0x1000)], 2, 1, .rw, .val 0x0, .val 0x0, .keep, .shared⟩
/-- PRT.WAKECTL.PATEN [63:32] -/
def PRT.WAKECTL_PATEN : Fld := ⟨102, 0x1008000, [(2, 0x1000)], 32, 32, .rw, .val 0x0, .val 0x0, .keep, .shared⟩
/-- PRT.WAKECTL.PORTS [31:16] -/
def PRT.WAKECTL_PORTS : Fld := ⟨103, 0x1008000, [(2, 0x1000)], 16, 16, .rw, .val 0x0, .val 0x0, .keep, .shared⟩
/-- PRT.WAKESTAT.CAUSE [2:0] -/
def PRT.WAKESTAT_CAUSE : Fld := ⟨104, 0x1008008, [(2, 0x1000)], 0, 3, .rw1c, .val 0x0, .val 0x0, .keep, .shared⟩
/-- PRT.WAKESTAT.PATTERN [12:8] -/
def PRT.WAKESTAT_PATTERN : Fld := ⟨105, 0x1008008, [(2, 0x1000)], 8, 5, .ro, .val 0x0, .val 0x0, .keep, .shared⟩
/-- PRT.WAKESTAT.COUNT [47:32] -/
def PRT.WAKESTAT_COUNT : Fld := ⟨106, 0x1008008, [(2, 0x1000)], 32, 16, .rc, .val 0x0, .val 0x0, .keep, .shared⟩
/-- PRT.WAKEPAT.MASKLO [63:0] -/
def PRT.WAKEPAT_MASKLO : Fld := ⟨107, 0x1008100, [(2, 0x1000), (32, 0x20)], 0, 64, .rw, .val 0x0, .val 0x0, .keep, .shared⟩
/-- PRT.WAKEPAT.MASKHI [63:0] -/
def PRT.WAKEPAT_MASKHI : Fld := ⟨108, 0x1008108, [(2, 0x1000), (32, 0x20)], 0, 64, .rw, .val 0x0, .val 0x0, .keep, .shared⟩
/-- PRT.WAKEPAT.CRC [15:0] -/
def PRT.WAKEPAT_CRC : Fld := ⟨109, 0x1008110, [(2, 0x1000), (32, 0x20)], 0, 16, .rw, .val 0x0, .val 0x0, .keep, .shared⟩

/-! The PAR registers: rule R168 of 06_parse_classify.md. -/

/-- PAR.CFG.VXLANPORT [15:0] -/
def PAR.CFG_VXLANPORT : Fld := ⟨110, 0x2000000, [], 0, 16, .rw, .val 0x12b5, .val 0x12b5, .keep, .shared⟩
/-- PAR.CFG.GENEVEPORT [31:16] -/
def PAR.CFG_GENEVEPORT : Fld := ⟨111, 0x2000000, [], 16, 16, .rw, .val 0x17c1, .val 0x17c1, .keep, .shared⟩
/-- PAR.CFG.TPID2 [47:32] -/
def PAR.CFG_TPID2 : Fld := ⟨112, 0x2000000, [], 32, 16, .rw, .val 0x9100, .val 0x9100, .keep, .shared⟩
/-- PAR.CFG.TUNEN [48:48] -/
def PAR.CFG_TUNEN : Fld := ⟨113, 0x2000000, [], 48, 1, .rw, .val 0x1, .val 0x1, .keep, .shared⟩
/-- PAR.PKTS.COUNT [63:0] -/
def PAR.PKTS_COUNT : Fld := ⟨114, 0x2001000, [(4, 0x100)], 0, 64, .rc, .val 0x0, .val 0x0, .keep, .shared⟩
/-- PAR.FAIL.COUNT [31:0] -/
def PAR.FAIL_COUNT : Fld := ⟨115, 0x2001008, [(4, 0x100)], 0, 32, .rc, .val 0x0, .val 0x0, .keep, .shared⟩
/-- PAR.FAIL.LASTCODE [34:32] -/
def PAR.FAIL_LASTCODE : Fld := ⟨116, 0x2001008, [(4, 0x100)], 32, 3, .ro, .val 0x0, .val 0x0, .keep, .shared⟩
/-- PAR.FRAG.COUNT [31:0] -/
def PAR.FRAG_COUNT : Fld := ⟨117, 0x2001010, [(4, 0x100)], 0, 32, .rc, .val 0x0, .val 0x0, .keep, .shared⟩
/-- PAR.GOPTSKIP.COUNT [31:0] -/
def PAR.GOPTSKIP_COUNT : Fld := ⟨118, 0x2001018, [(4, 0x100)], 0, 32, .rc, .val 0x0, .val 0x0, .keep, .shared⟩

/-! The ACS registers: rule R169 of 06_parse_classify.md. -/

/-- ACS.BANKW0.W [63:0] -/
def ACS.BANKW0_W : Fld := ⟨119, 0x2400000, [(4, 0x100000)], 0, 64, .ro, .val 0x0, .val 0x0, .keep, .shared⟩
/-- ACS.BANKW1.W [63:0] -/
def ACS.BANKW1_W : Fld := ⟨120, 0x2400008, [(4, 0x100000)], 0, 64, .ro, .val 0x0, .val 0x0, .keep, .shared⟩
/-- ACS.BANKOWN0.OWN [63:0] -/
def ACS.BANKOWN0_OWN : Fld := ⟨121, 0x2400010, [(4, 0x100000)], 0, 64, .ro, .val 0x0, .val 0x0, .keep, .shared⟩
/-- ACS.BANKOWN1.OWN [63:0] -/
def ACS.BANKOWN1_OWN : Fld := ⟨122, 0x2400018, [(4, 0x100000)], 0, 64, .ro, .val 0x0, .val 0x0, .keep, .shared⟩
/-- ACS.PCTL.EN [0:0] -/
def ACS.PCTL_EN : Fld := ⟨123, 0x2400100, [(4, 0x100000), (32, 0x20)], 0, 1, .rw, .val 0x0, .val 0x0, .keep, .shared⟩
/-- ACS.PCTL.KEYFMT [3:1] -/
def ACS.PCTL_KEYFMT : Fld := ⟨124, 0x2400100, [(4, 0x100000), (32, 0x20)], 1, 3, .rw, .val 0x0, .val 0x0, .keep, .shared⟩
/-- ACS.PCTL.NBANKS [8:4] -/
def ACS.PCTL_NBANKS : Fld := ⟨125, 0x2400100, [(4, 0x100000), (32, 0x20)], 4, 5, .rw, .val 0x0, .val 0x0, .keep, .shared⟩
/-- ACS.PCTL.APPLY [16:16] -/
def ACS.PCTL_APPLY : Fld := ⟨126, 0x2400100, [(4, 0x100000), (32, 0x20)], 16, 1, .wo, .val 0x0, .val 0x0, .keep, .shared⟩
/-- ACS.PCTL.ERR [17:17] -/
def ACS.PCTL_ERR : Fld := ⟨127, 0x2400100, [(4, 0x100000), (32, 0x20)], 17, 1, .ro, .val 0x0, .val 0x0, .keep, .shared⟩
/-- ACS.PBANKLO.BANK [59:0] -/
def ACS.PBANKLO_BANK : Fld := ⟨128, 0x2400108, [(4, 0x100000), (32, 0x20)], 0, 60, .rw, .val 0x0, .val 0x0, .keep, .shared⟩
/-- ACS.PBANKHI.BANK [35:0] -/
def ACS.PBANKHI_BANK : Fld := ⟨129, 0x2400110, [(4, 0x100000), (32, 0x20)], 0, 36, .rw, .val 0x0, .val 0x0, .keep, .shared⟩
/-- ACS.PCUST.EXT [62:0] -/
def ACS.PCUST_EXT : Fld := ⟨130, 0x2400118, [(4, 0x100000), (32, 0x20)], 0, 63, .rw, .val 0x0, .val 0x0, .keep, .shared⟩
/-- ACS.PSEL.SEL [63:0] -/
def ACS.PSEL_SEL : Fld := ⟨131, 0x2400800, [(4, 0x100000), (18, 0x10)], 0, 64, .rw, .val 0x0, .val 0x0, .keep, .shared⟩
/-- ACS.PSEL.SELHI [55:0] -/
def ACS.PSEL_SELHI : Fld := ⟨132, 0x2400808, [(4, 0x100000), (18, 0x10)], 0, 56, .rw, .val 0x0, .val 0x0, .keep, .shared⟩
/-- ACS.PDEF.ACT [63:0] -/
def ACS.PDEF_ACT : Fld := ⟨133, 0x2400a00, [(4, 0x100000), (18, 0x10)], 0, 64, .rw, .val 0x40000000, .val 0x40000000, .keep, .shared⟩
/-- ACS.PDEFX.ACTX [63:0] -/
def ACS.PDEFX_ACTX : Fld := ⟨134, 0x2400a08, [(4, 0x100000), (18, 0x10)], 0, 64, .rw, .val 0x0, .val 0x0, .keep, .shared⟩
/-- ACS.STGVAL.VAL [63:0] -/
def ACS.STGVAL_VAL : Fld := ⟨135, 0x2401000, [(4, 0x100000), (10, 0x8)], 0, 64, .rw, .val 0x0, .val 0x0, .val 0x0, .perPf⟩
/-- ACS.STGMASK.MASK [63:0] -/
def ACS.STGMASK_MASK : Fld := ⟨136, 0x2401080, [(4, 0x100000), (10, 0x8)], 0, 64, .rw, .val 0x0, .val 0x0, .val 0x0, .perPf⟩
/-- ACS.STGACT.ACT [63:0] -/
def ACS.STGACT_ACT : Fld := ⟨137, 0x2401100, [(4, 0x100000)], 0, 64, .rw, .val 0x0, .val 0x0, .val 0x0, .perPf⟩
/-- ACS.STGACTX.ACTX [63:0] -/
def ACS.STGACTX_ACTX : Fld := ⟨138, 0x2401108, [(4, 0x100000)], 0, 64, .rw, .val 0x0, .val 0x0, .val 0x0, .perPf⟩
/-- ACS.CMD.OP [3:0] -/
def ACS.CMD_OP : Fld := ⟨139, 0x2401110, [(4, 0x100000)], 0, 4, .wo, .val 0x0, .val 0x0, .val 0x0, .perPf⟩
/-- ACS.CMD.WIDTH [5:4] -/
def ACS.CMD_WIDTH : Fld := ⟨140, 0x2401110, [(4, 0x100000)], 4, 2, .wo, .val 0x0, .val 0x0, .val 0x0, .perPf⟩
/-- ACS.CMD.BANK [21:16] -/
def ACS.CMD_BANK : Fld := ⟨141, 0x2401110, [(4, 0x100000)], 16, 6, .wo, .val 0x0, .val 0x0, .val 0x0, .perPf⟩
/-- ACS.CMD.PROFILE [28:24] -/
def ACS.CMD_PROFILE : Fld := ⟨142, 0x2401110, [(4, 0x100000)], 24, 5, .wo, .val 0x0, .val 0x0, .val 0x0, .perPf⟩
/-- ACS.CMD.INDEX [42:32] -/
def ACS.CMD_INDEX : Fld := ⟨143, 0x2401110, [(4, 0x100000)], 32, 11, .wo, .val 0x0, .val 0x0, .val 0x0, .perPf⟩
/-- ACS.CMDSTAT.BUSY [0:0] -/
def ACS.CMDSTAT_BUSY : Fld := ⟨144, 0x2401118, [(4, 0x100000)], 0, 1, .ro, .val 0x0, .val 0x0, .val 0x0, .perPf⟩
/-- ACS.CMDSTAT.RESULT [3:1] -/
def ACS.CMDSTAT_RESULT : Fld := ⟨145, 0x2401118, [(4, 0x100000)], 1, 3, .ro, .val 0x0, .val 0x0, .val 0x0, .perPf⟩
/-- ACS.CMDSTAT.VALID [4:4] -/
def ACS.CMDSTAT_VALID : Fld := ⟨146, 0x2401118, [(4, 0x100000)], 4, 1, .ro, .val 0x0, .val 0x0, .val 0x0, .perPf⟩
/-- ACS.CMDSTAT.FOUND [5:5] -/
def ACS.CMDSTAT_FOUND : Fld := ⟨147, 0x2401118, [(4, 0x100000)], 5, 1, .ro, .val 0x0, .val 0x0, .val 0x0, .perPf⟩
/-- ACS.CMDSTAT.CHANGED [6:6] -/
def ACS.CMDSTAT_CHANGED : Fld := ⟨148, 0x2401118, [(4, 0x100000)], 6, 1, .ro, .val 0x0, .val 0x0, .val 0x0, .perPf⟩
/-- ACS.CMDSTAT.IGNORED [15:8] -/
def ACS.CMDSTAT_IGNORED : Fld := ⟨149, 0x2401118, [(4, 0x100000)], 8, 8, .rc, .val 0x0, .val 0x0, .val 0x0, .perPf⟩
/-- ACS.CMDSTAT.MBANK [21:16] -/
def ACS.CMDSTAT_MBANK : Fld := ⟨150, 0x2401118, [(4, 0x100000)], 16, 6, .ro, .val 0x0, .val 0x0, .val 0x0, .perPf⟩
/-- ACS.CMDSTAT.MINDEX [42:32] -/
def ACS.CMDSTAT_MINDEX : Fld := ⟨151, 0x2401118, [(4, 0x100000)], 32, 11, .ro, .val 0x0, .val 0x0, .val 0x0, .perPf⟩
/-- ACS.LOOKUPS.COUNT [63:0] -/
def ACS.LOOKUPS_COUNT : Fld := ⟨152, 0x2402000, [(4, 0x100000)], 0, 64, .rc, .val 0x0, .val 0x0, .keep, .shared⟩
/-- ACS.HITS.COUNT [63:0] -/
def ACS.HITS_COUNT : Fld := ⟨153, 0x2402008, [(4, 0x100000)], 0, 64, .rc, .val 0x0, .val 0x0, .keep, .shared⟩
/-- ACS.MULTI.COUNT [31:0] -/
def ACS.MULTI_COUNT : Fld := ⟨154, 0x2402010, [(4, 0x100000)], 0, 32, .rc, .val 0x0, .val 0x0, .keep, .shared⟩
/-- ACS.DROPS.COUNT [31:0] -/
def ACS.DROPS_COUNT : Fld := ⟨155, 0x2402018, [(4, 0x100000)], 0, 32, .rc, .val 0x0, .val 0x0, .keep, .shared⟩
/-- ACS.FALSEHIT.COUNT [31:0] -/
def ACS.FALSEHIT_COUNT : Fld := ⟨156, 0x2402020, [(4, 0x100000)], 0, 32, .rc, .val 0x0, .val 0x0, .keep, .shared⟩
/-- ACS.UNCORR.COUNT [31:0] -/
def ACS.UNCORR_COUNT : Fld := ⟨157, 0x2402028, [(4, 0x100000)], 0, 32, .rc, .val 0x0, .val 0x0, .keep, .shared⟩
/-- ACS.SCRUBFIX.COUNT [31:0] -/
def ACS.SCRUBFIX_COUNT : Fld := ⟨158, 0x2402030, [(4, 0x100000)], 0, 32, .rc, .val 0x0, .val 0x0, .keep, .shared⟩
/-- ACS.LKALATE.COUNT [31:0] -/
def ACS.LKALATE_COUNT : Fld := ⟨159, 0x2402038, [(4, 0x100000)], 0, 32, .rc, .val 0x0, .val 0x0, .keep, .shared⟩
/-- ACS.LASTERR.BANK [5:0] -/
def ACS.LASTERR_BANK : Fld := ⟨160, 0x2402040, [(4, 0x100000)], 0, 6, .ro, .val 0x0, .val 0x0, .keep, .shared⟩
/-- ACS.LASTERR.INDEX [26:16] -/
def ACS.LASTERR_INDEX : Fld := ⟨161, 0x2402040, [(4, 0x100000)], 16, 11, .ro, .val 0x0, .val 0x0, .keep, .shared⟩

/-! The FWD registers: rule R195 of 07_forwarding_learning.md. -/

/-- FWD.CFG.TICK [9:0] -/
def FWD.CFG_TICK : Fld := ⟨162, 0x2800000, [], 0, 10, .ro, .val 0x1, .val 0x1, .keep, .shared⟩
/-- FWD.CFG.READY [16:16] -/
def FWD.CFG_READY : Fld := ⟨163, 0x2800000, [], 16, 1, .ro, .val 0x0, .val 0x0, .keep, .shared⟩
/-- FWD.AREA.BASE [31:0] -/
def FWD.AREA_BASE : Fld := ⟨164, 0x2800008, [], 0, 32, .ro, .val 0x0, .val 0x0, .keep, .shared⟩
/-- FWD.AREA.CONNBASE [37:32] -/
def FWD.AREA_CONNBASE : Fld := ⟨165, 0x2800008, [], 32, 6, .ro, .val 0x0, .val 0x0, .keep, .shared⟩
/-- FWD.NOW.TICK [15:0] -/
def FWD.NOW_TICK : Fld := ⟨166, 0x2800010, [], 0, 16, .ro, .val 0x0, .val 0x0, .keep, .shared⟩
/-- FWD.CONNSTAT.VALID [23:0] -/
def FWD.CONNSTAT_VALID : Fld := ⟨167, 0x2800100, [], 0, 24, .ro, .val 0x0, .val 0x0, .keep, .shared⟩
/-- FWD.CREATED.COUNT [63:0] -/
def FWD.CREATED_COUNT : Fld := ⟨168, 0x2800108, [], 0, 64, .rc, .val 0x0, .val 0x0, .keep, .shared⟩
/-- FWD.CREATEFULL.COUNT [31:0] -/
def FWD.CREATEFULL_COUNT : Fld := ⟨169, 0x2800110, [], 0, 32, .rc, .val 0x0, .val 0x0, .keep, .shared⟩
/-- FWD.CONNAGED.COUNT [31:0] -/
def FWD.CONNAGED_COUNT : Fld := ⟨170, 0x2800118, [], 0, 32, .rc, .val 0x0, .val 0x0, .keep, .shared⟩
/-- FWD.TBL.EN [0:0] -/
def FWD.TBL_EN : Fld := ⟨171, 0x2801000, [(4, 0x1000), (16, 0x20)], 0, 1, .ro, .val 0x0, .val 0x0, .keep, .shared⟩
/-- FWD.TBL.KIND [1:1] -/
def FWD.TBL_KIND : Fld := ⟨172, 0x2801000, [(4, 0x1000), (16, 0x20)], 1, 1, .ro, .val 0x0, .val 0x0, .keep, .shared⟩
/-- FWD.TBL.AGEMODE [3:2] -/
def FWD.TBL_AGEMODE : Fld := ⟨173, 0x2801000, [(4, 0x1000), (16, 0x20)], 2, 2, .ro, .val 0x0, .val 0x0, .keep, .shared⟩
/-- FWD.TBL.KEYLEN [9:4] -/
def FWD.TBL_KEYLEN : Fld := ⟨174, 0x2801000, [(4, 0x1000), (16, 0x20)], 4, 6, .ro, .val 0x0, .val 0x0, .keep, .shared⟩
/-- FWD.TBL.SIZE [14:10] -/
def FWD.TBL_SIZE : Fld := ⟨175, 0x2801000, [(4, 0x1000), (16, 0x20)], 10, 5, .ro, .val 0x0, .val 0x0, .keep, .shared⟩
/-- FWD.TBL.ERR [15:15] -/
def FWD.TBL_ERR : Fld := ⟨176, 0x2801000, [(4, 0x1000), (16, 0x20)], 15, 1, .ro, .val 0x0, .val 0x0, .keep, .shared⟩
/-- FWD.TBL.BASE [39:16] -/
def FWD.TBL_BASE : Fld := ⟨177, 0x2801000, [(4, 0x1000), (16, 0x20)], 16, 24, .ro, .val 0x0, .val 0x0, .keep, .shared⟩
/-- FWD.TSEED.SEED1 [31:0] -/
def FWD.TSEED_SEED1 : Fld := ⟨178, 0x2801008, [(4, 0x1000), (16, 0x20)], 0, 32, .ro, .val 0x0, .val 0x0, .keep, .shared⟩
/-- FWD.TSEED.SEED2 [63:32] -/
def FWD.TSEED_SEED2 : Fld := ⟨179, 0x2801008, [(4, 0x1000), (16, 0x20)], 32, 32, .ro, .val 0x0, .val 0x0, .keep, .shared⟩
/-- FWD.TAGE.AGELIM [15:0] -/
def FWD.TAGE_AGELIM : Fld := ⟨180, 0x2801010, [(4, 0x1000), (16, 0x20)], 0, 16, .ro, .val 0x0, .val 0x0, .keep, .shared⟩
/-- FWD.TAGE.SWEEP [31:16] -/
def FWD.TAGE_SWEEP : Fld := ⟨181, 0x2801010, [(4, 0x1000), (16, 0x20)], 16, 16, .ro, .val 0x0, .val 0x0, .keep, .shared⟩
/-- FWD.TCOUNT.VALID [24:0] -/
def FWD.TCOUNT_VALID : Fld := ⟨182, 0x2801018, [(4, 0x1000), (16, 0x20)], 0, 25, .ro, .val 0x0, .val 0x0, .keep, .shared⟩
/-- FWD.IPROF.DKEY [1:0] -/
def FWD.IPROF_DKEY : Fld := ⟨183, 0x2801400, [(4, 0x1000), (18, 0x8)], 0, 2, .ro, .val 0x0, .val 0x0, .keep, .shared⟩
/-- FWD.IPROF.DTABLE [7:4] -/
def FWD.IPROF_DTABLE : Fld := ⟨184, 0x2801400, [(4, 0x1000), (18, 0x8)], 4, 4, .ro, .val 0x0, .val 0x0, .keep, .shared⟩
/-- FWD.IPROF.LEARN [8:8] -/
def FWD.IPROF_LEARN : Fld := ⟨185, 0x2801400, [(4, 0x1000), (18, 0x8)], 8, 1, .ro, .val 0x0, .val 0x0, .keep, .shared⟩
/-- FWD.IPROF.LKEY [10:9] -/
def FWD.IPROF_LKEY : Fld := ⟨186, 0x2801400, [(4, 0x1000), (18, 0x8)], 9, 2, .ro, .val 0x0, .val 0x0, .keep, .shared⟩
/-- FWD.IPROF.LTABLE [15:12] -/
def FWD.IPROF_LTABLE : Fld := ⟨187, 0x2801400, [(4, 0x1000), (18, 0x8)], 12, 4, .ro, .val 0x0, .val 0x0, .keep, .shared⟩
/-- FWD.DLOOKUPS.COUNT [63:0] -/
def FWD.DLOOKUPS_COUNT : Fld := ⟨188, 0x2801800, [(4, 0x1000)], 0, 64, .rc, .val 0x0, .val 0x0, .keep, .shared⟩
/-- FWD.DHITS.COUNT [63:0] -/
def FWD.DHITS_COUNT : Fld := ⟨189, 0x2801808, [(4, 0x1000)], 0, 64, .rc, .val 0x0, .val 0x0, .keep, .shared⟩
/-- FWD.SLOOKUPS.COUNT [63:0] -/
def FWD.SLOOKUPS_COUNT : Fld := ⟨190, 0x2801810, [(4, 0x1000)], 0, 64, .rc, .val 0x0, .val 0x0, .keep, .shared⟩
/-- FWD.KEYMISMATCH.COUNT [31:0] -/
def FWD.KEYMISMATCH_COUNT : Fld := ⟨191, 0x2801818, [(4, 0x1000)], 0, 32, .rc, .val 0x0, .val 0x0, .keep, .shared⟩
/-- FWD.UNCORR.COUNT [31:0] -/
def FWD.UNCORR_COUNT : Fld := ⟨192, 0x2801820, [(4, 0x1000)], 0, 32, .rc, .val 0x0, .val 0x0, .keep, .shared⟩
/-- FWD.STATICMOVE.COUNT [31:0] -/
def FWD.STATICMOVE_COUNT : Fld := ⟨193, 0x2801828, [(4, 0x1000)], 0, 32, .rc, .val 0x0, .val 0x0, .keep, .shared⟩
/-- FWD.AGED.COUNT [31:0] -/
def FWD.AGED_COUNT : Fld := ⟨194, 0x2801830, [(4, 0x1000)], 0, 32, .rc, .val 0x0, .val 0x0, .keep, .shared⟩
/-- FWD.LOCKTIMEOUT.COUNT [31:0] -/
def FWD.LOCKTIMEOUT_COUNT : Fld := ⟨195, 0x2801838, [(4, 0x1000)], 0, 32, .rc, .val 0x0, .val 0x0, .keep, .shared⟩
/-- FWD.LASTERR.BUCKET [23:0] -/
def FWD.LASTERR_BUCKET : Fld := ⟨196, 0x2801840, [(4, 0x1000)], 0, 24, .ro, .val 0x0, .val 0x0, .keep, .shared⟩

/-! The LRN registers: rule R196 of 07_forwarding_learning.md. -/

/-- LRN.CFG.SETTLE [13:0] -/
def LRN.CFG_SETTLE : Fld := ⟨197, 0x2c00000, [], 0, 14, .ro, .val 0x3e8, .val 0x3e8, .keep, .shared⟩
/-- LRN.POLICY.MOVELIM [7:0] -/
def LRN.POLICY_MOVELIM : Fld := ⟨198, 0x2c00008, [], 0, 8, .ro, .val 0x4, .val 0x4, .keep, .shared⟩
/-- LRN.POLICY.MOVEWIN [23:8] -/
def LRN.POLICY_MOVEWIN : Fld := ⟨199, 0x2c00008, [], 8, 16, .ro, .val 0x3e8, .val 0x3e8, .keep, .shared⟩
/-- LRN.POLICY.DAMPTIME [47:32] -/
def LRN.POLICY_DAMPTIME : Fld := ⟨200, 0x2c00008, [], 32, 16, .ro, .val 0x2710, .val 0x2710, .keep, .shared⟩
/-- LRN.POLICY.SPREAD [48:48] -/
def LRN.POLICY_SPREAD : Fld := ⟨201, 0x2c00008, [], 48, 1, .ro, .val 0x0, .val 0x0, .keep, .shared⟩
/-- LRN.LRING.SIZE [3:0] -/
def LRN.LRING_SIZE : Fld := ⟨202, 0x2c01000, [(4, 0x100)], 0, 4, .ro, .val 0x0, .val 0x0, .keep, .shared⟩
/-- LRN.LRING.BASE [47:12] -/
def LRN.LRING_BASE : Fld := ⟨203, 0x2c01000, [(4, 0x100)], 12, 36, .ro, .val 0x0, .val 0x0, .keep, .shared⟩
/-- LRN.LTAIL.INDEX [13:0] -/
def LRN.LTAIL_INDEX : Fld := ⟨204, 0x2c01008, [(4, 0x100)], 0, 14, .ro, .val 0x0, .val 0x0, .keep, .shared⟩
/-- LRN.LTAIL.WRAP [14:14] -/
def LRN.LTAIL_WRAP : Fld := ⟨205, 0x2c01008, [(4, 0x100)], 14, 1, .ro, .val 0x0, .val 0x0, .keep, .shared⟩
/-- LRN.LHEAD.INDEX [13:0] -/
def LRN.LHEAD_INDEX : Fld := ⟨206, 0x2c01010, [(4, 0x100)], 0, 14, .ro, .val 0x0, .val 0x0, .keep, .shared⟩
/-- LRN.LHEAD.WRAP [14:14] -/
def LRN.LHEAD_WRAP : Fld := ⟨207, 0x2c01010, [(4, 0x100)], 14, 1, .ro, .val 0x0, .val 0x0, .keep, .shared⟩
/-- LRN.ARING.SIZE [3:0] -/
def LRN.ARING_SIZE : Fld := ⟨208, 0x2c01018, [(4, 0x100)], 0, 4, .ro, .val 0x0, .val 0x0, .keep, .shared⟩
/-- LRN.ARING.BASE [47:12] -/
def LRN.ARING_BASE : Fld := ⟨209, 0x2c01018, [(4, 0x100)], 12, 36, .ro, .val 0x0, .val 0x0, .keep, .shared⟩
/-- LRN.ATAIL.INDEX [13:0] -/
def LRN.ATAIL_INDEX : Fld := ⟨210, 0x2c01020, [(4, 0x100)], 0, 14, .ro, .val 0x0, .val 0x0, .keep, .shared⟩
/-- LRN.ATAIL.WRAP [14:14] -/
def LRN.ATAIL_WRAP : Fld := ⟨211, 0x2c01020, [(4, 0x100)], 14, 1, .ro, .val 0x0, .val 0x0, .keep, .shared⟩
/-- LRN.AHEAD.INDEX [13:0] -/
def LRN.AHEAD_INDEX : Fld := ⟨212, 0x2c01028, [(4, 0x100)], 0, 14, .ro, .val 0x0, .val 0x0, .keep, .shared⟩
/-- LRN.AHEAD.WRAP [14:14] -/
def LRN.AHEAD_WRAP : Fld := ⟨213, 0x2c01028, [(4, 0x100)], 14, 1, .ro, .val 0x0, .val 0x0, .keep, .shared⟩
/-- LRN.PEND.INUSE [8:0] -/
def LRN.PEND_INUSE : Fld := ⟨214, 0x2c01030, [(4, 0x100)], 0, 9, .ro, .val 0x0, .val 0x0, .keep, .shared⟩
/-- LRN.PEND.PEAK [24:16] -/
def LRN.PEND_PEAK : Fld := ⟨215, 0x2c01030, [(4, 0x100)], 16, 9, .ro, .val 0x0, .val 0x0, .keep, .shared⟩
/-- LRN.NOTIF.COUNT [31:0] -/
def LRN.NOTIF_COUNT : Fld := ⟨216, 0x2c01038, [(4, 0x100)], 0, 32, .rc, .val 0x0, .val 0x0, .keep, .shared⟩
/-- LRN.SUPPRESS.COUNT [31:0] -/
def LRN.SUPPRESS_COUNT : Fld := ⟨217, 0x2c01040, [(4, 0x100)], 0, 32, .rc, .val 0x0, .val 0x0, .keep, .shared⟩
/-- LRN.LSPILL.COUNT [31:0] -/
def LRN.LSPILL_COUNT : Fld := ⟨218, 0x2c01048, [(4, 0x100)], 0, 32, .rc, .val 0x0, .val 0x0, .keep, .shared⟩
/-- LRN.ASPILL.COUNT [31:0] -/
def LRN.ASPILL_COUNT : Fld := ⟨219, 0x2c01050, [(4, 0x100)], 0, 32, .rc, .val 0x0, .val 0x0, .keep, .shared⟩
/-- LRN.MOVES.COUNT [31:0] -/
def LRN.MOVES_COUNT : Fld := ⟨220, 0x2c01058, [(4, 0x100)], 0, 32, .rc, .val 0x0, .val 0x0, .keep, .shared⟩
/-- LRN.DAMPED.COUNT [31:0] -/
def LRN.DAMPED_COUNT : Fld := ⟨221, 0x2c01060, [(4, 0x100)], 0, 32, .rc, .val 0x0, .val 0x0, .keep, .shared⟩
/-- LRN.DAMPS.COUNT [31:0] -/
def LRN.DAMPS_COUNT : Fld := ⟨222, 0x2c01068, [(4, 0x100)], 0, 32, .rc, .val 0x0, .val 0x0, .keep, .shared⟩
/-- LRN.CRING.SIZE [3:0] -/
def LRN.CRING_SIZE : Fld := ⟨223, 0x2c00800, [], 0, 4, .ro, .val 0x0, .val 0x0, .keep, .shared⟩
/-- LRN.CRING.BASE [47:12] -/
def LRN.CRING_BASE : Fld := ⟨224, 0x2c00800, [], 12, 36, .ro, .val 0x0, .val 0x0, .keep, .shared⟩
/-- LRN.CTAIL.INDEX [13:0] -/
def LRN.CTAIL_INDEX : Fld := ⟨225, 0x2c00808, [], 0, 14, .ro, .val 0x0, .val 0x0, .keep, .shared⟩
/-- LRN.CTAIL.WRAP [14:14] -/
def LRN.CTAIL_WRAP : Fld := ⟨226, 0x2c00808, [], 14, 1, .ro, .val 0x0, .val 0x0, .keep, .shared⟩
/-- LRN.CHEAD.INDEX [13:0] -/
def LRN.CHEAD_INDEX : Fld := ⟨227, 0x2c00810, [], 0, 14, .ro, .val 0x0, .val 0x0, .keep, .shared⟩
/-- LRN.CHEAD.WRAP [14:14] -/
def LRN.CHEAD_WRAP : Fld := ⟨228, 0x2c00810, [], 14, 1, .ro, .val 0x0, .val 0x0, .keep, .shared⟩
/-- LRN.CSPILL.COUNT [31:0] -/
def LRN.CSPILL_COUNT : Fld := ⟨229, 0x2c00818, [], 0, 32, .rc, .val 0x0, .val 0x0, .keep, .shared⟩

/-! The DSP registers: rule R215 of 08_dispatch_order_completion.md. -/

/-- DSP.CFG.SLOWCLR [15:0] -/
def DSP.CFG_SLOWCLR : Fld := ⟨230, 0x3000000, [], 0, 16, .rw, .val 0x1000, .val 0x1000, .keep, .shared⟩
/-- DSP.CFG.OFAIR [19:16] -/
def DSP.CFG_OFAIR : Fld := ⟨231, 0x3000000, [], 16, 4, .rw, .val 0x8, .val 0x8, .keep, .shared⟩
/-- DSP.FSEED.SEED [31:0] -/
def DSP.FSEED_SEED : Fld := ⟨232, 0x3000008, [], 0, 32, .rw, .val 0x0, .val 0x0, .keep, .shared⟩
/-- DSP.FMODE.MODE [31:0] -/
def DSP.FMODE_MODE : Fld := ⟨233, 0x3000010, [], 0, 32, .rw, .val 0x55555555, .val 0x55555555, .keep, .shared⟩
/-- DSP.ACCEPTED.COUNT [63:0] -/
def DSP.ACCEPTED_COUNT : Fld := ⟨234, 0x3000018, [], 0, 64, .rc, .val 0x0, .val 0x0, .keep, .shared⟩
/-- DSP.CCWAIT.PEAK [15:0] -/
def DSP.CCWAIT_PEAK : Fld := ⟨235, 0x3000020, [], 0, 16, .ro, .val 0x0, .val 0x0, .keep, .shared⟩
/-- DSP.BACKLOG.PEAK [7:0] -/
def DSP.BACKLOG_PEAK : Fld := ⟨236, 0x3000028, [], 0, 8, .ro, .val 0x0, .val 0x0, .keep, .shared⟩
/-- DSP.BAYMASK.MASK [11:0] -/
def DSP.BAYMASK_MASK : Fld := ⟨237, 0x3001000, [(4, 0x100)], 0, 12, .rw, .val 0xfff, .val 0xfff, .keep, .shared⟩
/-- DSP.DISPATCHED.COUNT [63:0] -/
def DSP.DISPATCHED_COUNT : Fld := ⟨238, 0x3001008, [(4, 0x100)], 0, 64, .rc, .val 0x0, .val 0x0, .keep, .shared⟩
/-- DSP.QDROP.EXP [31:0] -/
def DSP.QDROP_EXP : Fld := ⟨239, 0x3001010, [(4, 0x100)], 0, 32, .rc, .val 0x0, .val 0x0, .keep, .shared⟩
/-- DSP.QDROP.ORD [63:32] -/
def DSP.QDROP_ORD : Fld := ⟨240, 0x3001010, [(4, 0x100)], 32, 32, .rc, .val 0x0, .val 0x0, .keep, .shared⟩
/-- DSP.QDEPTH.EXP [9:0] -/
def DSP.QDEPTH_EXP : Fld := ⟨241, 0x3001018, [(4, 0x100)], 0, 10, .ro, .val 0x0, .val 0x0, .keep, .shared⟩
/-- DSP.QDEPTH.ORD [28:16] -/
def DSP.QDEPTH_ORD : Fld := ⟨242, 0x3001018, [(4, 0x100)], 16, 13, .ro, .val 0x0, .val 0x0, .keep, .shared⟩
/-- DSP.QDEPTH.EXPPEAK [41:32] -/
def DSP.QDEPTH_EXPPEAK : Fld := ⟨243, 0x3001018, [(4, 0x100)], 32, 10, .ro, .val 0x0, .val 0x0, .keep, .shared⟩
/-- DSP.QDEPTH.ORDPEAK [60:48] -/
def DSP.QDEPTH_ORDPEAK : Fld := ⟨244, 0x3001018, [(4, 0x100)], 48, 13, .ro, .val 0x0, .val 0x0, .keep, .shared⟩
/-- DSP.REDISP.COUNT [31:0] -/
def DSP.REDISP_COUNT : Fld := ⟨245, 0x3001020, [(4, 0x100)], 0, 32, .rc, .val 0x0, .val 0x0, .keep, .shared⟩
/-- DSP.REDISP.LOST [63:32] -/
def DSP.REDISP_LOST : Fld := ⟨246, 0x3001020, [(4, 0x100)], 32, 32, .rc, .val 0x0, .val 0x0, .keep, .shared⟩
/-- DSP.ORDHOLD.PEAK [31:0] -/
def DSP.ORDHOLD_PEAK : Fld := ⟨247, 0x3001028, [(4, 0x100)], 0, 32, .ro, .val 0x0, .val 0x0, .keep, .shared⟩
/-- DSP.INFLIGHT.COUNT [10:0] -/
def DSP.INFLIGHT_COUNT : Fld := ⟨248, 0x3001030, [(4, 0x100)], 0, 11, .ro, .val 0x0, .val 0x0, .keep, .shared⟩
/-- DSP.ERATIO.LAST [15:0] -/
def DSP.ERATIO_LAST : Fld := ⟨249, 0x3002000, [(192, 0x8)], 0, 16, .ro, .val 0x0, .val 0x0, .keep, .shared⟩
/-- DSP.ERATIO.PEAK [31:16] -/
def DSP.ERATIO_PEAK : Fld := ⟨250, 0x3002000, [(192, 0x8)], 16, 16, .ro, .val 0x0, .val 0x0, .keep, .shared⟩
/-- DSP.ERATIO.CLEAN [47:32] -/
def DSP.ERATIO_CLEAN : Fld := ⟨251, 0x3002000, [(192, 0x8)], 32, 16, .ro, .val 0x0, .val 0x0, .keep, .shared⟩

/-! The TUN registers: rule R240 of 09_tunnels_transports_storage.md. -/

/-- TUN.CFG.DPCLASS [15:0] -/
def TUN.CFG_DPCLASS : Fld := ⟨252, 0x4000000, [], 0, 16, .ro, .val 0xff3a, .val 0xff3a, .keep, .shared⟩
/-- TUN.CFG.DPTYPE [23:16] -/
def TUN.CFG_DPTYPE : Fld := ⟨253, 0x4000000, [], 16, 8, .ro, .val 0x52, .val 0x52, .keep, .shared⟩
/-- TUN.TSTATUS.VALID [14:0] -/
def TUN.TSTATUS_VALID : Fld := ⟨254, 0x4000008, [], 0, 15, .ro, .val 0x0, .val 0x0, .keep, .shared⟩
/-- TUN.KNOWNOPT.CLASS [15:0] -/
def TUN.KNOWNOPT_CLASS : Fld := ⟨255, 0x4000010, [(8, 0x8)], 0, 16, .ro, .val 0x0, .val 0x0, .keep, .shared⟩
/-- TUN.KNOWNOPT.TYPE [23:16] -/
def TUN.KNOWNOPT_TYPE : Fld := ⟨256, 0x4000010, [(8, 0x8)], 16, 8, .ro, .val 0x0, .val 0x0, .keep, .shared⟩
/-- TUN.KNOWNOPT.EN [24:24] -/
def TUN.KNOWNOPT_EN : Fld := ⟨257, 0x4000010, [(8, 0x8)], 24, 1, .ro, .val 0x0, .val 0x0, .keep, .shared⟩
/-- TUN.ENCAP.COUNT [63:0] -/
def TUN.ENCAP_COUNT : Fld := ⟨258, 0x4000100, [], 0, 64, .rc, .val 0x0, .val 0x0, .keep, .shared⟩
/-- TUN.DECAP.COUNT [63:0] -/
def TUN.DECAP_COUNT : Fld := ⟨259, 0x4000108, [], 0, 64, .rc, .val 0x0, .val 0x0, .keep, .shared⟩
/-- TUN.ERR.COUNT [31:0] -/
def TUN.ERR_COUNT : Fld := ⟨260, 0x4000110, [], 0, 32, .rc, .val 0x0, .val 0x0, .keep, .shared⟩
/-- TUN.ERR.LAST [39:32] -/
def TUN.ERR_LAST : Fld := ⟨261, 0x4000110, [], 32, 8, .ro, .val 0x0, .val 0x0, .keep, .shared⟩
/-- TUN.SEGS.COUNT [63:0] -/
def TUN.SEGS_COUNT : Fld := ⟨262, 0x4000118, [], 0, 64, .rc, .val 0x0, .val 0x0, .keep, .shared⟩
/-- TUN.DPIGN.COUNT [31:0] -/
def TUN.DPIGN_COUNT : Fld := ⟨263, 0x4000120, [], 0, 32, .rc, .val 0x0, .val 0x0, .keep, .shared⟩
/-- TUN.TSTG.DATA [63:0] -/
def TUN.TSTG_DATA : Fld := ⟨264, 0x4001000, [(16, 0x8)], 0, 64, .ro, .val 0x0, .val 0x0, .keep, .shared⟩
/-- TUN.TCMD.TMPL [13:0] -/
def TUN.TCMD_TMPL : Fld := ⟨265, 0x4001080, [], 0, 14, .ro, .val 0x0, .val 0x0, .keep, .shared⟩

/-! The STO registers: rule R241 of 09_tunnels_transports_storage.md. -/

/-- STO.TCPCFG.RTOMIN [17:0] -/
def STO.TCPCFG_RTOMIN : Fld := ⟨266, 0x4400000, [], 0, 18, .ro, .val 0x3e8, .val 0x3e8, .keep, .shared⟩
/-- STO.TCPCFG.MAXRETX [23:20] -/
def STO.TCPCFG_MAXRETX : Fld := ⟨267, 0x4400000, [], 20, 4, .ro, .val 0x8, .val 0x8, .keep, .shared⟩
/-- STO.CNPINT.US [15:0] -/
def STO.CNPINT_US : Fld := ⟨268, 0x4400008, [], 0, 16, .ro, .val 0x32, .val 0x32, .keep, .shared⟩
/-- STO.CONNSTAT.TCP [14:0] -/
def STO.CONNSTAT_TCP : Fld := ⟨269, 0x4400010, [], 0, 15, .ro, .val 0x0, .val 0x0, .keep, .shared⟩
/-- STO.CONNSTAT.RC [32:16] -/
def STO.CONNSTAT_RC : Fld := ⟨270, 0x4400010, [], 16, 17, .ro, .val 0x0, .val 0x0, .keep, .shared⟩
/-- STO.PERSONA.COUNT [10:0] -/
def STO.PERSONA_COUNT : Fld := ⟨271, 0x4400018, [], 0, 11, .ro, .val 0x0, .val 0x0, .keep, .shared⟩
/-- STO.OOODROP.COUNT [31:0] -/
def STO.OOODROP_COUNT : Fld := ⟨272, 0x4400100, [], 0, 32, .rc, .val 0x0, .val 0x0, .keep, .shared⟩
/-- STO.TCPRETX.COUNT [31:0] -/
def STO.TCPRETX_COUNT : Fld := ⟨273, 0x4400108, [], 0, 32, .rc, .val 0x0, .val 0x0, .keep, .shared⟩
/-- STO.ICRCERR.COUNT [31:0] -/
def STO.ICRCERR_COUNT : Fld := ⟨274, 0x4400110, [], 0, 32, .rc, .val 0x0, .val 0x0, .keep, .shared⟩
/-- STO.BADOPC.COUNT [31:0] -/
def STO.BADOPC_COUNT : Fld := ⟨275, 0x4400118, [], 0, 32, .rc, .val 0x0, .val 0x0, .keep, .shared⟩
/-- STO.CNPSENT.COUNT [31:0] -/
def STO.CNPSENT_COUNT : Fld := ⟨276, 0x4400120, [], 0, 32, .rc, .val 0x0, .val 0x0, .keep, .shared⟩
/-- STO.CNPRCVD.COUNT [31:0] -/
def STO.CNPRCVD_COUNT : Fld := ⟨277, 0x4400128, [], 0, 32, .rc, .val 0x0, .val 0x0, .keep, .shared⟩
/-- STO.DIGESTERR.COUNT [31:0] -/
def STO.DIGESTERR_COUNT : Fld := ⟨278, 0x4400130, [], 0, 32, .rc, .val 0x0, .val 0x0, .keep, .shared⟩
/-- STO.RESENT.COUNT [31:0] -/
def STO.RESENT_COUNT : Fld := ⟨279, 0x4400138, [], 0, 32, .rc, .val 0x0, .val 0x0, .keep, .shared⟩
/-- STO.TTE.COUNT [31:0] -/
def STO.TTE_COUNT : Fld := ⟨280, 0x4400140, [], 0, 32, .rc, .val 0x0, .val 0x0, .keep, .shared⟩
/-- STO.TCONN.STATE [2:0] -/
def STO.TCONN_STATE : Fld := ⟨281, 0x4401000, [(16384, 0x8)], 0, 3, .ro, .val 0x0, .val 0x0, .keep, .shared⟩
/-- STO.TCONN.POLDER [28:16] -/
def STO.TCONN_POLDER : Fld := ⟨282, 0x4401000, [(16384, 0x8)], 16, 13, .ro, .val 0x0, .val 0x0, .keep, .shared⟩
/-- STO.PVF.FUNC [12:0] -/
def STO.PVF_FUNC : Fld := ⟨283, 0x4421000, [(1024, 0x8)], 0, 13, .ro, .val 0x0, .val 0x0, .keep, .shared⟩
/-- STO.PVF.EN [16:16] -/
def STO.PVF_EN : Fld := ⟨284, 0x4421000, [(1024, 0x8)], 16, 1, .ro, .val 0x0, .val 0x0, .keep, .shared⟩
/-- STO.PVF.NSCOUNT [24:20] -/
def STO.PVF_NSCOUNT : Fld := ⟨285, 0x4421000, [(1024, 0x8)], 20, 5, .ro, .val 0x0, .val 0x0, .keep, .shared⟩

/-! The CIP registers: rule R279 of 10_cipher_keystore.md. -/

/-- CIP.CFG.RCORES [3:0] -/
def CIP.CFG_RCORES : Fld := ⟨286, 0x4800000, [], 0, 4, .rw, .val 0x2, .val 0x2, .keep, .shared⟩
/-- CIP.STATUS.CORES [31:0] -/
def CIP.STATUS_CORES : Fld := ⟨287, 0x4800008, [], 0, 32, .ro, .val 0x0, .val 0x0, .keep, .shared⟩
/-- CIP.STATUS.TAMPER [32:32] -/
def CIP.STATUS_TAMPER : Fld := ⟨288, 0x4800008, [], 32, 1, .ro, .val 0x0, .val 0x0, .keep, .shared⟩
/-- CIP.ONWARD.COUNT [63:0] -/
def CIP.ONWARD_COUNT : Fld := ⟨289, 0x4800010, [], 0, 64, .rc, .val 0x0, .val 0x0, .keep, .shared⟩
/-- CIP.RETURN.COUNT [63:0] -/
def CIP.RETURN_COUNT : Fld := ⟨290, 0x4800018, [], 0, 64, .rc, .val 0x0, .val 0x0, .keep, .shared⟩
/-- CIP.QDEPTH.RET [8:0] -/
def CIP.QDEPTH_RET : Fld := ⟨291, 0x4800020, [], 0, 9, .ro, .val 0x0, .val 0x0, .keep, .shared⟩
/-- CIP.QDEPTH.ADM [24:12] -/
def CIP.QDEPTH_ADM : Fld := ⟨292, 0x4800020, [], 12, 13, .ro, .val 0x0, .val 0x0, .keep, .shared⟩
/-- CIP.QDEPTH.ORD [45:32] -/
def CIP.QDEPTH_ORD : Fld := ⟨293, 0x4800020, [], 32, 14, .ro, .val 0x0, .val 0x0, .keep, .shared⟩
/-- CIP.QFULL.ADM [31:0] -/
def CIP.QFULL_ADM : Fld := ⟨294, 0x4800028, [], 0, 32, .rc, .val 0x0, .val 0x0, .keep, .shared⟩
/-- CIP.QFULL.ORD [63:32] -/
def CIP.QFULL_ORD : Fld := ⟨295, 0x4800028, [], 32, 32, .rc, .val 0x0, .val 0x0, .keep, .shared⟩
/-- CIP.LATE.COUNT [31:0] -/
def CIP.LATE_COUNT : Fld := ⟨296, 0x4800030, [], 0, 32, .rc, .val 0x0, .val 0x0, .keep, .shared⟩
/-- CIP.ONFAIL.AUTH [31:0] -/
def CIP.ONFAIL_AUTH : Fld := ⟨297, 0x4800038, [], 0, 32, .rc, .val 0x0, .val 0x0, .keep, .shared⟩
/-- CIP.ONFAIL.OTHER [63:32] -/
def CIP.ONFAIL_OTHER : Fld := ⟨298, 0x4800038, [], 32, 32, .rc, .val 0x0, .val 0x0, .keep, .shared⟩
/-- CIP.REFUSED.COUNT [31:0] -/
def CIP.REFUSED_COUNT : Fld := ⟨299, 0x4800040, [], 0, 32, .rc, .val 0x0, .val 0x0, .keep, .shared⟩
/-- CIP.REFUSED.LAST [39:32] -/
def CIP.REFUSED_LAST : Fld := ⟨300, 0x4800040, [], 32, 8, .ro, .val 0x0, .val 0x0, .keep, .shared⟩
/-- CIP.ENTSTAT.OK [0:0] -/
def CIP.ENTSTAT_OK : Fld := ⟨301, 0x4800048, [], 0, 1, .ro, .val 0x0, .val 0x0, .keep, .shared⟩
/-- CIP.DRBG.STOPPED [13:0] -/
def CIP.DRBG_STOPPED : Fld := ⟨302, 0x4800050, [], 0, 14, .ro, .val 0x0, .val 0x0, .keep, .shared⟩
/-- CIP.RANDZERO.COUNT [31:0] -/
def CIP.RANDZERO_COUNT : Fld := ⟨303, 0x4800058, [], 0, 32, .rc, .val 0x0, .val 0x0, .keep, .shared⟩
/-- CIP.RANDCC.VALUE [63:0] -/
def CIP.RANDCC_VALUE : Fld := ⟨304, 0x4800060, [], 0, 64, .ro, .val 0x0, .val 0x0, .keep, .shared⟩
/-- CIP.CORESTAT.STATE [1:0] -/
def CIP.CORESTAT_STATE : Fld := ⟨305, 0x4800100, [(32, 0x8)], 0, 2, .ro, .val 0x0, .val 0x0, .keep, .shared⟩
/-- CIP.CORESTAT.KATFAIL [2:2] -/
def CIP.CORESTAT_KATFAIL : Fld := ⟨306, 0x4800100, [(32, 0x8)], 2, 1, .ro, .val 0x0, .val 0x0, .keep, .shared⟩

/-! The KEY registers: rule R280 of 10_cipher_keystore.md. -/

/-- KEY.STATUS.ACTIVE [17:0] -/
def KEY.STATUS_ACTIVE : Fld := ⟨307, 0x4c00000, [], 0, 18, .ro, .val 0x0, .val 0x0, .keep, .shared⟩
/-- KEY.STATUS.SESS0 [32:32] -/
def KEY.STATUS_SESS0 : Fld := ⟨308, 0x4c00000, [], 32, 1, .ro, .val 0x0, .val 0x0, .val 0x0, .shared⟩
/-- KEY.STATUS.SESS1 [33:33] -/
def KEY.STATUS_SESS1 : Fld := ⟨309, 0x4c00000, [], 33, 1, .ro, .val 0x0, .val 0x0, .val 0x0, .shared⟩
/-- KEY.REFUSED.COUNT [31:0] -/
def KEY.REFUSED_COUNT : Fld := ⟨310, 0x4c00008, [], 0, 32, .rc, .val 0x0, .val 0x0, .keep, .shared⟩
/-- KEY.REFUSED.LAST [39:32] -/
def KEY.REFUSED_LAST : Fld := ⟨311, 0x4c00008, [], 32, 8, .ro, .val 0x0, .val 0x0, .keep, .shared⟩
/-- KEY.ECC.CE [31:0] -/
def KEY.ECC_CE : Fld := ⟨312, 0x4c00010, [], 0, 32, .rc, .val 0x0, .val 0x0, .keep, .shared⟩
/-- KEY.ECC.UE [63:32] -/
def KEY.ECC_UE : Fld := ⟨313, 0x4c00010, [], 32, 32, .rc, .val 0x0, .val 0x0, .keep, .shared⟩
/-- KEY.TDROP.COUNT [63:0] -/
def KEY.TDROP_COUNT : Fld := ⟨314, 0x4c00018, [], 0, 64, .rc, .val 0x0, .val 0x0, .keep, .shared⟩
/-- KEY.TPOL.DROP [63:0] -/
def KEY.TPOL_DROP : Fld := ⟨315, 0x4c01000, [(128, 0x8)], 0, 64, .rw, .val 0xffffffffffffffff, .keep, .keep, .shared⟩
/-- KEY.SLOT.STATE [1:0] -/
def KEY.SLOT_STATE : Fld := ⟨316, 0x4d00000, [(131072, 0x8)], 0, 2, .ro, .val 0x0, .val 0x0, .val 0x0, .shared⟩
/-- KEY.SLOT.ALG [7:4] -/
def KEY.SLOT_ALG : Fld := ⟨317, 0x4d00000, [(131072, 0x8)], 4, 4, .ro, .val 0x0, .val 0x0, .val 0x0, .shared⟩
/-- KEY.SLOT.DIRS [9:8] -/
def KEY.SLOT_DIRS : Fld := ⟨318, 0x4d00000, [(131072, 0x8)], 8, 2, .ro, .val 0x0, .val 0x0, .val 0x0, .shared⟩
/-- KEY.SLOT.SCOPE [11:10] -/
def KEY.SLOT_SCOPE : Fld := ⟨319, 0x4d00000, [(131072, 0x8)], 10, 2, .ro, .val 0x0, .val 0x0, .val 0x0, .shared⟩
/-- KEY.SLOT.EXPORT [12:12] -/
def KEY.SLOT_EXPORT : Fld := ⟨320, 0x4d00000, [(131072, 0x8)], 12, 1, .ro, .val 0x0, .val 0x0, .val 0x0, .shared⟩
/-- KEY.SLOT.OWNER [28:16] -/
def KEY.SLOT_OWNER : Fld := ⟨321, 0x4d00000, [(131072, 0x8)], 16, 13, .ro, .val 0x0, .val 0x0, .val 0x0, .shared⟩
/-- KEY.SLOT.EXH [31:31] -/
def KEY.SLOT_EXH : Fld := ⟨322, 0x4d00000, [(131072, 0x8)], 31, 1, .ro, .val 0x0, .val 0x0, .val 0x0, .shared⟩

/-! The BAT registers: rule R281 of 10_cipher_keystore.md. -/

/-- BAT.STATE.ST [1:0] -/
def BAT.STATE_ST : Fld := ⟨323, 0x4e00000, [], 0, 2, .ro, .bat, .bat, .keep, .shared⟩
/-- BAT.STATE.BATLOSS [2:2] -/
def BAT.STATE_BATLOSS : Fld := ⟨324, 0x4e00000, [], 2, 1, .ro, .bat, .bat, .keep, .shared⟩
/-- BAT.STATE.RTCVALID [3:3] -/
def BAT.STATE_RTCVALID : Fld := ⟨325, 0x4e00000, [], 3, 1, .ro, .bat, .bat, .keep, .shared⟩
/-- BAT.STATE.BATLOW [4:4] -/
def BAT.STATE_BATLOW : Fld := ⟨326, 0x4e00000, [], 4, 1, .ro, .bat, .bat, .keep, .shared⟩
/-- BAT.RTC.SUB [14:0] -/
def BAT.RTC_SUB : Fld := ⟨327, 0x4e00008, [], 0, 15, .ro, .bat, .bat, .keep, .shared⟩
/-- BAT.RTC.SEC [46:15] -/
def BAT.RTC_SEC : Fld := ⟨328, 0x4e00008, [], 15, 32, .ro, .bat, .bat, .keep, .shared⟩
/-- BAT.TCFG.EN [3:0] -/
def BAT.TCFG_EN : Fld := ⟨329, 0x4e00010, [], 0, 4, .ro, .bat, .bat, .keep, .shared⟩
/-- BAT.TCFG.POL [7:4] -/
def BAT.TCFG_POL : Fld := ⟨330, 0x4e00010, [], 4, 4, .ro, .bat, .bat, .keep, .shared⟩
/-- BAT.TCFG.MESHEN [8:8] -/
def BAT.TCFG_MESHEN : Fld := ⟨331, 0x4e00010, [], 8, 1, .ro, .bat, .bat, .keep, .shared⟩
/-- BAT.TCFG.ACLKMON [9:9] -/
def BAT.TCFG_ACLKMON : Fld := ⟨332, 0x4e00010, [], 9, 1, .ro, .bat, .bat, .keep, .shared⟩
/-- BAT.TCFG.LOCK [15:15] -/
def BAT.TCFG_LOCK : Fld := ⟨333, 0x4e00010, [], 15, 1, .ro, .bat, .bat, .keep, .shared⟩
/-- BAT.LOGSTAT.COUNT [4:0] -/
def BAT.LOGSTAT_COUNT : Fld := ⟨334, 0x4e00018, [], 0, 5, .ro, .bat, .bat, .keep, .shared⟩
/-- BAT.LOGSTAT.NEXT [11:8] -/
def BAT.LOGSTAT_NEXT : Fld := ⟨335, 0x4e00018, [], 8, 4, .ro, .bat, .bat, .keep, .shared⟩
/-- BAT.LOGSTAT.OVERFLOW [23:16] -/
def BAT.LOGSTAT_OVERFLOW : Fld := ⟨336, 0x4e00018, [], 16, 8, .ro, .bat, .bat, .keep, .shared⟩
/-- BAT.LOG.TIME [46:0] -/
def BAT.LOG_TIME : Fld := ⟨337, 0x4e00100, [(16, 0x10)], 0, 47, .ro, .bat, .bat, .keep, .shared⟩
/-- BAT.LOG.SRC [6:0] -/
def BAT.LOG_SRC : Fld := ⟨338, 0x4e00108, [(16, 0x10)], 0, 7, .ro, .bat, .bat, .keep, .shared⟩
/-- BAT.LOG.MAIN [8:8] -/
def BAT.LOG_MAIN : Fld := ⟨339, 0x4e00108, [(16, 0x10)], 8, 1, .ro, .bat, .bat, .keep, .shared⟩
/-- BAT.LOG.VBAT [23:16] -/
def BAT.LOG_VBAT : Fld := ⟨340, 0x4e00108, [(16, 0x10)], 16, 8, .ro, .bat, .bat, .keep, .shared⟩
/-- BAT.LOG.SEQ [63:32] -/
def BAT.LOG_SEQ : Fld := ⟨341, 0x4e00108, [(16, 0x10)], 32, 32, .ro, .bat, .bat, .keep, .shared⟩

/-! The SCH registers: rule R310 of 11_scheduler_shaping.md. -/

/-- SCH.STATUS.READY [0:0] -/
def SCH.STATUS_READY : Fld := ⟨342, 0x5000000, [], 0, 1, .ro, .val 0x0, .val 0x0, .keep, .shared⟩
/-- SCH.POOL.FREE [24:0] -/
def SCH.POOL_FREE : Fld := ⟨343, 0x5000008, [], 0, 25, .ro, .val 0x1000000, .val 0x1000000, .keep, .shared⟩
/-- SCH.POOL.ADMRES [56:32] -/
def SCH.POOL_ADMRES : Fld := ⟨344, 0x5000008, [], 32, 25, .ro, .val 0x0, .val 0x0, .keep, .shared⟩
/-- SCH.POOLDROP.BE [31:0] -/
def SCH.POOLDROP_BE : Fld := ⟨345, 0x5000010, [], 0, 32, .rc, .val 0x0, .val 0x0, .keep, .shared⟩
/-- SCH.POOLDROP.ADM [63:32] -/
def SCH.POOLDROP_ADM : Fld := ⟨346, 0x5000010, [], 32, 32, .rc, .val 0x0, .val 0x0, .keep, .shared⟩
/-- SCH.DDROP.GREEN [31:0] -/
def SCH.DDROP_GREEN : Fld := ⟨347, 0x5000018, [], 0, 32, .rc, .val 0x0, .val 0x0, .keep, .shared⟩
/-- SCH.DDROP.YELLOW [63:32] -/
def SCH.DDROP_YELLOW : Fld := ⟨348, 0x5000018, [], 32, 32, .rc, .val 0x0, .val 0x0, .keep, .shared⟩
/-- SCH.DROPS.RED [31:0] -/
def SCH.DROPS_RED : Fld := ⟨349, 0x5000020, [], 0, 32, .rc, .val 0x0, .val 0x0, .keep, .shared⟩
/-- SCH.DROPS.POLRED [63:32] -/
def SCH.DROPS_POLRED : Fld := ⟨350, 0x5000020, [], 32, 32, .rc, .val 0x0, .val 0x0, .keep, .shared⟩
/-- SCH.QUARDROP.COUNT [31:0] -/
def SCH.QUARDROP_COUNT : Fld := ⟨351, 0x5000028, [], 0, 32, .rc, .val 0x0, .val 0x0, .keep, .shared⟩
/-- SCH.TWINDROP.COUNT [31:0] -/
def SCH.TWINDROP_COUNT : Fld := ⟨352, 0x5000030, [], 0, 32, .rc, .val 0x0, .val 0x0, .keep, .shared⟩
/-- SCH.BADMETER.COUNT [31:0] -/
def SCH.BADMETER_COUNT : Fld := ⟨353, 0x5000038, [], 0, 32, .rc, .val 0x0, .val 0x0, .keep, .shared⟩
/-- SCH.BADMETER.LAST [51:32] -/
def SCH.BADMETER_LAST : Fld := ⟨354, 0x5000038, [], 32, 20, .ro, .val 0x0, .val 0x0, .keep, .shared⟩
/-- SCH.CLASSFIX.COUNT [31:0] -/
def SCH.CLASSFIX_COUNT : Fld := ⟨355, 0x5000040, [], 0, 32, .rc, .val 0x0, .val 0x0, .keep, .shared⟩
/-- SCH.LASTDROP.QUEUE [17:0] -/
def SCH.LASTDROP_QUEUE : Fld := ⟨356, 0x5000048, [], 0, 18, .ro, .val 0x0, .val 0x0, .keep, .shared⟩
/-- SCH.LASTDROP.CAUSE [26:24] -/
def SCH.LASTDROP_CAUSE : Fld := ⟨357, 0x5000048, [], 24, 3, .ro, .val 0x0, .val 0x0, .keep, .shared⟩
/-- SCH.PORT.OVH [5:0] -/
def SCH.PORT_OVH : Fld := ⟨358, 0x5000100, [(16, 0x8)], 0, 6, .rw, .val 0x14, .val 0x14, .keep, .shared⟩
/-- SCH.PORT.LINEINC [63:32] -/
def SCH.PORT_LINEINC : Fld := ⟨359, 0x5000100, [(16, 0x8)], 32, 32, .ro, .val 0x0, .val 0x0, .keep, .shared⟩
/-- SCH.NSTG.DATA [63:0] -/
def SCH.NSTG_DATA : Fld := ⟨360, 0x5001000, [(8, 0x8)], 0, 64, .rw, .val 0x0, .val 0x0, .val 0x0, .perPf⟩
/-- SCH.NCMD.OP [1:0] -/
def SCH.NCMD_OP : Fld := ⟨361, 0x5001040, [], 0, 2, .wo, .val 0x0, .val 0x0, .val 0x0, .perPf⟩
/-- SCH.NCMD.LEVEL [6:4] -/
def SCH.NCMD_LEVEL : Fld := ⟨362, 0x5001040, [], 4, 3, .wo, .val 0x0, .val 0x0, .val 0x0, .perPf⟩
/-- SCH.NCMD.NODE [49:32] -/
def SCH.NCMD_NODE : Fld := ⟨363, 0x5001040, [], 32, 18, .wo, .val 0x0, .val 0x0, .val 0x0, .perPf⟩
/-- SCH.NSTAT.BUSY [0:0] -/
def SCH.NSTAT_BUSY : Fld := ⟨364, 0x5001048, [], 0, 1, .ro, .val 0x0, .val 0x0, .val 0x0, .perPf⟩
/-- SCH.NSTAT.RESULT [3:1] -/
def SCH.NSTAT_RESULT : Fld := ⟨365, 0x5001048, [], 1, 3, .ro, .val 0x0, .val 0x0, .val 0x0, .perPf⟩
/-- SCH.NSTAT.IGNORED [15:8] -/
def SCH.NSTAT_IGNORED : Fld := ⟨366, 0x5001048, [], 8, 8, .rc, .val 0x0, .val 0x0, .val 0x0, .perPf⟩

/-! The SLU registers: rule R335 of 12_time_gates.md. -/

/-- SLU.TCTL.OWNER [0:0] -/
def SLU.TCTL_OWNER : Fld := ⟨367, 0x5800000, [], 0, 1, .ro, .val 0x0, .keep, .keep, .shared⟩
/-- SLU.TCTL.PPSW [15:8] -/
def SLU.TCTL_PPSW : Fld := ⟨368, 0x5800000, [], 8, 8, .rw, .val 0x1, .keep, .keep, .shared⟩
/-- SLU.TCTL.PPSEN [16:16] -/
def SLU.TCTL_PPSEN : Fld := ⟨369, 0x5800000, [], 16, 1, .rw, .val 0x0, .keep, .keep, .shared⟩
/-- SLU.TNOWLO.NS [31:0] -/
def SLU.TNOWLO_NS : Fld := ⟨370, 0x5800008, [], 0, 32, .ro, .val 0x0, .keep, .keep, .shared⟩
/-- SLU.TNOWLO.FRAC [47:32] -/
def SLU.TNOWLO_FRAC : Fld := ⟨371, 0x5800008, [], 32, 16, .ro, .val 0x0, .keep, .keep, .shared⟩
/-- SLU.TNOWHI.SEC [47:0] -/
def SLU.TNOWHI_SEC : Fld := ⟨372, 0x5800010, [], 0, 48, .ro, .val 0x0, .keep, .keep, .perPf⟩
/-- SLU.TSETLO.NS [31:0] -/
def SLU.TSETLO_NS : Fld := ⟨373, 0x5800018, [], 0, 32, .rw, .val 0x0, .keep, .keep, .shared⟩
/-- SLU.TSETHI.SEC [47:0] -/
def SLU.TSETHI_SEC : Fld := ⟨374, 0x5800020, [], 0, 48, .rw, .val 0x0, .keep, .keep, .shared⟩
/-- SLU.TOFF.OFF [31:0] -/
def SLU.TOFF_OFF : Fld := ⟨375, 0x5800028, [], 0, 32, .rw, .val 0x0, .keep, .keep, .shared⟩
/-- SLU.TRATE.RATE [31:0] -/
def SLU.TRATE_RATE : Fld := ⟨376, 0x5800030, [], 0, 32, .rw, .val 0x0, .keep, .keep, .shared⟩
/-- SLU.TCMD.OP [1:0] -/
def SLU.TCMD_OP : Fld := ⟨377, 0x5800038, [], 0, 2, .wo, .val 0x0, .val 0x0, .keep, .shared⟩
/-- SLU.TSTAT.STEPS [15:0] -/
def SLU.TSTAT_STEPS : Fld := ⟨378, 0x5800040, [], 0, 16, .rc, .val 0x0, .val 0x0, .keep, .shared⟩
/-- SLU.TSTAT.IGNORED [31:16] -/
def SLU.TSTAT_IGNORED : Fld := ⟨379, 0x5800040, [], 16, 16, .rc, .val 0x0, .val 0x0, .keep, .shared⟩
/-- SLU.TSTAT.CLAMP [32:32] -/
def SLU.TSTAT_CLAMP : Fld := ⟨380, 0x5800040, [], 32, 1, .ro, .val 0x0, .val 0x0, .keep, .shared⟩
/-- SLU.TSTAT.PPSV [33:33] -/
def SLU.TSTAT_PPSV : Fld := ⟨381, 0x5800040, [], 33, 1, .rw1c, .val 0x0, .val 0x0, .keep, .shared⟩
/-- SLU.PPSCAP.NS [31:0] -/
def SLU.PPSCAP_NS : Fld := ⟨382, 0x5800048, [], 0, 32, .ro, .val 0x0, .val 0x0, .keep, .shared⟩
/-- SLU.PPSCAP.SEC [63:32] -/
def SLU.PPSCAP_SEC : Fld := ⟨383, 0x5800048, [], 32, 32, .ro, .val 0x0, .val 0x0, .keep, .shared⟩
/-- SLU.PCTL.MODE [1:0] -/
def SLU.PCTL_MODE : Fld := ⟨384, 0x5801000, [(16, 0x100)], 0, 2, .ro, .val 0x0, .val 0x0, .keep, .shared⟩
/-- SLU.PCTL.FSET [5:4] -/
def SLU.PCTL_FSET : Fld := ⟨385, 0x5801000, [(16, 0x100)], 4, 2, .ro, .val 0x0, .val 0x0, .keep, .shared⟩
/-- SLU.PCTL.LENAWARE [8:8] -/
def SLU.PCTL_LENAWARE : Fld := ⟨386, 0x5801000, [(16, 0x100)], 8, 1, .ro, .val 0x0, .val 0x0, .keep, .shared⟩
/-- SLU.PCTL.CHANGE [16:16] -/
def SLU.PCTL_CHANGE : Fld := ⟨387, 0x5801000, [(16, 0x100)], 16, 1, .wo, .val 0x0, .val 0x0, .keep, .shared⟩
/-- SLU.PCTL.CANCEL [17:17] -/
def SLU.PCTL_CANCEL : Fld := ⟨388, 0x5801000, [(16, 0x100)], 17, 1, .wo, .val 0x0, .val 0x0, .keep, .shared⟩
/-- SLU.PSTAT.STATE [1:0] -/
def SLU.PSTAT_STATE : Fld := ⟨389, 0x5801008, [(16, 0x100)], 0, 2, .ro, .val 0x0, .val 0x0, .keep, .shared⟩
/-- SLU.PSTAT.PENDING [2:2] -/
def SLU.PSTAT_PENDING : Fld := ⟨390, 0x5801008, [(16, 0x100)], 2, 1, .ro, .val 0x0, .val 0x0, .keep, .shared⟩
/-- SLU.PSTAT.COPYING [3:3] -/
def SLU.PSTAT_COPYING : Fld := ⟨391, 0x5801008, [(16, 0x100)], 3, 1, .ro, .val 0x0, .val 0x0, .keep, .shared⟩
/-- SLU.PSTAT.RESULT [7:4] -/
def SLU.PSTAT_RESULT : Fld := ⟨392, 0x5801008, [(16, 0x100)], 4, 4, .ro, .val 0x0, .val 0x0, .keep, .shared⟩
/-- SLU.PSTAT.ENTRY [19:8] -/
def SLU.PSTAT_ENTRY : Fld := ⟨393, 0x5801008, [(16, 0x100)], 8, 12, .ro, .val 0x0, .val 0x0, .keep, .shared⟩
/-- SLU.PSTAT.GATES [31:24] -/
def SLU.PSTAT_GATES : Fld := ⟨394, 0x5801008, [(16, 0x100)], 24, 8, .ro, .val 0xff, .val 0xff, .keep, .shared⟩
/-- SLU.PSTAT.HOLD [32:32] -/
def SLU.PSTAT_HOLD : Fld := ⟨395, 0x5801008, [(16, 0x100)], 32, 1, .ro, .val 0x0, .val 0x0, .keep, .shared⟩
/-- SLU.PT0LO.NS [31:0] -/
def SLU.PT0LO_NS : Fld := ⟨396, 0x5801010, [(16, 0x100)], 0, 32, .ro, .val 0x0, .val 0x0, .keep, .shared⟩
/-- SLU.PT0HI.SEC [47:0] -/
def SLU.PT0HI_SEC : Fld := ⟨397, 0x5801018, [(16, 0x100)], 0, 48, .ro, .val 0x0, .val 0x0, .keep, .shared⟩
/-- SLU.CMAX0.CMAX [63:0] -/
def SLU.CMAX0_CMAX : Fld := ⟨398, 0x5801020, [(16, 0x100)], 0, 64, .ro, .val 0x0, .val 0x0, .keep, .shared⟩
/-- SLU.CMAX1.CMAX [63:0] -/
def SLU.CMAX1_CMAX : Fld := ⟨399, 0x5801028, [(16, 0x100)], 0, 64, .ro, .val 0x0, .val 0x0, .keep, .shared⟩
/-- SLU.BERM.BERM [63:0] -/
def SLU.BERM_BERM : Fld := ⟨400, 0x5801030, [(16, 0x100)], 0, 64, .ro, .val 0x0, .val 0x0, .keep, .shared⟩
/-- SLU.CBASELO.NS [31:0] -/
def SLU.CBASELO_NS : Fld := ⟨401, 0x5801038, [(16, 0x100)], 0, 32, .ro, .val 0x0, .val 0x0, .keep, .shared⟩
/-- SLU.CBASEHI.SEC [47:0] -/
def SLU.CBASEHI_SEC : Fld := ⟨402, 0x5801040, [(16, 0x100)], 0, 48, .ro, .val 0x0, .val 0x0, .keep, .shared⟩
/-- SLU.CCYCLE.CYCLE [26:0] -/
def SLU.CCYCLE_CYCLE : Fld := ⟨403, 0x5801048, [(16, 0x100)], 0, 27, .ro, .val 0x0, .val 0x0, .keep, .shared⟩
/-- SLU.CCYCLE.LEN [38:32] -/
def SLU.CCYCLE_LEN : Fld := ⟨404, 0x5801048, [(16, 0x100)], 32, 7, .ro, .val 0x0, .val 0x0, .keep, .shared⟩
/-- SLU.PTPCFG.OSMODE [0:0] -/
def SLU.PTPCFG_OSMODE : Fld := ⟨405, 0x5801050, [(16, 0x100)], 0, 1, .rw, .val 0x0, .val 0x0, .keep, .shared⟩
/-- SLU.TXTSSTAT.COUNT [6:0] -/
def SLU.TXTSSTAT_COUNT : Fld := ⟨406, 0x5801058, [(16, 0x100)], 0, 7, .ro, .val 0x0, .val 0x0, .keep, .shared⟩
/-- SLU.TXTSSTAT.OVF [63:32] -/
def SLU.TXTSSTAT_OVF : Fld := ⟨407, 0x5801058, [(16, 0x100)], 32, 32, .rc, .val 0x0, .val 0x0, .keep, .shared⟩
/-- SLU.TXTSA.MARK [31:0] -/
def SLU.TXTSA_MARK : Fld := ⟨408, 0x5801060, [(16, 0x100)], 0, 32, .rp, .val 0x0, .val 0x0, .keep, .shared⟩
/-- SLU.TXTSA.NS [63:32] -/
def SLU.TXTSA_NS : Fld := ⟨409, 0x5801060, [(16, 0x100)], 32, 32, .rp, .val 0x0, .val 0x0, .keep, .shared⟩
/-- SLU.TXTSB.SEC [47:0] -/
def SLU.TXTSB_SEC : Fld := ⟨410, 0x5801068, [(16, 0x100)], 0, 48, .ro, .val 0x0, .val 0x0, .keep, .shared⟩
/-- SLU.TXTSB.FRAC [63:48] -/
def SLU.TXTSB_FRAC : Fld := ⟨411, 0x5801068, [(16, 0x100)], 48, 16, .ro, .val 0x0, .val 0x0, .keep, .shared⟩
/-- SLU.PDROP.LONG [31:0] -/
def SLU.PDROP_LONG : Fld := ⟨412, 0x5801070, [(16, 0x100)], 0, 32, .rc, .val 0x0, .val 0x0, .keep, .shared⟩
/-- SLU.PDROP.OSMISS [63:32] -/
def SLU.PDROP_OSMISS : Fld := ⟨413, 0x5801070, [(16, 0x100)], 32, 32, .rc, .val 0x0, .val 0x0, .keep, .shared⟩
/-- SLU.CENT.ENTRY [63:0] -/
def SLU.CENT_ENTRY : Fld := ⟨414, 0x5808000, [(16, 0x200), (64, 0x8)], 0, 64, .ro, .val 0x0, .val 0x0, .keep, .shared⟩
/-- SLU.FABASELO.NS [31:0] -/
def SLU.FABASELO_NS : Fld := ⟨415, 0x5810000, [(4, 0x20000)], 0, 32, .ro, .val 0x0, .val 0x0, .keep, .shared⟩
/-- SLU.FABASEHI.SEC [47:0] -/
def SLU.FABASEHI_SEC : Fld := ⟨416, 0x5810008, [(4, 0x20000)], 0, 48, .ro, .val 0x0, .val 0x0, .keep, .shared⟩
/-- SLU.FACYCLE.CYCLE [26:0] -/
def SLU.FACYCLE_CYCLE : Fld := ⟨417, 0x5810010, [(4, 0x20000)], 0, 27, .ro, .val 0x0, .val 0x0, .keep, .shared⟩
/-- SLU.FACYCLE.LEN [44:32] -/
def SLU.FACYCLE_LEN : Fld := ⟨418, 0x5810010, [(4, 0x20000)], 32, 13, .ro, .val 0x0, .val 0x0, .keep, .shared⟩
/-- SLU.FAEXT.EXT [26:0] -/
def SLU.FAEXT_EXT : Fld := ⟨419, 0x5810018, [(4, 0x20000)], 0, 27, .ro, .val 0x0, .val 0x0, .keep, .shared⟩
/-- SLU.FOBASELO.NS [31:0] -/
def SLU.FOBASELO_NS : Fld := ⟨420, 0x5810100, [(4, 0x20000)], 0, 32, .ro, .val 0x0, .val 0x0, .keep, .shared⟩
/-- SLU.FOBASEHI.SEC [47:0] -/
def SLU.FOBASEHI_SEC : Fld := ⟨421, 0x5810108, [(4, 0x20000)], 0, 48, .ro, .val 0x0, .val 0x0, .keep, .shared⟩
/-- SLU.FOCYCLE.CYCLE [26:0] -/
def SLU.FOCYCLE_CYCLE : Fld := ⟨422, 0x5810110, [(4, 0x20000)], 0, 27, .ro, .val 0x0, .val 0x0, .keep, .shared⟩
/-- SLU.FOCYCLE.LEN [44:32] -/
def SLU.FOCYCLE_LEN : Fld := ⟨423, 0x5810110, [(4, 0x20000)], 32, 13, .ro, .val 0x0, .val 0x0, .keep, .shared⟩
/-- SLU.FOEXT.EXT [26:0] -/
def SLU.FOEXT_EXT : Fld := ⟨424, 0x5810118, [(4, 0x20000)], 0, 27, .ro, .val 0x0, .val 0x0, .keep, .shared⟩
/-- SLU.FSTAT.PORT [3:0] -/
def SLU.FSTAT_PORT : Fld := ⟨425, 0x5810120, [(4, 0x20000)], 0, 4, .ro, .val 0x0, .val 0x0, .keep, .shared⟩
/-- SLU.FSTAT.INUSE [4:4] -/
def SLU.FSTAT_INUSE : Fld := ⟨426, 0x5810120, [(4, 0x20000)], 4, 1, .ro, .val 0x0, .val 0x0, .keep, .shared⟩
/-- SLU.FAENT.ENTRY [63:0] -/
def SLU.FAENT_ENTRY : Fld := ⟨427, 0x5818000, [(4, 0x20000), (4096, 0x8)], 0, 64, .ro, .val 0x0, .val 0x0, .keep, .shared⟩
/-- SLU.FOENT.ENTRY [63:0] -/
def SLU.FOENT_ENTRY : Fld := ⟨428, 0x5820000, [(4, 0x20000), (4096, 0x8)], 0, 64, .ro, .val 0x0, .val 0x0, .keep, .shared⟩

/-! The ADM registers: rule R366 of 13_admission_guarantees.md. -/

/-- ADM.CFG.MINMARGIN [31:0] -/
def ADM.CFG_MINMARGIN : Fld := ⟨429, 0x5c00000, [], 0, 32, .ro, .val 0x3e8, .val 0x3e8, .keep, .shared⟩
/-- ADM.CFG.ESHARE [39:32] -/
def ADM.CFG_ESHARE : Fld := ⟨430, 0x5c00000, [], 32, 8, .ro, .val 0x32, .val 0x32, .keep, .shared⟩
/-- ADM.CFG.CSHARE [47:40] -/
def ADM.CFG_CSHARE : Fld := ⟨431, 0x5c00000, [], 40, 8, .ro, .val 0x50, .val 0x50, .keep, .shared⟩
/-- ADM.CFG.HSHARE [55:48] -/
def ADM.CFG_HSHARE : Fld := ⟨432, 0x5c00000, [], 48, 8, .ro, .val 0x32, .val 0x32, .keep, .shared⟩
/-- ADM.EXPRES.BYTES [25:0] -/
def ADM.EXPRES_BYTES : Fld := ⟨433, 0x5c00008, [], 0, 26, .ro, .val 0x1c00000, .val 0x1c00000, .keep, .shared⟩
/-- ADM.STATUS.READY [0:0] -/
def ADM.STATUS_READY : Fld := ⟨434, 0x5c00010, [], 0, 1, .ro, .val 0x0, .val 0x0, .keep, .shared⟩
/-- ADM.STATUS.COMPILING [1:1] -/
def ADM.STATUS_COMPILING : Fld := ⟨435, 0x5c00010, [], 1, 1, .ro, .val 0x0, .val 0x0, .keep, .shared⟩
/-- ADM.STATUS.QUEUED [8:4] -/
def ADM.STATUS_QUEUED : Fld := ⟨436, 0x5c00010, [], 4, 5, .ro, .val 0x0, .val 0x0, .keep, .shared⟩
/-- ADM.STATUS.DEGRADED [16:16] -/
def ADM.STATUS_DEGRADED : Fld := ⟨437, 0x5c00010, [], 16, 1, .ro, .val 0x0, .val 0x0, .keep, .shared⟩
/-- ADM.EPOCH.EPOCH [31:0] -/
def ADM.EPOCH_EPOCH : Fld := ⟨438, 0x5c00018, [], 0, 32, .ro, .val 0x0, .val 0x0, .keep, .shared⟩
/-- ADM.ACT.NS [31:0] -/
def ADM.ACT_NS : Fld := ⟨439, 0x5c00020, [], 0, 32, .ro, .val 0x0, .val 0x0, .keep, .shared⟩
/-- ADM.ACT.SEC [63:32] -/
def ADM.ACT_SEC : Fld := ⟨440, 0x5c00020, [], 32, 32, .ro, .val 0x0, .val 0x0, .keep, .shared⟩
/-- ADM.COUNT.CR [15:0] -/
def ADM.COUNT_CR : Fld := ⟨441, 0x5c00028, [], 0, 16, .ro, .val 0x0, .val 0x0, .keep, .shared⟩
/-- ADM.COUNT.TG [31:16] -/
def ADM.COUNT_TG : Fld := ⟨442, 0x5c00028, [], 16, 16, .ro, .val 0x0, .val 0x0, .keep, .shared⟩
/-- ADM.COUNT.SAF [47:32] -/
def ADM.COUNT_SAF : Fld := ⟨443, 0x5c00028, [], 32, 16, .ro, .val 0x0, .val 0x0, .keep, .shared⟩
/-- ADM.LAST.RESULT [7:0] -/
def ADM.LAST_RESULT : Fld := ⟨444, 0x5c00030, [], 0, 8, .ro, .val 0x0, .val 0x0, .keep, .shared⟩
/-- ADM.LAST.STAGE [11:8] -/
def ADM.LAST_STAGE : Fld := ⟨445, 0x5c00030, [], 8, 4, .ro, .val 0x0, .val 0x0, .keep, .shared⟩
/-- ADM.LAST.UNIT [14:12] -/
def ADM.LAST_UNIT : Fld := ⟨446, 0x5c00030, [], 12, 3, .ro, .val 0x0, .val 0x0, .keep, .shared⟩
/-- ADM.LAST.FAILIDX [23:16] -/
def ADM.LAST_FAILIDX : Fld := ⟨447, 0x5c00030, [], 16, 8, .ro, .val 0x0, .val 0x0, .keep, .shared⟩
/-- ADM.LAST.FAILNUM [51:32] -/
def ADM.LAST_FAILNUM : Fld := ⟨448, 0x5c00030, [], 32, 20, .ro, .val 0x0, .val 0x0, .keep, .shared⟩
/-- ADM.SHORT.SHORTFALL [63:0] -/
def ADM.SHORT_SHORTFALL : Fld := ⟨449, 0x5c00038, [], 0, 64, .ro, .val 0x0, .val 0x0, .keep, .shared⟩
/-- ADM.REFUSED.COUNT [31:0] -/
def ADM.REFUSED_COUNT : Fld := ⟨450, 0x5c00040, [], 0, 32, .rc, .val 0x0, .val 0x0, .keep, .shared⟩
/-- ADM.BREACHES.COUNT [31:0] -/
def ADM.BREACHES_COUNT : Fld := ⟨451, 0x5c00048, [], 0, 32, .rc, .val 0x0, .val 0x0, .keep, .shared⟩
/-- ADM.RESV.EXPUSED [25:0] -/
def ADM.RESV_EXPUSED : Fld := ⟨452, 0x5c00050, [], 0, 26, .ro, .val 0x0, .val 0x0, .keep, .shared⟩
/-- ADM.RESV.POOLUSED [55:32] -/
def ADM.RESV_POOLUSED : Fld := ⟨453, 0x5c00050, [], 32, 24, .ro, .val 0x0, .val 0x0, .keep, .shared⟩
/-- ADM.CSTAT.STATE [2:0] -/
def ADM.CSTAT_STATE : Fld := ⟨454, 0x5d00000, [(65536, 0x8)], 0, 3, .ro, .val 0x0, .val 0x0, .keep, .shared⟩
/-- ADM.CSTAT.CCLASS [5:4] -/
def ADM.CSTAT_CCLASS : Fld := ⟨455, 0x5d00000, [(65536, 0x8)], 4, 2, .ro, .val 0x0, .val 0x0, .keep, .shared⟩
/-- ADM.CSTAT.POLDER [28:16] -/
def ADM.CSTAT_POLDER : Fld := ⟨456, 0x5d00000, [(65536, 0x8)], 16, 13, .ro, .val 0x0, .val 0x0, .keep, .shared⟩
/-- ADM.CSTAT.EPOCH [63:32] -/
def ADM.CSTAT_EPOCH : Fld := ⟨457, 0x5d00000, [(65536, 0x8)], 32, 32, .ro, .val 0x0, .val 0x0, .keep, .shared⟩

/-! The DUP registers: rule R391 of 14_redundant_paths.md. -/

/-- DUP.CFG.HBINT [13:0] -/
def DUP.CFG_HBINT : Fld := ⟨458, 0x6000000, [], 0, 14, .ro, .val 0x3e8, .val 0x3e8, .keep, .shared⟩
/-- DUP.CFG.HBCLASS [18:16] -/
def DUP.CFG_HBCLASS : Fld := ⟨459, 0x6000000, [], 16, 3, .ro, .val 0x7, .val 0x7, .keep, .shared⟩
/-- DUP.CFG.RXSTRIP [20:20] -/
def DUP.CFG_RXSTRIP : Fld := ⟨460, 0x6000000, [], 20, 1, .ro, .val 0x1, .val 0x1, .keep, .shared⟩
/-- DUP.CFG.TXSTRIP [21:21] -/
def DUP.CFG_TXSTRIP : Fld := ⟨461, 0x6000000, [], 21, 1, .ro, .val 0x1, .val 0x1, .keep, .shared⟩
/-- DUP.CFG.FORGET [41:32] -/
def DUP.CFG_FORGET : Fld := ⟨462, 0x6000000, [], 32, 10, .ro, .val 0x190, .val 0x190, .keep, .shared⟩
/-- DUP.CFG.SIZE [52:48] -/
def DUP.CFG_SIZE : Fld := ⟨463, 0x6000000, [], 48, 5, .ro, .val 0x0, .val 0x0, .keep, .shared⟩
/-- DUP.CFG.GLIM [63:56] -/
def DUP.CFG_GLIM : Fld := ⟨464, 0x6000000, [], 56, 8, .ro, .val 0x0, .val 0x0, .keep, .shared⟩
/-- DUP.SRCAREA.TABBASE [14:0] -/
def DUP.SRCAREA_TABBASE : Fld := ⟨465, 0x6000008, [], 0, 15, .ro, .val 0x0, .val 0x0, .keep, .shared⟩
/-- DUP.SRCAREA.WINBASE [46:32] -/
def DUP.SRCAREA_WINBASE : Fld := ⟨466, 0x6000008, [], 32, 15, .ro, .val 0x0, .val 0x0, .keep, .shared⟩
/-- DUP.PRP.TABLE [3:0] -/
def DUP.PRP_TABLE : Fld := ⟨467, 0x6000010, [], 0, 4, .ro, .val 0x0, .val 0x0, .keep, .shared⟩
/-- DUP.PRP.PRPBASE [39:20] -/
def DUP.PRP_PRPBASE : Fld := ⟨468, 0x6000010, [], 20, 20, .ro, .val 0x0, .val 0x0, .keep, .shared⟩
/-- DUP.PRP.EN [48:48] -/
def DUP.PRP_EN : Fld := ⟨469, 0x6000010, [], 48, 1, .ro, .val 0x0, .val 0x0, .keep, .shared⟩
/-- DUP.HBDA.DA [47:0] -/
def DUP.HBDA_DA : Fld := ⟨470, 0x6000018, [], 0, 48, .ro, .val 0x348510000a0, .val 0x348510000a0, .keep, .shared⟩
/-- DUP.HBSA.SA [47:0] -/
def DUP.HBSA_SA : Fld := ⟨471, 0x6000020, [], 0, 48, .ro, .otp, .otp, .keep, .shared⟩
/-- DUP.QCFG.QTHR [15:0] -/
def DUP.QCFG_QTHR : Fld := ⟨472, 0x6000028, [], 0, 16, .ro, .val 0xff, .val 0xff, .keep, .shared⟩
/-- DUP.QCFG.QEXIT [31:16] -/
def DUP.QCFG_QEXIT : Fld := ⟨473, 0x6000028, [], 16, 16, .ro, .val 0x0, .val 0x0, .keep, .shared⟩
/-- DUP.QCFG.QHOLD [39:32] -/
def DUP.QCFG_QHOLD : Fld := ⟨474, 0x6000028, [], 32, 8, .ro, .val 0xa, .val 0xa, .keep, .shared⟩
/-- DUP.QCFG.RSYNC [43:40] -/
def DUP.QCFG_RSYNC : Fld := ⟨475, 0x6000028, [], 40, 4, .ro, .val 0x4, .val 0x4, .keep, .shared⟩
/-- DUP.QCFG.RSMAX [63:48] -/
def DUP.QCFG_RSMAX : Fld := ⟨476, 0x6000028, [], 48, 16, .ro, .val 0x400, .val 0x400, .keep, .shared⟩
/-- DUP.PAIR.PORT1 [3:0] -/
def DUP.PAIR_PORT1 : Fld := ⟨477, 0x6000100, [(2, 0x40)], 0, 4, .ro, .special, .special, .keep, .shared⟩
/-- DUP.PAIR.PORT2 [11:8] -/
def DUP.PAIR_PORT2 : Fld := ⟨478, 0x6000100, [(2, 0x40)], 8, 4, .ro, .special, .special, .keep, .shared⟩
/-- DUP.PAIR.EN [16:16] -/
def DUP.PAIR_EN : Fld := ⟨479, 0x6000100, [(2, 0x40)], 16, 1, .ro, .val 0x0, .val 0x0, .keep, .shared⟩
/-- DUP.PSTAT.STATE1 [2:0] -/
def DUP.PSTAT_STATE1 : Fld := ⟨480, 0x6000108, [(2, 0x40)], 0, 3, .ro, .val 0x4, .val 0x4, .keep, .shared⟩
/-- DUP.PSTAT.STATE2 [10:8] -/
def DUP.PSTAT_STATE2 : Fld := ⟨481, 0x6000108, [(2, 0x40)], 8, 3, .ro, .val 0x4, .val 0x4, .keep, .shared⟩
/-- DUP.PSTAT.PEERLOST [16:16] -/
def DUP.PSTAT_PEERLOST : Fld := ⟨482, 0x6000108, [(2, 0x40)], 16, 1, .ro, .val 0x0, .val 0x0, .keep, .shared⟩
/-- DUP.ILK.EN [0:0] -/
def DUP.ILK_EN : Fld := ⟨483, 0x6000200, [], 0, 1, .ro, .val 0x0, .val 0x0, .keep, .shared⟩
/-- DUP.ILK.PRIO [1:1] -/
def DUP.ILK_PRIO : Fld := ⟨484, 0x6000200, [], 1, 1, .ro, .val 0x0, .val 0x0, .keep, .shared⟩
/-- DUP.ILK.ROLE [9:8] -/
def DUP.ILK_ROLE : Fld := ⟨485, 0x6000200, [], 8, 2, .ro, .val 0x0, .val 0x0, .keep, .shared⟩
/-- DUP.ILK.CABLE [13:12] -/
def DUP.ILK_CABLE : Fld := ⟨486, 0x6000200, [], 12, 2, .ro, .val 0x0, .val 0x0, .keep, .shared⟩
/-- DUP.ILK.INBAND [17:16] -/
def DUP.ILK_INBAND : Fld := ⟨487, 0x6000200, [], 16, 2, .ro, .val 0x0, .val 0x0, .keep, .shared⟩
/-- DUP.ILKID.ID [63:0] -/
def DUP.ILKID_ID : Fld := ⟨488, 0x6000208, [], 0, 64, .ro, .otp, .otp, .keep, .shared⟩
/-- DUP.ILKPARTNER.ID [63:0] -/
def DUP.ILKPARTNER_ID : Fld := ⟨489, 0x6000210, [], 0, 64, .ro, .val 0x0, .val 0x0, .keep, .shared⟩
/-- DUP.ILKSTAT.EPOCH [31:0] -/
def DUP.ILKSTAT_EPOCH : Fld := ⟨490, 0x6000218, [], 0, 32, .ro, .val 0x0, .val 0x0, .keep, .shared⟩
/-- DUP.ILKSTAT.TAKEOVERS [47:32] -/
def DUP.ILKSTAT_TAKEOVERS : Fld := ⟨491, 0x6000218, [], 32, 16, .rc, .val 0x0, .val 0x0, .keep, .shared⟩
/-- DUP.PXRANGE.BASE [17:0] -/
def DUP.PXRANGE_BASE : Fld := ⟨492, 0x6000300, [(16, 0x8)], 0, 18, .ro, .val 0x0, .val 0x0, .keep, .shared⟩
/-- DUP.PXRANGE.KIND [18:18] -/
def DUP.PXRANGE_KIND : Fld := ⟨493, 0x6000300, [(16, 0x8)], 18, 1, .ro, .val 0x0, .val 0x0, .keep, .shared⟩
/-- DUP.PXRANGE.COUNT [41:24] -/
def DUP.PXRANGE_COUNT : Fld := ⟨494, 0x6000300, [(16, 0x8)], 24, 18, .ro, .val 0x0, .val 0x0, .keep, .shared⟩
/-- DUP.PXRANGE.EN [48:48] -/
def DUP.PXRANGE_EN : Fld := ⟨495, 0x6000300, [(16, 0x8)], 48, 1, .ro, .val 0x0, .val 0x0, .keep, .shared⟩
/-- DUP.HBPEER.ID [63:0] -/
def DUP.HBPEER_ID : Fld := ⟨496, 0x6000400, [(2, 0x40), (8, 0x8)], 0, 64, .ro, .val 0x0, .val 0x0, .keep, .shared⟩
/-- DUP.NOSRC.COUNT [31:0] -/
def DUP.NOSRC_COUNT : Fld := ⟨497, 0x6000800, [], 0, 32, .rc, .val 0x0, .val 0x0, .keep, .shared⟩
/-- DUP.LATEFETCH.COUNT [31:0] -/
def DUP.LATEFETCH_COUNT : Fld := ⟨498, 0x6000808, [], 0, 32, .rc, .val 0x0, .val 0x0, .keep, .shared⟩
/-- DUP.PXSTBY.COUNT [31:0] -/
def DUP.PXSTBY_COUNT : Fld := ⟨499, 0x6000810, [], 0, 32, .rc, .val 0x0, .val 0x0, .keep, .shared⟩
/-- DUP.PERR.CUR [15:0] -/
def DUP.PERR_CUR : Fld := ⟨500, 0x6001000, [(16, 0x100)], 0, 16, .ro, .val 0x0, .val 0x0, .keep, .shared⟩
/-- DUP.PERR.LAST [31:16] -/
def DUP.PERR_LAST : Fld := ⟨501, 0x6001000, [(16, 0x100)], 16, 16, .ro, .val 0x0, .val 0x0, .keep, .shared⟩
/-- DUP.PERR.QUARS [47:32] -/
def DUP.PERR_QUARS : Fld := ⟨502, 0x6001000, [(16, 0x100)], 32, 16, .rc, .val 0x0, .val 0x0, .keep, .shared⟩
/-- DUP.PACC.COUNT [63:0] -/
def DUP.PACC_COUNT : Fld := ⟨503, 0x6001008, [(16, 0x100)], 0, 64, .rc, .val 0x0, .val 0x0, .keep, .shared⟩
/-- DUP.PDUP.COUNT [63:0] -/
def DUP.PDUP_COUNT : Fld := ⟨504, 0x6001010, [(16, 0x100)], 0, 64, .rc, .val 0x0, .val 0x0, .keep, .shared⟩
/-- DUP.PLATE.COUNT [31:0] -/
def DUP.PLATE_COUNT : Fld := ⟨505, 0x6001018, [(16, 0x100)], 0, 32, .rc, .val 0x0, .val 0x0, .keep, .shared⟩
/-- DUP.PRSDROP.COUNT [31:0] -/
def DUP.PRSDROP_COUNT : Fld := ⟨506, 0x6001020, [(16, 0x100)], 0, 32, .rc, .val 0x0, .val 0x0, .keep, .shared⟩
/-- DUP.PQDROP.COUNT [31:0] -/
def DUP.PQDROP_COUNT : Fld := ⟨507, 0x6001028, [(16, 0x100)], 0, 32, .rc, .val 0x0, .val 0x0, .keep, .shared⟩
/-- DUP.PWRONGLAN.COUNT [31:0] -/
def DUP.PWRONGLAN_COUNT : Fld := ⟨508, 0x6001030, [(16, 0x100)], 0, 32, .rc, .val 0x0, .val 0x0, .keep, .shared⟩
/-- DUP.PHB.RX [31:0] -/
def DUP.PHB_RX : Fld := ⟨509, 0x6001038, [(16, 0x100)], 0, 32, .rc, .val 0x0, .val 0x0, .keep, .shared⟩
/-- DUP.PHB.MISS [63:32] -/
def DUP.PHB_MISS : Fld := ⟨510, 0x6001038, [(16, 0x100)], 32, 32, .rc, .val 0x0, .val 0x0, .keep, .shared⟩

/-! The HIF registers: rule R423 of 15_host_interface.md. -/

/-- HIF.CFG.BIFMODE [1:0] -/
def HIF.CFG_BIFMODE : Fld := ⟨511, 0x7000000, [], 0, 2, .ro, .otp, .keep, .keep, .shared⟩
/-- HIF.CFG.CXLEN [4:4] -/
def HIF.CFG_CXLEN : Fld := ⟨512, 0x7000000, [], 4, 1, .ro, .otp, .keep, .keep, .shared⟩
/-- HIF.CFG.TAGADM [23:16] -/
def HIF.CFG_TAGADM : Fld := ⟨513, 0x7000000, [], 16, 8, .rw, .val 0x20, .val 0x20, .keep, .shared⟩
/-- HIF.CFG.TAGCTL [31:24] -/
def HIF.CFG_TAGCTL : Fld := ⟨514, 0x7000000, [], 24, 8, .rw, .val 0x4, .val 0x4, .keep, .shared⟩
/-- HIF.ID.VID [15:0] -/
def HIF.ID_VID : Fld := ⟨515, 0x7000008, [], 0, 16, .ro, .otp, .keep, .keep, .shared⟩
/-- HIF.ID.SSVID [31:16] -/
def HIF.ID_SSVID : Fld := ⟨516, 0x7000008, [], 16, 16, .ro, .otp, .keep, .keep, .shared⟩
/-- HIF.ID.SSID [47:32] -/
def HIF.ID_SSID : Fld := ⟨517, 0x7000008, [], 32, 16, .ro, .otp, .keep, .keep, .shared⟩
/-- HIF.ID.REV [55:48] -/
def HIF.ID_REV : Fld := ⟨518, 0x7000008, [], 48, 8, .ro, .otp, .keep, .keep, .shared⟩
/-- HIF.FLRSTAT.ACTIVE [13:0] -/
def HIF.FLRSTAT_ACTIVE : Fld := ⟨519, 0x7000010, [], 0, 14, .ro, .val 0x0, .val 0x0, .keep, .shared⟩
/-- HIF.FLRSTAT.LASTFN [28:16] -/
def HIF.FLRSTAT_LASTFN : Fld := ⟨520, 0x7000010, [], 16, 13, .ro, .val 0x0, .val 0x0, .keep, .shared⟩
/-- HIF.FLRSTAT.COUNT [63:32] -/
def HIF.FLRSTAT_COUNT : Fld := ⟨521, 0x7000010, [], 32, 32, .rc, .val 0x0, .val 0x0, .keep, .shared⟩
/-- HIF.CXLSTAT.CXL [0:0] -/
def HIF.CXLSTAT_CXL : Fld := ⟨522, 0x7000018, [], 0, 1, .ro, .val 0x0, .val 0x0, .keep, .shared⟩
/-- HIF.CXLSTAT.CACHEEN [1:1] -/
def HIF.CXLSTAT_CACHEEN : Fld := ⟨523, 0x7000018, [], 1, 1, .ro, .val 0x0, .val 0x0, .keep, .shared⟩
/-- HIF.CXLSTAT.LINES [30:16] -/
def HIF.CXLSTAT_LINES : Fld := ⟨524, 0x7000018, [], 16, 15, .ro, .val 0x0, .val 0x0, .keep, .shared⟩
/-- HIF.CXLSNP.COUNT [63:0] -/
def HIF.CXLSNP_COUNT : Fld := ⟨525, 0x7000020, [], 0, 64, .rc, .val 0x0, .val 0x0, .keep, .shared⟩
/-- HIF.LSTAT.UP [0:0] -/
def HIF.LSTAT_UP : Fld := ⟨526, 0x7000100, [(2, 0x100)], 0, 1, .ro, .val 0x0, .val 0x0, .keep, .shared⟩
/-- HIF.LSTAT.FLIT [1:1] -/
def HIF.LSTAT_FLIT : Fld := ⟨527, 0x7000100, [(2, 0x100)], 1, 1, .ro, .val 0x0, .val 0x0, .keep, .shared⟩
/-- HIF.LSTAT.PRESENT [2:2] -/
def HIF.LSTAT_PRESENT : Fld := ⟨528, 0x7000100, [(2, 0x100)], 2, 1, .ro, .val 0x0, .val 0x0, .keep, .shared⟩
/-- HIF.LSTAT.RATE [6:4] -/
def HIF.LSTAT_RATE : Fld := ⟨529, 0x7000100, [(2, 0x100)], 4, 3, .ro, .val 0x0, .val 0x0, .keep, .shared⟩
/-- HIF.LSTAT.WIDTH [12:8] -/
def HIF.LSTAT_WIDTH : Fld := ⟨530, 0x7000100, [(2, 0x100)], 8, 5, .ro, .val 0x0, .val 0x0, .keep, .shared⟩
/-- HIF.LSTAT.FIGURE [47:32] -/
def HIF.LSTAT_FIGURE : Fld := ⟨531, 0x7000100, [(2, 0x100)], 32, 16, .ro, .val 0x0, .val 0x0, .keep, .shared⟩
/-- HIF.TAGS.LIMIT [12:0] -/
def HIF.TAGS_LIMIT : Fld := ⟨532, 0x7000108, [(2, 0x100)], 0, 13, .ro, .val 0x100, .val 0x100, .keep, .shared⟩
/-- HIF.TAGS.INUSE [28:16] -/
def HIF.TAGS_INUSE : Fld := ⟨533, 0x7000108, [(2, 0x100)], 16, 13, .ro, .val 0x0, .val 0x0, .keep, .shared⟩
/-- HIF.TAGS.PEAK [44:32] -/
def HIF.TAGS_PEAK : Fld := ⟨534, 0x7000108, [(2, 0x100)], 32, 13, .ro, .val 0x0, .val 0x0, .keep, .shared⟩
/-- HIF.CPLBUF.USED [22:0] -/
def HIF.CPLBUF_USED : Fld := ⟨535, 0x7000110, [(2, 0x100)], 0, 23, .ro, .val 0x0, .val 0x0, .keep, .shared⟩
/-- HIF.CPLBUF.PEAK [54:32] -/
def HIF.CPLBUF_PEAK : Fld := ⟨536, 0x7000110, [(2, 0x100)], 32, 23, .ro, .val 0x0, .val 0x0, .keep, .shared⟩
/-- HIF.CTO.TIMEOUT [31:0] -/
def HIF.CTO_TIMEOUT : Fld := ⟨537, 0x7000118, [(2, 0x100)], 0, 32, .rc, .val 0x0, .val 0x0, .keep, .shared⟩
/-- HIF.CTO.CPLERR [63:32] -/
def HIF.CTO_CPLERR : Fld := ⟨538, 0x7000118, [(2, 0x100)], 32, 32, .rc, .val 0x0, .val 0x0, .keep, .shared⟩
/-- HIF.UR.COUNT [31:0] -/
def HIF.UR_COUNT : Fld := ⟨539, 0x7000120, [(2, 0x100)], 0, 32, .rc, .val 0x0, .val 0x0, .keep, .shared⟩
/-- HIF.UR.LASTFN [44:32] -/
def HIF.UR_LASTFN : Fld := ⟨540, 0x7000120, [(2, 0x100)], 32, 13, .ro, .val 0x0, .val 0x0, .keep, .shared⟩
/-- HIF.DBDROP.COUNT [31:0] -/
def HIF.DBDROP_COUNT : Fld := ⟨541, 0x7000128, [(2, 0x100)], 0, 32, .rc, .val 0x0, .val 0x0, .keep, .shared⟩
/-- HIF.ATC.VALID [14:0] -/
def HIF.ATC_VALID : Fld := ⟨542, 0x7000130, [(2, 0x100)], 0, 15, .ro, .val 0x0, .val 0x0, .keep, .shared⟩
/-- HIF.ATC.INVREQ [63:32] -/
def HIF.ATC_INVREQ : Fld := ⟨543, 0x7000130, [(2, 0x100)], 32, 32, .rc, .val 0x0, .val 0x0, .keep, .shared⟩
/-- HIF.XLFAIL.COUNT [31:0] -/
def HIF.XLFAIL_COUNT : Fld := ⟨544, 0x7000138, [(2, 0x100)], 0, 32, .rc, .val 0x0, .val 0x0, .keep, .shared⟩
/-- HIF.LDOWN.DOWN [31:0] -/
def HIF.LDOWN_DOWN : Fld := ⟨545, 0x7000140, [(2, 0x100)], 0, 32, .rc, .val 0x0, .val 0x0, .keep, .shared⟩
/-- HIF.LDOWN.DEGRADE [63:32] -/
def HIF.LDOWN_DEGRADE : Fld := ⟨546, 0x7000140, [(2, 0x100)], 32, 32, .rc, .val 0x0, .val 0x0, .keep, .shared⟩
/-- HIF.TAGRES.CTL [9:0] -/
def HIF.TAGRES_CTL : Fld := ⟨547, 0x7000148, [(2, 0x100)], 0, 10, .ro, .val 0x10, .val 0x10, .keep, .shared⟩
/-- HIF.TAGRES.ADM [25:16] -/
def HIF.TAGRES_ADM : Fld := ⟨548, 0x7000148, [(2, 0x100)], 16, 10, .ro, .val 0x70, .val 0x70, .keep, .shared⟩

/-! The RNG registers: rule R454 of 16_rings_dma.md. -/

/-- RNG.CFG.ISOLMS [9:0] -/
def RNG.CFG_ISOLMS : Fld := ⟨549, 0x8000000, [], 0, 10, .ro, .val 0xa, .val 0xa, .keep, .shared⟩
/-- RNG.CFG.FETCH [25:16] -/
def RNG.CFG_FETCH : Fld := ⟨550, 0x8000000, [], 16, 10, .ro, .val 0x100, .val 0x100, .keep, .shared⟩
/-- RNG.STATUS.READY [0:0] -/
def RNG.STATUS_READY : Fld := ⟨551, 0x8000008, [], 0, 1, .ro, .val 0x0, .val 0x0, .keep, .shared⟩
/-- RNG.STATUS.ISOLATED [49:32] -/
def RNG.STATUS_ISOLATED : Fld := ⟨552, 0x8000008, [], 32, 18, .ro, .val 0x0, .val 0x0, .keep, .shared⟩
/-- RNG.DBINVALID.COUNT [31:0] -/
def RNG.DBINVALID_COUNT : Fld := ⟨553, 0x8000010, [], 0, 32, .rc, .val 0x0, .val 0x0, .keep, .shared⟩
/-- RNG.DBINVALID.LASTRING [49:32] -/
def RNG.DBINVALID_LASTRING : Fld := ⟨554, 0x8000010, [], 32, 18, .ro, .val 0x0, .val 0x0, .keep, .shared⟩
/-- RNG.DBSTALE.COUNT [31:0] -/
def RNG.DBSTALE_COUNT : Fld := ⟨555, 0x8000018, [], 0, 32, .rc, .val 0x0, .val 0x0, .keep, .shared⟩
/-- RNG.RXDROP.NOBUF [31:0] -/
def RNG.RXDROP_NOBUF : Fld := ⟨556, 0x8000020, [], 0, 32, .rc, .val 0x0, .val 0x0, .keep, .shared⟩
/-- RNG.RXDROP.OTHER [63:32] -/
def RNG.RXDROP_OTHER : Fld := ⟨557, 0x8000020, [], 32, 32, .rc, .val 0x0, .val 0x0, .keep, .shared⟩
/-- RNG.CQFULL.HELD [31:0] -/
def RNG.CQFULL_HELD : Fld := ⟨558, 0x8000028, [], 0, 32, .rc, .val 0x0, .val 0x0, .keep, .shared⟩
/-- RNG.CQFULL.LOST [63:32] -/
def RNG.CQFULL_LOST : Fld := ⟨559, 0x8000028, [], 32, 32, .rc, .val 0x0, .val 0x0, .keep, .shared⟩
/-- RNG.ERRORS.COUNT [31:0] -/
def RNG.ERRORS_COUNT : Fld := ⟨560, 0x8000030, [], 0, 32, .rc, .val 0x0, .val 0x0, .keep, .shared⟩
/-- RNG.ERRORS.LASTRING [49:32] -/
def RNG.ERRORS_LASTRING : Fld := ⟨561, 0x8000030, [], 32, 18, .ro, .val 0x0, .val 0x0, .keep, .shared⟩
/-- RNG.ERRORS.LASTSTAT [63:56] -/
def RNG.ERRORS_LASTSTAT : Fld := ⟨562, 0x8000030, [], 56, 8, .ro, .val 0x0, .val 0x0, .keep, .shared⟩
/-- RNG.CSTG.DATA [63:0] -/
def RNG.CSTG_DATA : Fld := ⟨563, 0x8001000, [(8, 0x8)], 0, 64, .rw, .val 0x0, .val 0x0, .val 0x0, .perPf⟩
/-- RNG.CCMD.OP [2:0] -/
def RNG.CCMD_OP : Fld := ⟨564, 0x8001040, [], 0, 3, .wo, .val 0x0, .val 0x0, .val 0x0, .perPf⟩
/-- RNG.CCMD.KIND [5:4] -/
def RNG.CCMD_KIND : Fld := ⟨565, 0x8001040, [], 4, 2, .wo, .val 0x0, .val 0x0, .val 0x0, .perPf⟩
/-- RNG.CCMD.RING [49:32] -/
def RNG.CCMD_RING : Fld := ⟨566, 0x8001040, [], 32, 18, .wo, .val 0x0, .val 0x0, .val 0x0, .perPf⟩
/-- RNG.CSTAT.BUSY [0:0] -/
def RNG.CSTAT_BUSY : Fld := ⟨567, 0x8001048, [], 0, 1, .ro, .val 0x0, .val 0x0, .val 0x0, .perPf⟩
/-- RNG.CSTAT.RESULT [3:1] -/
def RNG.CSTAT_RESULT : Fld := ⟨568, 0x8001048, [], 1, 3, .ro, .val 0x0, .val 0x0, .val 0x0, .perPf⟩
/-- RNG.CSTAT.IGNORED [15:8] -/
def RNG.CSTAT_IGNORED : Fld := ⟨569, 0x8001048, [], 8, 8, .rc, .val 0x0, .val 0x0, .val 0x0, .perPf⟩
/-- RNG.DB.VALUE [63:0] -/
def RNG.DB_VALUE : Fld := ⟨570, 0x8800000, [(262144, 0x8)], 0, 64, .wo, .val 0x0, .val 0x0, .val 0x0, .shared⟩

/-! The DMA registers: rule R455 of 16_rings_dma.md. -/

/-- DMA.CFG.AGE [7:0] -/
def DMA.CFG_AGE : Fld := ⟨571, 0x9000000, [], 0, 8, .rw, .val 0x40, .val 0x40, .keep, .shared⟩
/-- DMA.LTDROP.COUNT [31:0] -/
def DMA.LTDROP_COUNT : Fld := ⟨572, 0x9000008, [], 0, 32, .rc, .val 0x0, .val 0x0, .keep, .shared⟩
/-- DMA.GSTAT.BUSY [5:0] -/
def DMA.GSTAT_BUSY : Fld := ⟨573, 0x9000100, [(4, 0x8)], 0, 6, .ro, .val 0x0, .val 0x0, .keep, .shared⟩
/-- DMA.GSTAT.BURSTS [63:32] -/
def DMA.GSTAT_BURSTS : Fld := ⟨574, 0x9000100, [(4, 0x8)], 32, 32, .rc, .val 0x0, .val 0x0, .keep, .shared⟩
/-- DMA.BYTES.COUNT [63:0] -/
def DMA.BYTES_COUNT : Fld := ⟨575, 0x9000200, [(4, 0x8)], 0, 64, .rc, .val 0x0, .val 0x0, .keep, .shared⟩
/-- DMA.CHSTAT.STATE [1:0] -/
def DMA.CHSTAT_STATE : Fld := ⟨576, 0x9001000, [(128, 0x8)], 0, 2, .ro, .val 0x0, .val 0x0, .keep, .shared⟩
/-- DMA.CHSTAT.PRIO [6:4] -/
def DMA.CHSTAT_PRIO : Fld := ⟨577, 0x9001000, [(128, 0x8)], 4, 3, .ro, .val 0x0, .val 0x0, .keep, .shared⟩
/-- DMA.CHSTAT.RING [49:32] -/
def DMA.CHSTAT_RING : Fld := ⟨578, 0x9001000, [(128, 0x8)], 32, 18, .ro, .val 0x0, .val 0x0, .keep, .shared⟩
/-- DMA.CHCTL.STOP [0:0] -/
def DMA.CHCTL_STOP : Fld := ⟨579, 0x9001400, [(128, 0x8)], 0, 1, .wo, .val 0x0, .val 0x0, .keep, .shared⟩
/-- DMA.CHCTL.START [1:1] -/
def DMA.CHCTL_START : Fld := ⟨580, 0x9001400, [(128, 0x8)], 1, 1, .wo, .val 0x0, .val 0x0, .keep, .shared⟩
/-- DMA.LTPROF.W [3:0] -/
def DMA.LTPROF_W : Fld := ⟨581, 0x9002000, [(256, 0x8)], 0, 4, .ro, .val 0x0, .val 0x0, .keep, .shared⟩
/-- DMA.LTPROF.E [10:4] -/
def DMA.LTPROF_E : Fld := ⟨582, 0x9002000, [(256, 0x8)], 4, 7, .ro, .val 0x0, .val 0x0, .keep, .shared⟩
/-- DMA.LTPROF.PACKED [12:12] -/
def DMA.LTPROF_PACKED : Fld := ⟨583, 0x9002000, [(256, 0x8)], 12, 1, .ro, .val 0x0, .val 0x0, .keep, .shared⟩
/-- DMA.LTPROF.EN [16:16] -/
def DMA.LTPROF_EN : Fld := ⟨584, 0x9002000, [(256, 0x8)], 16, 1, .ro, .val 0x0, .val 0x0, .keep, .shared⟩

/-! The VIR registers: rule R476 of 17_virtualization_mailboxes.md. -/

/-- VIR.STATUS.READY [0:0] -/
def VIR.STATUS_READY : Fld := ⟨585, 0xa000000, [], 0, 1, .ro, .val 0x0, .val 0x0, .keep, .shared⟩
/-- VIR.STATUS.POLDERS [45:32] -/
def VIR.STATUS_POLDERS : Fld := ⟨586, 0xa000000, [], 32, 14, .ro, .val 0x0, .val 0x0, .keep, .shared⟩
/-- VIR.MACBASE.MAC [47:0] -/
def VIR.MACBASE_MAC : Fld := ⟨587, 0xa000008, [], 0, 48, .ro, .otp, .otp, .keep, .shared⟩
/-- VIR.REFUSED.COUNT [31:0] -/
def VIR.REFUSED_COUNT : Fld := ⟨588, 0xa000010, [], 0, 32, .rc, .val 0x0, .val 0x0, .keep, .shared⟩
/-- VIR.REFUSED.LAST [39:32] -/
def VIR.REFUSED_LAST : Fld := ⟨589, 0xa000010, [], 32, 8, .ro, .val 0x0, .val 0x0, .keep, .shared⟩
/-- VIR.PSQ.BASE [17:0] -/
def VIR.PSQ_BASE : Fld := ⟨590, 0xa100000, [(8192, 0x80)], 0, 18, .ro, .val 0x0, .val 0x0, .keep, .shared⟩
/-- VIR.PSQ.COUNT [49:32] -/
def VIR.PSQ_COUNT : Fld := ⟨591, 0xa100000, [(8192, 0x80)], 32, 18, .ro, .val 0x0, .val 0x0, .keep, .shared⟩
/-- VIR.PRQ.BASE [17:0] -/
def VIR.PRQ_BASE : Fld := ⟨592, 0xa100008, [(8192, 0x80)], 0, 18, .ro, .val 0x0, .val 0x0, .keep, .shared⟩
/-- VIR.PRQ.COUNT [49:32] -/
def VIR.PRQ_COUNT : Fld := ⟨593, 0xa100008, [(8192, 0x80)], 32, 18, .ro, .val 0x0, .val 0x0, .keep, .shared⟩
/-- VIR.PCQ.BASE [16:0] -/
def VIR.PCQ_BASE : Fld := ⟨594, 0xa100010, [(8192, 0x80)], 0, 17, .ro, .val 0x0, .val 0x0, .keep, .shared⟩
/-- VIR.PCQ.COUNT [48:32] -/
def VIR.PCQ_COUNT : Fld := ⟨595, 0xa100010, [(8192, 0x80)], 32, 17, .ro, .val 0x0, .val 0x0, .keep, .shared⟩
/-- VIR.PVEC.VECTORS [11:0] -/
def VIR.PVEC_VECTORS : Fld := ⟨596, 0xa100018, [(8192, 0x80)], 0, 12, .ro, .val 0x0, .val 0x0, .keep, .shared⟩
/-- VIR.PVEC.L2BASE [28:16] -/
def VIR.PVEC_L2BASE : Fld := ⟨597, 0xa100018, [(8192, 0x80)], 16, 13, .ro, .val 0x0, .val 0x0, .keep, .shared⟩
/-- VIR.PVEC.L2CNT [45:32] -/
def VIR.PVEC_L2CNT : Fld := ⟨598, 0xa100018, [(8192, 0x80)], 32, 14, .ro, .val 0x0, .val 0x0, .keep, .shared⟩
/-- VIR.PKEY.BASE [16:0] -/
def VIR.PKEY_BASE : Fld := ⟨599, 0xa100020, [(8192, 0x80)], 0, 17, .ro, .val 0x0, .val 0x0, .keep, .shared⟩
/-- VIR.PKEY.COUNT [49:32] -/
def VIR.PKEY_COUNT : Fld := ⟨600, 0xa100020, [(8192, 0x80)], 32, 18, .ro, .val 0x0, .val 0x0, .keep, .shared⟩
/-- VIR.PID.PASID [19:0] -/
def VIR.PID_PASID : Fld := ⟨601, 0xa100028, [(8192, 0x80)], 0, 20, .ro, .val 0x0, .val 0x0, .keep, .shared⟩
/-- VIR.PID.TASKQ [47:32] -/
def VIR.PID_TASKQ : Fld := ⟨602, 0xa100028, [(8192, 0x80)], 32, 16, .ro, .val 0x0, .val 0x0, .keep, .shared⟩
/-- VIR.PMAC.MAC [47:0] -/
def VIR.PMAC_MAC : Fld := ⟨603, 0xa100030, [(8192, 0x80)], 0, 48, .ro, .val 0x0, .val 0x0, .keep, .shared⟩
/-- VIR.PCTL.WEIGHT [11:0] -/
def VIR.PCTL_WEIGHT : Fld := ⟨604, 0xa100038, [(8192, 0x80)], 0, 12, .ro, .val 0x0, .val 0x0, .keep, .shared⟩
/-- VIR.PCTL.CNLIM [31:16] -/
def VIR.PCTL_CNLIM : Fld := ⟨605, 0xa100038, [(8192, 0x80)], 16, 16, .ro, .val 0x0, .val 0x0, .keep, .shared⟩
/-- VIR.PCTL.EN [32:32] -/
def VIR.PCTL_EN : Fld := ⟨606, 0xa100038, [(8192, 0x80)], 32, 1, .ro, .val 0x0, .val 0x0, .keep, .shared⟩
/-- VIR.PCTL.EXISTS [33:33] -/
def VIR.PCTL_EXISTS : Fld := ⟨607, 0xa100038, [(8192, 0x80)], 33, 1, .ro, .val 0x0, .val 0x0, .keep, .shared⟩
/-- VIR.PPEAK.RATE [63:0] -/
def VIR.PPEAK_RATE : Fld := ⟨608, 0xa100040, [(8192, 0x80)], 0, 64, .ro, .val 0x0, .val 0x0, .keep, .shared⟩
/-- VIR.PCRLIM.RATE [63:0] -/
def VIR.PCRLIM_RATE : Fld := ⟨609, 0xa100048, [(8192, 0x80)], 0, 64, .ro, .val 0x0, .val 0x0, .keep, .shared⟩
/-- VIR.PCRUSE.RATE [63:0] -/
def VIR.PCRUSE_RATE : Fld := ⟨610, 0xa100050, [(8192, 0x80)], 0, 64, .ro, .val 0x0, .val 0x0, .keep, .shared⟩
/-- VIR.PUSE.CONTRACTS [15:0] -/
def VIR.PUSE_CONTRACTS : Fld := ⟨611, 0xa100058, [(8192, 0x80)], 0, 16, .ro, .val 0x0, .val 0x0, .keep, .shared⟩
/-- VIR.PUSE.TASKS [47:32] -/
def VIR.PUSE_TASKS : Fld := ⟨612, 0xa100058, [(8192, 0x80)], 32, 16, .ro, .val 0x0, .val 0x0, .keep, .shared⟩
/-- VIR.PUSE.TASKFULL [63:48] -/
def VIR.PUSE_TASKFULL : Fld := ⟨613, 0xa100058, [(8192, 0x80)], 48, 16, .rc, .val 0x0, .val 0x0, .keep, .shared⟩
/-- VIR.PTCQ.RING [16:0] -/
def VIR.PTCQ_RING : Fld := ⟨614, 0xa100060, [(8192, 0x80)], 0, 17, .ro, .val 0x0, .val 0x0, .keep, .shared⟩
/-- VIR.PTCQ.EN [31:31] -/
def VIR.PTCQ_EN : Fld := ⟨615, 0xa100060, [(8192, 0x80)], 31, 1, .ro, .val 0x0, .val 0x0, .keep, .shared⟩

/-! The MBX registers: rule R477 of 17_virtualization_mailboxes.md. -/

/-- MBX.TXDATA.DATA [63:0] -/
def MBX.TXDATA_DATA : Fld := ⟨616, 0xb000000, [(8, 0x8)], 0, 64, .rw, .val 0x0, .val 0x0, .val 0x0, .perFn⟩
/-- MBX.TXENV.PEER [12:0] -/
def MBX.TXENV_PEER : Fld := ⟨617, 0xb000040, [], 0, 13, .rw, .val 0x0, .val 0x0, .val 0x0, .perFn⟩
/-- MBX.TXENV.PKIND [15:13] -/
def MBX.TXENV_PKIND : Fld := ⟨618, 0xb000040, [], 13, 3, .rw, .val 0x0, .val 0x0, .val 0x0, .perFn⟩
/-- MBX.TXENV.SERVICE [23:16] -/
def MBX.TXENV_SERVICE : Fld := ⟨619, 0xb000040, [], 16, 8, .rw, .val 0x0, .val 0x0, .val 0x0, .perFn⟩
/-- MBX.TXCMD.OP [1:0] -/
def MBX.TXCMD_OP : Fld := ⟨620, 0xb000048, [], 0, 2, .wo, .val 0x0, .val 0x0, .val 0x0, .perFn⟩
/-- MBX.TXCMD.WSEQ [31:16] -/
def MBX.TXCMD_WSEQ : Fld := ⟨621, 0xb000048, [], 16, 16, .wo, .val 0x0, .val 0x0, .val 0x0, .perFn⟩
/-- MBX.TXSTAT.RESULT [3:0] -/
def MBX.TXSTAT_RESULT : Fld := ⟨622, 0xb000050, [], 0, 4, .ro, .val 0x0, .val 0x0, .val 0x0, .perFn⟩
/-- MBX.TXSTAT.SEQ [31:16] -/
def MBX.TXSTAT_SEQ : Fld := ⟨623, 0xb000050, [], 16, 16, .ro, .val 0x0, .val 0x0, .val 0x0, .perFn⟩
/-- MBX.TXSTAT.CSPEND [36:32] -/
def MBX.TXSTAT_CSPEND : Fld := ⟨624, 0xb000050, [], 32, 5, .ro, .val 0x0, .val 0x0, .val 0x0, .perFn⟩
/-- MBX.TXSTAT.PFPEND [44:40] -/
def MBX.TXSTAT_PFPEND : Fld := ⟨625, 0xb000050, [], 40, 5, .ro, .val 0x0, .val 0x0, .val 0x0, .perFn⟩
/-- MBX.RXDATA.DATA [63:0] -/
def MBX.RXDATA_DATA : Fld := ⟨626, 0xb000080, [(8, 0x8)], 0, 64, .ro, .val 0x0, .val 0x0, .keep, .perFn⟩
/-- MBX.RXENV.ENV [62:0] -/
def MBX.RXENV_ENV : Fld := ⟨627, 0xb0000c0, [], 0, 63, .ro, .val 0x0, .val 0x0, .keep, .perFn⟩
/-- MBX.RXENV.VALID [63:63] -/
def MBX.RXENV_VALID : Fld := ⟨628, 0xb0000c0, [], 63, 1, .ro, .val 0x0, .val 0x0, .keep, .perFn⟩
/-- MBX.RXCMD.POP [0:0] -/
def MBX.RXCMD_POP : Fld := ⟨629, 0xb0000c8, [], 0, 1, .wo, .val 0x0, .val 0x0, .val 0x0, .perFn⟩
/-- MBX.RXSTAT.COUNT [19:0] -/
def MBX.RXSTAT_COUNT : Fld := ⟨630, 0xb0000d0, [], 0, 20, .ro, .val 0x0, .val 0x0, .keep, .perFn⟩
/-- MBX.RXSTAT.LOST [63:32] -/
def MBX.RXSTAT_LOST : Fld := ⟨631, 0xb0000d0, [], 32, 32, .rc, .val 0x0, .val 0x0, .keep, .perFn⟩
/-- MBX.IRQ.VECTOR [10:0] -/
def MBX.IRQ_VECTOR : Fld := ⟨632, 0xb0000d8, [], 0, 11, .rw, .val 0x0, .val 0x0, .val 0x0, .perFn⟩
/-- MBX.IRQ.EN [16:16] -/
def MBX.IRQ_EN : Fld := ⟨633, 0xb0000d8, [], 16, 1, .rw, .val 0x0, .val 0x0, .val 0x0, .perFn⟩
/-- MBX.CMSTAT.TOMGT [4:0] -/
def MBX.CMSTAT_TOMGT : Fld := ⟨634, 0xb000100, [], 0, 5, .ro, .val 0x0, .val 0x0, .keep, .perFn⟩
/-- MBX.CMSTAT.TOCC [12:8] -/
def MBX.CMSTAT_TOCC : Fld := ⟨635, 0xb000100, [], 8, 5, .ro, .val 0x0, .val 0x0, .keep, .perFn⟩
/-- MBX.STXDATA.DATA [63:0] -/
def MBX.STXDATA_DATA : Fld := ⟨636, 0xb000200, [(8, 0x8)], 0, 64, .rw, .val 0x0, .val 0x0, .val 0x0, .perFn⟩
/-- MBX.STXENV.SERVICE [23:16] -/
def MBX.STXENV_SERVICE : Fld := ⟨637, 0xb000240, [], 16, 8, .rw, .val 0x0, .val 0x0, .val 0x0, .perFn⟩
/-- MBX.STXCMD.OP [1:0] -/
def MBX.STXCMD_OP : Fld := ⟨638, 0xb000248, [], 0, 2, .wo, .val 0x0, .val 0x0, .val 0x0, .perFn⟩
/-- MBX.STXCMD.WSEQ [31:16] -/
def MBX.STXCMD_WSEQ : Fld := ⟨639, 0xb000248, [], 16, 16, .wo, .val 0x0, .val 0x0, .val 0x0, .perFn⟩
/-- MBX.STXSTAT.RESULT [3:0] -/
def MBX.STXSTAT_RESULT : Fld := ⟨640, 0xb000250, [], 0, 4, .ro, .val 0x0, .val 0x0, .val 0x0, .perFn⟩
/-- MBX.STXSTAT.SEQ [31:16] -/
def MBX.STXSTAT_SEQ : Fld := ⟨641, 0xb000250, [], 16, 16, .ro, .val 0x0, .val 0x0, .val 0x0, .perFn⟩
/-- MBX.SRXDATA.DATA [63:0] -/
def MBX.SRXDATA_DATA : Fld := ⟨642, 0xb000280, [(8, 0x8)], 0, 64, .ro, .val 0x0, .val 0x0, .keep, .perFn⟩
/-- MBX.SRXENV.ENV [62:0] -/
def MBX.SRXENV_ENV : Fld := ⟨643, 0xb0002c0, [], 0, 63, .ro, .val 0x0, .val 0x0, .keep, .perFn⟩
/-- MBX.SRXENV.VALID [63:63] -/
def MBX.SRXENV_VALID : Fld := ⟨644, 0xb0002c0, [], 63, 1, .ro, .val 0x0, .val 0x0, .keep, .perFn⟩
/-- MBX.SRXCMD.POP [0:0] -/
def MBX.SRXCMD_POP : Fld := ⟨645, 0xb0002c8, [], 0, 1, .wo, .val 0x0, .val 0x0, .val 0x0, .perFn⟩

/-! The EVT registers: rule R498 of 18_safety_events.md. -/

/-- EVT.STATUS.READY [0:0] -/
def EVT.STATUS_READY : Fld := ⟨646, 0x300000, [], 0, 1, .ro, .val 0x0, .val 0x0, .keep, .shared⟩
/-- EVT.RECSTAT.COUNT [8:0] -/
def EVT.RECSTAT_COUNT : Fld := ⟨647, 0x300008, [], 0, 9, .ro, .val 0x0, .val 0x0, .val 0x0, .perPf⟩
/-- EVT.RECSTAT.LOST [63:32] -/
def EVT.RECSTAT_LOST : Fld := ⟨648, 0x300008, [], 32, 32, .rc, .val 0x0, .val 0x0, .val 0x0, .perPf⟩
/-- EVT.RECA.SOURCE [8:0] -/
def EVT.RECA_SOURCE : Fld := ⟨649, 0x300010, [], 0, 9, .rp, .val 0x0, .val 0x0, .val 0x0, .perPf⟩
/-- EVT.RECA.POLDER [24:12] -/
def EVT.RECA_POLDER : Fld := ⟨650, 0x300010, [], 12, 13, .rp, .val 0x0, .val 0x0, .val 0x0, .perPf⟩
/-- EVT.RECA.PV [25:25] -/
def EVT.RECA_PV : Fld := ⟨651, 0x300010, [], 25, 1, .rp, .val 0x0, .val 0x0, .val 0x0, .perPf⟩
/-- EVT.RECA.INFO [63:32] -/
def EVT.RECA_INFO : Fld := ⟨652, 0x300010, [], 32, 32, .rp, .val 0x0, .val 0x0, .val 0x0, .perPf⟩
/-- EVT.RECB.NS [31:0] -/
def EVT.RECB_NS : Fld := ⟨653, 0x300018, [], 0, 32, .ro, .val 0x0, .val 0x0, .val 0x0, .perPf⟩
/-- EVT.RECB.SEC [63:32] -/
def EVT.RECB_SEC : Fld := ⟨654, 0x300018, [], 32, 32, .ro, .val 0x0, .val 0x0, .val 0x0, .perPf⟩
/-- EVT.PEND.BITS [31:0] -/
def EVT.PEND_BITS : Fld := ⟨655, 0x300100, [(16, 0x8)], 0, 32, .rw1c, .val 0x0, .val 0x0, .val 0x0, .perPf⟩
/-- EVT.MASK.BITS [31:0] -/
def EVT.MASK_BITS : Fld := ⟨656, 0x300200, [(16, 0x8)], 0, 32, .rw, .val 0x0, .val 0x0, .val 0x0, .perPf⟩
/-- EVT.VEC.VECTOR [10:0] -/
def EVT.VEC_VECTOR : Fld := ⟨657, 0x300300, [(16, 0x8)], 0, 11, .rw, .val 0x0, .val 0x0, .val 0x0, .perPf⟩
/-- EVT.MGTMASK.BITS [31:0] -/
def EVT.MGTMASK_BITS : Fld := ⟨658, 0x300400, [(16, 0x8)], 0, 32, .ro, .val 0x0, .val 0x0, .keep, .shared⟩
/-- EVT.COUNT.COUNT [15:0] -/
def EVT.COUNT_COUNT : Fld := ⟨659, 0x301000, [(512, 0x8)], 0, 16, .rc, .val 0x0, .val 0x0, .keep, .shared⟩

/-! The DKW registers: rule R499 of 18_safety_events.md. -/

/-- DKW.STATUS.READY [0:0] -/
def DKW.STATUS_READY : Fld := ⟨660, 0x400000, [], 0, 1, .ro, .val 0x0, .val 0x0, .keep, .shared⟩
/-- DKW.STATUS.PAIRA [1:1] -/
def DKW.STATUS_PAIRA : Fld := ⟨661, 0x400000, [], 1, 1, .ro, .val 0x0, .val 0x0, .keep, .shared⟩
/-- DKW.STATUS.PAIRB [2:2] -/
def DKW.STATUS_PAIRB : Fld := ⟨662, 0x400000, [], 2, 1, .ro, .val 0x0, .val 0x0, .keep, .shared⟩
/-- DKW.STATUS.DEGRADED [3:3] -/
def DKW.STATUS_DEGRADED : Fld := ⟨663, 0x400000, [], 3, 1, .ro, .val 0x0, .val 0x0, .keep, .shared⟩
/-- DKW.STATUS.DEVSAFE [4:4] -/
def DKW.STATUS_DEVSAFE : Fld := ⟨664, 0x400000, [], 4, 1, .ro, .val 0x0, .val 0x0, .keep, .shared⟩
/-- DKW.STATUS.FAULTN [5:5] -/
def DKW.STATUS_FAULTN : Fld := ⟨665, 0x400000, [], 5, 1, .ro, .val 0x1, .val 0x1, .keep, .shared⟩
/-- DKW.STATUS.SECOND [6:6] -/
def DKW.STATUS_SECOND : Fld := ⟨666, 0x400000, [], 6, 1, .ro, .val 0x0, .val 0x0, .keep, .shared⟩
/-- DKW.CAUSE.SOURCE [8:0] -/
def DKW.CAUSE_SOURCE : Fld := ⟨667, 0x400008, [], 0, 9, .ro, .val 0x0, .val 0x0, .keep, .shared⟩
/-- DKW.CAUSE.SM [20:16] -/
def DKW.CAUSE_SM : Fld := ⟨668, 0x400008, [], 16, 5, .ro, .val 0x0, .val 0x0, .keep, .shared⟩
/-- DKW.CAUSE.INFO [63:32] -/
def DKW.CAUSE_INFO : Fld := ⟨669, 0x400008, [], 32, 32, .ro, .val 0x0, .val 0x0, .keep, .shared⟩
/-- DKW.FTIME.NS [31:0] -/
def DKW.FTIME_NS : Fld := ⟨670, 0x400010, [], 0, 32, .ro, .val 0x0, .val 0x0, .keep, .shared⟩
/-- DKW.FTIME.SEC [63:32] -/
def DKW.FTIME_SEC : Fld := ⟨671, 0x400010, [], 32, 32, .ro, .val 0x0, .val 0x0, .keep, .shared⟩
/-- DKW.FCLR.RELEASE [0:0] -/
def DKW.FCLR_RELEASE : Fld := ⟨672, 0x400018, [], 0, 1, .wo, .val 0x0, .val 0x0, .keep, .shared⟩
/-- DKW.FCLR.DEVICE [1:1] -/
def DKW.FCLR_DEVICE : Fld := ⟨673, 0x400018, [], 1, 1, .wo, .val 0x0, .val 0x0, .keep, .shared⟩
/-- DKW.PSAFE.PORTS [15:0] -/
def DKW.PSAFE_PORTS : Fld := ⟨674, 0x400020, [], 0, 16, .ro, .val 0x0, .val 0x0, .keep, .shared⟩
/-- DKW.PACT.ACT [31:0] -/
def DKW.PACT_ACT : Fld := ⟨675, 0x400028, [], 0, 32, .ro, .val 0x55555555, .val 0x55555555, .keep, .shared⟩
/-- DKW.PSCLR.PORTS [15:0] -/
def DKW.PSCLR_PORTS : Fld := ⟨676, 0x400030, [], 0, 16, .wo, .val 0x0, .val 0x0, .keep, .shared⟩
/-- DKW.POLCLR.POLDER [12:0] -/
def DKW.POLCLR_POLDER : Fld := ⟨677, 0x400038, [], 0, 13, .wo, .val 0x0, .val 0x0, .keep, .shared⟩
/-- DKW.TSTAT.REPAIRS [15:0] -/
def DKW.TSTAT_REPAIRS : Fld := ⟨678, 0x400040, [], 0, 16, .rc, .val 0x0, .val 0x0, .keep, .shared⟩
/-- DKW.TSTAT.FALLBACKS [31:16] -/
def DKW.TSTAT_FALLBACKS : Fld := ⟨679, 0x400040, [], 16, 16, .rc, .val 0x0, .val 0x0, .keep, .shared⟩
/-- DKW.TSTAT.NOEPOCH [47:32] -/
def DKW.TSTAT_NOEPOCH : Fld := ⟨680, 0x400040, [], 32, 16, .rc, .val 0x0, .val 0x0, .keep, .shared⟩
/-- DKW.TSTAT.HWFIX [63:48] -/
def DKW.TSTAT_HWFIX : Fld := ⟨681, 0x400040, [], 48, 16, .rc, .val 0x0, .val 0x0, .keep, .shared⟩
/-- DKW.TLOG.EPOCH [31:0] -/
def DKW.TLOG_EPOCH : Fld := ⟨682, 0x400048, [], 0, 32, .ro, .val 0x0, .val 0x0, .keep, .shared⟩
/-- DKW.TLOG.ENTRIES [37:32] -/
def DKW.TLOG_ENTRIES : Fld := ⟨683, 0x400048, [], 32, 6, .ro, .val 0x0, .val 0x0, .keep, .shared⟩
/-- DKW.FWSEL.ACTIVE [1:0] -/
def DKW.FWSEL_ACTIVE : Fld := ⟨684, 0x400050, [], 0, 2, .ro, .val 0x0, .keep, .keep, .shared⟩
/-- DKW.FWSEL.VALIDA [4:4] -/
def DKW.FWSEL_VALIDA : Fld := ⟨685, 0x400050, [], 4, 1, .ro, .val 0x0, .keep, .keep, .shared⟩
/-- DKW.FWSEL.VALIDB [5:5] -/
def DKW.FWSEL_VALIDB : Fld := ⟨686, 0x400050, [], 5, 1, .ro, .val 0x0, .keep, .keep, .shared⟩
/-- DKW.FWSEL.DIFFER [6:6] -/
def DKW.FWSEL_DIFFER : Fld := ⟨687, 0x400050, [], 6, 1, .ro, .val 0x0, .keep, .keep, .shared⟩
/-- DKW.FWSEL.VERA [63:32] -/
def DKW.FWSEL_VERA : Fld := ⟨688, 0x400050, [], 32, 32, .ro, .val 0x0, .keep, .keep, .shared⟩
/-- DKW.FWVER.VERB [31:0] -/
def DKW.FWVER_VERB : Fld := ⟨689, 0x400058, [], 0, 32, .ro, .val 0x0, .keep, .keep, .shared⟩
/-- DKW.FWVER.MINVER [63:32] -/
def DKW.FWVER_MINVER : Fld := ⟨690, 0x400058, [], 32, 32, .ro, .otp, .otp, .keep, .shared⟩
/-- DKW.SMSTAT.FAILED [15:1] -/
def DKW.SMSTAT_FAILED : Fld := ⟨691, 0x400060, [], 1, 15, .ro, .val 0x0, .val 0x0, .keep, .shared⟩
/-- DKW.SMSTAT.INJEN [31:31] -/
def DKW.SMSTAT_INJEN : Fld := ⟨692, 0x400060, [], 31, 1, .ro, .otp, .otp, .keep, .shared⟩
/-- DKW.INJECT.SM [4:0] -/
def DKW.INJECT_SM : Fld := ⟨693, 0x400068, [], 0, 5, .wo, .val 0x0, .val 0x0, .keep, .shared⟩
/-- DKW.SMCNT.DET [31:0] -/
def DKW.SMCNT_DET : Fld := ⟨694, 0x400100, [(16, 0x8)], 0, 32, .rc, .val 0x0, .val 0x0, .keep, .shared⟩
/-- DKW.POLSAFE.MAP [63:0] -/
def DKW.POLSAFE_MAP : Fld := ⟨695, 0x401000, [(128, 0x8)], 0, 64, .ro, .val 0x0, .val 0x0, .keep, .shared⟩

/-! The TOP registers: rule R519 of 19_bringup_clocks_calibration.md. -/

/-- TOP.IDENT.PART [15:0] -/
def TOP.IDENT_PART : Fld := ⟨696, 0x0, [], 0, 16, .ro, .val 0x1604, .val 0x1604, .keep, .shared⟩
/-- TOP.IDENT.GRADE [19:16] -/
def TOP.IDENT_GRADE : Fld := ⟨697, 0x0, [], 16, 4, .ro, .otp, .keep, .keep, .shared⟩
/-- TOP.IDENT.STEP [27:24] -/
def TOP.IDENT_STEP : Fld := ⟨698, 0x0, [], 24, 4, .ro, .otp, .keep, .keep, .shared⟩
/-- TOP.READY.BITS [39:0] -/
def TOP.READY_BITS : Fld := ⟨699, 0x8, [], 0, 40, .ro, .val 0x0, .special, .keep, .shared⟩
/-- TOP.FAILED.BITS [39:0] -/
def TOP.FAILED_BITS : Fld := ⟨700, 0x10, [], 0, 40, .ro, .val 0x0, .val 0x0, .keep, .shared⟩
/-- TOP.RESET.WARM [7:0] -/
def TOP.RESET_WARM : Fld := ⟨701, 0x18, [], 0, 8, .wo, .val 0x0, .val 0x0, .keep, .shared⟩
/-- TOP.RSTCAUSE.COLD [0:0] -/
def TOP.RSTCAUSE_COLD : Fld := ⟨702, 0x20, [], 0, 1, .ro, .val 0x1, .val 0x0, .keep, .shared⟩
/-- TOP.RSTCAUSE.PF0 [1:1] -/
def TOP.RSTCAUSE_PF0 : Fld := ⟨703, 0x20, [], 1, 1, .ro, .val 0x0, .val 0x0, .keep, .shared⟩
/-- TOP.RSTCAUSE.PIN [2:2] -/
def TOP.RSTCAUSE_PIN : Fld := ⟨704, 0x20, [], 2, 1, .ro, .val 0x0, .val 0x0, .keep, .shared⟩
/-- TOP.RSTCAUSE.MGT [3:3] -/
def TOP.RSTCAUSE_MGT : Fld := ⟨705, 0x20, [], 3, 1, .ro, .val 0x0, .val 0x0, .keep, .shared⟩
/-- TOP.NOTREADY.COUNT [31:0] -/
def TOP.NOTREADY_COUNT : Fld := ⟨706, 0x28, [], 0, 32, .rc, .val 0x0, .val 0x0, .keep, .shared⟩
/-- TOP.WARMCNT.COUNT [31:0] -/
def TOP.WARMCNT_COUNT : Fld := ⟨707, 0x30, [], 0, 32, .rc, .val 0x0, .keep, .keep, .shared⟩

/-! The CLK registers: rule R520 of 19_bringup_clocks_calibration.md. -/

/-- CLK.STATUS.LOCK [13:0] -/
def CLK.STATUS_LOCK : Fld := ⟨708, 0x200000, [], 0, 14, .ro, .val 0x0, .keep, .keep, .shared⟩
/-- CLK.REFSTAT.NET [0:0] -/
def CLK.REFSTAT_NET : Fld := ⟨709, 0x200008, [], 0, 1, .ro, .val 0x0, .keep, .keep, .shared⟩
/-- CLK.REFSTAT.PCIE [1:1] -/
def CLK.REFSTAT_PCIE : Fld := ⟨710, 0x200008, [], 1, 1, .ro, .val 0x0, .keep, .keep, .shared⟩
/-- CLK.REFSTAT.SYS [2:2] -/
def CLK.REFSTAT_SYS : Fld := ⟨711, 0x200008, [], 2, 1, .ro, .val 0x0, .keep, .keep, .shared⟩
/-- CLK.REFSTAT.XTAL [3:3] -/
def CLK.REFSTAT_XTAL : Fld := ⟨712, 0x200008, [], 3, 1, .ro, .val 0x0, .keep, .keep, .shared⟩
/-- CLK.REFERR.COUNT [31:0] -/
def CLK.REFERR_COUNT : Fld := ⟨713, 0x200010, [], 0, 32, .rc, .val 0x0, .val 0x0, .keep, .shared⟩
/-- CLK.FREQ.KHZ [31:0] -/
def CLK.FREQ_KHZ : Fld := ⟨714, 0x200100, [(14, 0x8)], 0, 32, .ro, .val 0x0, .keep, .keep, .shared⟩
/-- CLK.RGSTAT.INRESET [43:0] -/
def CLK.RGSTAT_INRESET : Fld := ⟨715, 0x200200, [], 0, 44, .ro, .val 0xffffffffffe, .keep, .keep, .shared⟩
/-- CLK.RGCNT.COUNT [31:0] -/
def CLK.RGCNT_COUNT : Fld := ⟨716, 0x200300, [(44, 0x8)], 0, 32, .rc, .val 0x0, .keep, .keep, .shared⟩

/-! The CAL registers: rule R521 of 19_bringup_clocks_calibration.md. -/

/-- CAL.CTL.COMMIT [0:0] -/
def CAL.CTL_COMMIT : Fld := ⟨717, 0x100000, [], 0, 1, .wo, .val 0x0, .val 0x0, .keep, .shared⟩
/-- CAL.STATUS.COMMITTED [0:0] -/
def CAL.STATUS_COMMITTED : Fld := ⟨718, 0x100008, [], 0, 1, .ro, .val 0x0, .val 0x0, .keep, .shared⟩
/-- CAL.STATUS.CLAMPED [1:1] -/
def CAL.STATUS_CLAMPED : Fld := ⟨719, 0x100008, [], 1, 1, .rw1c, .val 0x0, .val 0x0, .keep, .shared⟩
/-- CAL.TXF.C2 [5:0] -/
def CAL.TXF_C2 : Fld := ⟨720, 0x101000, [(16, 0x20)], 0, 6, .ro, .otp, .keep, .keep, .shared⟩
/-- CAL.TXF.C1 [13:8] -/
def CAL.TXF_C1 : Fld := ⟨721, 0x101000, [(16, 0x20)], 8, 6, .ro, .otp, .keep, .keep, .shared⟩
/-- CAL.TXF.C0 [21:16] -/
def CAL.TXF_C0 : Fld := ⟨722, 0x101000, [(16, 0x20)], 16, 6, .ro, .otp, .keep, .keep, .shared⟩
/-- CAL.TXF.CP1 [29:24] -/
def CAL.TXF_CP1 : Fld := ⟨723, 0x101000, [(16, 0x20)], 24, 6, .ro, .otp, .keep, .keep, .shared⟩
/-- CAL.TXF.CTLE [36:32] -/
def CAL.TXF_CTLE : Fld := ⟨724, 0x101000, [(16, 0x20)], 32, 5, .ro, .otp, .keep, .keep, .shared⟩
/-- CAL.TXU.C2 [5:0] -/
def CAL.TXU_C2 : Fld := ⟨725, 0x101008, [(16, 0x20)], 0, 6, .rw, .val 0x0, .keep, .keep, .shared⟩
/-- CAL.TXU.C1 [13:8] -/
def CAL.TXU_C1 : Fld := ⟨726, 0x101008, [(16, 0x20)], 8, 6, .rw, .val 0x0, .keep, .keep, .shared⟩
/-- CAL.TXU.C0 [21:16] -/
def CAL.TXU_C0 : Fld := ⟨727, 0x101008, [(16, 0x20)], 16, 6, .rw, .val 0x0, .keep, .keep, .shared⟩
/-- CAL.TXU.CP1 [29:24] -/
def CAL.TXU_CP1 : Fld := ⟨728, 0x101008, [(16, 0x20)], 24, 6, .rw, .val 0x0, .keep, .keep, .shared⟩
/-- CAL.TXU.CTLE [36:32] -/
def CAL.TXU_CTLE : Fld := ⟨729, 0x101008, [(16, 0x20)], 32, 5, .rw, .val 0x0, .keep, .keep, .shared⟩
/-- CAL.TXE.C2 [5:0] -/
def CAL.TXE_C2 : Fld := ⟨730, 0x101010, [(16, 0x20)], 0, 6, .ro, (.fact 720 0 8), .keep, .keep, .shared⟩
/-- CAL.TXE.C1 [13:8] -/
def CAL.TXE_C1 : Fld := ⟨731, 0x101010, [(16, 0x20)], 8, 6, .ro, (.fact 721 0 24), .keep, .keep, .shared⟩
/-- CAL.TXE.C0 [21:16] -/
def CAL.TXE_C0 : Fld := ⟨732, 0x101010, [(16, 0x20)], 16, 6, .ro, (.fact 722 24 63), .keep, .keep, .shared⟩
/-- CAL.TXE.CP1 [29:24] -/
def CAL.TXE_CP1 : Fld := ⟨733, 0x101010, [(16, 0x20)], 24, 6, .ro, (.fact 723 0 24), .keep, .keep, .shared⟩
/-- CAL.TXE.CTLE [36:32] -/
def CAL.TXE_CTLE : Fld := ⟨734, 0x101010, [(16, 0x20)], 32, 5, .ro, (.fact 724 0 31), .keep, .keep, .shared⟩
/-- CAL.TXE.PEND [40:40] -/
def CAL.TXE_PEND : Fld := ⟨735, 0x101010, [(16, 0x20)], 40, 1, .ro, .val 0x0, .keep, .keep, .shared⟩
/-- CAL.TSF.RXF [31:0] -/
def CAL.TSF_RXF : Fld := ⟨736, 0x102000, [(16, 0x10)], 0, 32, .ro, .otp, .keep, .keep, .shared⟩
/-- CAL.TSF.TXF [63:32] -/
def CAL.TSF_TXF : Fld := ⟨737, 0x102000, [(16, 0x10)], 32, 32, .ro, .otp, .keep, .keep, .shared⟩
/-- CAL.TSU.RXU [31:0] -/
def CAL.TSU_RXU : Fld := ⟨738, 0x102008, [(16, 0x10)], 0, 32, .rw, .val 0x0, .keep, .keep, .shared⟩
/-- CAL.TSU.TXU [63:32] -/
def CAL.TSU_TXU : Fld := ⟨739, 0x102008, [(16, 0x10)], 32, 32, .rw, .val 0x0, .keep, .keep, .shared⟩
/-- CAL.TM.FACT [11:0] -/
def CAL.TM_FACT : Fld := ⟨740, 0x103000, [(16, 0x8)], 0, 12, .ro, .otp, .keep, .keep, .shared⟩
/-- CAL.TM.USER [27:16] -/
def CAL.TM_USER : Fld := ⟨741, 0x103000, [(16, 0x8)], 16, 12, .rwl, .val 0x0, .val 0x0, .keep, .shared⟩
/-- CAL.TM.EFF [43:32] -/
def CAL.TM_EFF : Fld := ⟨742, 0x103000, [(16, 0x8)], 32, 12, .ro, (.fact 740 0 4095), (.fact 740 0 4095), .keep, .shared⟩
/-- CAL.VM.FACT [9:0] -/
def CAL.VM_FACT : Fld := ⟨743, 0x104000, [(9, 0x8)], 0, 10, .ro, .otp, .keep, .keep, .shared⟩
/-- CAL.VM.USER [25:16] -/
def CAL.VM_USER : Fld := ⟨744, 0x104000, [(9, 0x8)], 16, 10, .rwl, .val 0x0, .val 0x0, .keep, .shared⟩
/-- CAL.VM.EFF [41:32] -/
def CAL.VM_EFF : Fld := ⟨745, 0x104000, [(9, 0x8)], 32, 10, .ro, (.fact 743 0 1023), (.fact 743 0 1023), .keep, .shared⟩

/-! The MGT registers: rule R541 of 20_management_plane.md. -/

/-- MGT.STATUS.READY [0:0] -/
def MGT.STATUS_READY : Fld := ⟨746, 0xc000000, [], 0, 1, .ro, .val 0x0, .val 0x0, .keep, .shared⟩
/-- MGT.STATUS.RECOVERY [1:1] -/
def MGT.STATUS_RECOVERY : Fld := ⟨747, 0xc000000, [], 1, 1, .ro, .val 0x0, .val 0x0, .keep, .shared⟩
/-- MGT.STATUS.RESTARTS [31:16] -/
def MGT.STATUS_RESTARTS : Fld := ⟨748, 0xc000000, [], 16, 16, .rc, .val 0x0, .val 0x0, .keep, .shared⟩
/-- MGT.CCSHARE.MBOX [7:0] -/
def MGT.CCSHARE_MBOX : Fld := ⟨749, 0xc000008, [], 0, 8, .rw, .val 0xa, .val 0xa, .keep, .shared⟩
/-- MGT.CCSHARE.LEARN [15:8] -/
def MGT.CCSHARE_LEARN : Fld := ⟨750, 0xc000008, [], 8, 8, .rw, .val 0x14, .val 0x14, .keep, .shared⟩
/-- MGT.CCSHARE.EXC [23:16] -/
def MGT.CCSHARE_EXC : Fld := ⟨751, 0xc000008, [], 16, 8, .rw, .val 0xa, .val 0xa, .keep, .shared⟩
/-- MGT.CCSHARE.ERR [32:32] -/
def MGT.CCSHARE_ERR : Fld := ⟨752, 0xc000008, [], 32, 1, .ro, .val 0x0, .val 0x0, .keep, .shared⟩
/-- MGT.CCLOAD.MBOX [7:0] -/
def MGT.CCLOAD_MBOX : Fld := ⟨753, 0xc000010, [], 0, 8, .ro, .val 0x0, .val 0x0, .keep, .shared⟩
/-- MGT.CCLOAD.LEARN [15:8] -/
def MGT.CCLOAD_LEARN : Fld := ⟨754, 0xc000010, [], 8, 8, .ro, .val 0x0, .val 0x0, .keep, .shared⟩
/-- MGT.CCLOAD.EXC [23:16] -/
def MGT.CCLOAD_EXC : Fld := ⟨755, 0xc000010, [], 16, 8, .ro, .val 0x0, .val 0x0, .keep, .shared⟩
/-- MGT.CCLOAD.BUSY [31:24] -/
def MGT.CCLOAD_BUSY : Fld := ⟨756, 0xc000010, [], 24, 8, .ro, .val 0x0, .val 0x0, .keep, .shared⟩
/-- MGT.CCSAT.MBOX [15:0] -/
def MGT.CCSAT_MBOX : Fld := ⟨757, 0xc000018, [], 0, 16, .rc, .val 0x0, .val 0x0, .keep, .shared⟩
/-- MGT.CCSAT.LEARN [31:16] -/
def MGT.CCSAT_LEARN : Fld := ⟨758, 0xc000018, [], 16, 16, .rc, .val 0x0, .val 0x0, .keep, .shared⟩
/-- MGT.CCSAT.EXC [47:32] -/
def MGT.CCSAT_EXC : Fld := ⟨759, 0xc000018, [], 32, 16, .rc, .val 0x0, .val 0x0, .keep, .shared⟩
/-- MGT.TELCFG.PERIOD [9:0] -/
def MGT.TELCFG_PERIOD : Fld := ⟨760, 0xc000020, [], 0, 10, .rw, .val 0x64, .val 0x64, .keep, .shared⟩
/-- MGT.SNAPREQ.REQ [0:0] -/
def MGT.SNAPREQ_REQ : Fld := ⟨761, 0xc000028, [], 0, 1, .wo, .val 0x0, .val 0x0, .keep, .shared⟩
/-- MGT.SNAPSTAT.NEWEST [0:0] -/
def MGT.SNAPSTAT_NEWEST : Fld := ⟨762, 0xc000030, [], 0, 1, .ro, .val 0x0, .val 0x0, .keep, .shared⟩
/-- MGT.SNAPSTAT.READING [1:1] -/
def MGT.SNAPSTAT_READING : Fld := ⟨763, 0xc000030, [], 1, 1, .ro, .val 0x0, .val 0x0, .keep, .shared⟩
/-- MGT.SNAPSTAT.SEQ [63:32] -/
def MGT.SNAPSTAT_SEQ : Fld := ⟨764, 0xc000030, [], 32, 32, .ro, .val 0x0, .val 0x0, .keep, .shared⟩
/-- MGT.SIDEBAND.NCSIPKG [1:0] -/
def MGT.SIDEBAND_NCSIPKG : Fld := ⟨765, 0xc000038, [], 0, 2, .ro, .val 0x0, .keep, .keep, .shared⟩
/-- MGT.SIDEBAND.EID [15:8] -/
def MGT.SIDEBAND_EID : Fld := ⟨766, 0xc000038, [], 8, 8, .ro, .val 0x0, .val 0x0, .keep, .shared⟩
/-- MGT.SIDEBAND.SMBADDR [22:16] -/
def MGT.SIDEBAND_SMBADDR : Fld := ⟨767, 0xc000038, [], 16, 7, .ro, .otp, .keep, .keep, .shared⟩
/-- MGT.SIDEBAND.LOST [63:32] -/
def MGT.SIDEBAND_LOST : Fld := ⟨768, 0xc000038, [], 32, 32, .rc, .val 0x0, .val 0x0, .keep, .shared⟩
/-- MGT.REFUSED.COUNT [31:0] -/
def MGT.REFUSED_COUNT : Fld := ⟨769, 0xc000040, [], 0, 32, .rc, .val 0x0, .val 0x0, .keep, .shared⟩
/-- MGT.FWUPD.STATE [2:0] -/
def MGT.FWUPD_STATE : Fld := ⟨770, 0xc000048, [], 0, 3, .ro, .val 0x0, .val 0x0, .keep, .shared⟩
/-- MGT.FWUPD.SLOT [4:4] -/
def MGT.FWUPD_SLOT : Fld := ⟨771, 0xc000048, [], 4, 1, .ro, .val 0x0, .val 0x0, .keep, .shared⟩
/-- MGT.FWUPD.SOURCE [9:8] -/
def MGT.FWUPD_SOURCE : Fld := ⟨772, 0xc000048, [], 8, 2, .ro, .val 0x0, .val 0x0, .keep, .shared⟩
/-- MGT.FWUPD.ERR [19:16] -/
def MGT.FWUPD_ERR : Fld := ⟨773, 0xc000048, [], 16, 4, .ro, .val 0x0, .val 0x0, .keep, .shared⟩
/-- MGT.FWUPD.BYTES [63:32] -/
def MGT.FWUPD_BYTES : Fld := ⟨774, 0xc000048, [], 32, 32, .ro, .val 0x0, .val 0x0, .keep, .shared⟩
/-- MGT.OTPSTG.BIFMODE [1:0] -/
def MGT.OTPSTG_BIFMODE : Fld := ⟨775, 0xc000050, [], 0, 2, .rw, .val 0x0, .val 0x0, .keep, .shared⟩
/-- MGT.OTPSTG.CXLEN [4:4] -/
def MGT.OTPSTG_CXLEN : Fld := ⟨776, 0xc000050, [], 4, 1, .rw, .val 0x0, .val 0x0, .keep, .shared⟩
/-- MGT.OTPSTG.SMBADDR [14:8] -/
def MGT.OTPSTG_SMBADDR : Fld := ⟨777, 0xc000050, [], 8, 7, .rw, .val 0x0, .val 0x0, .keep, .shared⟩
/-- MGT.OTPSTG.PROGRAMMED [31:31] -/
def MGT.OTPSTG_PROGRAMMED : Fld := ⟨778, 0xc000050, [], 31, 1, .ro, .otp, .otp, .keep, .shared⟩
/-- MGT.OTPCMD.PROG [7:0] -/
def MGT.OTPCMD_PROG : Fld := ⟨779, 0xc000058, [], 0, 8, .wo, .val 0x0, .val 0x0, .keep, .shared⟩
/-- MGT.NCSIQ.QUEUE [17:0] -/
def MGT.NCSIQ_QUEUE : Fld := ⟨780, 0xc000100, [(16, 0x8)], 0, 18, .ro, .val 0x0, .val 0x0, .keep, .shared⟩
/-- MGT.NCSIQ.EN [24:24] -/
def MGT.NCSIQ_EN : Fld := ⟨781, 0xc000100, [(16, 0x8)], 24, 1, .ro, .val 0x0, .val 0x0, .keep, .shared⟩
/-- MGT.XRING.SIZE [3:0] -/
def MGT.XRING_SIZE : Fld := ⟨782, 0xc000200, [(4, 0x40)], 0, 4, .ro, .val 0x0, .val 0x0, .keep, .shared⟩
/-- MGT.XRING.BASE [47:12] -/
def MGT.XRING_BASE : Fld := ⟨783, 0xc000200, [(4, 0x40)], 12, 36, .ro, .val 0x0, .val 0x0, .keep, .shared⟩
/-- MGT.XTAIL.INDEX [13:0] -/
def MGT.XTAIL_INDEX : Fld := ⟨784, 0xc000208, [(4, 0x40)], 0, 14, .ro, .val 0x0, .val 0x0, .keep, .shared⟩
/-- MGT.XTAIL.WRAP [14:14] -/
def MGT.XTAIL_WRAP : Fld := ⟨785, 0xc000208, [(4, 0x40)], 14, 1, .ro, .val 0x0, .val 0x0, .keep, .shared⟩
/-- MGT.XHEAD.INDEX [13:0] -/
def MGT.XHEAD_INDEX : Fld := ⟨786, 0xc000210, [(4, 0x40)], 0, 14, .ro, .val 0x0, .val 0x0, .keep, .shared⟩
/-- MGT.XHEAD.WRAP [14:14] -/
def MGT.XHEAD_WRAP : Fld := ⟨787, 0xc000210, [(4, 0x40)], 14, 1, .ro, .val 0x0, .val 0x0, .keep, .shared⟩
/-- MGT.XDATA.BASE [47:12] -/
def MGT.XDATA_BASE : Fld := ⟨788, 0xc000218, [(4, 0x40)], 12, 36, .ro, .val 0x0, .val 0x0, .keep, .shared⟩
/-- MGT.XSPILL.COUNT [31:0] -/
def MGT.XSPILL_COUNT : Fld := ⟨789, 0xc000220, [(4, 0x40)], 0, 32, .rc, .val 0x0, .val 0x0, .keep, .shared⟩
/-- MGT.TRING.SIZE [3:0] -/
def MGT.TRING_SIZE : Fld := ⟨790, 0xc000400, [], 0, 4, .ro, .val 0x0, .val 0x0, .keep, .shared⟩
/-- MGT.TRING.BASE [47:12] -/
def MGT.TRING_BASE : Fld := ⟨791, 0xc000400, [], 12, 36, .ro, .val 0x0, .val 0x0, .keep, .shared⟩
/-- MGT.TTAIL.INDEX [13:0] -/
def MGT.TTAIL_INDEX : Fld := ⟨792, 0xc000408, [], 0, 14, .ro, .val 0x0, .val 0x0, .keep, .shared⟩
/-- MGT.TTAIL.WRAP [14:14] -/
def MGT.TTAIL_WRAP : Fld := ⟨793, 0xc000408, [], 14, 1, .ro, .val 0x0, .val 0x0, .keep, .shared⟩
/-- MGT.THEAD.INDEX [45:32] -/
def MGT.THEAD_INDEX : Fld := ⟨794, 0xc000408, [], 32, 14, .ro, .val 0x0, .val 0x0, .keep, .shared⟩
/-- MGT.THEAD.WRAP [46:46] -/
def MGT.THEAD_WRAP : Fld := ⟨795, 0xc000408, [], 46, 1, .ro, .val 0x0, .val 0x0, .keep, .shared⟩
/-- MGT.TSPILL.COUNT [31:0] -/
def MGT.TSPILL_COUNT : Fld := ⟨796, 0xc000410, [], 0, 32, .rc, .val 0x0, .val 0x0, .keep, .shared⟩

/-! The MBS registers: rule R542 of 20_management_plane.md. -/

/-- MBS.CFG.SPEED [0:0] -/
def MBS.CFG_SPEED : Fld := ⟨797, 0xc800000, [], 0, 1, .rw, .val 0x0, .keep, .keep, .shared⟩
/-- MBS.CFG.MUXN [10:8] -/
def MBS.CFG_MUXN : Fld := ⟨798, 0xc800000, [], 8, 3, .rw, .val 0x0, .keep, .keep, .shared⟩
/-- MBS.CFG.SCANMS [31:16] -/
def MBS.CFG_SCANMS : Fld := ⟨799, 0xc800000, [], 16, 16, .rw, .val 0x64, .keep, .keep, .shared⟩
/-- MBS.STATUS.BUSY [0:0] -/
def MBS.STATUS_BUSY : Fld := ⟨800, 0xc800008, [], 0, 1, .ro, .val 0x0, .val 0x0, .keep, .shared⟩
/-- MBS.STATUS.TRUNK [1:1] -/
def MBS.STATUS_TRUNK : Fld := ⟨801, 0xc800008, [], 1, 1, .ro, .val 0x0, .val 0x0, .keep, .shared⟩
/-- MBS.STATUS.PROBING [2:2] -/
def MBS.STATUS_PROBING : Fld := ⟨802, 0xc800008, [], 2, 1, .ro, .val 0x0, .val 0x0, .keep, .shared⟩
/-- MBS.STATUS.STUCK [63:32] -/
def MBS.STATUS_STUCK : Fld := ⟨803, 0xc800008, [], 32, 32, .ro, .val 0x0, .val 0x0, .keep, .shared⟩
/-- MBS.CTL.RETRY [0:0] -/
def MBS.CTL_RETRY : Fld := ⟨804, 0xc800010, [], 0, 1, .wo, .val 0x0, .val 0x0, .keep, .shared⟩
/-- MBS.CTL.SCAN [1:1] -/
def MBS.CTL_SCAN : Fld := ⟨805, 0xc800010, [], 1, 1, .wo, .val 0x0, .val 0x0, .keep, .shared⟩
/-- MBS.PRSNOW.LEVEL [15:0] -/
def MBS.PRSNOW_LEVEL : Fld := ⟨806, 0xc800018, [], 0, 16, .ro, .val 0x0, .val 0x0, .keep, .shared⟩
/-- MBS.PRSLATCH.CHG [15:0] -/
def MBS.PRSLATCH_CHG : Fld := ⟨807, 0xc800020, [], 0, 16, .ro, .val 0x0, .val 0x0, .keep, .shared⟩
/-- MBS.SCAN.RESULT [15:0] -/
def MBS.SCAN_RESULT : Fld := ⟨808, 0xc800028, [], 0, 16, .ro, .val 0x0, .val 0x0, .keep, .shared⟩
/-- MBS.SCAN.CDS [16:16] -/
def MBS.SCAN_CDS : Fld := ⟨809, 0xc800028, [], 16, 1, .ro, .val 0x0, .val 0x0, .keep, .shared⟩
/-- MBS.SCAN.ATTEMPTS [19:17] -/
def MBS.SCAN_ATTEMPTS : Fld := ⟨810, 0xc800028, [], 17, 3, .ro, .val 0x0, .val 0x0, .keep, .shared⟩
/-- MBS.SCAN.UNSTABLE [20:20] -/
def MBS.SCAN_UNSTABLE : Fld := ⟨811, 0xc800028, [], 20, 1, .ro, .val 0x0, .val 0x0, .keep, .shared⟩
/-- MBS.SCAN.SEQ [63:32] -/
def MBS.SCAN_SEQ : Fld := ⟨812, 0xc800028, [], 32, 32, .ro, .val 0x0, .val 0x0, .keep, .shared⟩
/-- MBS.RECOV.COUNT [31:0] -/
def MBS.RECOV_COUNT : Fld := ⟨813, 0xc800030, [], 0, 32, .rc, .val 0x0, .val 0x0, .keep, .shared⟩
/-- MBS.RECOV.STUCKS [63:32] -/
def MBS.RECOV_STUCKS : Fld := ⟨814, 0xc800030, [], 32, 32, .rc, .val 0x0, .val 0x0, .keep, .shared⟩
/-- MBS.CAGE.SEG [4:0] -/
def MBS.CAGE_SEG : Fld := ⟨815, 0xc800100, [(16, 0x8)], 0, 5, .rw, .val 0x0, .keep, .keep, .shared⟩
/-- MBS.CAGE.PORT [11:8] -/
def MBS.CAGE_PORT : Fld := ⟨816, 0xc800100, [(16, 0x8)], 8, 4, .rw, .val 0x0, .keep, .keep, .shared⟩
/-- MBS.CAGE.EN [16:16] -/
def MBS.CAGE_EN : Fld := ⟨817, 0xc800100, [(16, 0x8)], 16, 1, .rw, .val 0x0, .keep, .keep, .shared⟩
/-- MBS.CAGE.STATE [26:24] -/
def MBS.CAGE_STATE : Fld := ⟨818, 0xc800100, [(16, 0x8)], 24, 3, .ro, .val 0x0, .val 0x0, .keep, .shared⟩
/-- MBS.SEGCTL.RETRY [0:0] -/
def MBS.SEGCTL_RETRY : Fld := ⟨819, 0xc800200, [(32, 0x8)], 0, 1, .wo, .val 0x0, .val 0x0, .keep, .shared⟩
/-- MBS.SEGCTL.OPEN [8:8] -/
def MBS.SEGCTL_OPEN : Fld := ⟨820, 0xc800200, [(32, 0x8)], 8, 1, .ro, .val 0x0, .val 0x0, .keep, .shared⟩
/-- MBS.SEGCTL.RECOV [31:16] -/
def MBS.SEGCTL_RECOV : Fld := ⟨821, 0xc800200, [(32, 0x8)], 16, 16, .rc, .val 0x0, .val 0x0, .keep, .shared⟩

/-- The register fields of block ENG. -/
def fieldsENG : List Fld :=
  [ENG.CFG_COMMIT, ENG.CFG_STALL_LIM, ENG.CFG_MAXCTX, ENG.COH_BASE_BASE, ENG.COH_SIZE_SIZE, ENG.COH_SIZE_ATOM,
   ENG.STATUS_COMMITTED, ENG.STATUS_CERR, ENG.TASK_RACE_COUNT, ENG.TASK_FULL_COUNT, ENG.FAILED0_MAP, ENG.FAILED1_MAP,
   ENG.FAILED2_MAP, ENG.L1ERR_CE, ENG.L1ERR_UE, ENG.ESTAT_STATE, ENG.ESTAT_CAUSE, ENG.ESTAT_CTXBUSY,
   ENG.ESTAT_TASKCTX, ENG.ECTL_RETEST, ENG.ECTL_WITHDRAW, ENG.ECTL_ONLINE, ENG.BSTAT_STORE_OK, ENG.BSTAT_RELOAD,
   ENG.BSTAT_TASKS, ENG.L2ERR_CE, ENG.L2ERR_UE, ENG.L2ERR_POISONED]

/-- The register fields of block PGM. -/
def fieldsPGM : List Fld :=
  [PGM.STATUS_READY, PGM.STATUS_FREE, PGM.STATUS_LARGEST, PGM.EPOCH_EPOCH, PGM.KEYSTAT_ENROLLED, PGM.KEYSTAT_REVOKED,
   PGM.REFUSED_COUNT, PGM.LAST_CODE, PGM.LAST_WORD, PGM.LAST_HANDLE, PGM.NOSLOT_COUNT, PGM.CNTSEL_KIND,
   PGM.CNTSEL_INDEX, PGM.CNTSEL_VALID, PGM.CNTA_VALUE, PGM.CNTB_VALUE, PGM.CNTCLR_CLR, PGM.COPYDROP_COUNT,
   PGM.FBDROP_COUNT, PGM.SLOT_VALID, PGM.SLOT_FAULT, PGM.SLOT_SCOPE, PGM.SLOT_OWNER, PGM.SLOT_HANDLE,
   PGM.SLOT_EPOCH, PGM.IMGA_STATE, PGM.IMGA_WORDS, PGM.IMGA_BASE, PGM.IMGB_BOUND, PGM.IMGB_ISSUE,
   PGM.IMGB_KEYIDX]

/-- The register fields of block PRT. -/
def fieldsPRT : List Fld :=
  [PRT.CTL_EN, PRT.CTL_DOWNACT, PRT.CTL_LT, PRT.CTL_LOOP, PRT.MODE_GMODE, PRT.MODE_APPLY,
   PRT.MODE_STATE, PRT.STATUS_LINK, PRT.STATUS_ALIGN, PRT.STATUS_FECHI, PRT.STATUS_SPEED, PRT.STATUS_PVERIFY,
   PRT.MAXLEN_LEN, PRT.TXCT_BASE, PRT.TXCT_CUR, PRT.TXCT_EXPTHR, PRT.PREEMPT_PMASK, PRT.PREEMPT_ADDFRAG,
   PRT.PREEMPT_VERIFY, PRT.PREEMPT_VTIME, PRT.FECTHR_SYMTHR, PRT.TSLAT_RXEFF, PRT.TSLAT_TXEFF, PRT.RXFRAMES_COUNT,
   PRT.RXOCTETS_COUNT, PRT.RXFCS_COUNT, PRT.RXRUNT_COUNT, PRT.RXOVERSIZE_COUNT, PRT.RXREASM_COUNT, PRT.RXOVERRUN_COUNT,
   PRT.TXFRAMES_COUNT, PRT.TXOCTETS_COUNT, PRT.TXUNDERRUN_HBM, PRT.TXUNDERRUN_EXP, PRT.TXDISCARD_COUNT, PRT.TXPREEMPT_COUNT,
   PRT.FECCW_COUNT, PRT.FECUNC_COUNT, PRT.FECSYM_COUNT, PRT.TXCLASS_COUNT, PRT.WAKECTL_MAGIC, PRT.WAKECTL_PROMISC,
   PRT.WAKECTL_ALLMULTI, PRT.WAKECTL_PATEN, PRT.WAKECTL_PORTS, PRT.WAKESTAT_CAUSE, PRT.WAKESTAT_PATTERN, PRT.WAKESTAT_COUNT,
   PRT.WAKEPAT_MASKLO, PRT.WAKEPAT_MASKHI, PRT.WAKEPAT_CRC]

/-- The register fields of block PAR. -/
def fieldsPAR : List Fld :=
  [PAR.CFG_VXLANPORT, PAR.CFG_GENEVEPORT, PAR.CFG_TPID2, PAR.CFG_TUNEN, PAR.PKTS_COUNT, PAR.FAIL_COUNT,
   PAR.FAIL_LASTCODE, PAR.FRAG_COUNT, PAR.GOPTSKIP_COUNT]

/-- The register fields of block ACS. -/
def fieldsACS : List Fld :=
  [ACS.BANKW0_W, ACS.BANKW1_W, ACS.BANKOWN0_OWN, ACS.BANKOWN1_OWN, ACS.PCTL_EN, ACS.PCTL_KEYFMT,
   ACS.PCTL_NBANKS, ACS.PCTL_APPLY, ACS.PCTL_ERR, ACS.PBANKLO_BANK, ACS.PBANKHI_BANK, ACS.PCUST_EXT,
   ACS.PSEL_SEL, ACS.PSEL_SELHI, ACS.PDEF_ACT, ACS.PDEFX_ACTX, ACS.STGVAL_VAL, ACS.STGMASK_MASK,
   ACS.STGACT_ACT, ACS.STGACTX_ACTX, ACS.CMD_OP, ACS.CMD_WIDTH, ACS.CMD_BANK, ACS.CMD_PROFILE,
   ACS.CMD_INDEX, ACS.CMDSTAT_BUSY, ACS.CMDSTAT_RESULT, ACS.CMDSTAT_VALID, ACS.CMDSTAT_FOUND, ACS.CMDSTAT_CHANGED,
   ACS.CMDSTAT_IGNORED, ACS.CMDSTAT_MBANK, ACS.CMDSTAT_MINDEX, ACS.LOOKUPS_COUNT, ACS.HITS_COUNT, ACS.MULTI_COUNT,
   ACS.DROPS_COUNT, ACS.FALSEHIT_COUNT, ACS.UNCORR_COUNT, ACS.SCRUBFIX_COUNT, ACS.LKALATE_COUNT, ACS.LASTERR_BANK,
   ACS.LASTERR_INDEX]

/-- The register fields of block FWD. -/
def fieldsFWD : List Fld :=
  [FWD.CFG_TICK, FWD.CFG_READY, FWD.AREA_BASE, FWD.AREA_CONNBASE, FWD.NOW_TICK, FWD.CONNSTAT_VALID,
   FWD.CREATED_COUNT, FWD.CREATEFULL_COUNT, FWD.CONNAGED_COUNT, FWD.TBL_EN, FWD.TBL_KIND, FWD.TBL_AGEMODE,
   FWD.TBL_KEYLEN, FWD.TBL_SIZE, FWD.TBL_ERR, FWD.TBL_BASE, FWD.TSEED_SEED1, FWD.TSEED_SEED2,
   FWD.TAGE_AGELIM, FWD.TAGE_SWEEP, FWD.TCOUNT_VALID, FWD.IPROF_DKEY, FWD.IPROF_DTABLE, FWD.IPROF_LEARN,
   FWD.IPROF_LKEY, FWD.IPROF_LTABLE, FWD.DLOOKUPS_COUNT, FWD.DHITS_COUNT, FWD.SLOOKUPS_COUNT, FWD.KEYMISMATCH_COUNT,
   FWD.UNCORR_COUNT, FWD.STATICMOVE_COUNT, FWD.AGED_COUNT, FWD.LOCKTIMEOUT_COUNT, FWD.LASTERR_BUCKET]

/-- The register fields of block LRN. -/
def fieldsLRN : List Fld :=
  [LRN.CFG_SETTLE, LRN.POLICY_MOVELIM, LRN.POLICY_MOVEWIN, LRN.POLICY_DAMPTIME, LRN.POLICY_SPREAD, LRN.LRING_SIZE,
   LRN.LRING_BASE, LRN.LTAIL_INDEX, LRN.LTAIL_WRAP, LRN.LHEAD_INDEX, LRN.LHEAD_WRAP, LRN.ARING_SIZE,
   LRN.ARING_BASE, LRN.ATAIL_INDEX, LRN.ATAIL_WRAP, LRN.AHEAD_INDEX, LRN.AHEAD_WRAP, LRN.PEND_INUSE,
   LRN.PEND_PEAK, LRN.NOTIF_COUNT, LRN.SUPPRESS_COUNT, LRN.LSPILL_COUNT, LRN.ASPILL_COUNT, LRN.MOVES_COUNT,
   LRN.DAMPED_COUNT, LRN.DAMPS_COUNT, LRN.CRING_SIZE, LRN.CRING_BASE, LRN.CTAIL_INDEX, LRN.CTAIL_WRAP,
   LRN.CHEAD_INDEX, LRN.CHEAD_WRAP, LRN.CSPILL_COUNT]

/-- The register fields of block DSP. -/
def fieldsDSP : List Fld :=
  [DSP.CFG_SLOWCLR, DSP.CFG_OFAIR, DSP.FSEED_SEED, DSP.FMODE_MODE, DSP.ACCEPTED_COUNT, DSP.CCWAIT_PEAK,
   DSP.BACKLOG_PEAK, DSP.BAYMASK_MASK, DSP.DISPATCHED_COUNT, DSP.QDROP_EXP, DSP.QDROP_ORD, DSP.QDEPTH_EXP,
   DSP.QDEPTH_ORD, DSP.QDEPTH_EXPPEAK, DSP.QDEPTH_ORDPEAK, DSP.REDISP_COUNT, DSP.REDISP_LOST, DSP.ORDHOLD_PEAK,
   DSP.INFLIGHT_COUNT, DSP.ERATIO_LAST, DSP.ERATIO_PEAK, DSP.ERATIO_CLEAN]

/-- The register fields of block TUN. -/
def fieldsTUN : List Fld :=
  [TUN.CFG_DPCLASS, TUN.CFG_DPTYPE, TUN.TSTATUS_VALID, TUN.KNOWNOPT_CLASS, TUN.KNOWNOPT_TYPE, TUN.KNOWNOPT_EN,
   TUN.ENCAP_COUNT, TUN.DECAP_COUNT, TUN.ERR_COUNT, TUN.ERR_LAST, TUN.SEGS_COUNT, TUN.DPIGN_COUNT,
   TUN.TSTG_DATA, TUN.TCMD_TMPL]

/-- The register fields of block STO. -/
def fieldsSTO : List Fld :=
  [STO.TCPCFG_RTOMIN, STO.TCPCFG_MAXRETX, STO.CNPINT_US, STO.CONNSTAT_TCP, STO.CONNSTAT_RC, STO.PERSONA_COUNT,
   STO.OOODROP_COUNT, STO.TCPRETX_COUNT, STO.ICRCERR_COUNT, STO.BADOPC_COUNT, STO.CNPSENT_COUNT, STO.CNPRCVD_COUNT,
   STO.DIGESTERR_COUNT, STO.RESENT_COUNT, STO.TTE_COUNT, STO.TCONN_STATE, STO.TCONN_POLDER, STO.PVF_FUNC,
   STO.PVF_EN, STO.PVF_NSCOUNT]

/-- The register fields of block CIP. -/
def fieldsCIP : List Fld :=
  [CIP.CFG_RCORES, CIP.STATUS_CORES, CIP.STATUS_TAMPER, CIP.ONWARD_COUNT, CIP.RETURN_COUNT, CIP.QDEPTH_RET,
   CIP.QDEPTH_ADM, CIP.QDEPTH_ORD, CIP.QFULL_ADM, CIP.QFULL_ORD, CIP.LATE_COUNT, CIP.ONFAIL_AUTH,
   CIP.ONFAIL_OTHER, CIP.REFUSED_COUNT, CIP.REFUSED_LAST, CIP.ENTSTAT_OK, CIP.DRBG_STOPPED, CIP.RANDZERO_COUNT,
   CIP.RANDCC_VALUE, CIP.CORESTAT_STATE, CIP.CORESTAT_KATFAIL]

/-- The register fields of block KEY. -/
def fieldsKEY : List Fld :=
  [KEY.STATUS_ACTIVE, KEY.STATUS_SESS0, KEY.STATUS_SESS1, KEY.REFUSED_COUNT, KEY.REFUSED_LAST, KEY.ECC_CE,
   KEY.ECC_UE, KEY.TDROP_COUNT, KEY.TPOL_DROP, KEY.SLOT_STATE, KEY.SLOT_ALG, KEY.SLOT_DIRS,
   KEY.SLOT_SCOPE, KEY.SLOT_EXPORT, KEY.SLOT_OWNER, KEY.SLOT_EXH]

/-- The register fields of block BAT. -/
def fieldsBAT : List Fld :=
  [BAT.STATE_ST, BAT.STATE_BATLOSS, BAT.STATE_RTCVALID, BAT.STATE_BATLOW, BAT.RTC_SUB, BAT.RTC_SEC,
   BAT.TCFG_EN, BAT.TCFG_POL, BAT.TCFG_MESHEN, BAT.TCFG_ACLKMON, BAT.TCFG_LOCK, BAT.LOGSTAT_COUNT,
   BAT.LOGSTAT_NEXT, BAT.LOGSTAT_OVERFLOW, BAT.LOG_TIME, BAT.LOG_SRC, BAT.LOG_MAIN, BAT.LOG_VBAT,
   BAT.LOG_SEQ]

/-- The register fields of block SCH. -/
def fieldsSCH : List Fld :=
  [SCH.STATUS_READY, SCH.POOL_FREE, SCH.POOL_ADMRES, SCH.POOLDROP_BE, SCH.POOLDROP_ADM, SCH.DDROP_GREEN,
   SCH.DDROP_YELLOW, SCH.DROPS_RED, SCH.DROPS_POLRED, SCH.QUARDROP_COUNT, SCH.TWINDROP_COUNT, SCH.BADMETER_COUNT,
   SCH.BADMETER_LAST, SCH.CLASSFIX_COUNT, SCH.LASTDROP_QUEUE, SCH.LASTDROP_CAUSE, SCH.PORT_OVH, SCH.PORT_LINEINC,
   SCH.NSTG_DATA, SCH.NCMD_OP, SCH.NCMD_LEVEL, SCH.NCMD_NODE, SCH.NSTAT_BUSY, SCH.NSTAT_RESULT,
   SCH.NSTAT_IGNORED]

/-- The register fields of block SLU. -/
def fieldsSLU : List Fld :=
  [SLU.TCTL_OWNER, SLU.TCTL_PPSW, SLU.TCTL_PPSEN, SLU.TNOWLO_NS, SLU.TNOWLO_FRAC, SLU.TNOWHI_SEC,
   SLU.TSETLO_NS, SLU.TSETHI_SEC, SLU.TOFF_OFF, SLU.TRATE_RATE, SLU.TCMD_OP, SLU.TSTAT_STEPS,
   SLU.TSTAT_IGNORED, SLU.TSTAT_CLAMP, SLU.TSTAT_PPSV, SLU.PPSCAP_NS, SLU.PPSCAP_SEC, SLU.PCTL_MODE,
   SLU.PCTL_FSET, SLU.PCTL_LENAWARE, SLU.PCTL_CHANGE, SLU.PCTL_CANCEL, SLU.PSTAT_STATE, SLU.PSTAT_PENDING,
   SLU.PSTAT_COPYING, SLU.PSTAT_RESULT, SLU.PSTAT_ENTRY, SLU.PSTAT_GATES, SLU.PSTAT_HOLD, SLU.PT0LO_NS,
   SLU.PT0HI_SEC, SLU.CMAX0_CMAX, SLU.CMAX1_CMAX, SLU.BERM_BERM, SLU.CBASELO_NS, SLU.CBASEHI_SEC,
   SLU.CCYCLE_CYCLE, SLU.CCYCLE_LEN, SLU.PTPCFG_OSMODE, SLU.TXTSSTAT_COUNT, SLU.TXTSSTAT_OVF, SLU.TXTSA_MARK,
   SLU.TXTSA_NS, SLU.TXTSB_SEC, SLU.TXTSB_FRAC, SLU.PDROP_LONG, SLU.PDROP_OSMISS, SLU.CENT_ENTRY,
   SLU.FABASELO_NS, SLU.FABASEHI_SEC, SLU.FACYCLE_CYCLE, SLU.FACYCLE_LEN, SLU.FAEXT_EXT, SLU.FOBASELO_NS,
   SLU.FOBASEHI_SEC, SLU.FOCYCLE_CYCLE, SLU.FOCYCLE_LEN, SLU.FOEXT_EXT, SLU.FSTAT_PORT, SLU.FSTAT_INUSE,
   SLU.FAENT_ENTRY, SLU.FOENT_ENTRY]

/-- The register fields of block ADM. -/
def fieldsADM : List Fld :=
  [ADM.CFG_MINMARGIN, ADM.CFG_ESHARE, ADM.CFG_CSHARE, ADM.CFG_HSHARE, ADM.EXPRES_BYTES, ADM.STATUS_READY,
   ADM.STATUS_COMPILING, ADM.STATUS_QUEUED, ADM.STATUS_DEGRADED, ADM.EPOCH_EPOCH, ADM.ACT_NS, ADM.ACT_SEC,
   ADM.COUNT_CR, ADM.COUNT_TG, ADM.COUNT_SAF, ADM.LAST_RESULT, ADM.LAST_STAGE, ADM.LAST_UNIT,
   ADM.LAST_FAILIDX, ADM.LAST_FAILNUM, ADM.SHORT_SHORTFALL, ADM.REFUSED_COUNT, ADM.BREACHES_COUNT, ADM.RESV_EXPUSED,
   ADM.RESV_POOLUSED, ADM.CSTAT_STATE, ADM.CSTAT_CCLASS, ADM.CSTAT_POLDER, ADM.CSTAT_EPOCH]

/-- The register fields of block DUP. -/
def fieldsDUP : List Fld :=
  [DUP.CFG_HBINT, DUP.CFG_HBCLASS, DUP.CFG_RXSTRIP, DUP.CFG_TXSTRIP, DUP.CFG_FORGET, DUP.CFG_SIZE,
   DUP.CFG_GLIM, DUP.SRCAREA_TABBASE, DUP.SRCAREA_WINBASE, DUP.PRP_TABLE, DUP.PRP_PRPBASE, DUP.PRP_EN,
   DUP.HBDA_DA, DUP.HBSA_SA, DUP.QCFG_QTHR, DUP.QCFG_QEXIT, DUP.QCFG_QHOLD, DUP.QCFG_RSYNC,
   DUP.QCFG_RSMAX, DUP.PAIR_PORT1, DUP.PAIR_PORT2, DUP.PAIR_EN, DUP.PSTAT_STATE1, DUP.PSTAT_STATE2,
   DUP.PSTAT_PEERLOST, DUP.ILK_EN, DUP.ILK_PRIO, DUP.ILK_ROLE, DUP.ILK_CABLE, DUP.ILK_INBAND,
   DUP.ILKID_ID, DUP.ILKPARTNER_ID, DUP.ILKSTAT_EPOCH, DUP.ILKSTAT_TAKEOVERS, DUP.PXRANGE_BASE, DUP.PXRANGE_KIND,
   DUP.PXRANGE_COUNT, DUP.PXRANGE_EN, DUP.HBPEER_ID, DUP.NOSRC_COUNT, DUP.LATEFETCH_COUNT, DUP.PXSTBY_COUNT,
   DUP.PERR_CUR, DUP.PERR_LAST, DUP.PERR_QUARS, DUP.PACC_COUNT, DUP.PDUP_COUNT, DUP.PLATE_COUNT,
   DUP.PRSDROP_COUNT, DUP.PQDROP_COUNT, DUP.PWRONGLAN_COUNT, DUP.PHB_RX, DUP.PHB_MISS]

/-- The register fields of block HIF. -/
def fieldsHIF : List Fld :=
  [HIF.CFG_BIFMODE, HIF.CFG_CXLEN, HIF.CFG_TAGADM, HIF.CFG_TAGCTL, HIF.ID_VID, HIF.ID_SSVID,
   HIF.ID_SSID, HIF.ID_REV, HIF.FLRSTAT_ACTIVE, HIF.FLRSTAT_LASTFN, HIF.FLRSTAT_COUNT, HIF.CXLSTAT_CXL,
   HIF.CXLSTAT_CACHEEN, HIF.CXLSTAT_LINES, HIF.CXLSNP_COUNT, HIF.LSTAT_UP, HIF.LSTAT_FLIT, HIF.LSTAT_PRESENT,
   HIF.LSTAT_RATE, HIF.LSTAT_WIDTH, HIF.LSTAT_FIGURE, HIF.TAGS_LIMIT, HIF.TAGS_INUSE, HIF.TAGS_PEAK,
   HIF.CPLBUF_USED, HIF.CPLBUF_PEAK, HIF.CTO_TIMEOUT, HIF.CTO_CPLERR, HIF.UR_COUNT, HIF.UR_LASTFN,
   HIF.DBDROP_COUNT, HIF.ATC_VALID, HIF.ATC_INVREQ, HIF.XLFAIL_COUNT, HIF.LDOWN_DOWN, HIF.LDOWN_DEGRADE,
   HIF.TAGRES_CTL, HIF.TAGRES_ADM]

/-- The register fields of block RNG. -/
def fieldsRNG : List Fld :=
  [RNG.CFG_ISOLMS, RNG.CFG_FETCH, RNG.STATUS_READY, RNG.STATUS_ISOLATED, RNG.DBINVALID_COUNT, RNG.DBINVALID_LASTRING,
   RNG.DBSTALE_COUNT, RNG.RXDROP_NOBUF, RNG.RXDROP_OTHER, RNG.CQFULL_HELD, RNG.CQFULL_LOST, RNG.ERRORS_COUNT,
   RNG.ERRORS_LASTRING, RNG.ERRORS_LASTSTAT, RNG.CSTG_DATA, RNG.CCMD_OP, RNG.CCMD_KIND, RNG.CCMD_RING,
   RNG.CSTAT_BUSY, RNG.CSTAT_RESULT, RNG.CSTAT_IGNORED, RNG.DB_VALUE]

/-- The register fields of block DMA. -/
def fieldsDMA : List Fld :=
  [DMA.CFG_AGE, DMA.LTDROP_COUNT, DMA.GSTAT_BUSY, DMA.GSTAT_BURSTS, DMA.BYTES_COUNT, DMA.CHSTAT_STATE,
   DMA.CHSTAT_PRIO, DMA.CHSTAT_RING, DMA.CHCTL_STOP, DMA.CHCTL_START, DMA.LTPROF_W, DMA.LTPROF_E,
   DMA.LTPROF_PACKED, DMA.LTPROF_EN]

/-- The register fields of block VIR. -/
def fieldsVIR : List Fld :=
  [VIR.STATUS_READY, VIR.STATUS_POLDERS, VIR.MACBASE_MAC, VIR.REFUSED_COUNT, VIR.REFUSED_LAST, VIR.PSQ_BASE,
   VIR.PSQ_COUNT, VIR.PRQ_BASE, VIR.PRQ_COUNT, VIR.PCQ_BASE, VIR.PCQ_COUNT, VIR.PVEC_VECTORS,
   VIR.PVEC_L2BASE, VIR.PVEC_L2CNT, VIR.PKEY_BASE, VIR.PKEY_COUNT, VIR.PID_PASID, VIR.PID_TASKQ,
   VIR.PMAC_MAC, VIR.PCTL_WEIGHT, VIR.PCTL_CNLIM, VIR.PCTL_EN, VIR.PCTL_EXISTS, VIR.PPEAK_RATE,
   VIR.PCRLIM_RATE, VIR.PCRUSE_RATE, VIR.PUSE_CONTRACTS, VIR.PUSE_TASKS, VIR.PUSE_TASKFULL, VIR.PTCQ_RING,
   VIR.PTCQ_EN]

/-- The register fields of block MBX. -/
def fieldsMBX : List Fld :=
  [MBX.TXDATA_DATA, MBX.TXENV_PEER, MBX.TXENV_PKIND, MBX.TXENV_SERVICE, MBX.TXCMD_OP, MBX.TXCMD_WSEQ,
   MBX.TXSTAT_RESULT, MBX.TXSTAT_SEQ, MBX.TXSTAT_CSPEND, MBX.TXSTAT_PFPEND, MBX.RXDATA_DATA, MBX.RXENV_ENV,
   MBX.RXENV_VALID, MBX.RXCMD_POP, MBX.RXSTAT_COUNT, MBX.RXSTAT_LOST, MBX.IRQ_VECTOR, MBX.IRQ_EN,
   MBX.CMSTAT_TOMGT, MBX.CMSTAT_TOCC, MBX.STXDATA_DATA, MBX.STXENV_SERVICE, MBX.STXCMD_OP, MBX.STXCMD_WSEQ,
   MBX.STXSTAT_RESULT, MBX.STXSTAT_SEQ, MBX.SRXDATA_DATA, MBX.SRXENV_ENV, MBX.SRXENV_VALID, MBX.SRXCMD_POP]

/-- The register fields of block EVT. -/
def fieldsEVT : List Fld :=
  [EVT.STATUS_READY, EVT.RECSTAT_COUNT, EVT.RECSTAT_LOST, EVT.RECA_SOURCE, EVT.RECA_POLDER, EVT.RECA_PV,
   EVT.RECA_INFO, EVT.RECB_NS, EVT.RECB_SEC, EVT.PEND_BITS, EVT.MASK_BITS, EVT.VEC_VECTOR,
   EVT.MGTMASK_BITS, EVT.COUNT_COUNT]

/-- The register fields of block DKW. -/
def fieldsDKW : List Fld :=
  [DKW.STATUS_READY, DKW.STATUS_PAIRA, DKW.STATUS_PAIRB, DKW.STATUS_DEGRADED, DKW.STATUS_DEVSAFE, DKW.STATUS_FAULTN,
   DKW.STATUS_SECOND, DKW.CAUSE_SOURCE, DKW.CAUSE_SM, DKW.CAUSE_INFO, DKW.FTIME_NS, DKW.FTIME_SEC,
   DKW.FCLR_RELEASE, DKW.FCLR_DEVICE, DKW.PSAFE_PORTS, DKW.PACT_ACT, DKW.PSCLR_PORTS, DKW.POLCLR_POLDER,
   DKW.TSTAT_REPAIRS, DKW.TSTAT_FALLBACKS, DKW.TSTAT_NOEPOCH, DKW.TSTAT_HWFIX, DKW.TLOG_EPOCH, DKW.TLOG_ENTRIES,
   DKW.FWSEL_ACTIVE, DKW.FWSEL_VALIDA, DKW.FWSEL_VALIDB, DKW.FWSEL_DIFFER, DKW.FWSEL_VERA, DKW.FWVER_VERB,
   DKW.FWVER_MINVER, DKW.SMSTAT_FAILED, DKW.SMSTAT_INJEN, DKW.INJECT_SM, DKW.SMCNT_DET, DKW.POLSAFE_MAP]

/-- The register fields of block TOP. -/
def fieldsTOP : List Fld :=
  [TOP.IDENT_PART, TOP.IDENT_GRADE, TOP.IDENT_STEP, TOP.READY_BITS, TOP.FAILED_BITS, TOP.RESET_WARM,
   TOP.RSTCAUSE_COLD, TOP.RSTCAUSE_PF0, TOP.RSTCAUSE_PIN, TOP.RSTCAUSE_MGT, TOP.NOTREADY_COUNT, TOP.WARMCNT_COUNT]

/-- The register fields of block CLK. -/
def fieldsCLK : List Fld :=
  [CLK.STATUS_LOCK, CLK.REFSTAT_NET, CLK.REFSTAT_PCIE, CLK.REFSTAT_SYS, CLK.REFSTAT_XTAL, CLK.REFERR_COUNT,
   CLK.FREQ_KHZ, CLK.RGSTAT_INRESET, CLK.RGCNT_COUNT]

/-- The register fields of block CAL. -/
def fieldsCAL : List Fld :=
  [CAL.CTL_COMMIT, CAL.STATUS_COMMITTED, CAL.STATUS_CLAMPED, CAL.TXF_C2, CAL.TXF_C1, CAL.TXF_C0,
   CAL.TXF_CP1, CAL.TXF_CTLE, CAL.TXU_C2, CAL.TXU_C1, CAL.TXU_C0, CAL.TXU_CP1,
   CAL.TXU_CTLE, CAL.TXE_C2, CAL.TXE_C1, CAL.TXE_C0, CAL.TXE_CP1, CAL.TXE_CTLE,
   CAL.TXE_PEND, CAL.TSF_RXF, CAL.TSF_TXF, CAL.TSU_RXU, CAL.TSU_TXU, CAL.TM_FACT,
   CAL.TM_USER, CAL.TM_EFF, CAL.VM_FACT, CAL.VM_USER, CAL.VM_EFF]

/-- The register fields of block MGT. -/
def fieldsMGT : List Fld :=
  [MGT.STATUS_READY, MGT.STATUS_RECOVERY, MGT.STATUS_RESTARTS, MGT.CCSHARE_MBOX, MGT.CCSHARE_LEARN, MGT.CCSHARE_EXC,
   MGT.CCSHARE_ERR, MGT.CCLOAD_MBOX, MGT.CCLOAD_LEARN, MGT.CCLOAD_EXC, MGT.CCLOAD_BUSY, MGT.CCSAT_MBOX,
   MGT.CCSAT_LEARN, MGT.CCSAT_EXC, MGT.TELCFG_PERIOD, MGT.SNAPREQ_REQ, MGT.SNAPSTAT_NEWEST, MGT.SNAPSTAT_READING,
   MGT.SNAPSTAT_SEQ, MGT.SIDEBAND_NCSIPKG, MGT.SIDEBAND_EID, MGT.SIDEBAND_SMBADDR, MGT.SIDEBAND_LOST, MGT.REFUSED_COUNT,
   MGT.FWUPD_STATE, MGT.FWUPD_SLOT, MGT.FWUPD_SOURCE, MGT.FWUPD_ERR, MGT.FWUPD_BYTES, MGT.OTPSTG_BIFMODE,
   MGT.OTPSTG_CXLEN, MGT.OTPSTG_SMBADDR, MGT.OTPSTG_PROGRAMMED, MGT.OTPCMD_PROG, MGT.NCSIQ_QUEUE, MGT.NCSIQ_EN,
   MGT.XRING_SIZE, MGT.XRING_BASE, MGT.XTAIL_INDEX, MGT.XTAIL_WRAP, MGT.XHEAD_INDEX, MGT.XHEAD_WRAP,
   MGT.XDATA_BASE, MGT.XSPILL_COUNT, MGT.TRING_SIZE, MGT.TRING_BASE, MGT.TTAIL_INDEX, MGT.TTAIL_WRAP,
   MGT.THEAD_INDEX, MGT.THEAD_WRAP, MGT.TSPILL_COUNT]

/-- The register fields of block MBS. -/
def fieldsMBS : List Fld :=
  [MBS.CFG_SPEED, MBS.CFG_MUXN, MBS.CFG_SCANMS, MBS.STATUS_BUSY, MBS.STATUS_TRUNK, MBS.STATUS_PROBING,
   MBS.STATUS_STUCK, MBS.CTL_RETRY, MBS.CTL_SCAN, MBS.PRSNOW_LEVEL, MBS.PRSLATCH_CHG, MBS.SCAN_RESULT,
   MBS.SCAN_CDS, MBS.SCAN_ATTEMPTS, MBS.SCAN_UNSTABLE, MBS.SCAN_SEQ, MBS.RECOV_COUNT, MBS.RECOV_STUCKS,
   MBS.CAGE_SEG, MBS.CAGE_PORT, MBS.CAGE_EN, MBS.CAGE_STATE, MBS.SEGCTL_RETRY, MBS.SEGCTL_OPEN,
   MBS.SEGCTL_RECOV]

/-- Every register field of the device, block by block. -/
def allFields : List Fld :=
  fieldsENG ++ fieldsPGM ++ fieldsPRT ++ fieldsPAR ++ fieldsACS ++ fieldsFWD ++ fieldsLRN ++ fieldsDSP ++ fieldsTUN ++ fieldsSTO ++ fieldsCIP ++ fieldsKEY ++ fieldsBAT ++ fieldsSCH ++ fieldsSLU ++ fieldsADM ++ fieldsDUP ++ fieldsHIF ++ fieldsRNG ++ fieldsDMA ++ fieldsVIR ++ fieldsMBX ++ fieldsEVT ++ fieldsDKW ++ fieldsTOP ++ fieldsCLK ++ fieldsCAL ++ fieldsMGT ++ fieldsMBS

end Sys2Proof.Machine
end

