-- ==== Sys2Proof/Machine/Tbl.lean ====
section
/-! DEFINITION. Sparse tables: lists of (key, value) pairs in one canonical form, keys strictly rising and no entry
equal to what an unlisted key reads as. Equal tables are then equal lists. Every large array of the device (registers,
contexts, tasks, memories, table entries) is held this way. -/

namespace Sys2Proof.Machine

/-- A sparse table of values of type `α` by number. -/
abbrev Tbl (α : Type) := List (Nat × α)

/-- The value at key `i`; `dflt` where the table lists none. -/
def look {α : Type} (dflt : α) : Tbl α → Nat → α
  | [], _ => dflt
  | (k, v) :: t, i => if i = k then v else look dflt t i

/-- Remove what the table lists at key `i`. -/
def Tbl.erase {α : Type} : Tbl α → Nat → Tbl α
  | [], _ => []
  | (k, v) :: t, i => if i = k then Tbl.erase t i else (k, v) :: Tbl.erase t i

/-- List value `v` at key `i`, in key order. -/
def Tbl.insert {α : Type} : Tbl α → Nat → α → Tbl α
  | [], i, v => [(i, v)]
  | (k, w) :: t, i, v =>
    if i < k then (i, v) :: (k, w) :: t else if i = k then (i, v) :: t else (k, w) :: Tbl.insert t i v

/-- Set the value at key `i`. The default value is kept by listing nothing, so the canonical form is kept. -/
def put {α : Type} [DecidableEq α] (dflt : α) (t : Tbl α) (i : Nat) (v : α) : Tbl α :=
  if v = dflt then Tbl.erase t i else Tbl.insert t i v

/-- Every key of a table is at least `lo`, and keys rise strictly. -/
def Tbl.rising {α : Type} : Nat → Tbl α → Bool
  | _, [] => true
  | lo, (k, _) :: t => decide (lo ≤ k) && Tbl.rising (k + 1) t

/-- The canonical form: keys strictly rising, no entry equal to the default. -/
def Tbl.wf {α : Type} [DecidableEq α] (dflt : α) (t : Tbl α) : Bool :=
  Tbl.rising 0 t && t.all (fun e => decide (e.2 ≠ dflt))

/-- Replace every listed value by `g key value`, dropping those that become the default. -/
def Tbl.mapKept {α : Type} [DecidableEq α] (dflt : α) (g : Nat → α → α) : Tbl α → Tbl α
  | [] => []
  | (k, v) :: t => if g k v = dflt then Tbl.mapKept dflt g t else (k, g k v) :: Tbl.mapKept dflt g t

end Sys2Proof.Machine
end

