-- ==== Sys2Proof/Machine/State.lean ====
section
/-! DEFINITION. The state of the HQ-1604: plain data, every piece of state the spec gives the device, and the queue of
the commands that wait. A field's default is its value after the cold reset. -/

namespace Sys2Proof.Machine

/-- Why a command can stop the machine with a fault. No command does: every effect the spec gives is modelled as a
next state, so the type has the one constructor the interface needs and no meaning answers it (safe). -/
inductive Fault where
  /-- Raised by nothing. -/
  | none
  deriving DecidableEq, Repr

/-- Why a command can be turned away by the model. -/
inductive Refusal where
  /-- The command's meaning is not modelled yet; raised by the arm of that command in Dispatch (safe: the run stops). -/
  | notModelled (mnemonic : String)
  deriving DecidableEq, Repr

/-- Network time (00_scope R10, 12_time_gates R311): seconds, nanoseconds, and the fraction of a nanosecond in units
of 2⁻⁴⁰ ns. -/
structure NetTime where
  sec  : Nat := 0
  ns   : Nat := 0
  frac : Nat := 0
  deriving DecidableEq, Repr

/-- Network time in nanoseconds. -/
def NetTime.toNs (t : NetTime) : Nat := t.sec * 1000000000 + t.ns

/-- The format of TSIN (03 R70): [63:32] low 32 bits of seconds, [31:0] nanoseconds. -/
def NetTime.tsin (t : NetTime) : Word := BitVec.ofNat 64 ((t.sec % 2 ^ 32) * 2 ^ 32 + t.ns)

/-- What the device sends out of itself. The list is the model's own field (log entry 6): the spec gives the effects,
not a state that holds them. -/
inductive Out where
  /-- An MSI-X vector of a function. -/
  | vector (fn vec : Nat)
  /-- A write into the memory of a function's host, at an address. `attr`: bit 0 No Snoop, bit 1 Relaxed Ordering, bit
  2 CXL.cache, bit 3 a translated address; bits from 4 on the PASID plus one, where the request carries one (15 R398, R404,
  R414, R415). -/
  | hostWrite (fn addr : Nat) (bytes : List Byte) (attr : Nat := 0)
  /-- A read request into the memory of a function's host, with its tag. -/
  | hostRead (fn addr len tag : Nat) (attr : Nat := 0)
  /-- A frame, or the part of it that left, at a port; `good` says its FCS or mCRC is right. -/
  | frame (port : Nat) (bytes : List Byte) (good : Bool)
  /-- A fragment of a preempted frame at a port. -/
  | fragment (port len : Nat)
  /-- A message of the verification of preemption (R126) at a port. -/
  | verify (port : Nat) (response : Bool)
  /-- PME of a function (R132). -/
  | pme (fn : Nat)
  /-- The answer Unsupported Request to a function's request (R402). -/
  | ur (fn : Nat)
  /-- The data of a completed read. -/
  | readData (fn : Nat) (data : Word)
  /-- A completion that carries bytes (an expansion ROM read, an NVMe completion, a response of a service). -/
  | reply (fn : Nat) (bytes : List Byte)
  /-- A message to another agent over a named interface (sideband, module bus, ATS, CXL), kind and content. -/
  | message (kind : Nat) (words : List Nat)
  /-- An output pin takes a level (PPS_OUT, ILK_OUT, FAULT_N): number of the pin, level. -/
  | pin (n : Nat) (level : Bool)
  deriving DecidableEq, Repr

/-- One event record (18 R496): source, polder with its valid flag, INFO, network time in TSIN format. -/
structure EvRecord where
  src    : Nat
  polder : Option Nat
  info   : Nat
  time   : Word
  deriving DecidableEq, Repr

/-- The event unit beside its registers (18 R495, R496, R568). -/
structure EvtState where
  /-- the records of the view of PF 0, oldest first, at most 256 -/
  recs0 : List EvRecord := []
  /-- the records of the view of PF 1 -/
  recs1 : List EvRecord := []
  /-- (source, key) pairs already raised in the running second (R568) -/
  secondMarks : List (Nat × Nat) := []
  /-- (source, key) pairs already raised in the running hour (R568) -/
  hourMarks : List (Nat × Nat) := []
  deriving DecidableEq, Repr

/-! ## Packets -/

/-- The settings of a program slot of a pipeline (04 R102). -/
structure Slot where
  handle   : Nat := 0
  fault    : Nat := 0
  fallback : Nat := 0
  scope    : Nat := 0
  /-- the physical function that owns it -/
  owner    : Nat := 0
  epoch    : Nat := 0
  cntBase  : Nat := 0
  cntCount : Nat := 0
  deriving DecidableEq, Repr

/-- Where the payload of a frame lives (01 R23, R24). -/
inductive Placement where
  | express | hbm
  deriving DecidableEq, Repr

/-- What the MAC path completes in a packet's headers at egress (09 R218, R220, R225; 14 R371). Positions are those of
the header buffer while the packet is in a context, and count from the frame's first byte afterwards. -/
structure Egress where
  /-- segment size, 0 for none -/
  mss  : Nat := 0
  /-- the IP headers of the packet -/
  ips  : List Nat := []
  /-- outer UDP headers: their IP header, themselves, and whether the checksum is inserted -/
  udps : List (Nat × Nat × Bool) := []
  /-- GRE headers whose checksum is inserted -/
  gres : List Nat := []
  /-- the innermost L4 header: its IP header, itself, its protocol, and whether the checksum is inserted -/
  l4   : Option (Nat × Nat × Nat × Bool) := none
  /-- the data of a dual-path option that encapsulation set, and its SOURCE -/
  dp   : Option (Nat × Nat) := none
  deriving DecidableEq, Repr

/-- The tag of a packet that came over a path pair (09 R223, 14 R372): source number, sequence number, pair (0 A, 1 B) and path
(0 not duplicated). -/
structure DupTag where
  src  : Nat
  seq  : Nat
  pair : Nat := 0
  path : Nat := 0
  deriving DecidableEq, Repr

/-- A frame inside the device with the metadata of 03 R70, from classification or submission to transmission,
delivery or drop. -/
structure Packet where
  /-- the header bytes the packet carries: the frame's first bytes, at most 512 at arrival -/
  hdr      : List Byte := []
  /-- the stored bytes behind the header (R60) -/
  tail     : List Byte := []
  iport    : Nat := 0
  len      : Nat := 0
  tsin     : Nat := 0
  tsfrac   : Nat := 0
  cls      : Nat := 0
  colour   : Nat := 0
  queue    : Nat := 0
  fwd      : Nat := 0
  fwdst    : Nat := 0
  polder   : Nat := 0
  flow     : Nat := 0
  parse    : Nat := 0
  contract : Nat := 0
  mark     : Nat := 0
  slot     : Nat := 0
  epoch    : Nat := 0
  pipe     : Nat := 0
  place    : Placement := .hbm
  /-- order lane: express 0, ordinary 1 (08 R197) -/
  express  : Bool := false
  /-- order-restoration mode of the flow and the sequence number drawn at dispatch (08 R203) -/
  ordmode  : Nat := 0
  seq      : Nat := 0
  /-- how often the packet was dispatched again, and the copies already delivered (08 R207 to R209) -/
  redisp   : Nat := 0
  skipCopies : Nat := 0
  /-- QKIND of the applied action (06 R153) and the 40-byte tuple T (08 R202) -/
  qkind    : Nat := 0
  tuple    : List Byte := []
  /-- the parse descriptor and the lookup key (06 R145), as the context's scratch will hold them -/
  desc     : List Byte := []
  key      : List Byte := []
  /-- the source number of the frame's PRP source (14 R369) -/
  source   : Option Nat := none
  /-- the received dual-path tag (14 R372, R373) -/
  tag      : Option DupTag := none
  /-- the stored frame ends in a recognised PRP trailer (14 R372, R376) -/
  trailer  : Bool := false
  /-- the option of the tag stood behind the eight that the parser records (14 R372) -/
  late     : Bool := false
  /-- the number drawn for the copies of a DUP queue (14 R370), and their shared payload (11 R284) -/
  drawn    : Option Nat := none
  share    : Option Nat := none
  /-- bytes of an express reservation it holds and the contract whose reservation that is (01 R24), and its entry of the
  pool: 0 none, 1 best effort, 2 admitted (11 R299) -/
  resv     : Nat := 0
  resvOf   : Nat := 0
  pool     : Nat := 0
  /-- the egress queue it entered -/
  outq     : Nat := 0
  /-- what its selection charged, 1/256 grain, and the shapers it charged: level, node, committed too (11 R292) -/
  paid     : Nat × List (Nat × Nat × Bool) := (0, [])
  /-- the submission ring and descriptor index behind a host-transmit packet (16 R443) -/
  txring   : Option (Nat × Nat) := none
  /-- EMIT flags: two-step timestamp, one-step correction (03 R78) -/
  twoStep  : Bool := false
  oneStep  : Bool := false
  /-- an onward cipher output that has not merged yet (10 R251): job number -/
  onward   : List Nat := []
  /-- the header-buffer position of the packet's first byte, as its context held it (10 R251) -/
  origin   : Nat := 128
  /-- what egress completes -/
  egress   : Egress := {}
  /-- the settings of the program slot taken at the first dispatch (04 R104) -/
  bind     : Option Slot := none
  /-- cipher result of the receive completion (10 R253) -/
  cipher   : Nat := 0
  /-- segments of a train already selected (09 R225) -/
  segsOut  : Nat := 0
  deriving DecidableEq, Repr

/-! ## Engines, contexts, tasks (02, 03) -/

/-- The states of a context (02 R33). -/
inductive CtxState where
  | idle | run | wait | hold
  deriving DecidableEq, Repr

/-- How a context retired: what the completion collector will accept (03 R78, R81, R83). -/
inductive Retire where
  | emit (target : Nat) (flags : Nat)
  | drop (reason : Nat)
  | punt (code : Nat)
  | done (result : Word)
  | fault (code : Nat)
  deriving DecidableEq, Repr

/-- What the result of a busy ticket is, or what it still waits for (03 R65). -/
inductive Pend where
  /-- the result value is known and in flight -/
  | value (v : Word)
  /-- as `value`, and bytes are written to scratch from an offset on -/
  | toScratch (v : Word) (off : Nat) (bytes : List Byte)
  /-- a tunnel operation (09 R218): as `value`, and S moves, bytes stand from the new S on, and the packet's egress
  work, tag, late mark and PARSE change -/
  | toHeader (v : Word) (s : Nat) (bytes : List Byte) (eg : Egress) (tag : Option DupTag) (late : Bool) (parse : Nat)
  /-- the result of a search of the banks (06 R156) -/
  | search (v : Word)
  /-- a far atomic waits for its home slice -/
  | atSlice
  /-- a cipher job waits for the cipher complex, with the job's number -/
  | atCipher (job : Nat)
  /-- a remote task operation travels to another bay -/
  | atTask (cancel : Bool) (handle : Nat)
  deriving DecidableEq, Repr

/-- A ticket k0 to k7 (03 R57, R65, R66). -/
structure Ticket where
  busy    : Bool := false
  rd      : Nat := 0
  /-- locked scratch bytes: first and count -/
  scratch : Nat × Nat := (0, 0)
  /-- the header buffer is locked -/
  header  : Bool := false
  pend    : Pend := .value 0
  deriving DecidableEq, Repr

/-- One loop-stack entry (03 R57, R74): iterations left after this one, index, first and last word of the body. -/
structure LoopEntry where
  left  : Nat
  index : Nat
  first : Nat
  last  : Nat
  deriving DecidableEq, Repr

/-- Why a context is in WAIT. -/
inductive WaitOn where
  | nothing
  /-- AWAIT on a ticket: the instruction completes with the result -/
  | await (k : Nat)
  /-- an instruction on locked state: it issues again when the ticket is free (R66) -/
  | locked (k : Nat)
  /-- a coherent access: it completes with the grant or the far result -/
  | memory
  /-- a terminating instruction with tickets busy (R82) -/
  | terminate (r : Retire)
  /-- WFE of a control core -/
  | event
  deriving DecidableEq, Repr

/-- A context of an engine, or the one context of a control core. -/
structure Ctx where
  st      : CtxState := .idle
  waitOn  : WaitOn := .nothing
  /-- g1 to g31; g0 is never listed -/
  g       : Tbl Word := []
  /-- p1 to p7 as bits; bit 0 is never set -/
  p       : Nat := 0
  hdr     : Tbl Byte := []
  s       : Nat := 128
  e       : Nat := 128
  b       : Nat := 0
  tickets : Tbl Ticket := []
  loops   : List LoopEntry := []
  calls   : List Nat := []
  pc      : Nat := 0
  scratch : Tbl Byte := []
  /-- the 128 valid bits of the scratch blocks (R37) -/
  valid   : BitVec 128 := 0
  pkt     : Option Packet := none
  task    : Option Nat := none
  /-- image handle, pipeline, slot and epoch the context runs -/
  image   : Nat := 0
  pipe    : Nat := 0
  slot    : Nat := 0
  epoch   : Nat := 0
  copies  : Nat := 0
  /-- copies that this run handed over (08 R209) -/
  sent    : Nat := 0
  cis     : Nat := 0
  /-- the settings of the slot that the context runs, as they stood at its dispatch, or when its task was armed (04 R104) -/
  bind    : Slot := {}
  /-- order of entry into RUN: smaller is older (R34) -/
  age     : Nat := 0
  /-- order of entry into HOLD (08 R210) -/
  holdAge : Nat := 0
  /-- context cycles and lost cycles, in ECLK (R34) -/
  cycles  : Nat := 0
  lost    : Nat := 0
  /-- when it entered HOLD, in nanoseconds since the warm reset (08 R205) -/
  heldAt  : Nat := 0
  /-- a fault retirement whose context cycles are not judged yet (08 R206), and whether its slot's fallback target was good at the time
  of the fault (04 R102) -/
  owes    : Bool := false
  fallOk  : Bool := false
  ret     : Option Retire := none
  deriving DecidableEq, Repr

/-- The states of a task entry (02 R48, R49). -/
inductive TaskState where
  | free | armed | ready | running
  deriving DecidableEq, Repr

/-- An entry of a task table (02 R48). -/
structure Task where
  st     : TaskState := .free
  gen    : Nat := 0
  pipe   : Nat := 0
  slot   : Nat := 0
  entry  : Nat := 0
  image  : Nat := 0
  epoch  : Nat := 0
  arg    : List Byte := []
  /-- due time in nanoseconds of network time -/
  due    : Option Nat := none
  /-- completion ring of the owner, or none for the control cores' task ring -/
  target : Option Nat := none
  owner  : Nat := 0
  bind   : Slot := {}
  deriving DecidableEq, Repr

/-- The states of a line in an engine L1 or a control-core data cache. -/
inductive CacheSt where
  | i | s | e | m
  deriving DecidableEq, Repr

/-- A line in a cache: state, the 64 bytes, and the poison mark. -/
structure CacheLine where
  st     : CacheSt := .i
  bytes  : Tbl Byte := []
  poison : Bool := false
  deriving DecidableEq, Repr

/-- A memory operation of a context on the coherent window. -/
structure MemOp where
  ctx   : Nat
  store : Bool
  /-- byte address in HBM -/
  addr  : Nat
  size  : Nat
  sx    : Bool
  rd    : Nat
  value : Word
  deriving DecidableEq, Repr

/-- What a requester asks of a home slice (02 R40). -/
inductive ReqKind where
  | readShared | readOwn | upgrade
  /-- a far load or store -/
  | far (op : MemOp)
  /-- a far atomic: context, ticket, function (fn[3:0]), operand and compare value -/
  | atomic (ctx k fn addr : Nat) (operand compare : Word)
  deriving DecidableEq, Repr

/-- A request waiting at its home slice. -/
structure Req where
  who  : Nat
  line : Nat
  kind : ReqKind
  deriving DecidableEq, Repr

/-- A writeback (or a clean eviction notice, with no bytes of effect) waiting at its home slice. -/
structure Writeback where
  who    : Nat
  line   : Nat
  dirty  : Bool
  bytes  : Tbl Byte
  poison : Bool
  deriving DecidableEq, Repr

/-- The directory state of a line (02 R39 to R43). -/
inductive DirSt where
  | uncached | shared | owned
  deriving DecidableEq, Repr

/-- The directory entry of a line at its home slice. -/
structure DirLine where
  st      : DirSt := .uncached
  sharers : List Nat := []
  owner   : Nat := 0
  poison  : Bool := false
  /-- the request the slice has taken and not granted yet: the line is busy (R42) -/
  busy    : Option Req := none
  /-- caches whose snoop response the busy request waits for -/
  awaiting : List Nat := []
  deriving DecidableEq, Repr

/-- A grant on its way to a cache. -/
structure Grant where
  who    : Nat
  line   : Nat
  st     : CacheSt
  deriving DecidableEq, Repr

/-- The coherent memory (02 R36 to R47). -/
structure Coh where
  /-- bytes of the coherent window in HBM and L2, by HBM byte address; an unlisted byte reads 0 (log entry 7) -/
  mem    : List Host.Cell := []
  /-- cache lines by `204 · line + requester` -/
  caches : Tbl CacheLine := []
  dir    : Tbl DirLine := []
  /-- rotation pointer of each slice (R41, R570) -/
  rot    : Tbl Nat := []
  reqs   : List Req := []
  wbs    : List Writeback := []
  grants : List Grant := []
  /-- snoops on their way, and those held behind an outstanding miss (R43): (requester, line, also forward) -/
  snoops : List (Nat × Nat × Bool) := []
  held   : List (Nat × Nat × Bool) := []
  /-- accesses that wait for a grant, in order -/
  misses : List MemOp := []
  /-- lines resident in L2 (R31), and back-invalidations on their way: (requester, line) -/
  l2     : List Nat := []
  backs  : List (Nat × Nat) := []
  deriving DecidableEq, Repr

/-- The control registers of a control core (03 R87). -/
structure Csr where
  ie      : Bool := false
  tvec    : Word := 0
  epc     : Word := 0
  cause   : Word := 0
  irqen   : Word := 0
  irqpend : Word := 0
  deriving DecidableEq, Repr

/-- A TRDYX or TCANX on its way whose context has ended (03 R84): context, ticket, cancel or make ready, handle, and the age that
the context had. -/
structure Stray where
  ctx    : Nat
  k      : Nat
  cancel : Bool
  handle : Nat
  age    : Nat
  deriving DecidableEq, Repr

/-- The engine complex (02, 03). -/
structure Eng where
  /-- contexts by number: 8 · engine + context, then 1,536 + core for the control cores -/
  ctxs      : Tbl Ctx := []
  csrs      : Tbl Csr := []
  /-- task entries by 4,096 · bay + entry -/
  tasks     : Tbl Task := []
  /-- READY entries in the order in which they became READY (R49) -/
  readyQ    : List Nat := []
  coh       : Coh := {}
  /-- engines whose WITHDRAW waits for their contexts (R56) -/
  withdraw  : List Nat := []
  /-- the next age to give (R34) -/
  nextAge   : Nat := 0
  /-- handles whose make-ready falls in the ECLK of a cancel that beats it (R50) -/
  beaten    : List Nat := []
  /-- remote task operations on their way for contexts that have ended (03 R84) -/
  strays    : List Stray := []
  /-- TCLK since the last warm reset, from which CSR CYCLE counts (03 R87; log entry 3) -/
  tclks     : Nat := 0
  /-- program counters: packets and bytes (R80) -/
  cntPkts   : Tbl Nat := []
  cntBytes  : Tbl Nat := []
  /-- drop counts by 16,384 · pipeline + 256 · slot + reason (R571) -/
  drops     : Tbl Nat := []
  deriving DecidableEq, Repr

/-! ## Program images, slots, the loader (04) -/

/-- An image handle's state (04 R105, PGM.IMGA.STATE). -/
inductive ImgState where
  | free | resident | draining
  deriving DecidableEq, Repr

/-- An image resident in the program store of every bay (04 R89, R90, R107). -/
structure Image where
  st     : ImgState := .free
  words  : Nat := 0
  base   : Nat := 0
  bound  : Nat := 0
  issue  : Nat := 0
  keyidx : Nat := 0
  entry  : Nat := 0
  code   : List Nat := []
  /-- function table: START and END words -/
  ftab   : List (Nat × Nat) := []
  jtabs  : List (List Nat) := []
  ttab   : List Nat := []
  cntN   : Nat := 0
  deriving DecidableEq, Repr

/-- A staged BIND, or a staged UNBIND when `bind` is none (04 R94, R95). -/
structure Staged where
  pipe : Nat
  slot : Nat
  bind : Option Slot
  deriving DecidableEq, Repr

/-- A verified image whose LOAD is not yet complete: who asked, the handle and the image it takes (R107, R108). -/
structure Loading where
  pf     : Nat
  handle : Nat
  image  : Image
  deriving DecidableEq, Repr

/-- The loader (04). -/
structure Prog where
  /-- images by handle 1 to 255 -/
  images   : Tbl Image := []
  /-- slots by 64 · pipeline + slot; the default holds no image -/
  slots    : Tbl Slot := []
  /-- the physical function that owns a slot, plus one; 0 for none (R95) -/
  slotPf   : Tbl Nat := []
  staged0  : List Staged := []
  staged1  : List Staged := []
  /-- whose request the loader takes next (R95, R570) -/
  rot      : Nat := 0
  /-- the LOAD whose copies wait for a store reload (R107, R108) -/
  loading  : Option Loading := none
  /-- key hashes programmed by ENROL, by index (R92) -/
  keyHash  : Tbl (Option Nat) := []
  deriving DecidableEq, Repr

/-! ## Ports (05, 11, 12) -/

/-- The frame a MAC is sending, or holds preempted. -/
structure TxFrame where
  pkt     : Packet
  cls     : Nat
  /-- the bytes as they leave, without the FCS -/
  bytes   : List Byte
  /-- the class was preemptable when the frame started (R135) -/
  preempt : Bool := false
  /-- it has been preempted at least once -/
  cut     : Bool := false
  /-- bytes that left in its fragments so far -/
  sent    : Nat := 0
  /-- its transmit timestamp in units of 2⁻¹⁶ ns (R130) -/
  ts      : Nat := 0
  /-- it is a heartbeat of the redundant-path unit (14 R377) -/
  beat    : Bool := false
  deriving DecidableEq, Repr

/-- An entry of the two-step FIFO of a port (12 R316). -/
structure TwoStep where
  mark : Nat
  sec  : Nat
  ns   : Nat
  frac : Nat
  deriving DecidableEq, Repr

/-- A preempted frame that is being received: its frame number, the fragment count that must come next, its bytes, and the
timestamp of its first fragment in units of 2⁻¹⁶ ns (R122, R130). -/
structure RxOpen where
  num   : Nat
  next  : Nat := 0
  bytes : List Byte
  ts    : Nat
  deriving DecidableEq, Repr

/-- A port beside its registers. -/
structure PortSt where
  /-- the frame on the wire -/
  tx      : Option TxFrame := none
  /-- a preempted frame that waits for its next fragment -/
  held    : Option TxFrame := none
  /-- class buffers: the frames handed to a class, oldest first, at most two (11 R285) -/
  bufs    : Tbl (List Packet) := []
  /-- consecutive HBM frames without underrun (R128) -/
  clean   : Nat := 0
  /-- a write of BASE sets CUR at the next frame start (R128) -/
  newBase : Bool := false
  /-- corrected symbols in the running second (R119) -/
  symbols : Nat := 0
  /-- the preempted frame that is being received (R122) -/
  rxOpen  : Option RxOpen := none
  /-- what the near-end loopback holds for the receiver, oldest first (R137) -/
  looped  : List Arrival := []
  /-- verify frames sent (R126) -/
  tries   : Nat := 0
  twoStep : List TwoStep := []
  deriving DecidableEq, Repr

/-- The ports. -/
structure Ports where
  port     : Tbl PortSt := []
  /-- mode in force of each lane group (R112) -/
  mode     : Tbl Nat := []
  /-- the mode an accepted change brings, plus one, by the lowest port's group (R114) -/
  applying : Tbl Nat := []
  deriving DecidableEq, Repr

/-! ## Associative search (06) -/

/-- An entry of a bank: the shadow value and mask (the units of the bank hold the same bits), and the action record
(R149, R160). -/
structure AcsEntry where
  valid : Bool := false
  /-- the units of the entry differ from the shadow, so that it matches nothing (R163) -/
  sick  : Bool := false
  val   : Nat := 0
  mask  : Nat := 0
  act   : Nat := 0
  actx  : Nat := 0
  deriving DecidableEq, Repr

/-- A lookup profile in force (R150). -/
structure Profile where
  en    : Bool := false
  fmt   : Nat := 0
  banks : List Nat := []
  cust  : Nat := 0
  deriving DecidableEq, Repr

/-- The last SEARCH of a writer in a pipeline (R164): its profile and key, and the place in list order (2,048 · list
position + index) behind the match posted; past every place once none was posted. -/
structure LastSearch where
  profile : Nat
  key     : Nat
  place   : Nat
  deriving DecidableEq, Repr

/-- A command of a writer as ACS.CMD has it (R160, R164), with what the verification of its search finds. -/
structure AcsCmd where
  op      : Nat
  bank    : Nat := 0
  index   : Nat := 0
  profile : Nat := 0
  width   : Nat := 0
  f1      : AcsFind := .good
  f2      : AcsFind := .good
  deriving DecidableEq, Repr

/-- The banks of the four pipelines. -/
structure Acs where
  /-- entries by pipeline · 2^17 + bank · 2^11 + index -/
  entries  : Tbl AcsEntry := []
  /-- profiles by 32 · pipeline + number -/
  profiles : Tbl Profile := []
  /-- last search by 4 · writer view + pipeline -/
  searches : Tbl (Option LastSearch) := []
  /-- the command that waits, by 4 · writer view + pipeline (R160) -/
  waiting  : Tbl (Option AcsCmd) := []
  /-- the WRITE that runs in a pipeline: its writer view, bank and index; its valid bit is still to set (R160, R161) -/
  running  : Tbl (Option (Nat × Nat × Nat)) := []
  /-- rotation among the writers, per pipeline (R160) -/
  rot      : Tbl Nat := []
  deriving DecidableEq, Repr

/-! ## Forwarding, connections, learning (07) -/

/-- A lock of the lock table of an area (R183): the bucket, the copy that lookups read, and the outcome's bucket
content. -/
structure TblLock where
  area   : Nat
  bucket : Nat
  copy   : Nat
  deriving DecidableEq, Repr

/-- A table-DMA command (R183): the bucket, its new content, the words to write, and the VALID it expects with CMPV. -/
structure TblCmd where
  area   : Nat
  bucket : Nat
  data   : Nat
  mask   : Byte
  cmpv   : Option Bool := none
  deriving DecidableEq, Repr

/-- An entry of a pending-learn memory (R187). -/
structure PendLearn where
  table  : Nat
  key    : List Byte
  porta  : Nat
  tsa    : Nat
  portb  : Nat := 0
  tsb    : Nat := 0
  conflict : Bool := false
  move   : Bool := false
  multi  : Bool := false
  count  : Nat := 1
  polder : Nat := 0
  /-- time of the first sighting, nanoseconds of network time -/
  first  : Nat
  deriving DecidableEq, Repr

/-- The moves the learning policy has counted for a key (R190): the pipeline (4 for all, under SPREAD), the table, the
key and the times. -/
structure Moves where
  pipe  : Nat
  table : Nat
  key   : List Byte
  times : List Nat
  deriving DecidableEq, Repr

/-- Forwarding and learning beside their registers. Area 0 to 3 is the forwarding area of a pipeline, 4 the connection
area. -/
structure Fwd where
  /-- buckets of 512 bits by 2^24 · area + bucket -/
  buckets : Tbl Nat := []
  locks   : List TblLock := []
  /-- table-DMA commands that wait on the control-core side, oldest first (R183) -/
  dmaWait : List TblCmd := []
  /-- posted markings, oldest first: area, bucket, age mode, tick (R179) -/
  marks   : List (Nat × Nat × Nat × Nat) := []
  /-- pending-learn memories by pipeline -/
  pend    : Tbl (List PendLearn) := []
  /-- moves counted, and damped entries (area, bucket, since) of the learning policy -/
  moves   : List Moves := []
  damped  : List (Nat × Nat × Nat) := []
  deriving DecidableEq, Repr

/-! ## Dispatch, order restoration and completion (08) -/

/-- The dispatch stage and the completion collector. -/
structure Dsp where
  /-- express and ordinary dispatch queues, and the packets to be dispatched again, by pipeline (R197, R198) -/
  exprQ    : Tbl (List Packet) := []
  ordQ     : Tbl (List Packet) := []
  againQ   : Tbl (List Packet) := []
  /-- PCLK in which the ordinary queue of a pipeline held a packet and was not served (R198) -/
  ordWait  : Tbl Nat := []
  /-- the pipeline that chooses first in the next PCLK (R200, R570) -/
  first    : Nat := 0
  /-- engine rotation pointer of a pipeline (R199, R570) -/
  rot      : Tbl Nat := []
  /-- the in-flight store: the packet of a context exactly as it was at dispatch (R201) -/
  inflight : Tbl (Option Packet) := []
  /-- next order sequence number of a pipeline, 12 bits and a wrap bit (R203) -/
  seq      : Tbl Nat := []
  /-- the collector's rotation pointer over the bays (R210, R570) -/
  colRot   : Nat := 0
  /-- next control core whose retirement the collector takes (R210) -/
  coreRot  : Nat := 0
  /-- the retirement each control core holds: packet, target, and PCLKs it has waited (R210, R211) -/
  coreRet  : Tbl (Option (Packet × Nat × Nat)) := []
  /-- order of entry into HOLD given next -/
  nextHold : Nat := 0
  deriving DecidableEq, Repr

/-! ## Transports and storage (09) -/

/-- A TCP segment sent and not acknowledged: first sequence number, bytes, times resent, time sent in nanoseconds since the warm reset. -/
structure SentSeg where
  seq  : Nat
  data : List Byte
  retx : Nat := 0
  at_  : Nat := 0
  deriving DecidableEq, Repr

/-- A storage TCP connection (R226, R227). -/
structure Conn where
  p       : TcpState := {}
  /-- out-of-order data: separate ranges, first sequence number and bytes -/
  ranges  : List (Nat × List Byte) := []
  sent    : List SentSeg := []
  /-- bytes that wait for the window -/
  toSend  : List Byte := []
  /-- full segments received since the last ACK, and when the delayed-ACK timer started -/
  full    : Nat := 0
  ackAt   : Option Nat := none
  /-- duplicate ACKs; fast recovery and its recovery point (RFC 6582) -/
  dups    : Nat := 0
  fast    : Bool := false
  recover : Nat := 0
  /-- retransmission timeout in µs, and when its timer started; it runs while anything is in flight -/
  rto     : Nat := 1000000
  timer   : Option Nat := none
  /-- stream bytes received that are no whole TLS record yet, records that are being opened, and application bytes that are no whole
  PDU yet (R230) -/
  rxBuf   : List Byte := []
  rxJobs  : List Nat := []
  pduBuf  : List Byte := []
  /-- records that are being sealed, in order -/
  txJobs  : List Nat := []
  deriving DecidableEq, Repr

/-- A work request of a queue pair that is posted and not completed (16 R438): its entry, what it asks, the packet sequence
numbers it took, and its payload (a READ: none). -/
structure Wr where
  ring   : Nat
  pos    : Nat
  opc    : Nat
  signal : Bool
  imm    : Nat
  wrid   : Nat
  laddr  : Nat
  len    : Nat
  raddr  : Nat
  rkey   : Nat
  first  : Nat := 0
  count  : Nat := 1
  data   : List Byte := []
  /-- bytes of a READ received, and packets acknowledged of any other -/
  got    : Nat := 0
  acked  : Nat := 0
  /-- a capsule of the initiator: its job -/
  job    : Option Nat := none
  deriving DecidableEq, Repr

/-- A queue pair (R229). -/
structure Qp where
  used   : Bool := false
  error  : Bool := false
  polder : Nat := 0
  p      : QpReq := {}
  /-- next sequence number to send and to expect -/
  spsn   : Nat := 0
  epsn   : Nat := 0
  msn    : Nat := 0
  wrs    : List Wr := []
  retry  : Nat := 0
  rnr    : Nat := 0
  /-- an RNR NAK was received and its timer runs -/
  rnrWait : Bool := false
  /-- a sequence NAK was sent for the gap that stands -/
  naked  : Bool := false
  /-- bytes of the SEND, or the address of the RDMA WRITE, in progress -/
  asm    : List Byte := []
  waddr  : Nat := 0
  wleft  : Nat := 0
  wkey   : Nat := 0
  /-- when the ACK timer started, in nanoseconds since the warm reset -/
  since  : Nat := 0
  /-- time of the last CNP sent -/
  cnp    : Option Nat := none
  deriving DecidableEq, Repr

/-- Whose command an outstanding NVMe command is: an entry of a storage ring, or lane `lane` of a command of a controller. -/
inductive NvSource where
  | ring (r pos : Nat)
  | ctl (cmd lane : Nat)
  deriving DecidableEq, Repr

/-- An NVMe command outstanding at a target (R230, R235): its source, its connection and the secondary it may be resent on,
the entry sent, its data as it leaves, the host buffers it fills, and the polder. -/
structure NvJob where
  src    : NvSource
  conn   : Bool × Nat
  second : Option (Bool × Nat) := none
  sqe    : Nat := 0
  data   : List Byte := []
  bufs   : List (Nat × Nat) := []
  polder : Nat := 0
  /-- bytes that the command transfers, and those received so far -/
  len    : Nat := 0
  recv   : List Byte := []
  deriving DecidableEq, Repr

/-- A command that a controller took from a submission queue and that its lanes still run (R233, R237). -/
structure NvCmd where
  vf     : Nat
  sq     : Nat
  cid    : Nat
  nsid   : Nat
  slba   : Nat
  /-- a Read: its data returns -/
  read   : Bool
  /-- lanes that have not completed, and by lane: the status, the first word, and the data of the completion -/
  left   : Nat
  done   : List (Nat × Nat × Nat × List Byte) := []
  bufs   : List (Nat × Nat) := []
  /-- its completion is discarded (R236) -/
  dead   : Bool := false
  /-- the entry, the first word of its completion, and the cipher jobs of its data units
  in LBA order (R234) -/
  sqe    : Nat := 0
  word   : Nat := 0
  units  : List Nat := []
  deriving DecidableEq, Repr

/-- A submission or completion queue of a controller: host address, entries, head and tail; a submission queue names its
completion queue, a completion queue its vector, interrupt enable and phase. -/
structure NvQueue where
  used  : Bool := false
  base  : Nat := 0
  size  : Nat := 0
  head  : Nat := 0
  tail  : Nat := 0
  cq    : Nat := 0
  vec   : Nat := 0
  ien   : Bool := false
  phase : Bool := true
  /-- entries that wait for room, phase bit clear -/
  wait  : List Nat := []
  deriving DecidableEq, Repr

/-- An NVMe controller personality beside STO.PVF (R231 to R236): the controller registers, its queues by 2 · number, plus 1
for a completion queue, its features, the event requests it holds, and its namespaces. -/
structure NvCtl where
  cc    : Nat := 0
  rdy   : Bool := false
  shst  : Nat := 0
  aqa   : Nat := 0
  asq   : Nat := 0
  acq   : Nat := 0
  mask  : Nat := 0
  queues : Tbl NvQueue := []
  feats : Tbl Nat := []
  aers  : List Nat := []
  /-- when CC.EN or CC.SHN last asked it to stop (R236) -/
  stopAt : Nat := 0
  ns    : Tbl (Option NsReq) := []
  deriving DecidableEq, Repr

/-- Transports and storage beside their registers. -/
structure Sto where
  conns : Tbl Conn := []
  /-- packets delivered to the ring of an offloaded connection and not processed yet, by connection -/
  segs  : Tbl (List Packet) := []
  qps   : Tbl Qp := []
  jobs  : Tbl (Option NvJob) := []
  /-- completions that targets returned and that are not posted yet, oldest first: job, entry, data (R233, R238) -/
  arrived : List (Nat × Nat × List Byte) := []
  cmds  : Tbl (Option NvCmd) := []
  /-- the numbers the next job and the next command take -/
  next  : Nat := 1
  /-- controllers by virtual function -/
  ctls  : Tbl NvCtl := []
  deriving DecidableEq, Repr

/-! ## Tunnels (09) -/

/-- A template as committed, with its IPv4 identification and GRE sequence counters (R216, R217). -/
structure Template where
  bytes : List Byte := []
  idctr  : Nat := 0
  seqctr : Nat := 0
  deriving DecidableEq, Repr

/-! ## Cipher complex, key store, battery domain (10) -/

/-- A key slot: state (0 EMPTY, 1 ACTIVE, 2 RETIRING), attributes, counter and 512 bits of material (R257 to R259). -/
structure KeySlot where
  st      : Nat := 0
  alg     : Nat := 0
  dirs    : Nat := 0
  scope   : Nat := 0
  exp     : Bool := false
  owner   : Nat := 0
  ctrlim  : Nat := 0
  counter : Nat := 0
  exh     : Bool := false
  key     : Nat := 0
  deriving DecidableEq, Repr

/-- Whose a cipher job is: a program's (CIS), or the transport unit's, which seals or opens a TLS record of a connection or a data
unit of an NVMe command (R244, R256). -/
inductive JobOwner where
  | program
  | sealRecord (conn : Nat)
  | openRecord (conn : Nat)
  | unit (cmd : Nat)
  deriving DecidableEq, Repr

/-- A cipher job that was accepted (R244, R247, R251): its queue (0 return, 1 admitted onward, 2 ordinary onward), the context
and ticket of a return job, its slot and operation, and the inputs it captured. -/
structure Job where
  own     : JobOwner := .program
  queue   : Nat
  ctx     : Nat
  tick    : Nat
  slot    : Nat
  alg     : Nat
  enc     : Bool
  tagMode : Nat
  tagLen  : Nat
  espt    : Bool
  nonce   : List Byte
  aad     : List Byte
  /-- the data, a seal's ESP trailer included -/
  data    : List Byte
  /-- the tag an open verifies -/
  tag     : List Byte
  /-- header-buffer position of the data range (onward) or scratch offset of the output (return), and the data range's
  length -/
  pos     : Nat
  dlen    : Nat
  /-- position and bytes of the explicit IV that a seal writes (R249) -/
  iv      : Option (Nat × List Byte)
  /-- the status it fails with, once its key is zeroised (R266, R274) -/
  fail    : Option Nat := none
  /-- the output of a completed onward job: bytes over the data range and beyond it, the tag, the ESP bytes removed, the
  next header; a failed one has its status in `fail` -/
  result  : Option (List Byte × List Byte × Nat × Nat) := none
  /-- the two shares of its key that the key bus delivered: key ⊕ m and m (R267) -/
  shares  : Nat × Nat := (0, 0)
  deriving DecidableEq, Repr

/-- A cipher core: the job it runs and those it holds suspended (R244). -/
structure CipCore where
  run  : Option Nat := none
  susp : List Nat := []
  deriving DecidableEq, Repr

/-- A mask generator (R267): how often it was seeded from the entropy source, and the jobs since. -/
structure MaskGen where
  seeds : Nat := 0
  jobs  : Nat := 0
  deriving DecidableEq, Repr

/-- The cipher complex and the key store beside their registers. -/
structure Cip where
  slots  : Tbl KeySlot := []
  /-- accepted jobs by number, and the number the next one takes -/
  jobs   : Tbl (Option Job) := []
  next   : Nat := 1
  /-- jobs that wait for a core, by queue, oldest first -/
  queues : Tbl (List Nat) := []
  /-- jobs of the transport unit that wait for room in a queue, by queue -/
  later  : Tbl (List Nat) := []
  cores  : Tbl CipCore := []
  /-- mask generators: 0 to 31 the cores, 32 the key loader (R267) -/
  masks  : Tbl MaskGen := []
  /-- requests that each DRBG instance served since it reseeded (R269) -/
  drbg   : Tbl Nat := []
  /-- the PF whose secure request the key loader takes next (R261) -/
  keyRot : Nat := 0
  /-- the refusal that an alarm, or an entropy failure, gives the secure request being served (R277); 0 for none -/
  keyMet : Nat := 0
  /-- the open session of each PF: its number and transport key (R262) -/
  sess   : Tbl (Option (Nat × Nat)) := []
  /-- sessions opened so far by each PF -/
  sessNo : Tbl Nat := []
  deriving DecidableEq, Repr

/-- The battery domain beside BAT's registers (R271): the root wrapping key, the sequence number of the log, whether the main
supplies and VBAT are there, whether VBAT is below 2.2 V, whether the domain was lost, and the part of 1/32,768 s that the RTC has run, in 1/10^9. -/
structure Bat where
  rootKey : Nat := 0
  seq     : Nat := 0
  main    : Bool := true
  vbat    : Bool := true
  low     : Bool := false
  lost    : Bool := false
  part    : Nat := 0
  deriving DecidableEq, Repr

/-! ## Scheduler and policers (11) -/

/-- Words 0 to 3 of a node record (R309). -/
structure Rec where
  w0 : Nat := 0
  w1 : Nat := 0
  w2 : Nat := 0
  w3 : Nat := 0
  deriving DecidableEq, Repr

/-- A node of L0 to L4, a policer or a class shaper (R282, R303, R309): its record as written and as in force (R290),
its credits, or buckets, in 1/256 grain (R288), its counters, and its selection state (R293, R294). -/
structure Node where
  wrote   : Rec := {}
  inForce : Rec := {}
  cred    : Int := 0
  peak    : Int := 0
  /-- queue: depth drops, frames sent; policer: green, yellow, red frames, red drops -/
  drops   : Nat := 0
  sent    : Nat := 0
  green   : Nat := 0
  yellow  : Nat := 0
  red     : Nat := 0
  redDrop : Nat := 0
  /-- deficit of the node as a child of its parent (R294) -/
  deficit : Nat := 0
  /-- EN was written from 0 to 1 since the last refill boundary (R289) -/
  fresh   : Bool := false
  /-- rotation among committed-eligible children, and the child the excess rotation stands on (R293, R294, R570) -/
  rot     : Nat := 0
  erot    : Nat := 0
  deriving DecidableEq, Repr

/-- A node command (R309): SCH.NCMD's operation, level and node number. -/
structure NodeCmd where
  op   : Nat
  lvl  : Nat
  node : Nat
  deriving DecidableEq, Repr

/-- The scheduler. -/
structure Sch where
  /-- nodes by 2^20 · level + number, level 5 policers, level 6 class shapers -/
  nodes  : Tbl Node := []
  /-- frames of each queue in arrival order -/
  queues : Tbl (List Packet) := []
  /-- frames that stand alone in the queue of another: copies left of each shared payload (R284) -/
  shared : Tbl Nat := []
  nextShare : Nat := 1
  /-- pool entries in use by best-effort and by admitted queues (R299) -/
  poolBe  : Nat := 0
  poolAdm : Nat := 0
  /-- the command of each writer that runs or waits, by writer view, and the writer whose turn is next (R309) -/
  waiting : Tbl (Option NodeCmd) := []
  cmdRot  : Nat := 0
  deriving DecidableEq, Repr

/-! ## Sluices (12) -/

/-- A pending change of a port's sluice (R328, R329): the mode, set and LENAWARE it brings, and T₀ in nanoseconds. -/
structure Pending where
  mode : Nat
  fset : Nat
  lena : Bool
  t0   : Nat
  deriving DecidableEq, Repr

/-- A port's sluice beside its registers: what is in force beside the mode (SLU.PSTAT.STATE), and a pending change. -/
structure Sluice where
  fset  : Nat := 0
  lena  : Bool := false
  next  : Option Pending := none
  /-- classes whose berm is in progress, with the closing it ends at (R333) -/
  inBerm : Tbl Nat := []
  deriving DecidableEq, Repr

/-- The sluices of the ports. -/
structure Slu where
  port : Tbl Sluice := []
  /-- PPS_OUT is high (R314) -/
  pps  : Bool := false
  deriving DecidableEq, Repr

/-! ## Admission (13) -/

/-- A contract beside ADM.CSTAT (R345, R348, R360): its record as committed, its stage bounds and total, its policer,
its rules (pipeline, bank, index), the rate in force, and the express buffer it uses and overran (R24). -/
structure Contract where
  rcd     : CRec := {}
  bounds  : List Nat := []
  total   : Nat := 0
  policer : Nat := 0
  rules   : List (Nat × Nat × Nat) := []
  rate    : Nat := 0
  /-- the pipelines whose slot it names, and the verified bound it was compiled with (04 R106) -/
  pipes   : List Nat := []
  bound   : Nat := 0
  /-- bytes of the express buffer it reserves, uses, and frames that found the reservation exhausted (01 R24) -/
  express : Nat := 0
  used    : Nat := 0
  overrun : Nat := 0
  deriving DecidableEq, Repr

/-- A set-up as it was read from the host (R338): the submitting function, its reply buffer, whether the header obeys R338, the
records, and whether an FLR of the function withdrew it (R364). -/
structure SetupReq where
  fn      : Nat
  reply   : Word
  ok      : Bool
  records : List CRec
  lists   : List LRec
  gone    : Bool := false
  deriving DecidableEq, Repr

/-- What a compile rests on (R347 step 1): the contracts in force with their rates, the verified bounds of the slots, and bay masks,
engine states and cipher states. -/
structure SetupBasis where
  contracts : List (Nat × CRec × Nat)
  programs  : List (Nat × Nat × Nat)
  states    : List Nat
  deriving DecidableEq, Repr

/-- The set-up that the compiler works on: what it was compiled against, and how often it returned to step 1 (R347). -/
structure Compile where
  req     : SetupReq
  basis   : SetupBasis
  returns : Nat := 0
  deriving DecidableEq, Repr

/-- Admission beside its registers. -/
structure Adm where
  contracts : Tbl Contract := []
  /-- contracts whose activation has not completed, with the time it does (R348) -/
  waiting   : List (Nat × Nat) := []
  /-- revalidations that are due, with their causes as R362 numbers them (R359) -/
  revalidate : List Nat := []
  /-- the set-up in R347, and those that wait, oldest first (R349) -/
  compiling  : Option Compile := none
  queue      : List SetupReq := []
  deriving DecidableEq, Repr

/-! ## Redundant paths and the interlock (14) -/

/-- The receive state of a source (R374): the window lists the sequence values whose bit is set. -/
structure DupSource where
  sync : Bool := false
  h    : Nat := 0
  last : Nat := 0
  win  : Tbl Bool := []
  deriving DecidableEq, Repr

/-- A path beside its registers (R377 to R384). Times are nanoseconds of network time. -/
structure PathSt where
  /-- heartbeat number sent last -/
  sent     : Nat := 0
  /-- the last heartbeat that counted, and how many counted in time in a row (R378, R380) -/
  heard    : Option Nat := none
  run      : Nat := 0
  /-- a RESYNC was entered from QUARANTINED (R368) -/
  fromQuar : Bool := false
  /-- when the state was entered -/
  since    : Nat := 0
  /-- the port's link was up in all of the running second (R384) -/
  upAll    : Bool := true
  /-- a heartbeat is due and waits for the MAC (R377) -/
  hbDue    : Bool := false
  deriving DecidableEq, Repr

/-- The redundant-path unit and the partner interlock. -/
structure Dup where
  /-- transmit counters by source (R370) -/
  txCtr   : Tbl Nat := []
  sources : Tbl DupSource := []
  /-- paths by 2 · pair + path -/
  path    : Tbl PathSt := []
  /-- the partner's last heartbeat reported it eligible (R387) -/
  partnerEligible : Bool := true
  /-- PRIO that the partner's last heartbeat reported, if one has arrived (R387) -/
  partnerPrio : Option Nat := none
  /-- pairs whose ports a lane mode did not create, not written since: they read DISABLED (21 R545) -/
  undone : List Nat := []
  deriving DecidableEq, Repr

/-! ## Host links and functions (15) -/

/-- An MSI-X table entry (R406). -/
structure MsixEntry where
  addr   : Nat := 0
  data   : Nat := 0
  masked : Bool := true
  deriving DecidableEq, Repr

/-- The errors that the device reports through AER (R405), of those a command of the table can bring: a poisoned write or
completion, a completion timeout, a completion with UR or CA, an unexpected completion, a UR sent, an ECRC error, a malformed TLP,
an uncorrectable error in a memory of the host interface. -/
inductive AerErr where
  | poisoned | timeout | refused | unexpected | ur | ecrc | malformed | internal
  deriving DecidableEq, Repr

/-- The AER registers of a function (R405): errors logged and not cleared, and those whose severity register says fatal. -/
structure Aer where
  logged : List AerErr := []
  fatal  : List AerErr := [.malformed, .internal]
  deriving DecidableEq, Repr

/-- An access held until its translation arrives (R404): a write, or the fetch of a ring's entries. -/
inductive HeldAccess where
  | write (addr : Nat) (bytes : List Byte) (attr : Nat)
  | fetch (kind ring : Nat)
  deriving DecidableEq, Repr

/-- A function as the host interface sees it: the configuration-space controls that the device's behaviour reads, its
MSI-X table and pending bits, its power state and its FLR (R397 to R410, R418). -/
structure HostFn where
  memEnable  : Bool := false
  busMaster  : Bool := false
  /-- Max Payload Size and Max Read Request Size as their 3-bit codes: 128 · 2^code bytes -/
  payload    : Nat := 0
  readReq    : Nat := 2
  noSnoop    : Bool := true
  relaxed    : Bool := true
  tag10      : Bool := false
  tag14      : Bool := false
  /-- Completion Timeout Value and Disable -/
  ctoValue   : Nat := 0
  ctoOff     : Bool := false
  ats        : Bool := false
  pasid      : Bool := false
  vfEnable   : Bool := false
  numVfs     : Nat := 0
  romEnable  : Bool := false
  msixEnable : Bool := false
  msixMask   : Bool := false
  vecs       : Tbl MsixEntry := []
  pba        : Tbl Bool := []
  d3hot      : Bool := false
  /-- ASPM Control has L1 set (R395) -/
  aspmL1     : Bool := false
  /-- PME_En (05 R132) -/
  pmeEnable  : Bool := false
  inFlr      : Bool := false
  aer        : Aer := {}
  deriving DecidableEq, Repr

/-- An outstanding read (R399, R400): link, tag, function, bytes reserved, reservation it draws from (0 shared, 1
control, 2 contract), channel group and channel that issued it, and the ring entry it serves. -/
structure HostRead where
  link  : Nat
  tag   : Nat
  fn    : Nat
  len   : Nat
  cls   : Nat
  group : Nat
  chan  : Nat
  ring  : Nat
  pos   : Nat
  /-- when it was issued, in TCLK (R401) -/
  since : Nat := 0
  /-- its work was abandoned: the completion is discarded on arrival (R409) -/
  dead  : Bool := false
  deriving DecidableEq, Repr

/-- The host interface beside its registers. -/
structure HostIf where
  fns    : Tbl HostFn := []
  /-- PERST# of each link is released -/
  perst  : Tbl Bool := []
  /-- a reset of the link runs (R408) -/
  inReset : Tbl Bool := []
  reads  : List HostRead := []
  /-- requester IDs that wait for a shared tag, and the rotation among them, per link (R399) -/
  tagWait : List Nat := []
  tagRot : Tbl Nat := []
  /-- translations held: function, host page, translated page (R404) -/
  atc    : List (Nat × Nat × Nat) := []
  /-- translation requests without an answer: function, page -/
  xlWait : List (Nat × Nat) := []
  /-- accesses other than a channel's that wait for a translation, oldest first: function, page, access (R404) -/
  held   : List (Nat × Nat × HeldAccess) := []
  /-- lines of the host-line cache: host line and the function whose ring holds it (R418) -/
  lines  : List (Nat × Nat) := []
  /-- the flash image set that the expansion ROM was copied from: its content and its security version (R412, R413) -/
  rom    : Option (Nat × Nat) := none
  /-- links that the device has put in L1 (R395) -/
  inL1   : Tbl Bool := []
  deriving DecidableEq, Repr

/-! ## Rings and DMA (16) -/

/-- The states of a ring (R431), 0h to 4h. -/
inductive RingState where
  | disabled | enabled | stopping | error | isolated
  deriving DecidableEq, Repr

/-- A fetched entry of a submission ring: where it starts and its units, and how far it is. -/
structure SubEntry where
  pos      : Nat
  units    : Nat
  /-- the entry's units as fetched, 128 bits each -/
  words    : List Nat
  started  : Bool := false
  done     : Bool := false
  deriving DecidableEq, Repr

/-- A fetched buffer of a receive ring (R439). -/
structure RxBuf where
  pos    : Nat
  pad    : Bool := false
  blen   : Nat := 0
  cookie : Nat := 0
  addr   : Nat := 0
  deriving DecidableEq, Repr

/-- A completion before it is placed in its ring (R441): its units with the phase bit clear, the number that ties it
to its payload writes, whether they still run, and the global observations they still wait for (R420, R444). -/
structure Completion where
  units : List Nat
  tag   : Nat := 0
  held  : Bool := false
  gos   : Nat := 0
  /-- the ring concerned, by key (R434) -/
  key   : Nat := 0
  deriving DecidableEq, Repr

/-- A ring context and the ring engine's side of the ring (R424 to R446). Words 0 to 2 are held as written, with
POLDER taken from the ring assignment (R432). A position is INDEX + WRAP · 2^SIZE. -/
structure Ring where
  st      : RingState := .disabled
  w0      : Nat := 0
  w1      : Nat := 0
  w2      : Nat := 0
  head    : Nat := 0
  tail    : Nat := 0
  /-- word 4 of the context: entries completed, packets delivered, completions written; and dropped or discarded -/
  done    : Nat := 0
  dropped : Nat := 0
  /-- word 5: phase waits -/
  waits   : Nat := 0
  /-- position the ring engine fetches next, and whether it stopped at a phase wait (R437) -/
  fetch   : Nat := 0
  stalled : Bool := false
  subs    : List SubEntry := []
  bufs    : List RxBuf := []
  /-- completion ring: interrupt armed, completions written since arming (R445) -/
  armed   : Bool := false
  since   : Nat := 0
  /-- completion ring: when the first of them was written, in TCLK, and since when the ring is full (R445, R446) -/
  firstAt : Nat := 0
  fullAt  : Nat := 0
  /-- completion ring: where the completions that host software has not read end, oldest first (R445) -/
  unread  : List Nat := []
  /-- completion ring: waiting completions, at most 64 (R446) -/
  overflow : List Completion := []
  /-- completion ring: the rings (by key) whose TYPE 7h completion waits for space (R446) -/
  notices : List Nat := []
  /-- completions of this ring discarded while it is isolated (R446) -/
  lost    : Nat := 0
  /-- completion writes over CXL.cache with no global observation yet, and a vector that waits for them (R420) -/
  gos     : Nat := 0
  vecWait : Bool := false
  deriving DecidableEq, Repr

/-- A DMA descriptor (R448): its channel group, priority and ring, and the requests it still has to issue (host address,
bytes; a write carries the bytes to write). -/
structure Desc where
  group  : Nat
  prio   : Nat
  ring   : Nat
  fn     : Nat
  reqs   : List (Nat × Nat)
  data   : List Byte := []
  /-- position of the ring entry it serves -/
  pos    : Nat := 0
  /-- a write over CXL.cache, and the completion that follows its writes -/
  cxl    : Bool := false
  cpl    : Option Nat := none
  /-- the port of the packet it delivers, for the payload check (18 R480, SM 7) -/
  port   : Option Nat := none
  /-- the packet whose stored payload its writes read: it leaves the buffers with the last of them (01 R23, R29) -/
  pkt    : Option Packet := none
  deriving DecidableEq, Repr

/-- A DMA channel (R448, R449). -/
structure Chan where
  desc   : Option Desc := none
  stop   : Bool := false
  /-- bursts in a row for which the channel was passed over -/
  passed : Nat := 0
  deriving DecidableEq, Repr

/-- A submitted packet that has left the buffers or was dropped, and whose transmit completion is due (R443): its ring and
entry, STATUS, MARK, length, and its transmit timestamp where TSREQ asked for it. -/
structure TxLeft where
  ring   : Nat
  pos    : Nat
  status : Nat
  mark   : Nat
  len    : Nat
  ts     : Option (Nat × Nat)
  deriving DecidableEq, Repr

/-- A command of RNG.CCMD (R433). -/
structure CtxCmd where
  op   : Nat
  kind : Nat
  ring : Nat
  deriving DecidableEq, Repr

/-- The ring engines and DMA. -/
structure Rng where
  /-- contexts by kind · 2^18 + ring -/
  rings   : Tbl Ring := []
  /-- channels by 32 · group + channel -/
  chans   : Tbl Chan := []
  /-- descriptors that wait for a channel, oldest first -/
  waiting : List Desc := []
  /-- rotation among channels of equal priority, per group -/
  rot     : Tbl Nat := []
  /-- completions that arose and are not written yet, oldest first: completion ring, key of the ring concerned -/
  cpls    : List (Nat × Nat × Completion) := []
  nextCpl : Nat := 0
  /-- packets that wait for the buffer entries of their receive ring to be fetched, by ring, oldest first (R440) -/
  rxWait  : Tbl (List Packet) := []
  /-- transmit completions that are due, oldest first (R443) -/
  left    : List TxLeft := []
  /-- context commands that wait for their turn, by writer, and the writer whose turn is next (R433) -/
  ctxWait : Tbl (Option CtxCmd) := []
  ctxRot  : Nat := 0
  deriving DecidableEq, Repr

/-! ## Mailboxes (17) -/

/-- A message on a channel (R465): its 64 bytes, its sender, SERVICE, SEQ and PRIOR. Senders and receivers are numbered: a
function by its polder, 8192 the control service, 8193 the key loader, 8194 the control cores and 8195 the management
controller on the control–management channels. -/
structure Msg where
  body   : List Byte
  sender : Nat
  svc    : Nat
  seq    : Nat
  prior  : Bool := false
  deriving DecidableEq, Repr

/-- The channels (R464). An inbox holds the messages of every channel to its receiver, oldest first; 8192 is the control
service, 8193 the key loader, 8194 the management controller, 8195 the control cores as its peer, and 8196 + l the secure inbox of PF l. -/
structure Mbx where
  inbox  : Tbl (List Msg) := []
  /-- messages accepted so far on each channel, by 16,384 · sender + receiver: the next SEQ, modulo 2^16 -/
  count  : Tbl Nat := []
  /-- (channel, SEQ) of messages withdrawn -/
  gone   : List (Nat × Nat) := []
  /-- messages of the control service that wait behind a full channel, by function: the notice overflow (R470) -/
  overflow : Tbl (List Msg) := []
  /-- requests that the control service has picked up and not answered -/
  work   : List Msg := []
  /-- the polder at which the control service's rotation stands (R470, R570) -/
  rot    : Nat := 0
  /-- the result code and SEQ of the last SEND or WITHDRAW of the control cores and of the management controller on their
  private channels (R473) -/
  ccResult  : Nat × Nat := (0, 0)
  mgtResult : Nat × Nat := (0, 0)
  deriving DecidableEq, Repr

/-! ## Dikewarden (18) -/

/-- An entry of the commit log (R488): its epoch, and the content of every object the commit changes, by object key
(kind · 2^16 + instance). -/
structure CommitEntry where
  epoch : Nat
  objs  : List (Nat × List Nat)
  deriving DecidableEq, Repr

/-- The Dikewarden beside its registers. A cause is a mechanism of R480 and its instance; mechanism 0 is none. -/
structure Dkw where
  /-- faults detected and neither released nor repaired (R486) -/
  faults    : List (Nat × Nat) := []
  /-- causes that a mechanism still reports present (R484) -/
  present   : List (Nat × Nat) := []
  /-- the cause of each port's own safe state, each polder's, and the device's -/
  portCause : Tbl (Nat × Nat) := []
  polCause  : Tbl (Nat × Nat) := []
  devCause  : Nat × Nat := (0, 0)
  /-- DKW.CAUSE holds the first fault since the last release -/
  causeSet  : Bool := false
  /-- last payload-check failure of a port (SM 7), and last rewrite of an object's hardware copy (R490), in
  nanoseconds of network time -/
  payload   : Tbl (Option Nat) := []
  rewrites  : Tbl (Option Nat) := []
  /-- control cores that are isolated (SM 1, SM 11) -/
  coresOut  : List Nat := []
  /-- the management controller restarts (SM 2) -/
  mgtDown   : Bool := false
  /-- the clocks are throttled, and when a sample last stood at or above the end threshold, in TCLK (22 R559) -/
  throttled : Bool := false
  hotAt     : Nat := 0
  /-- when a Dikewarden pair last signalled the reaction block, in TCLK (R479) -/
  signalAt  : Nat := 0
  /-- the content that the copies of each committed object hold (R487) -/
  objs      : Tbl (Option (List Nat)) := []
  /-- the commit log, newest entry first (R488) -/
  log       : List CommitEntry := []
  deriving DecidableEq, Repr

/-! ## Management plane (20) -/

/-- An NC-SI channel (20 R523, R524): its filters, and what its commands set. -/
structure NcsiCh where
  init   : Bool := false
  enTx   : Bool := false
  enCh   : Bool := false
  /-- MAC filters, by slot -/
  macs   : Tbl (Option Nat) := []
  bcast  : Bool := false
  aen    : Nat := 0
  deriving DecidableEq, Repr

/-- An image set in a flash slot (20 R537): whether its signature verifies, its security version, and its content, which only
identity of two images reads. -/
structure FwImage where
  good    : Bool
  version : Nat
  content : Nat
  deriving DecidableEq, Repr

/-- The management plane beside its registers. -/
structure Mgt where
  ncsi : Tbl NcsiCh := []
  /-- the NC-SI package is selected (20 R523) -/
  pkgSel : Bool := false
  /-- PLDM terminus ID that SetTID gave (20 R523) -/
  tid : Nat := 0
  /-- flash slots A and B that an update has written (20 R538); an unlisted slot holds the factory's image (log entry 29) -/
  flash : Tbl FwImage := []
  /-- the update under way: the image received (20 R538) -/
  update : Option FwImage := none
  /-- 8-byte words of the telemetry snapshots, by 8,192 · set + word (20 R526) -/
  snaps : Tbl Nat := []
  /-- the snapshot set that the management controller is reading (20 R525) -/
  reading : Option Nat := none
  /-- a presence scan stands between its steps 1 and 3: the levels read at step 1 (20 R536) -/
  scan1 : Option Nat := none
  /-- rescans that the running scan has made, each ended with CDS set (20 R536) -/
  rescans : Nat := 0
  /-- time since the warm reset at which the last periodic snapshot was latched (20 R525) -/
  periodAt : Nat := 0
  /-- time since the warm reset at which the last presence scan by the timer began (20 R536) -/
  scanAt : Nat := 0
  /-- time since the warm reset at which the running scan took its step 1 (20 R536) -/
  settleAt : Nat := 0
  /-- time since the warm reset at which the running window of control-core time began (20 R527) -/
  windowAt : Nat := 0
  /-- time since the warm reset at which a cage's presence last read stable (20 R535) -/
  stableAt : Tbl Nat := []
  /-- control-core shares in force in the running window (20 R527); those of MGT.CCSHARE before the first -/
  shares : Option (Nat × Nat × Nat) := none
  /-- the board settings that OTP_PROG programmed, BIFMODE, CXLEN and SMBADDR (20 R539); they apply from the next cold reset -/
  otp : Option (Nat × Nat × Nat) := none
  deriving DecidableEq, Repr

/-! ## The whole device -/

/-- Everything the spec gives the device but network time and the battery domain. -/
structure Dev where
  /-- register fields by `Fld.key`; an unlisted field holds its cold reset value -/
  regs : Tbl Nat := []
  evt  : EvtState := {}
  eng  : Eng := {}
  prog : Prog := {}
  dsp  : Dsp := {}
  rng  : Rng := {}
  hif  : HostIf := {}
  mac  : Ports := {}
  acs  : Acs := {}
  fwd  : Fwd := {}
  /-- tunnel templates (09 R216) -/
  tmpl : Tbl Template := []
  sch  : Sch := {}
  slu  : Slu := {}
  adm  : Adm := {}
  dup  : Dup := {}
  mbx  : Mbx := {}
  cip  : Cip := {}
  sto  : Sto := {}
  bat  : Bat := {}
  dkw  : Dkw := {}
  mgt  : Mgt := {}
  /-- a warm reset runs: its functions have not all come back (19 R505, R506) -/
  warming : Bool := false
  /-- the model's own counter of free values drawn (log entry 5) -/
  free : Nat := 0
  /-- what the device has sent, newest first; the model's own field (log entry 6) -/
  out  : List Out := []
  deriving DecidableEq, Repr

/-- The machine: the device, network time, and the commands that wait, first in first out. -/
structure State where
  dev     : Dev := {}
  time    : NetTime := {}
  pending : List Instr := []
  deriving DecidableEq, Repr

/-- The machine right after the cold reset (00_scope R17, column Cold). -/
def State.reset : State := {}

end Sys2Proof.Machine
end

