-- ==== Sys2Proof/Machine/Ops.lean ====
section
/-! DEFINITION. The named operations every family uses: reading and writing a register field, counting, raising an
event, sending something out of the device, drawing a free value, and lifting an effect on the device to a step. -/

namespace Sys2Proof.Machine

/-! ## Register fields -/

/-- The value of instance `i` of a register field. -/
def Dev.rd (d : Dev) (f : Fld) (i : Nat := 0) : Nat := look (f.coldValue i) d.regs (f.key i)

/-- Set instance `i` of a register field; the value is cut to the field's width. -/
def Dev.wr (d : Dev) (f : Fld) (i v : Nat) : Dev :=
  { d with regs := put (f.coldValue i) d.regs (f.key i) (v % 2 ^ f.w) }

/-- Add `n` to a saturating counter (00_scope R16). -/
def Dev.bump (d : Dev) (f : Fld) (i : Nat := 0) (n : Nat := 1) : Dev :=
  d.wr f i (min (d.rd f i + n) (2 ^ f.w - 1))

/-- Set a field to the larger of its value and `v` (a PEAK field). -/
def Dev.peak (d : Dev) (f : Fld) (i v : Nat) : Dev := d.wr f i (max (d.rd f i) (min v (2 ^ f.w - 1)))

/-- A 32-bit counter of a record counts one more and stops at its largest value (R16). -/
def up32 (n : Nat) : Nat := min (n + 1) (2 ^ 32 - 1)

/-- Bit `b` of a number. -/
def bitOf (v b : Nat) : Bool := v.testBit b

/-- `v` with bit `b` set or cleared. -/
def setBit (v b : Nat) (on : Bool) : Nat :=
  if v.testBit b = on then v else if on then v + 2 ^ b else v - 2 ^ b

/-- The bits [lo + w − 1 : lo] of a number. -/
def bitsOf (v lo w : Nat) : Nat := v / 2 ^ lo % 2 ^ w

/-- The writer with a view number. -/
def writerOf (v : Nat) : Writer := if v = 0 then .pf0 else if v = 1 then .pf1 else .control

/-- The order in which writers' commands run when `r` writers have passed since the control cores: at first the control cores, then PF 0,
then PF 1 (19 R570); and where the order stands once a writer has been served. -/
def writerTurns (r : Nat) : List Nat := [(r + 2) % 3, r % 3, (r + 1) % 3]
def turnAfter (w : Writer) : Nat := (w.view + 2) % 3

/-- `v` with the bits [lo + w − 1 : lo] replaced by the low `w` bits of `x`. -/
def setBits (v lo w x : Nat) : Nat := v - bitsOf v lo w * 2 ^ lo + x % 2 ^ w * 2 ^ lo

/-- A two's-complement number of `w` bits as an integer. -/
def signedOf (v w : Nat) : Int := if v % 2 ^ w < 2 ^ (w - 1) then (v % 2 ^ w : Nat) else (v % 2 ^ w : Nat) - (2 ^ w : Nat)

/-- An integer as a two's-complement number of `w` bits. -/
def unsignedOf (x : Int) (w : Nat) : Nat := (x % (2 ^ w : Nat)).toNat

/-- Read a bit of a register field. -/
def Dev.rdBit (d : Dev) (f : Fld) (i b : Nat) : Bool := (d.rd f i).testBit b

/-- Set or clear a bit of a register field. -/
def Dev.wrBit (d : Dev) (f : Fld) (i b : Nat) (on : Bool) : Dev := d.wr f i (setBit (d.rd f i) b on)

/-! ## Bytes -/

/-- The bytes of a number, least significant first (00_scope R11). -/
def leBytes : Nat → Nat → List Byte
  | 0, _ => []
  | n + 1, v => BitVec.ofNat 8 v :: leBytes n (v / 256)

/-- A byte string as a number, least significant byte first. -/
def leNat : List Byte → Nat
  | [] => 0
  | b :: bs => b.toNat + 256 * leNat bs

/-- A byte string as a number in network order, most significant byte first. -/
def beNat (bs : List Byte) : Nat := leNat bs.reverse

/-- The bytes of a number in network order. -/
def beBytes (n v : Nat) : List Byte := (leBytes n v).reverse

/-- `n` bytes of a byte string from offset `o` on; zero past its end. -/
def slice (bs : List Byte) (o n : Nat) : List Byte := (List.range n).map (fun i => bs.getD (o + i) 0)

/-- The little-endian number in `n` bytes of a byte string from offset `o` on. -/
def leAt (bs : List Byte) (o n : Nat) : Nat := leNat (slice bs o n)

/-- The number in network order in `n` bytes of a byte string from offset `o` on. -/
def beAt (bs : List Byte) (o n : Nat) : Nat := beNat (slice bs o n)

/-- A byte string with the bytes from offset `o` on replaced by `new`. -/
def splice (bs : List Byte) (o : Nat) (new : List Byte) : List Byte :=
  bs.take o ++ new ++ bs.drop (o + new.length)

/-! ## What leaves the device, and free values -/

/-- Send something out of the device. -/
def Dev.send (d : Dev) (o : Out) : Dev := { d with out := o :: d.out }

/-- The free value that the next open value takes (log entry 5). -/
def Dev.freeVal (d : Dev) : Word := Config.freeWord d.free

/-- Count one free value as drawn. -/
def Dev.drawn (d : Dev) : Dev := { d with free := d.free + 1 }

/-! ## Functions of the host interface (15 R396, R402, R406; 17 R456) -/

/-- A function by its polder number. -/
def Dev.fn (d : Dev) (f : Nat) : HostFn := look {} d.hif.fns f

/-- Replace a function. -/
def Dev.setFn (d : Dev) (f : Nat) (x : HostFn) : Dev := { d with hif := { d.hif with fns := put {} d.hif.fns f x } }

/-- The link of a function. -/
def linkOf (f : Nat) : Nat := f / 4096

/-- Whether the lane mode creates a link (15 R392): BIFMODE 3h has link 0 alone. -/
def Dev.linkPresent (d : Dev) (l : Nat) : Bool := decide (l = 0 ∨ d.rd HIF.CFG_BIFMODE ≠ 3)

/-- Whether a function exists (17 R456): a PF with its link, a VF while VF Enable is set and it is within NumVFs. -/
def Dev.fnExists (d : Dev) (f : Nat) : Bool :=
  d.linkPresent (linkOf f) && (decide (f % 4096 = 0)
    || ((d.fn (4096 * linkOf f)).vfEnable && decide (f % 4096 ≤ (d.fn (4096 * linkOf f)).numVfs)))

/-- A ready bit of TOP.READY (19 R500, R519). -/
def Dev.ready (d : Dev) (b : Nat) : Bool := d.rdBit TOP.READY_BITS 0 b

/-- Whether a function's memory requests reach their target (15 R402, R410, R411). -/
def Dev.memAnswers (d : Dev) (f : Nat) : Bool :=
  let x := d.fn f
  d.fnExists f && x.memEnable && !x.d3hot && !x.inFlr && d.ready (38 + linkOf f)

/-- An interrupt of a function (15 R406, R407): none in D3hot; a masked vector sets its pending bit, an unmasked one is
sent. A vector above the table size names nothing. MSI-X Enable clear counts as masked (log entry 14). -/
def Dev.vector (d : Dev) (f v : Nat) : Dev :=
  let x := d.fn f
  if x.d3hot ∨ d.rd VIR.PVEC_VECTORS f ≤ v then d
  else if !x.msixEnable || x.msixMask || (look {} x.vecs v).masked then d.setFn f { x with pba := put false x.pba v true }
  else d.send (.vector f v)

/-! ## Events (18 R495, R496, R568, R569) -/

/-- The source number of EVT group.bit. -/
def ev (group bit : Nat) : Nat := 32 * group + bit

/-- The physical function of a polder's family (17 R456). -/
def pfOf (polder : Nat) : Nat := polder / 4096

/-- Latch an event in the view of one PF, and send the PF's vector when PEND AND MASK rises (R495 steps 3 and 4). -/
def Dev.latchEvent (d : Dev) (view src : Nat) : Dev :=
  let i := 16 * view + src / 32
  let rises := !d.rdBit EVT.PEND_BITS i (src % 32) && d.rdBit EVT.MASK_BITS i (src % 32)
  let d1 := d.wrBit EVT.PEND_BITS i (src % 32) true
  if rises then d1.vector (4096 * view) (d.rd EVT.VEC_VECTOR i) else d1

/-- Store a record in the FIFO of one PF view; a record that finds it full is lost and counted (R496). -/
def Dev.recordEvent (d : Dev) (view : Nat) (r : EvRecord) : Dev :=
  if view = 0 then
    if d.evt.recs0.length < 256 then { d with evt := { d.evt with recs0 := d.evt.recs0 ++ [r] } }
    else d.bump EVT.RECSTAT_LOST 0
  else
    if d.evt.recs1.length < 256 then { d with evt := { d.evt with recs1 := d.evt.recs1 ++ [r] } }
    else d.bump EVT.RECSTAT_LOST 1

/-- Whether the record FIFO of a view is full. -/
def Dev.recFull (d : Dev) (view : Nat) : Bool :=
  decide (256 ≤ (if view = 0 then d.evt.recs0.length else d.evt.recs1.length))

/-- Set the interrupt-pending bit of a group in every control core (R495 step 2). -/
def Dev.irqAll (d : Dev) (group : Nat) : Dev :=
  { d with eng := { d.eng with csrs := (List.range 12).foldl (fun t c =>
      put {} t c { look {} t c with irqpend := (look {} t c).irqpend ||| (1#64 <<< group) }) d.eng.csrs } }

/-- The views that see an event: that of the polder's PF, or both (R495 step 3). -/
def viewsOf : Option Nat → List Nat
  | some p => [pfOf p]
  | none => [0, 1]

/-- Route one event: control cores, PEND and vectors, records, count, management report. -/
def Dev.routeEvent (d : Dev) (now : NetTime) (src info : Nat) (polder : Option Nat) : Dev :=
  let d1 := d.irqAll (src / 32)
  let d2 := (viewsOf polder).foldl (fun x v => x.latchEvent v src) d1
  let d3 := (viewsOf polder).foldl (fun x v =>
    x.recordEvent v { src := src, polder := polder, info := info, time := now.tsin }) d2
  let d4 := d3.bump EVT.COUNT_COUNT src
  if d4.rdBit EVT.MGTMASK_BITS (src / 32) (src % 32) then d4.send (.message 1 [src, info]) else d4

/-- The safety mechanism whose detection an event reports (18 R480, column Event); the memories of SM 6 report under
their own rules (02 R47, 06 R162 and R163, 07 R174, 10 R260, 15 R405). -/
def mechanismOf (src : Nat) : Option Nat :=
  if src = ev 0 0 then some 1 else if src = ev 0 1 then some 2 else if src = ev 0 2 then some 3
  else if src = ev 3 0 ∨ src = ev 3 1 then some 5
  else if src = ev 3 2 ∨ src = ev 3 3 ∨ src = ev 3 4 ∨ src = ev 6 0 ∨ src = ev 6 1 ∨ src = ev 6 2 ∨ src = ev 7 7
    ∨ src = ev 10 5 then some 6
  else if src = ev 0 3 then some 7 else if src = ev 0 4 then some 8 else if src = ev 10 6 then some 9
  else if ev 0 10 ≤ src ∧ src ≤ ev 0 13 then some 10
  else if src = ev 0 5 then some 11 else if src = ev 0 6 then some 12 else if src = ev 0 7 then some 13
  else if src = ev 0 8 then some 14 else if src = ev 0 9 then some 15 else none

/-- Whether a fault of a mechanism lasts until it is repaired or released; the faults of SM 6, SM 7 and SM 10 are over
once the access, frame or copy is dealt with. -/
def faultLasts (m : Nat) : Bool := decide (m ≠ 6 ∧ m ≠ 7 ∧ m ≠ 10)

/-- A change of capacity or timing starts a revalidation (13 R359); the cause is numbered as in R362. -/
def Dev.revalidate (d : Dev) (cause : Nat) : Dev := { d with adm := { d.adm with revalidate := d.adm.revalidate ++ [cause] } }

/-- Mechanism `m` detects a fault at an instance (R478, R486): its counter, DKW.CAUSE and DKW.FTIME of the first fault
since the last release, and a second fault with EVT 0.23 while an earlier one stands, whose presence starts a revalidation (13
R359). -/
def Dev.detected (d : Dev) (now : NetTime) (m src inst : Nat) : Dev :=
  let d1 := d.bump DKW.SMCNT_DET m
  let d2 := if d1.dkw.causeSet then d1
    else { ((((d1.wr DKW.CAUSE_SOURCE 0 src).wr DKW.CAUSE_SM 0 m).wr DKW.CAUSE_INFO 0 inst).wr DKW.FTIME_NS 0 now.ns).wr
      DKW.FTIME_SEC 0 now.sec with dkw := { d1.dkw with causeSet := true } }
  let d3 := if d2.dkw.faults.any (fun f => decide (f ≠ (m, inst))) then
    ((if d2.rd DKW.STATUS_SECOND = 1 then d2 else d2.revalidate 4).wr DKW.STATUS_SECOND 0 1).routeEvent now (ev 0 23) m none else d2
  if faultLasts m && !d3.dkw.faults.contains (m, inst) then
    { d3 with dkw := { d3.dkw with faults := (m, inst) :: d3.dkw.faults } }
  else d3

/-- A fault is repaired or released; with none left, DKW.STATUS.SECOND clears (R486). -/
def Dev.repaired (d : Dev) (m inst : Nat) : Dev :=
  let fs := d.dkw.faults.filter (· ≠ (m, inst))
  let d1 := { d with dkw := { d.dkw with faults := fs } }
  if fs.isEmpty then d1.wr DKW.STATUS_SECOND 0 0 else d1

/-- Raise an event (R495). The Dikewarden sees it (step 1). A record lost at a full FIFO raises EVT 0.25, at most once
per second (R496). -/
def Dev.raise (d : Dev) (now : NetTime) (src : Nat) (info : Nat := 0) (polder : Option Nat := none) : Dev :=
  let lost := (viewsOf polder).any (fun v => d.recFull v)
  let d0 := d.routeEvent now src info polder
  let d1 := match mechanismOf src with
    | some m => d0.detected now m src info
    | none => d0
  if lost && !d1.evt.secondMarks.contains (25, 0) then
    ({ d1 with evt := { d1.evt with secondMarks := (25, 0) :: d1.evt.secondMarks } }).routeEvent now 25 0 none
  else d1

/-- Raise an event at most once per second of network time for its key (R568). -/
def Dev.raiseSec (d : Dev) (now : NetTime) (src key : Nat) (info : Nat := 0) (polder : Option Nat := none) : Dev :=
  if d.evt.secondMarks.contains (src, key) then d
  else ({ d with evt := { d.evt with secondMarks := (src, key) :: d.evt.secondMarks } }).raise now src info polder

/-- Raise an event at most once per hour of network time for its key (R568). -/
def Dev.raiseHour (d : Dev) (now : NetTime) (src key : Nat) (info : Nat := 0) (polder : Option Nat := none) : Dev :=
  if d.evt.hourMarks.contains (src, key) then d
  else ({ d with evt := { d.evt with hourMarks := (src, key) :: d.evt.hourMarks } }).raise now src info polder

/-- Whether the device is in its device-wide safe state (18 R482). -/
def Dev.devSafe (d : Dev) : Bool := decide (d.rd DKW.STATUS_DEVSAFE = 1)

/-- Whether a port is in its safe state (18 R481). -/
def Dev.portSafe (d : Dev) (n : Nat) : Bool := d.rdBit DKW.PSAFE_PORTS 0 n

/-- Whether a polder is in its safe state (18 R482). -/
def Dev.polSafe (d : Dev) (p : Nat) : Bool := d.rdBit DKW.POLSAFE_MAP (p / 64) (p % 64)

/-! ## Errors reported through AER (15 R405) -/

/-- The errors of AER by the model's number. -/
def AerErr.ofIndex (n : Nat) : AerErr :=
  match n with
  | 0 => .poisoned
  | 1 => .timeout
  | 2 => .refused
  | 3 => .unexpected
  | 4 => .ur
  | 5 => .ecrc
  | 6 => .malformed
  | _ => .internal

/-- The model's number of an error of AER. -/
def AerErr.index : AerErr → Nat
  | .poisoned => 0
  | .timeout => 1
  | .refused => 2
  | .unexpected => 3
  | .ur => 4
  | .ecrc => 5
  | .malformed => 6
  | .internal => 7

/-- The function that logs an error of AER logs it, and sends the error message of its severity register (message 15: function, error,
1 fatal, 0 non-fatal); the device's own action does not depend on it (R405). -/
def Dev.aerLog (d : Dev) (f : Nat) (e : AerErr) : Dev :=
  let x := d.fn f
  let a := x.aer
  (d.setFn f { x with aer := { a with logged := if a.logged.contains e then a.logged else a.logged ++ [e] } }).send
    (.message 15 [f, e.index, if a.fatal.contains e then 1 else 0])

/-! ## Translations (15 R404) and host writes (R398) -/

/-- The page of a host address. -/
def pageOf (a : Nat) : Nat := a / 4096

/-- The translation that the address translation cache holds for a page of a function (R404). -/
def Dev.translation (d : Dev) (f page : Nat) : Option Nat := (d.hif.atc.find? (fun e => decide (e.1 = f ∧ e.2.1 = page))).map (fun e => e.2.2)

/-- Whether an access of a function to an address must wait for a translation (R404). -/
def Dev.needsTranslation (d : Dev) (f addr : Nat) : Bool := (d.fn f).ats && (d.translation f (pageOf addr)).isNone

/-- Ask for a translation of a page, once (R404): the access is held until the answer arrives. -/
def Dev.askTranslation (d : Dev) (f page : Nat) : Dev :=
  if d.hif.xlWait.contains (f, page) then d
  else ({ d with hif := { d.hif with xlWait := d.hif.xlWait ++ [(f, page)] } }).send (.message 2 [f, page])

/-- The address that a request of a function carries, and the attribute of a translated one (R404). -/
def Dev.reqAddr (d : Dev) (f addr : Nat) : Nat × Nat :=
  if (d.fn f).ats then
    match d.translation f (pageOf addr) with
    | some t => (t * 4096 + addr % 4096, 8)
    | none => (addr, 0)
  else (addr, 0)

/-- The attribute of a request that carries the PASID of its polder: with PASID Enable set (R404). -/
def Dev.pasidAttr (d : Dev) (f : Nat) : Nat := if (d.fn f).pasid then 16 * (d.rd VIR.PID_PASID f + 1) else 0

/-- The writes of a buffer (R398; 16 R450): a head up to a 64-byte boundary, whole lines split at 4 KiB and Max Payload boundaries, a
tail. The fuel is the length. -/
def splitWrite (mps : Nat) : Nat → Nat → Nat → List (Nat × Nat)
  | 0, _, _ => []
  | _ + 1, _, 0 => []
  | fuel + 1, addr, len + 1 =>
    let n :=
      if addr % 64 ≠ 0 then min (len + 1) (64 - addr % 64)
      else if len + 1 < 64 then len + 1
      else min ((len + 1) / 64 * 64) (min (4096 - addr % 4096) (mps - addr % mps))
    (addr, n) :: splitWrite mps fuel (addr + n) (len + 1 - n)

/-- One write request of a function, within one page: sent, or held until its translation arrives (R404). -/
def Dev.writeReq (d : Dev) (f addr : Nat) (bytes : List Byte) (attr : Nat) : Dev :=
  if d.needsTranslation f addr then
    let d1 := d.askTranslation f (pageOf addr)
    { d1 with hif := { d1.hif with held := d1.hif.held ++ [(f, pageOf addr, .write addr bytes attr)] } }
  else d.send (.hostWrite f (d.reqAddr f addr).1 bytes (attr + (d.reqAddr f addr).2))

/-- The write requests of a buffer, one after the other. -/
def Dev.writeReqs (d : Dev) (f attr : Nat) (bytes : List Byte) : List (Nat × Nat) → Dev
  | [] => d
  | (a, n) :: rest => (d.writeReq f a (bytes.take n) attr).writeReqs f attr (bytes.drop n) rest

/-- A function's bytes go to its host's memory, in requests of at most its Max Payload Size (R398, R404). -/
def Dev.hostWrite (d : Dev) (f addr : Nat) (bytes : List Byte) : Dev :=
  d.writeReqs f (d.pasidAttr f) bytes (splitWrite (128 * 2 ^ (d.fn f).payload) bytes.length addr bytes.length)

/-! ## Refused requests (15 R402) and the host-line cache (R418) -/

/-- A request of a function is answered with UR: counted, and EVT 15.5 at most once per second per link. -/
def Dev.urAnswer (d : Dev) (now : NetTime) (f : Nat) : Dev :=
  ((((d.bump HIF.UR_COUNT (linkOf f)).wr HIF.UR_LASTFN (linkOf f) f).send (.ur f))).raiseSec now (ev 15 5) (linkOf f) (linkOf f)
    (if d.fnExists f then some f else none) |>.aerLog
    (if d.fnExists f then f else 4096 * linkOf f) .ur

/-- Whether a polder's rings may use CXL.cache (R418): link 0 runs CXL with Cache Enable, and the function has ATS. -/
def Dev.cxlcAllowed (d : Dev) (polder : Nat) : Bool :=
  decide (linkOf polder = 0 ∧ d.rd HIF.CXLSTAT_CXL = 1 ∧ d.rd HIF.CXLSTAT_CACHEEN = 1) && (d.fn polder).ats

/-! ## Reads of network time (19 R510) -/

/-- Network time `n` ns before. -/
def NetTime.back (t : NetTime) (n : Nat) : NetTime :=
  if t.toNs < n then {} else { sec := (t.toNs - n) / 1000000000, ns := (t.toNs - n) % 1000000000, frac := t.frac }

/-- A read of network time in another domain: between 2 and 6 ns behind the counter; how far is open, a free value (log entry 37). -/
def Dev.readTime (d : Dev) (now : NetTime) : NetTime := now.back (2 + d.freeVal.toNat % 5)

/-! ## Steps -/

/-- A command whose effect is on the device alone: network time is read, never written. -/
def onDev (f : NetTime → Dev → Dev) (s : State) : Host.Outcome State Fault Refusal :=
  .next { s with dev := f s.time s.dev }

end Sys2Proof.Machine
end

