-- ==== Sys2Proof/Machine/Lookups.lean ====
section
/-! DEFINITION. Rings, scheduler nodes and the polders that own them, by number, and the checks of an EMIT target (16 R424, R425; 11
R282, R309; 17 R457; 03 R78; 04 R102). -/

namespace Sys2Proof.Machine

/-- The first of a list of numbers at or above a pointer, else the first. -/
def rotated (ptr : Nat) (ks : List Nat) : List Nat := ks.filter (fun k => decide (ptr ≤ k)) ++ ks.filter (fun k => decide (k < ptr))

/-! ## Rings (16 R424, R425) -/

/-- Ring kinds: 0 submission, 1 receive, 2 completion. -/
abbrev kSub : Nat := 0
abbrev kRx : Nat := 1
abbrev kCq : Nat := 2

/-- The key of a ring in the context table. -/
def ringKey (kind r : Nat) : Nat := kind * 2 ^ 18 + r

/-- How many rings of a kind exist. -/
def ringCount (kind : Nat) : Nat := if kind = kCq then 131072 else 262144

/-- A ring by kind and number. -/
def Dev.ring (d : Dev) (kind r : Nat) : Ring := look {} d.rng.rings (ringKey kind r)

/-- Replace a ring. -/
def Dev.setRing (d : Dev) (kind r : Nat) (x : Ring) : Dev :=
  { d with rng := { d.rng with rings := put {} d.rng.rings (ringKey kind r) x } }

/-- Whether a polder's record gives it a ring (17 R457, VIR.PSQ, PRQ, PCQ). -/
def Dev.ownsRing (d : Dev) (polder kind r : Nat) : Bool :=
  let b := if kind = kSub then d.rd VIR.PSQ_BASE polder else if kind = kRx then d.rd VIR.PRQ_BASE polder else d.rd VIR.PCQ_BASE polder
  let n := if kind = kSub then d.rd VIR.PSQ_COUNT polder else if kind = kRx then d.rd VIR.PRQ_COUNT polder else d.rd VIR.PCQ_COUNT polder
  decide (b ≤ r ∧ r < b + n)

/-- The polder a ring is assigned to. -/
def Dev.ringPolder (d : Dev) (kind r : Nat) : Option Nat := (List.range 8192).find? (fun p => d.ownsRing p kind r)

/-! ## Node records (R282, R309) -/

def Rec.cinc (r : Rec) : Nat := bitsOf r.w0 0 32
def Rec.pinc (r : Rec) : Nat := bitsOf r.w0 32 32
def Rec.cburst (r : Rec) : Nat := bitsOf r.w1 0 24
def Rec.pburst (r : Rec) : Nat := bitsOf r.w1 24 24
def Rec.weight (r : Rec) : Nat := bitsOf r.w1 48 12
def Rec.polOvh (r : Rec) : Nat := bitsOf r.w1 48 6
def Rec.polRed (r : Rec) : Bool := r.w1.testBit 56
def Rec.polEn (r : Rec) : Bool := r.w1.testBit 57
def Rec.parent (r : Rec) : Nat := bitsOf r.w2 0 18
def Rec.en (r : Rec) : Bool := r.w2.testBit 24
def Rec.dup (r : Rec) : Bool := r.w2.testBit 25
def Rec.cclass (r : Rec) : Nat := bitsOf r.w2 26 2
def Rec.twin (r : Rec) : Nat := bitsOf r.w2 32 18
/-- The depth of a queue for a colour in bytes: green, yellow, red (R298). -/
def Rec.depth (r : Rec) (colour : Nat) : Nat := bitsOf r.w3 (20 * min colour 2) 20 * 256

/-- Record kinds by level: 5 policer, 6 class shaper. -/
abbrev lvlQueue : Nat := 4
abbrev lvlPolicer : Nat := 5
abbrev lvlClass : Nat := 6

/-- How many nodes a level has (R282, R303, R309). -/
def levelCount (lvl : Nat) : Nat := [16, 32, 8192, 65536, 262144, 131072, 128].getD lvl 0

/-- The key of a node. -/
def nodeKey (lvl n : Nat) : Nat := 2 ^ 20 * lvl + n

/-- A node by level and number. -/
def Dev.node (d : Dev) (lvl n : Nat) : Node := look {} d.sch.nodes (nodeKey lvl n)

/-- Replace a node. -/
def Dev.setNode (d : Dev) (lvl n : Nat) (x : Node) : Dev :=
  { d with sch := { d.sch with nodes := put {} d.sch.nodes (nodeKey lvl n) x } }

/-- The polder that owns an L2 node (17 R457, VIR.PVEC). -/
def Dev.l2Owner (d : Dev) (k : Nat) : Option Nat :=
  (List.range 8192).find? (fun f => decide (d.rd VIR.PVEC_L2BASE f ≤ k ∧ k < d.rd VIR.PVEC_L2BASE f + d.rd VIR.PVEC_L2CNT f))

/-- The L3 node, the L1 node and the port of a queue as in force. -/
def Dev.queueL3 (d : Dev) (q : Nat) : Nat := (d.node 4 q).inForce.parent
def Dev.queueL1 (d : Dev) (q : Nat) : Nat := (d.node 2 (d.queueL3 q / 8)).inForce.parent
def Dev.queuePort (d : Dev) (q : Nat) : Nat := d.queueL1 q / 2
/-- The polder of a queue: the owner of its L2 node. -/
def Dev.queuePolder (d : Dev) (q : Nat) : Option Nat := d.l2Owner (d.queueL3 q / 8)

/-! ## Targets (03 R78; 04 R102) -/

/-- The polder that owns a target: the queue's, or the receive ring's (R153). -/
def Dev.targetPolder (d : Dev) (kind n : Nat) : Option Nat := if kind = 0 then d.queuePolder n else d.ringPolder kRx n

def tgtNumber (v : Nat) : Nat := bitsOf v 0 18
def tgtKind (v : Nat) : Nat := bitsOf v 18 1

/-- Whether an EMIT target passes the checks of R78: its zero bits, that its ring or queue is in service, and that its
polder lies in the emit scope of the slot. -/
def Dev.targetOk (d : Dev) (b : Slot) (polder v : Nat) : Bool :=
  let n := tgtNumber v
  let on := if tgtKind v = 0 then (d.node 4 n).inForce.en else decide ((d.ring kRx n).st ≠ .disabled)
  let inScope := match d.targetPolder (tgtKind v) n with
    | some q => if b.scope = 0 then decide (q = polder) else if b.scope = 1 then decide (pfOf q = b.owner) else true
    | none => decide (b.scope = 2)
  decide (v < 2 ^ 19) && on && inScope

end Sys2Proof.Machine
end

