-- ==== Sys2Proof/Machine/PueriWords.lean ====
section
/-! DEFINITION. Instruction words of Pueri: what a word decodes to in the packet profile, as the verifier has to know it, and which
words neither profile assigns (03 R61 to R81, R86). -/

namespace Sys2Proof.Machine

/-! ## The packet profile (R61, R62, R97 DECODE) -/

/-- What the verifier has to know of an instruction's place in the control flow. -/
inductive VKind where
  | plain | term | ret | lidx
  | br (p : Nat) (n : Bool) (off : Int)
  | brk (p : Nat) (n : Bool)
  | loop (cnt last : Nat)
  | call (idx : Nat)
  | jt (tbl : Nat)
  | await (k : Nat)
  | tarm (idx : Nat)
  deriving DecidableEq, Repr

/-- An instruction as the verifier sees it: its charge (R63), the g registers it reads or writes, the ticket that an
asynchronous one takes with the W of its class, its rd and what it locks (1 header buffer, 2 scratch), and whether it
reads or writes the header buffer or scratch (R98). -/
structure VIns where
  op     : Nat := 0
  kind   : VKind := .plain
  charge : Nat := 1
  regs   : List Nat := []
  ticket : Option Nat := none
  w      : Nat := 0
  rd     : Nat := 0
  lock   : Nat := 0
  hdr    : Bool := false
  scr    : Bool := false
  deriving DecidableEq, Repr

/-- Decode a word as the packet profile has it; none where it does not decode or is not available there. A set sx in an ST
and set flags in a COPY are read as ignored, and the whole off22 of ASSERT as its code (log entry 23). -/
def decodeV (w : Nat) : Option VIns :=
  let op := bitsOf w 26 6
  let rd := bitsOf w 21 5
  let ra := bitsOf w 16 5
  let rb := bitsOf w 11 5
  let fn := bitsOf w 0 11
  let k := bitsOf w 8 3
  let f8 := bitsOf w 0 8
  let imm := bitsOf w 0 16
  let need := fun (ok : Bool) (x : VIns) => if ok then some { x with op := op } else none
  let asy := fun (ok : Bool) (x : VIns) => need ok { x with ticket := some k, rd := rd, regs := rd :: x.regs }
  let p := bitsOf w 23 3
  let n := decide (bitsOf w 22 1 = 1)
  match op with
  | 0x00 =>
    if fn ≤ 0xD then need true { regs := [rd, ra, rb], charge := if 0xC ≤ fn then 3 else 1 }
    else need (decide (fn ≤ 0x10 ∧ rb = 0)) { regs := [rd, ra] }
  | 0x01 | 0x02 | 0x03 | 0x04 => need true { regs := [rd, ra] }
  | 0x05 => need (decide (imm < 0xC0)) { regs := [rd, ra] }
  | 0x06 => need (decide (ra = 0)) { regs := [rd] }
  | 0x07 => need (decide (ra < 4)) { regs := [rd] }
  | 0x08 => need (decide (bitsOf w 0 10 = 0)) { regs := [bitsOf w 15 5, bitsOf w 10 5] }
  | 0x09 => need true { regs := [bitsOf w 15 5] }
  | 0x0A => need (decide (bitsOf w 0 13 = 0)) {}
  | 0x0B => need (decide (fn < 8)) { regs := [rd, ra, rb] }
  | 0x0C => need (decide (bitsOf w 0 4 ≤ 1)) { regs := [rd, ra] }
  | 0x10 =>
    let fn7 := bitsOf w 0 7
    let off := bitsOf w 9 7
    let sz := bitsOf w 7 2
    match fn7 with
    | 0 => need (decide (ra = 0)) { regs := [rd], hdr := true }
    | 1 => need (decide (rd = 0)) { regs := [ra], hdr := true }
    | 2 | 3 => need true { regs := [rd, ra], charge := 2, hdr := true }
    | 4 => need (decide (ra = 0 ∧ off < 16 ∧ sz = 0)) { regs := [rd], hdr := true }
    | 5 => need (decide (rd = 0 ∧ off < 16 ∧ sz = 0)) { regs := [ra], hdr := true }
    | 6 | 7 => need (decide (rd = 0 ∧ off = 0 ∧ sz = 0)) { regs := [ra], charge := 2, hdr := true }
    | 8 => need true { regs := [rd, ra], charge := 1 + (off + 1 + 128 * sz + 63) / 64, hdr := true }
    | _ => none
  | 0x11 =>
    if imm < 2 ^ 15 then need (decide (imm < 17 ∧ ra = 0)) { regs := [rd], hdr := decide (imm = 1 ∨ imm = 15) }
    else need (decide ((imm = 2 ^ 15 + 4 ∨ imm = 2 ^ 15 + 5 ∨ imm = 2 ^ 15 + 13) ∧ rd = 0)) { regs := [ra] }
  | 0x12 => need (decide (fn = 0)) { regs := [rd, ra, rb], charge := 2 }
  | 0x14 | 0x15 =>
    let sp := bitsOf w 14 2
    need (decide (sp ≠ 3)) { regs := [rd, ra], charge := [2, 8000, 1100].getD sp 0, scr := decide (sp = 0) }
  | 0x18 => need true { kind := .br p n (signedOf w 22) }
  | 0x19 => need true { kind := .loop (bitsOf w 18 8) (bitsOf w 0 18) }
  | 0x1A => need (decide (bitsOf w 0 18 = 0)) { kind := .call (bitsOf w 18 8), charge := 2 }
  | 0x1B =>
    match fn with
    | 0 => need (decide (bitsOf w 0 22 = 0)) { kind := .brk p n }
    | 1 => need (decide (ra = 0 ∧ rb = 0)) { kind := .lidx, regs := [rd] }
    | 2 => need (decide (rd = 0 ∧ ra = 0 ∧ rb = 0)) { kind := .ret, charge := 2 }
    | 3 => need (decide (rd = 0)) { kind := .jt rb, regs := [ra], charge := 3 }
    | _ => none
  | 0x20 => asy (decide (rb = 0 ∧ f8 < 32)) { w := 48, regs := [ra], scr := true }
  | 0x21 => asy (decide (f8 < 16)) { w := 1400, regs := [ra, rb], lock := 2, scr := true }
  | 0x22 => asy (decide (f8 < 32)) { w := 1600, regs := [ra, rb], lock := 2, scr := true }
  | 0x23 => asy (decide (f8 = 0)) { w := 64, regs := [ra, rb] }
  | 0x24 => asy (decide (f8 < 16 ∧ f8 % 8 < 7)) { w := 1100, regs := [ra, rb] }
  | 0x25 => asy (decide (f8 < 2)) { w := if f8 = 0 then 72 else 900, regs := [ra, rb], lock := if f8 = 0 then 0 else 2
                                    hdr := true, scr := true }
  | 0x26 => asy (decide (rb = 0 ∧ f8 < 3)) { w := 96, regs := [ra], lock := 1, hdr := true }
  | 0x27 => asy (decide (rb = 0 ∧ f8 < 2)) { w := 24, regs := [ra] }
  | 0x28 => asy (decide (ra = 0 ∧ rb = 0 ∧ f8 = 0)) { w := 40 }
  | 0x2F => need (decide (rd = 0 ∧ ra = 0 ∧ rb = 0 ∧ f8 = 0)) { kind := .await k }
  | 0x30 => need (decide (rd = 0 ∧ fn = 0)) { regs := [ra, rb] }
  | 0x31 => need (decide (rd = 0 ∧ rb = 0 ∧ fn < 4)) { regs := [ra], hdr := true }
  | 0x32 => need (decide (rd = 0 ∧ rb = 0 ∧ fn < 4)) { kind := .term, regs := [ra], charge := 2 }
  | 0x33 | 0x34 => need (decide (bitsOf w 8 18 = 0)) { kind := .term, charge := 2 }
  | 0x35 => need (decide (bitsOf w 8 3 = 0)) { kind := .tarm f8, regs := [rd, ra, rb], charge := 2, scr := true }
  | 0x36 | 0x37 => need (decide (rb = 0 ∧ fn = 0)) { regs := [rd, ra], charge := 2 }
  | 0x38 => need (decide (rd = 0 ∧ rb = 0 ∧ fn = 0)) { kind := .term, regs := [ra], charge := 2 }
  | 0x39 => need (decide (ra = 0 ∧ rb = 0 ∧ fn = 0)) { regs := [rd], charge := 4 }
  | 0x3A => need true {}
  | _ => none

/-! ## Words that a profile assigns (R62, R86) -/

/-- The words that only the control profile has: DIVU and REMU, JR, LOOPR, and opcodes 3Ch to 3Fh. The chapter gives no further
fields of LOOPR, CSRR, CSRW, ERET and WFE, and every word of those opcodes counts as assigned (log entry 39). -/
def coreWord (w : Nat) : Bool :=
  let op := bitsOf w 26 6
  let fn := bitsOf w 0 11
  decide (op = 0x1D ∨ 0x3C ≤ op) || decide (op = 0 ∧ (fn = 0x11 ∨ fn = 0x12)) || decide (op = 0x1B ∧ fn = 4 ∧ bitsOf w 11 5 = 0 ∧ bitsOf w 21 5 = 0)

/-- Whether a word is an instruction of some profile; a load or store is one whatever its space. -/
def assignedWord (w : Nat) : Bool := (decodeV w).isSome || coreWord w || decide (bitsOf w 26 6 = 0x14 ∨ bitsOf w 26 6 = 0x15)

end Sys2Proof.Machine
end

