-- ==== Sys2Proof/Machine/Operands.lean ====
section
/-! DEFINITION. The operands of the Pueri instructions: contexts, general registers, predicates, tickets, the header
buffer and its window, scratch, and the issue of one instruction (03 R57 to R66, R83). -/

namespace Sys2Proof.Machine

/-! ## Contexts -/

/-- The context with a number: 8 · engine + context, or 1,536 + core. -/
def Dev.ctx (d : Dev) (x : Nat) : Ctx := look {} d.eng.ctxs x

/-- Replace a context. -/
def Dev.setCtx (d : Dev) (x : Nat) (c : Ctx) : Dev :=
  { d with eng := { d.eng with ctxs := put {} d.eng.ctxs x c } }

/-- No context: what an abandoned run has left outstanding answers it. -/
abbrev noCtx : Nat := 1548

/-- Whether a context number is that of a control core: the control profile (R86). -/
def isCore (x : Nat) : Bool := decide (1536 ≤ x)

/-- The control registers of core `j`. -/
def Dev.csr (d : Dev) (j : Nat) : Csr := look {} d.eng.csrs j

/-- Replace the control registers of core `j`. -/
def Dev.setCsr (d : Dev) (j : Nat) (r : Csr) : Dev :=
  { d with eng := { d.eng with csrs := put {} d.eng.csrs j r } }

/-- Read a general register; g0 reads as zero (R57). -/
def Ctx.rg (c : Ctx) (r : Nat) : Word := if r = 0 then 0 else look 0 c.g r

/-- Write a general register; writes to g0 are discarded (R57). -/
def Ctx.wg (c : Ctx) (r : Nat) (v : Word) : Ctx := if r = 0 then c else { c with g := put 0 c.g r v }

/-- Read a predicate; p0 reads as 1 (R57). -/
def Ctx.rp (c : Ctx) (p : Nat) : Bool := decide (p = 0) || c.p.testBit p

/-- Write a predicate; writes to p0 are discarded (R57). -/
def Ctx.wp (c : Ctx) (p : Nat) (v : Bool) : Ctx := if p = 0 then c else { c with p := setBit c.p p v }

/-- A ticket of a context. -/
def Ctx.tk (c : Ctx) (k : Nat) : Ticket := look {} c.tickets k

/-- Replace a ticket of a context. -/
def Ctx.setTk (c : Ctx) (k : Nat) (t : Ticket) : Ctx := { c with tickets := put {} c.tickets k t }

/-- Whether every ticket of a context is free (R82). -/
def Ctx.ticketsFree (c : Ctx) : Bool := c.tickets.all (fun t => !t.2.busy)

/-! ## Locked state (R66) -/

/-- The lockable state an instruction reads or writes: general registers, the header buffer, ranges of scratch bytes
(first, count). -/
structure Touch where
  regs    : List Nat := []
  header  : Bool := false
  scratch : Nat × Nat := (0, 0)
  scratch2 : Nat × Nat := (0, 0)
  scratch3 : Nat × Nat := (0, 0)

/-- Whether two byte ranges (first, count) overlap. -/
def overlap (a b : Nat × Nat) : Bool := decide (a.1 < b.1 + b.2) && decide (b.1 < a.1 + a.2)

/-- Whether a busy ticket locks something an instruction touches. A destination of g0 locks nothing (04 R98). -/
def Ticket.locks (t : Ticket) (u : Touch) : Bool :=
  t.busy && ((decide (t.rd ≠ 0) && u.regs.contains t.rd) || (t.header && u.header) || overlap t.scratch u.scratch || overlap t.scratch u.scratch2
    || overlap t.scratch u.scratch3)

/-- The first ticket whose lock an instruction must wait for. -/
def Ctx.lockedBy (c : Ctx) (u : Touch) : Option Nat := (c.tickets.find? (fun t => t.2.locks u)).map (fun t => t.1)

/-! ## Ending an instruction -/

/-- The program counter and loop stack after the instruction at `pc` (R74): at the last word of the innermost body the
next iteration starts, or the loop ends and the next outer body is judged at the same word. -/
def advance : Nat → List LoopEntry → Nat × List LoopEntry
  | pc, [] => ((pc + 1) % 2 ^ 18, [])
  | pc, l :: ls =>
    if pc = l.last then
      if l.left = 0 then advance pc ls
      else (l.first, { l with left := l.left - 1, index := l.index + 1 } :: ls)
    else ((pc + 1) % 2 ^ 18, l :: ls)

/-- The context after its instruction, at the next instruction. -/
def Ctx.next (c : Ctx) : Ctx := { c with pc := (advance c.pc c.loops).1, loops := (advance c.pc c.loops).2 }

/-- Codes of R83. -/
abbrev faultAddress : Nat := 0x01
abbrev faultWindow : Nat := 0x02
abbrev faultIllegal : Nat := 0x03
abbrev faultPrivileged : Nat := 0x04
abbrev faultStack : Nat := 0x05
abbrev faultTicket : Nat := 0x06
abbrev faultEmit : Nat := 0x07
abbrev faultTask : Nat := 0x08
abbrev faultMemory : Nat := 0x09
abbrev faultAssert : Nat := 0x0A
abbrev faultLimit : Nat := 0x0B
abbrev faultControl : Nat := 0x0C

/-- A context retires with a result: it is in HOLD, its outstanding results are discarded on arrival (R82, R83). -/
def Ctx.retire (c : Ctx) (r : Retire) : Ctx :=
  { c with st := .hold, waitOn := .nothing, tickets := [], ret := some r }

/-- What context `x` issued and has not had answered goes on without it (R84; 08 R207): its far accesses and atomics take effect and
answer no context, and its remote task operations travel on. -/
def Dev.detach (d : Dev) (x : Nat) : Dev :=
  let m := d.eng.coh
  let loose := fun (r : Req) => match r.kind with
    | .far op => if op.ctx = x then { r with kind := .far { op with ctx := noCtx } } else r
    | .atomic y k fn a operand cmp => if y = x then { r with kind := .atomic noCtx k fn a operand cmp } else r
    | _ => r
  let tasks := (d.ctx x).tickets.filterMap (fun t => match t.2.busy, t.2.pend with
    | true, .atTask cancel h => some ({ ctx := x, k := t.1, cancel := cancel, handle := h, age := (d.ctx x).age } : Stray)
    | _, _ => none)
  { d with eng := { d.eng with
    strays := d.eng.strays ++ tasks
    coh := { m with reqs := m.reqs.map loose, misses := m.misses.filter (fun o => decide (o.ctx ≠ x)) } } }

/-- Context `x`, as given, enters HOLD with a result, after those that entered before (08 R210). -/
def Dev.hold (d : Dev) (x : Nat) (c : Ctx) (r : Retire) : Dev :=
  let d1 := if c.ticketsFree then d else d.detach x
  (({ d1 with dsp := { d1.dsp with nextHold := d1.dsp.nextHold + 1 } }).setCtx x
    { c.retire r with holdAge := d1.dsp.nextHold, heldAt := d1.eng.tclks })

/-- Whether the fallback target of a context's slot passes the checks of R78 (04 R102). -/
def Dev.fallbackOk (d : Dev) (x : Nat) : Bool :=
  let c := d.ctx x
  d.targetOk c.bind ((c.pkt.map (fun p => p.polder)).getD 0) c.bind.fallback

/-- A fault at the instruction of context `x`. An engine context retires with the code (R83), its context cycles still to be judged (08
R206) and its fallback target judged now (04 R102); a control core traps: EPC, CAUSE, interrupts off, jump to TVEC (R87). -/
def Dev.fault (d : Dev) (x : Nat) (code : Nat) : Dev :=
  if isCore x then
    let r := d.csr (x - 1536)
    (d.setCsr (x - 1536) { r with epc := BitVec.ofNat 64 (d.ctx x).pc, cause := BitVec.ofNat 64 code, ie := false }).setCtx x
      { d.ctx x with pc := r.tvec.toNat % 2 ^ 18, st := .run, waitOn := .nothing }
  else d.hold x { d.ctx x with owes := true, fallOk := d.fallbackOk x } (.fault code)

/-- Whether context `x` issues next in its engine: it is in RUN, and no older context of the engine is (02 R33, R34). -/
def Dev.atIssue (d : Dev) (x : Nat) : Bool :=
  decide ((d.ctx x).st = .run) &&
    (isCore x || (List.range 8).all (fun i =>
      let y := d.ctx (8 * (x / 8) + i)
      decide (y.st ≠ .run ∨ (d.ctx x).age ≤ y.age)))

/-- A TCLK passes, which is 2 ECLK: they are context cycles of every context in RUN or WAIT, but lost cycles of one in RUN behind an
older one in RUN, which issues (R34). -/
def Dev.countCycles (d : Dev) : Dev :=
  { d with eng := { d.eng with
    tclks := d.eng.tclks + 1
    ctxs := Tbl.mapKept {} (fun x c =>
      if isCore x ∨ (c.st ≠ .run ∧ c.st ≠ .wait) then c
      else if c.st = .run ∧ d.atIssue x = false then { c with lost := c.lost + 2 }
      else { c with cycles := c.cycles + 2 }) d.eng.ctxs } }

/-- Whether the word at the program counter of an engine context is one that no profile assigns (R62); nothing is known of a word
outside its image. -/
def Dev.unassigned (d : Dev) (x : Nat) : Bool :=
  !isCore x && ((look ({} : Image) d.prog.images (d.ctx x).image).code[(d.ctx x).pc]?).any (fun w => !assignedWord w)

/-- Issue one instruction in context `x`: only the oldest RUN context of an engine issues (02 R33, R34); an unassigned word is an
illegal instruction (R62); one that touches locked state waits for the ticket (R66). -/
def Dev.issue (d : Dev) (x : Nat) (u : Touch) (body : Ctx → Dev) : Dev :=
  let c := d.ctx x
  if d.atIssue x then
    if d.unassigned x then d.fault x faultIllegal
    else match c.lockedBy u with
      | some k => d.setCtx x { c with st := .wait, waitOn := .locked k }
      | none => body c
  else d

/-- Whether context `x` issues an instruction that touches `u` now: its turn has come, its word is an instruction, and no busy ticket
locks what is touched (02 R33, R34; 03 R62, R66). -/
def Dev.issues (d : Dev) (x : Nat) (u : Touch) : Bool := d.atIssue x && !d.unassigned x && ((d.ctx x).lockedBy u).isNone

/-- As `issue`, for an instruction only the packet profile has (R86): illegal on a control core. -/
def Dev.issuePacket (d : Dev) (x : Nat) (u : Touch) (body : Ctx → Dev) : Dev :=
  d.issue x u (fun c => if isCore x then d.fault x faultIllegal else body c)

/-- As `issue`, for an instruction only the control profile has: a privileged fault on an engine (R83, R86). -/
def Dev.issueCore (d : Dev) (x : Nat) (u : Touch) (body : Ctx → Dev) : Dev :=
  d.issue x u (fun c => if isCore x then body c else d.fault x faultPrivileged)

/-- The meaning of an instruction that only computes a register from registers (R67, R68): `rd` takes `f` of the
context, and the context goes to its next instruction. -/
def Dev.compute (d : Dev) (x rd : Nat) (reads : List Nat) (f : Ctx → Word) : Dev :=
  d.issue x { regs := rd :: reads } (fun c => d.setCtx x (c.wg rd (f c)).next)

/-! ## The header buffer and its window (R59, R60) -/

/-- The number of bytes a 2-bit size names. -/
def szBytes (sz : Nat) : Nat := 2 ^ sz

/-- Whether a read of `n` bytes from header-buffer position `x` on is a window fault: a byte at or beyond 640 (R60). -/
def readFaults (x n : Nat) : Bool := decide (640 < x + n)

/-- Whether a write of `n` bytes from header-buffer position `x` on is a window fault: a byte at or beyond E (R60). -/
def Ctx.writeFaults (c : Ctx) (x n : Nat) : Bool := decide (c.e < x + n)

/-- The byte a read of position `x` returns: zero from E on (R60). -/
def Ctx.hdrByte (c : Ctx) (x : Nat) : Byte := if x < c.e then look 0 c.hdr x else 0

/-- `n` bytes of the header buffer from position `x` on. -/
def Ctx.hdrBytes (c : Ctx) (x n : Nat) : List Byte := (List.range n).map (fun i => c.hdrByte (x + i))

/-- Write bytes into a byte table from position `x` on. -/
def putBytes (t : Tbl Byte) (x : Nat) : List Byte → Tbl Byte
  | [] => t
  | b :: bs => putBytes (put 0 t x b) (x + 1) bs

/-- The header the packet carries: positions S to E − 1. -/
def Ctx.header (c : Ctx) : List Byte := c.hdrBytes c.s (c.e - c.s)

/-! ## Scratch (02 R37) -/

/-- A byte of a context's scratch: zero where its block's valid bit is clear. -/
def Ctx.scrByte (c : Ctx) (o : Nat) : Byte := if c.valid.getLsbD (o / 64) then look 0 c.scratch o else 0

/-- `n` bytes of scratch from an offset on. -/
def Ctx.scrBytes (c : Ctx) (o n : Nat) : List Byte := (List.range n).map (fun i => c.scrByte (o + i))

/-- Store one byte: the first store to a block sets its valid bit and zeroes its other bytes. -/
def Ctx.scrPut (c : Ctx) (o : Nat) (b : Byte) : Ctx :=
  if c.valid.getLsbD (o / 64) then { c with scratch := put 0 c.scratch o b }
  else
    { c with valid := c.valid ||| (1#128 <<< (o / 64))
             scratch := put 0 (c.scratch.filter (fun e => decide (e.1 / 64 ≠ o / 64))) o b }

/-- Store bytes to scratch from an offset on. -/
def Ctx.scrPuts (c : Ctx) (o : Nat) : List Byte → Ctx
  | [] => c
  | b :: bs => (c.scrPut o b).scrPuts (o + 1) bs

/-! ## Asynchronous instructions (R65, R77) -/

/-- Issue an asynchronous instruction on ticket `k`: a busy ticket is a ticket fault; otherwise the ticket becomes busy
with what `mk` answers, or the code `mk` answers faults and no ticket is taken. -/
def Dev.async (d : Dev) (x k : Nat) (u : Touch) (mk : Ctx → Except Nat (Dev × Ticket)) : Dev :=
  let c := d.ctx x
  if d.atIssue x && !d.unassigned x && (c.tk k).busy then d.fault x faultTicket
  else d.issue x u (fun c =>
    match mk c with
    | .error code => d.fault x code
    | .ok (d', t) => d'.setCtx x (((d'.ctx x).setTk k { t with busy := true }).next))

end Sys2Proof.Machine
end

