-- ==== Sys2Proof/Machine/Parser.lean ====
section
/-! DEFINITION. The parser: its walk over the header layers, the parse result and descriptor, and the key layouts
(06 R138 to R148). -/

namespace Sys2Proof.Machine

/-- The device-wide parser settings (PAR.CFG, R168). -/
structure ParCfg where
  vxlan  : Nat
  geneve : Nat
  tpid2  : Nat
  tunnel : Bool

/-- The parser settings in force. -/
def Dev.parCfg (d : Dev) : ParCfg :=
  { vxlan := d.rd PAR.CFG_VXLANPORT, geneve := d.rd PAR.CFG_GENEVEPORT, tpid2 := d.rd PAR.CFG_TPID2,
    tunnel := decide (d.rd PAR.CFG_TUNEN = 1) }

/-- What the parser sees of a frame: its first bytes, how many it may read, and the frame's length (R138, R141). -/
structure View where
  bytes : List Byte
  avail : Nat
  len   : Nat

/-- The view of a frame of `len` bytes whose first bytes are given. -/
def View.of (bytes : List Byte) (len : Nat) : View := { bytes := bytes, avail := min (min bytes.length 512) len, len := len }

def View.u8 (v : View) (o : Nat) : Nat := (v.bytes.getD o 0).toNat
def View.u16 (v : View) (o : Nat) : Nat := beAt v.bytes o 2
def View.u32 (v : View) (o : Nat) : Nat := beAt v.bytes o 4

/-- What the walk has found so far. Offsets count from S. -/
structure Parsed where
  ptype    : Nat := 0
  tags     : Nat := 0
  ipopt    : Bool := false
  frag     : Bool := false
  first    : Bool := false
  tun      : Bool := false
  tuntype  : Nat := 0
  goptskip : Bool := false
  ipcsum   : Bool := false
  pfcode   : Nat := 0
  l3       : Option Nat := none
  l4       : Option Nat := none
  th       : Option Nat := none
  il2      : Option Nat := none
  il3      : Option Nat := none
  il4      : Option Nat := none
  after    : Nat := 0
  gopts    : List Nat := []
  /-- EtherType after the tags -/
  etype    : Nat := 0
  /-- protocol or final next header of the outer and the inner IP header -/
  proto    : Nat := 0
  iproto   : Nat := 0
  /-- VNI or GRE key [23:0] -/
  vni      : Nat := 0

/-- End the walk in a failure (R141): PTYPE Fh and the code. -/
def Parsed.fail (p : Parsed) (code : Nat) : Parsed := { p with ptype := 0xF, pfcode := code }

/-- Read a header of `n` bytes at `o`, or fail with 1h or 2h (R141). -/
def View.need (v : View) (o n : Nat) (p : Parsed) (k : Parsed) : Parsed :=
  if o + n ≤ v.avail then k else p.fail (if v.len ≤ 512 then 1 else 2)

/-- The ones' complement sum of `n` 16-bit words from an offset on, folded. -/
def View.sum16 (v : View) (o n : Nat) : Nat :=
  let s := ((List.range n).map (fun i => v.u16 (o + 2 * i))).sum
  let f := s % 65536 + s / 65536
  f % 65536 + f / 65536

/-- Record that the walk has read headers up to an offset. -/
def Parsed.upTo (p : Parsed) (o : Nat) : Parsed := { p with after := o }

/-! ## L4 (R138) -/

/-- An L4 header with no tunnel behind it: TCP, UDP, ICMP, ICMPv6, and outer ESP. -/
def walkL4 (v : View) (p : Parsed) (o proto : Nat) (inner : Bool) : Parsed :=
  let here := fun (n : Nat) =>
    if inner then { p with il4 := some o, after := o + n } else { p with l4 := some o, after := o + n }
  match proto with
  | 6 =>
    v.need o 20 p
      (let n := v.u8 (o + 12) / 16 * 4
       if n < 20 then p.fail 3 else v.need o n p (here n))
  | 17 => v.need o 8 p (here 8)
  | 1 => v.need o 4 p (here 4)
  | 58 => v.need o 4 p (here 4)
  | 50 => if inner then p else v.need o 8 p (here 8)
  | _ => p

/-! ## IP headers (R138, R141, R144) -/

/-- Note an IP header of the walk: its offset, whether a fragment, and the packet type it gives (R142). -/
def Parsed.ip (p : Parsed) (o e : Nat) (v6 inner frag first opt : Bool) (proto : Nat) : Parsed :=
  let t := if inner then (if frag then 9 else 8) else (if v6 then 3 else 2) + (if frag then 2 else 0)
  let q := { p with after := e, ptype := t, frag := p.frag || frag, first := p.first || (frag && first), ipopt := p.ipopt || opt }
  if inner then { q with il3 := some o, iproto := proto } else { q with l3 := some o, proto := proto }

/-- An IPv4 header at `o`; `next` continues the walk behind it unless it is a fragment. -/
def walkIpv4 (v : View) (p : Parsed) (o : Nat) (inner : Bool) (next : Parsed → Nat → Nat → Parsed) : Parsed :=
  v.need o 20 p
    (let ihl := v.u8 o % 16 * 4
     if v.u8 o / 16 ≠ 4 ∨ ihl < 20 then p.fail 3
     else v.need o ihl p
       (if v.u16 (o + 2) < ihl then p.fail 3
        else
          let fo := v.u16 (o + 6)
          let frag := decide (fo / 0x2000 % 2 = 1 ∨ fo % 0x2000 ≠ 0)
          let bad := decide (v.sum16 o (ihl / 2) ≠ 65535)
          let q := ({ p with ipcsum := p.ipcsum || bad }).ip o (o + ihl) false inner frag (decide (fo % 0x2000 = 0)) (decide (20 < ihl)) (v.u8 (o + 9))
          if frag then q else next q (o + ihl) (v.u8 (o + 9))))

/-- The extension headers of an IPv6 header from `o` on, at most eight: answers the walk's failure, or the end of the
chain, the final next header, and whether a fragment (and the first one) was met. -/
def walkExt (v : View) (p : Parsed) : Nat → Nat → Nat → Parsed ⊕ (Nat × Nat × Bool × Bool)
  | fuel, o, nh =>
    if nh = 0 ∨ nh = 43 ∨ nh = 44 ∨ nh = 51 ∨ nh = 60 then
      match fuel with
      | 0 => .inl (p.fail 4)
      | fuel + 1 =>
        if v.avail < o + 8 then .inl (v.need o 8 p p)
        else
          let n := if nh = 44 then 8 else if nh = 51 then (v.u8 (o + 1) + 2) * 4 else (v.u8 (o + 1) + 1) * 8
          if v.avail < o + n then .inl (v.need o n p p)
          else
            let fo := v.u16 (o + 2)
            if nh = 44 ∧ (fo % 2 = 1 ∨ fo / 8 ≠ 0) then .inr (o + n, v.u8 o, true, decide (fo / 8 = 0))
            else walkExt v p fuel (o + n) (v.u8 o)
    else .inr (o, nh, false, false)

/-- An IPv6 header at `o`; `next` continues the walk behind it unless it is a fragment. -/
def walkIpv6 (v : View) (p : Parsed) (o : Nat) (inner : Bool) (next : Parsed → Nat → Nat → Parsed) : Parsed :=
  v.need o 40 p
    (if v.u8 o / 16 ≠ 6 then p.fail 3
     else match walkExt v p 8 (o + 40) (v.u8 (o + 6)) with
       | .inl q => q
       | .inr (e, nh, frag, first) =>
         if v.u16 (o + 4) < e - (o + 40) then p.fail 3
         else
           let q := p.ip o e true inner frag first (decide (o + 40 < e)) nh
           if frag then q else next q e nh)

/-! ## Tunnels (R138 to R140) -/

/-- Inner IP, then inner L4, and nothing behind it (R139). -/
def walkInnerIp (v : View) (p : Parsed) (o : Nat) (v6 : Bool) : Parsed :=
  if v6 then walkIpv6 v p o true (fun q e nh => walkL4 v q e nh true)
  else walkIpv4 v p o true (fun q e nh => walkL4 v q e nh true)

/-- Whether a word is a tag protocol identifier. -/
def isTpid (c : ParCfg) (w : Nat) : Bool := decide (w = 0x8100 ∨ w = 0x88A8 ∨ w = c.tpid2)

/-- Inner Ethernet with at most one tag, then inner IP (R138); without inner IP the type is Ah (R142). -/
def walkInnerEth (c : ParCfg) (v : View) (p : Parsed) (o : Nat) : Parsed :=
  v.need o 14 p
    (let t := isTpid c (v.u16 (o + 12))
     let n := if t then 18 else 14
     v.need o n p
       (let q := { p with il2 := some o, after := o + n, ptype := 0xA }
        let et := v.u16 (o + n - 2)
        if et = 0x0800 then walkInnerIp v q (o + n) false
        else if et = 0x86DD then walkInnerIp v q (o + n) true
        else q))

/-- What follows a Geneve or GRE header, by its protocol type. Another type ends the walk with the tunnel recognised
and the outer packet type kept (log entry 16). -/
def walkByProto (c : ParCfg) (v : View) (p : Parsed) (o pt : Nat) : Parsed :=
  if pt = 0x6558 then walkInnerEth c v p o
  else if pt = 0x0800 then walkInnerIp v p o false
  else if pt = 0x86DD then walkInnerIp v p o true
  else p

/-- The Geneve options in [o, e): offsets of all, or a length that runs past the end (R140, R141). -/
def geneveOpts (v : View) (e : Nat) : Nat → Nat → Option (List Nat)
  | 0, _ => some []
  | fuel + 1, o =>
    if e ≤ o then some []
    else
      let n := 4 + v.u8 (o + 3) % 32 * 4
      if e < o + 4 ∨ e < o + n then none else (geneveOpts v e fuel (o + n)).map (fun l => o :: l)

/-- A UDP payload at `o`: VXLAN or Geneve by the destination port at `dp` (R138 to R140). -/
def walkUdp (c : ParCfg) (v : View) (p : Parsed) (o dp : Nat) : Parsed :=
  if dp = c.vxlan then
    v.need o 8 p
      (if v.u8 o / 8 % 2 = 0 then p
       else walkInnerEth c v
         { p with tun := true, tuntype := 1, th := some o, after := o + 8, vni := v.u32 (o + 4) / 256 } (o + 8))
  else if dp = c.geneve then
    v.need o 8 p
      (if v.u8 o / 64 ≠ 0 then p
       else
         let e := o + 8 + v.u8 o % 64 * 4
         v.need o (e - o) p
           (match geneveOpts v e 64 (o + 8) with
            | none => p.fail 5
            | some l =>
              walkByProto c v
                { p with tun := true, tuntype := 2, th := some o, after := e, vni := v.u32 (o + 4) / 256,
                         gopts := l.take 8, goptskip := decide (8 < l.length) } e (v.u16 (o + 2))))
  else p

/-- A GRE header at `o` (R138); the key is the word behind the checksum word. -/
def walkGre (c : ParCfg) (v : View) (p : Parsed) (o : Nat) : Parsed :=
  v.need o 4 p
    (let w := v.u16 o
     let cbit := w / 0x8000 % 2
     let kbit := w / 0x2000 % 2
     let sbit := w / 0x1000 % 2
     if w % 8 ≠ 0 then p
     else
       let n := 4 + 4 * (cbit + kbit + sbit)
       v.need o n p
         (walkByProto c v
           { p with tun := true, tuntype := 3, th := some o, after := o + n,
                    vni := if kbit = 1 then v.u32 (o + 4 + 4 * cbit) % 2 ^ 24 else 0 } (o + n) (v.u16 (o + 2))))

/-- What follows the outer IP header (R138, R139): with TUNEN clear the walk ends at the outer L4 header. -/
def walkOuter (c : ParCfg) (v : View) (p : Parsed) (o proto : Nat) : Parsed :=
  match proto with
  | 17 =>
    let q := walkL4 v p o 17 false
    if q.pfcode = 0 ∧ c.tunnel then walkUdp c v q (o + 8) (v.u16 (o + 2)) else q
  | 47 => if c.tunnel then walkGre c v p o else p
  | 4 => if c.tunnel then walkInnerIp v { p with tun := true, tuntype := 4 } o false else p
  | 41 => if c.tunnel then walkInnerIp v { p with tun := true, tuntype := 4 } o true else p
  | _ => walkL4 v p o proto false

/-- The walk from the outer Ethernet header on (R138). -/
def walk (c : ParCfg) (v : View) : Parsed :=
  v.need 0 14 {}
    (let t1 := isTpid c (v.u16 12)
     let n1 := if t1 then 18 else 14
     v.need 0 n1 {}
       (let t2 := t1 && isTpid c (v.u16 16)
        let n := if t2 then 22 else n1
        v.need 0 n {}
          (let et := v.u16 (n - 2)
           let p : Parsed := { tags := (if t1 then 1 else 0) + (if t2 then 1 else 0), after := n, etype := et }
           if et = 0x0806 then { p with ptype := 1 }
           else if et = 0x88F7 then { p with ptype := 6 }
           else if et = 0x88E5 then { p with ptype := 7 }
           else if et = 0x0800 then walkIpv4 v p n false (fun q e nh => walkOuter c v q e nh)
           else if et = 0x86DD then walkIpv6 v p n false (fun q e nh => walkOuter c v q e nh)
           else p)))

/-! ## The parse result (R143, R145) -/

/-- A Bool as a bit. -/
def bitNat (b : Bool) : Nat := if b then 1 else 0

/-- PARSE without MULTI and HIT (R143). -/
def Parsed.flags (p : Parsed) : Nat :=
  p.ptype + p.tags * 2 ^ 4 + bitNat p.ipopt * 2 ^ 6 + bitNat p.frag * 2 ^ 7 + bitNat p.first * 2 ^ 8 + bitNat p.tun * 2 ^ 9
    + p.tuntype * 2 ^ 10 + bitNat p.goptskip * 2 ^ 13 + bitNat p.ipcsum * 2 ^ 14 + bitNat (decide (p.pfcode ≠ 0)) * 2 ^ 15
    + p.pfcode * 2 ^ 16

/-- The 64-byte parse descriptor (R145); `found` is the bank and index of a hit. -/
def Parsed.descriptor (p : Parsed) (parse : Nat) (found : Option (Nat × Nat)) (actx : Nat) : List Byte :=
  let off := fun (x : Option Nat) => leBytes 2 (x.getD 0xFFFF)
  off (some 0) ++ off p.l3 ++ off p.l4 ++ off p.th ++ off p.il2 ++ off p.il3 ++ off p.il4 ++ off (some p.after)
    ++ ((List.range 8).map (fun i => off (p.gopts[i]?))).flatten ++ leBytes 4 parse
    ++ leBytes 4 (match found with | some (b, i) => b + i * 2 ^ 6 | none => 0) ++ leBytes 8 actx ++ List.replicate 16 0

/-! ## Keys (R146 to R148) -/

/-- A field of a key: `x` cut to `w` bits, at bit `lo`. -/
def keyField (lo w x : Nat) : Nat := x % 2 ^ w * 2 ^ lo

/-- Whether an IP header at an offset is version 6. -/
def View.isV6 (v : View) (o : Nat) : Bool := decide (v.u8 o / 16 = 6)

/-- Source and destination address of an IP header. -/
def View.src (v : View) (o : Nat) : Nat := if v.isV6 o then beAt v.bytes (o + 8) 16 else beAt v.bytes (o + 12) 4
def View.dst (v : View) (o : Nat) : Nat := if v.isV6 o then beAt v.bytes (o + 24) 16 else beAt v.bytes (o + 16) 4
/-- DSCP and ECN of an IP header. -/
def View.tos (v : View) (o : Nat) : Nat := if v.isV6 o then v.u16 o / 16 % 256 else v.u8 (o + 1)

/-- The L4 source and destination port fields of a key: ICMP gives type and code, ESP its SPI (R147). -/
def View.ports (v : View) (o : Option Nat) (proto : Nat) : Nat × Nat :=
  match o with
  | none => (0, 0)
  | some x => if proto = 1 ∨ proto = 58 then (v.u16 x, 0) else (v.u16 x, v.u16 (x + 2))

/-- The TCP flags [7:0] of a key. -/
def View.tcpFlags (v : View) (o : Option Nat) (proto : Nat) : Nat :=
  match o with
  | some x => if proto = 6 then v.u8 (x + 13) else 0
  | none => 0

/-- The common field (R147). -/
def Parsed.common (p : Parsed) (iport : Nat) : Nat :=
  keyField 0 5 iport + keyField 5 4 p.ptype + keyField 9 1 (bitNat p.frag) + keyField 10 1 (bitNat (decide (p.pfcode ≠ 0)))
    + keyField 11 1 (bitNat p.tun)

/-- The tag control word of the outer tag (or zero), and of the second one. -/
def Parsed.tci (p : Parsed) (v : View) : Nat := if 0 < p.tags then v.u16 14 else 0
def Parsed.tci2 (p : Parsed) (v : View) : Nat := if 1 < p.tags then v.u16 18 else 0

/-- The outer L4 header that gives a key its fields: none in a fragment, whichever IP header is one (R144). -/
def Parsed.keyL4 (p : Parsed) : Option Nat := if p.frag then none else p.l4

/-- The L2 key. The inner tag is the second tag of the frame; a frame that ends within its Ethernet header lacks that layer (log entry
16). -/
def keyL2 (p : Parsed) (v : View) : Nat :=
  if p.after = 0 then 0 else
  keyField 16 12 (p.tci v) + keyField 28 3 (p.tci v / 2 ^ 13) + keyField 31 1 (bitNat (decide (0 < p.tags)))
    + keyField 32 16 p.etype + keyField 48 48 (beAt v.bytes 0 6) + keyField 96 48 (beAt v.bytes 6 6)
    + keyField 144 12 (p.tci2 v) + keyField 156 1 (bitNat (decide (1 < p.tags)))

/-- The IPv4 key; an outer header of another version leaves its fields zero. -/
def keyV4 (p : Parsed) (v : View) : Nat :=
  let base := keyField 16 12 (p.tci v) + keyField 28 3 (p.tci v / 2 ^ 13) + keyField 31 1 (bitNat (decide (0 < p.tags)))
  match p.l3 with
  | some o =>
    if v.isV6 o then base
    else
      let (sp, dp) := v.ports p.keyL4 p.proto
      base + keyField 32 32 (v.src o) + keyField 64 32 (v.dst o) + keyField 96 8 p.proto + keyField 104 6 (v.tos o / 4)
        + keyField 110 2 (v.tos o) + keyField 112 16 sp + keyField 128 16 dp + keyField 144 8 (v.tcpFlags p.keyL4 p.proto)
        + keyField 152 8 (v.u8 (o + 8))
  | none => base

/-- The IPv6 key. -/
def keyV6 (p : Parsed) (v : View) : Nat :=
  match p.l3 with
  | some o =>
    if v.isV6 o then
      let (sp, dp) := v.ports p.keyL4 p.proto
      keyField 16 128 (v.src o) + keyField 144 8 p.proto + keyField 152 6 (v.tos o / 4) + keyField 158 2 (v.tos o)
        + keyField 160 128 (v.dst o) + keyField 288 16 sp + keyField 304 16 dp
    else 0
  | none => 0

/-- The tunnel key. -/
def keyTun (p : Parsed) (v : View) : Nat :=
  let outer := match p.l3 with
    | some o => keyField 28 1 (bitNat (v.isV6 o)) + keyField 32 128 (v.src o) + keyField 160 128 (v.dst o)
    | none => 0
  let inner := match p.il3 with
    | some o =>
      let (sp, dp) := v.ports p.il4 p.iproto
      keyField 320 128 (v.src o) + keyField 448 128 (v.dst o) + keyField 576 8 p.iproto + keyField 584 6 (v.tos o / 4)
        + keyField 592 16 sp + keyField 608 16 dp + keyField 624 8 (v.tcpFlags p.il4 p.iproto)
    | none => 0
  keyField 16 12 (p.tci v) + outer + keyField 288 24 p.vni + keyField 312 8 p.tuntype + inner

/-- The offset of a layer that a custom extractor names (R148). -/
def Parsed.layer (p : Parsed) (n : Nat) : Option Nat :=
  match n with
  | 0 => some 0
  | 1 => p.l3
  | 2 => p.l4
  | 3 => p.th
  | 4 => p.il2
  | 5 => p.il3
  | 6 => p.il4
  | _ => some p.after

/-- The layer of a custom extractor: in a fragment the L4 layers, and what follows the parsed headers, are as absent ones, so that every
fragment of a datagram has the same key (R144, R148). -/
def Parsed.keyLayer (p : Parsed) (n : Nat) : Option Nat := if p.frag && decide (n = 2 ∨ n = 6 ∨ n = 7) then none else p.layer n

/-- The custom key (R148): nine extractors of two bytes, zero for an absent layer or bytes at or past E. -/
def keyCustom (p : Parsed) (v : View) (cust : Nat) : Nat :=
  ((List.range 9).map (fun j =>
    match p.keyLayer (bitsOf cust (7 * j) 3) with
    | some l =>
      let o := l + 2 * bitsOf cust (7 * j + 3) 4
      if o + 2 ≤ min v.bytes.length v.len then keyField (16 * j + 16) 16 (v.u16 o) else 0
    | none => 0)).sum

/-- The ingress key of a format (R146, R147). -/
def buildKey (fmt : Nat) (p : Parsed) (v : View) (iport cust : Nat) : Nat :=
  p.common iport +
    (match fmt with
     | 0 => keyL2 p v
     | 1 => keyV4 p v
     | 2 => keyV6 p v
     | 3 => keyTun p v
     | _ => keyCustom p v cust)

/-- Units of a key format (R146). -/
def fmtUnits (fmt : Nat) : Nat :=
  match fmt with
  | 2 => 2
  | 3 => 4
  | _ => 1

/-- Count a parsed frame in its pipeline (R140, R141, R168). -/
def Dev.countParse (d : Dev) (pipe : Nat) (p : Parsed) : Dev :=
  let d1 := d.bump PAR.PKTS_COUNT pipe
  let d2 := if p.pfcode ≠ 0 then (d1.bump PAR.FAIL_COUNT pipe).wr PAR.FAIL_LASTCODE pipe p.pfcode else d1
  let d3 := if p.frag then d2.bump PAR.FRAG_COUNT pipe else d2
  if p.goptskip then d3.bump PAR.GOPTSKIP_COUNT pipe else d3

end Sys2Proof.Machine
end

