-- ==== Sys2Proof/Machine/Acs.lean ====
section
/-! DEFINITION. Associative search: profiles, the search with its verification, the commands of the writers, the
scrubber, and LKA (06 R149 to R165). -/

namespace Sys2Proof.Machine

/-! ## Banks and profiles (R149, R150) -/

/-- The key of an entry. -/
def acsKey (pipe bank index : Nat) : Nat := pipe * 2 ^ 17 + bank * 2 ^ 11 + index

/-- An entry of a bank. -/
def Dev.acsEntry (d : Dev) (pipe bank index : Nat) : AcsEntry := look {} d.acs.entries (acsKey pipe bank index)

/-- Replace an entry. -/
def Dev.setAcsEntry (d : Dev) (pipe bank index : Nat) (e : AcsEntry) : Dev :=
  { d with acs := { d.acs with entries := put {} d.acs.entries (acsKey pipe bank index) e } }

/-- A 2-bit setting per bank, held in a register for banks 0 to 31 and one for 32 to 63. -/
def Dev.perBank (d : Dev) (lo hi : Fld) (pipe bank : Nat) : Nat :=
  if bank < 32 then bitsOf (d.rd lo pipe) (2 * bank) 2 else bitsOf (d.rd hi pipe) (2 * (bank - 32)) 2

/-- The units of an entry of a bank: 1, 2 or 4. -/
def Dev.bankUnits (d : Dev) (pipe bank : Nat) : Nat :=
  match d.perBank ACS.BANKW0_W ACS.BANKW1_W pipe bank with
  | 0 => 1
  | 1 => 2
  | _ => 4

/-- The profile in force with a number. -/
def Dev.profile (d : Dev) (pipe n : Nat) : Profile := look {} d.acs.profiles (32 * pipe + n)

/-- The staged list of banks of a profile. -/
def Dev.stagedBanks (d : Dev) (pipe n : Nat) : List Nat :=
  (List.range (min (d.rd ACS.PCTL_NBANKS (32 * pipe + n)) 16)).map (fun j =>
    if j < 10 then bitsOf (d.rd ACS.PBANKLO_BANK (32 * pipe + n)) (6 * j) 6
    else bitsOf (d.rd ACS.PBANKHI_BANK (32 * pipe + n)) (6 * (j - 10)) 6)

/-- Whether a list repeats an element. -/
def repeats : List Nat → Bool
  | [] => false
  | x :: xs => xs.contains x || repeats xs

/-- PROFILE_APPLY: a staged profile comes into force, or is refused with ERR and EVT 6.4 (R150). A KEYFMT of 5h to 7h
names no width, so no bank has it. -/
def execProfileApply (pipe : Fin 4) (n : Fin 32) : State → Host.Outcome State Fault Refusal :=
  onDev (fun now d =>
    let i := 32 * pipe.val + n.val
    let nb := d.rd ACS.PCTL_NBANKS i
    let fmt := d.rd ACS.PCTL_KEYFMT i
    let bs := d.stagedBanks pipe n
    if nb = 0 ∨ 16 < nb ∨ repeats bs ∨ 5 ≤ fmt ∨ bs.any (fun b => decide (d.bankUnits pipe b ≠ fmtUnits fmt)) then
      (d.wr ACS.PCTL_ERR i 1).raise now (ev 6 4) (n.val + pipe.val * 2 ^ 20)
    else
      let q : Profile := { en := decide (d.rd ACS.PCTL_EN i = 1), fmt := fmt, banks := bs, cust := d.rd ACS.PCUST_EXT i }
      ({ d with acs := { d.acs with profiles := put {} d.acs.profiles i q } }).wr ACS.PCTL_ERR i 0)

/-! ## The search (R149, R152, R155, R162) -/

/-- Whether an entry matches a key (R149). -/
def AcsEntry.hits (e : AcsEntry) (key : Nat) : Bool := e.valid && !e.sick && decide ((e.val ^^^ key) &&& e.mask = 0)

/-- The valid matches of a profile in list order, each with its bank, its index and its place. -/
def Dev.matches_ (d : Dev) (pipe : Nat) (q : Profile) (key : Nat) : List (Nat × Nat × Nat) :=
  (q.banks.zipIdx.map (fun bp =>
    let lo := acsKey pipe bp.1 0
    ((d.acs.entries.filter (fun e => decide (lo ≤ e.1 ∧ e.1 < lo + 2048) && e.2.hits key)).map
      (fun e => (bp.1, e.1 - lo, 2048 * bp.2 + (e.1 - lo)))))).flatten

/-- INFO of an event about an entry (18 R569). -/
def acsInfo (pipe bank index : Nat) : Nat := bank + index * 2 ^ 6 + pipe * 2 ^ 20

/-- Record a finding at an entry: counter, last error, event. -/
def Dev.acsFinding (d : Dev) (now : NetTime) (f : Fld) (e pipe bank index : Nat) : Dev :=
  (((d.bump f pipe).wr ACS.LASTERR_BANK pipe bank).wr ACS.LASTERR_INDEX pipe index).raise now e (acsInfo pipe bank index)

/-- Mark that an entry of a bank changed for the writers whose last search covered the bank (R165). -/
def Dev.acsTouched (d : Dev) (pipe bank : Nat) : Dev :=
  (List.range 3).foldl (fun y w =>
    match look none y.acs.searches (4 * w + pipe) with
    | some s => if (y.profile pipe s.profile).banks.contains bank then y.wr ACS.CMDSTAT_CHANGED (4 * w + pipe) 1 else y
    | none => y) d

/-- Clear the valid bit of an entry. -/
def Dev.acsInvalid (d : Dev) (pipe bank index : Nat) : Dev :=
  (d.setAcsEntry pipe bank index { d.acsEntry pipe bank index with valid := false }).acsTouched pipe bank

/-- The place of an entry in the order of a profile's search (R152). -/
def Profile.place (q : Profile) (bank index : Nat) : Nat := 2048 * q.banks.idxOf bank + index

/-- The units of an entry are found to differ from its shadow, or are written again from it (R162, R163). -/
def Dev.acsSick (d : Dev) (pipe bank index : Nat) (sick : Bool) : Dev :=
  d.setAcsEntry pipe bank index { d.acsEntry pipe bank index with sick := sick }

/-- Whether an entry can hit falsely in a search that stands at place `start`: it is valid and does not match, and no true match comes
before it. -/
def Dev.mayHitFalsely (d : Dev) (pipe : Nat) (q : Profile) (key start bank index : Nat) (m : Option (Nat × Nat × Nat)) : Bool :=
  let e := d.acsEntry pipe bank index
  e.valid && q.banks.contains bank && !e.hits key && decide (start ≤ q.place bank index)
    && (m.map (fun x => decide (q.place bank index < x.2.2))).getD true

/-- The first valid match from a place on. -/
def Dev.firstMatch (d : Dev) (pipe : Nat) (q : Profile) (key start : Nat) : Option (Nat × Nat × Nat) :=
  (d.matches_ pipe q key).find? (fun x => decide (start ≤ x.2.2))

/-- One pass of the search from a place on, with the finding of its check: the device, the match that stands, and whether the
search is repeated (R162). A corrupted cell makes its entry miss until it is repaired (R163). -/
def Dev.searchPass (d : Dev) (now : NetTime) (pipe : Nat) (q : Profile) (key start : Nat) (f : AcsFind) :
    Dev × Option (Nat × Nat) × Bool :=
  let m := d.firstMatch pipe q key start
  match f, m with
  | .falseHit b i, _ =>
    if d.mayHitFalsely pipe q key start b i m then
      ((d.acsFinding now ACS.FALSEHIT_COUNT (ev 6 0) pipe b i).acsSick pipe b i false, none, true)
    else (d, m.map (fun x => (x.1, x.2.1)), false)
  | .missed b i, _ =>
    let d1 := if (d.acsEntry pipe b i).valid then d.acsSick pipe b i true else d
    (d1, (d1.firstMatch pipe q key start).map (fun x => (x.1, x.2.1)), false)
  | .good, some (b, i, _) => (d, some (b, i), false)
  | .corrected, some (b, i, _) => (d.bump ACS.SCRUBFIX_COUNT pipe, some (b, i), false)
  | .shadowBad, some (b, i, _) => ((d.acsFinding now ACS.UNCORR_COUNT (ev 6 1) pipe b i).acsInvalid pipe b i, none, true)
  | .actionBad, some (b, i, _) => ((d.acsFinding now ACS.UNCORR_COUNT (ev 6 1) pipe b i).acsInvalid pipe b i, none, false)
  | _, none => (d, none, false)

/-- The search from a place on, with at most one repeat (R162): the device and the match that stands. -/
def Dev.search (d : Dev) (now : NetTime) (pipe : Nat) (q : Profile) (key : Nat) (f1 f2 : AcsFind) (start : Nat := 0) :
    Dev × Option (Nat × Nat) :=
  match d.searchPass now pipe q key start f1 with
  | (d1, m, false) => (d1, m)
  | (d1, _, true) =>
    match d1.searchPass now pipe q key start f2 with
    | (d2, m, _) => (d2, m)

/-! ## Commands (R159 to R161, R164, R165) -/

/-- The owner code of a writer in ACS.BANKOWN. -/
def Writer.owner : Writer → Nat
  | .control => 0
  | .pf0 => 1
  | .pf1 => 2

/-- Whether a writer owns a bank (R159). -/
def Dev.ownsBank (d : Dev) (w : Writer) (pipe bank : Nat) : Bool :=
  decide (d.perBank ACS.BANKOWN0_OWN ACS.BANKOWN1_OWN pipe bank = Writer.owner w)

/-- Post the result of a command. -/
def Dev.acsResult (d : Dev) (w : Writer) (pipe code : Nat) : Dev := d.wr ACS.CMDSTAT_RESULT (4 * w.view + pipe) code

/-- A staged 640-bit value or mask of a writer. -/
def Dev.staged640 (d : Dev) (f : Fld) (w : Writer) (pipe : Nat) : Nat :=
  ((List.range 10).map (fun j => d.rd f (40 * w.view + 10 * pipe + j) * 2 ^ (64 * j))).sum

/-- Entries of a bank. -/
def Dev.bankEntries (d : Dev) (pipe bank : Nat) : Nat := 2048 / d.bankUnits pipe bank

/-- The bits of an action word that an entry stores: bit 62 is always zero (R156). -/
def storedAct (act : Nat) : Nat := act % 2 ^ 62 + act / 2 ^ 63 * 2 ^ 63

/-- A WRITE runs (R159 to R161): the staged entry is written with its valid bit clear; the bit is set last, by `acsFinish`. -/
def Dev.acsWrite (d : Dev) (w : Writer) (pipe bank index : Nat) : Dev :=
  let act := d.rd ACS.STGACT_ACT (4 * w.view + pipe)
  if !d.ownsBank w pipe bank then d.acsResult w pipe 1
  else if d.bankEntries pipe bank ≤ index then d.acsResult w pipe 2
  else if w ≠ .control ∧ bitsOf act 32 20 ≠ 0 then d.acsResult w pipe 3
  else
    let bits := 160 * d.bankUnits pipe bank
    let d1 := (d.setAcsEntry pipe bank index {
      valid := false
      val := d.staged640 ACS.STGVAL_VAL w pipe % 2 ^ bits
      mask := d.staged640 ACS.STGMASK_MASK w pipe % 2 ^ bits
      act := storedAct act
      actx := d.rd ACS.STGACTX_ACTX (4 * w.view + pipe) }).acsTouched pipe bank
    { d1 with acs := { d1.acs with running := put none d1.acs.running pipe (some (w.view, bank, index)) } }

/-- INVALIDATE (R164). -/
def Dev.acsInvalidate (d : Dev) (w : Writer) (pipe bank index : Nat) : Dev :=
  if !d.ownsBank w pipe bank then d.acsResult w pipe 1
  else if d.bankEntries pipe bank ≤ index then d.acsResult w pipe 2
  else (d.acsInvalid pipe bank index).acsResult w pipe 0

/-- READ: the shadow and the action record go to staging; any writer may read (R164). -/
def Dev.acsRead (d : Dev) (w : Writer) (pipe bank index : Nat) : Dev :=
  if d.bankEntries pipe bank ≤ index then d.acsResult w pipe 2
  else
    let e := d.acsEntry pipe bank index
    let d1 := (List.range 10).foldl (fun y j =>
      (y.wr ACS.STGVAL_VAL (40 * w.view + 10 * pipe + j) (bitsOf e.val (64 * j) 64)).wr ACS.STGMASK_MASK
        (40 * w.view + 10 * pipe + j) (bitsOf e.mask (64 * j) 64)) d
    let v := 4 * w.view + pipe
    (((d1.wr ACS.STGACT_ACT v e.act).wr ACS.STGACTX_ACTX v e.actx).wr ACS.CMDSTAT_VALID v (bitNat e.valid)).acsResult w pipe 0

/-- Post a match, or none, and remember the place behind it (R164). -/
def Dev.postMatch (d : Dev) (w : Writer) (pipe profile key : Nat) (m : Option (Nat × Nat)) : Dev :=
  let v := 4 * w.view + pipe
  let q := d.profile pipe profile
  let s : LastSearch := { profile := profile, key := key, place := (m.map (fun x => q.place x.1 x.2 + 1)).getD (2048 * 16) }
  let d1 := { d with acs := { d.acs with searches := put none d.acs.searches v (some s) } }
  match m with
  | some (b, i) => (((d1.wr ACS.CMDSTAT_FOUND v 1).wr ACS.CMDSTAT_MBANK v b).wr ACS.CMDSTAT_MINDEX v i).acsResult w pipe 0
  | none => (d1.wr ACS.CMDSTAT_FOUND v 0).acsResult w pipe 0

/-- SEARCH: the first match of the staged value in a profile, with the verification of R162 (R164). -/
def Dev.acsSearch (d : Dev) (now : NetTime) (w : Writer) (pipe profile : Nat) (f1 f2 : AcsFind) : Dev :=
  let q := d.profile pipe profile
  if !q.en then d.acsResult w pipe 7
  else
    let key := d.staged640 ACS.STGVAL_VAL w pipe % 2 ^ (160 * fmtUnits q.fmt)
    match (d.wr ACS.CMDSTAT_CHANGED (4 * w.view + pipe) 0).search now pipe q key f1 f2 with
    | (d1, m) => d1.postMatch w pipe profile key m

/-- NEXT: the next match behind the one posted, as the table stands now (R164, R165). -/
def Dev.acsNext (d : Dev) (now : NetTime) (w : Writer) (pipe : Nat) (f1 f2 : AcsFind) : Dev :=
  match look none d.acs.searches (4 * w.view + pipe) with
  | none => d.acsResult w pipe 5
  | some s =>
    let q := d.profile pipe s.profile
    if !q.en then d.acsResult w pipe 7
    else
      match d.search now pipe q s.key f1 f2 s.place with
      | (d1, m) => d1.postMatch w pipe s.profile s.key m

/-- SETWIDTH: refused while the bank holds a valid entry or an enabled profile lists it (R165); WIDTH 3h names no width and is
refused alike (DESIGN CHOICE, log entry 16). -/
def Dev.acsSetwidth (d : Dev) (w : Writer) (pipe bank width : Nat) : Dev :=
  let lo := acsKey pipe bank 0
  let held := d.acs.entries.any (fun e => decide (lo ≤ e.1 ∧ e.1 < lo + 2048) && e.2.valid)
  let listed := (List.range 32).any (fun n => (d.profile pipe n).en && (d.profile pipe n).banks.contains bank)
  if !d.ownsBank w pipe bank then d.acsResult w pipe 1
  else if held || listed || decide (width = 3) then d.acsResult w pipe 4
  else
    let d1 := if bank < 32 then d.wr ACS.BANKW0_W pipe (setBits (d.rd ACS.BANKW0_W pipe) (2 * bank) 2 width)
      else d.wr ACS.BANKW1_W pipe (setBits (d.rd ACS.BANKW1_W pipe) (2 * (bank - 32)) 2 width)
    d1.acsResult w pipe 0

/-- A command runs: its operation (R164), or the result of an unknown one (R165). Every operation but a WRITE that is not refused is
done at once, and BUSY clears with its result (R160). -/
def Dev.acsRun (d : Dev) (now : NetTime) (w : Writer) (pipe : Nat) (c : AcsCmd) : Dev :=
  let d0 : Dev := { d with acs := { d.acs with rot := put 0 d.acs.rot pipe (turnAfter w) } }
  let d1 := match c.op with
    | 1 => d0.acsWrite w pipe c.bank c.index
    | 2 => d0.acsInvalidate w pipe c.bank c.index
    | 3 => d0.acsRead w pipe c.bank c.index
    | 4 => d0.acsSearch now w pipe c.profile c.f1 c.f2
    | 5 => d0.acsNext now w pipe c.f1 c.f2
    | 6 => d0.acsSetwidth w pipe c.bank c.width
    | _ => d0.acsResult w pipe 6
  d1.wr ACS.CMDSTAT_BUSY (4 * w.view + pipe) (bitNat (look none d1.acs.running pipe).isSome)

/-- A writer writes ACS.CMD (R160): ignored and counted while BUSY is set; it runs at once, or waits while a WRITE runs in the
pipeline. -/
def Dev.acsCommand (d : Dev) (now : NetTime) (w : Writer) (pipe : Nat) (c : AcsCmd) : Dev :=
  let v := 4 * w.view + pipe
  if d.rd ACS.CMDSTAT_BUSY v = 1 then d.bump ACS.CMDSTAT_IGNORED v
  else if (look none d.acs.running pipe).isSome then
    ({ d with acs := { d.acs with waiting := put none d.acs.waiting v (some c) } } : Dev).wr ACS.CMDSTAT_BUSY v 1
  else d.acsRun now w pipe c

/-- The WRITE that runs in a pipeline ends: its valid bit sets and its result is posted (R160 step 5). -/
def Dev.acsFinish (d : Dev) (pipe : Nat) : Dev :=
  match look none d.acs.running pipe with
  | none => d
  | some (v, b, i) =>
    let d1 : Dev := { d with acs := { d.acs with running := put none d.acs.running pipe none } }
    (((d1.setAcsEntry pipe b i { d1.acsEntry pipe b i with valid := true }).acsTouched pipe b).acsResult (writerOf v) pipe 0).wr
      ACS.CMDSTAT_BUSY (4 * v + pipe) 0

/-- The next waiting command of a pipeline runs, in rotating writer order (R160). -/
def Dev.acsNextWaiting (d : Dev) (now : NetTime) (pipe : Nat) : Dev :=
  let r := look 0 d.acs.rot pipe
  match (writerTurns r).find? (fun v => (look none d.acs.waiting (4 * v + pipe)).isSome) with
  | none => d
  | some v =>
    match look none d.acs.waiting (4 * v + pipe) with
    | none => d
    | some c => ({ d with acs := { d.acs with waiting := put none d.acs.waiting (4 * v + pipe) none } } : Dev).acsRun now (writerOf v) pipe c

/-- What a TCLK does in the search arrays: a WRITE takes at most 7 PCLK, and the next command follows it (R160, R161). -/
def Dev.acsTick (d : Dev) (now : NetTime) : Dev :=
  (List.range 4).foldl (fun y k =>
    if (look none y.acs.running k).isSome then (y.acsFinish k).acsNextWaiting now k else y.acsNextWaiting now k) d

/-- ACS_WRITE: a writer's WRITE command (R159 to R161). -/
def execAcsWrite (w : Writer) (pipe : Fin 4) (bank : Fin 64) (index : Fin 2048) : State → Host.Outcome State Fault Refusal :=
  onDev (fun now d => d.acsCommand now w pipe { op := 1, bank := bank, index := index })

/-- ACS_INVALIDATE (R164). -/
def execAcsInvalidate (w : Writer) (pipe : Fin 4) (bank : Fin 64) (index : Fin 2048) :
    State → Host.Outcome State Fault Refusal :=
  onDev (fun now d => d.acsCommand now w pipe { op := 2, bank := bank, index := index })

/-- ACS_READ (R164). -/
def execAcsRead (w : Writer) (pipe : Fin 4) (bank : Fin 64) (index : Fin 2048) : State → Host.Outcome State Fault Refusal :=
  onDev (fun now d => d.acsCommand now w pipe { op := 3, bank := bank, index := index })

/-- ACS_SEARCH: `f1` and `f2` are the findings of its verification and of that of the repeat (R162, R164). -/
def execAcsSearch (w : Writer) (pipe : Fin 4) (profile : Fin 32) (f1 f2 : AcsFind) : State → Host.Outcome State Fault Refusal :=
  onDev (fun now d => d.acsCommand now w pipe { op := 4, profile := profile, f1 := f1, f2 := f2 })

/-- ACS_NEXT (R162, R164, R165). -/
def execAcsNext (w : Writer) (pipe : Fin 4) (f1 f2 : AcsFind) : State → Host.Outcome State Fault Refusal :=
  onDev (fun now d => d.acsCommand now w pipe { op := 5, f1 := f1, f2 := f2 })

/-- ACS_SETWIDTH (R164, R165). -/
def execAcsSetwidth (w : Writer) (pipe : Fin 4) (bank : Fin 64) (width : Fin 4) : State → Host.Outcome State Fault Refusal :=
  onDev (fun now d => d.acsCommand now w pipe { op := 6, bank := bank, width := width })

/-- SCRUB: the scrubber compares a valid entry with its shadow; one that differs, as far as the state holds it or by `differs`, is
rewritten from it, counted and reported (R163). -/
def execScrub (pipe : Fin 4) (bank : Fin 64) (index : Fin 2048) (differs : Bool) : State → Host.Outcome State Fault Refusal :=
  onDev (fun now d =>
    let e := d.acsEntry pipe bank index
    if e.valid && (differs || e.sick) then
      (d.acsFinding now ACS.SCRUBFIX_COUNT (ev 6 2) pipe bank index).acsSick pipe bank index false
    else d)

/-! ## LKA (03 R77, 06 R151, R156, R158) -/

/-- The pipeline whose banks serve a context: that of its packet, or of its task's slot (R158). -/
def Ctx.pipeline (c : Ctx) : Nat := match c.pkt with | some p => p.pipe | none => c.pipe

/-- Whether `n` bytes from a scratch offset on lie in scratch (03 R77). A control core has no scratch. -/
def scratchOk (x o n : Nat) : Bool := !isCore x && decide (o + n ≤ 0x2000)

/-- LKA: the search of the profile with the key in scratch; a disabled profile misses (R151, R156). -/
def execLka (x : CtxId) (rd ra : Reg) (k : Tick) (profile : Fin 32) (f1 f2 : AcsFind) :
    State → Host.Outcome State Fault Refusal :=
  onDev (fun now d =>
    let c0 := d.ctx x
    let q := d.profile c0.pipeline profile
    let n := 20 * fmtUnits q.fmt
    let o := (c0.rg ra).toNat
    d.async x k { regs := [rd, ra], scratch := (o, n) } (fun c =>
      if !scratchOk x o n then .error faultAddress
      else if !q.en then .ok (d, { rd := rd, pend := .search 0 })
      else
        let r := d.search now c.pipeline q (leNat (c.scrBytes o n)) f1 f2
        let v : Word := match r.2 with
          | some (b, i) => (1#64 <<< 63) ||| BitVec.ofNat 64 ((r.1.acsEntry c.pipeline b i).act % 2 ^ 62)
          | none => 0
        .ok (r.1, { rd := rd, pend := .search v })))

/-- LKA_LATE: the search of an LKA in flight did not start in time: the late result, counted, EVT 6.3 (R156, R158). -/
def execLkaLate (x : CtxId) (k : Tick) : State → Host.Outcome State Fault Refusal :=
  onDev (fun now d =>
    let c := d.ctx x
    match (c.tk k).busy, (c.tk k).pend with
    | true, .search _ =>
      ((d.setCtx x (c.setTk k { c.tk k with pend := .value (1#64 <<< 62) })).bump ACS.LKALATE_COUNT c.pipeline).raiseSec now
        (ev 6 3) c.pipeline (c.pipeline * 2 ^ 20)
    | _, _ => d)

end Sys2Proof.Machine
end

