-- ==== Sys2Proof/Machine/Flags.lean ====
section
/-! DEFINITION. The conditions and predicates of the Pueri instructions (03 R68) and the CRC-32C of R67. -/

namespace Sys2Proof.Machine

/-- The value of a condition code on two words (R68). -/
def condHolds (c : Cond) (a b : Word) : Bool :=
  match c with
  | .eq => decide (a = b)
  | .ne => decide (a ≠ b)
  | .ltu => BitVec.ult a b
  | .geu => !BitVec.ult a b
  | .lts => BitVec.slt a b
  | .ges => !BitVec.slt a b
  | .tst => decide (a &&& b ≠ 0)
  | .tstz => decide (a &&& b = 0)

/-- Whether a predicate with its negation bit takes a branch: `n ? !p : p` (R73). -/
def Ctx.taken (c : Ctx) (p : Nat) (n : Bool) : Bool := if n then !c.rp p else c.rp p

/-- One bit step of the reflected CRC-32C (polynomial 1EDC6F41h, reflected 82F63B78h). -/
def crc32cBit (r : BitVec 32) : BitVec 32 :=
  if r.getLsbD 0 then (r >>> 1) ^^^ 0x82F63B78#32 else r >>> 1

/-- `n` bit steps of the CRC-32C. -/
def crc32cBits : Nat → BitVec 32 → BitVec 32
  | 0, r => r
  | n + 1, r => crc32cBits n (crc32cBit r)

/-- CRC-32C of a byte string from a seed, with no final inversion (07 R173). -/
def crc32c (seed : BitVec 32) : List Byte → BitVec 32
  | [] => seed
  | b :: bs => crc32c (crc32cBits 8 (seed ^^^ b.setWidth 32)) bs

/-- One bit step of the reflected CRC-32 of IEEE 802.3 (polynomial 04C11DB7h, reflected EDB88320h). -/
def crc32Bit (r : BitVec 32) : BitVec 32 :=
  if r.getLsbD 0 then (r >>> 1) ^^^ 0xEDB88320#32 else r >>> 1

/-- `n` bit steps of the CRC-32. -/
def crc32Bits : Nat → BitVec 32 → BitVec 32
  | 0, r => r
  | n + 1, r => crc32Bits n (crc32Bit r)

/-- CRC-32 of a byte string from a seed, with no final inversion. -/
def crc32 (seed : BitVec 32) : List Byte → BitVec 32
  | [] => seed
  | b :: bs => crc32 (crc32Bits 8 (seed ^^^ b.setWidth 32)) bs

/-- One bit step of a CRC-16 with polynomial 1021h, not reflected (05 R133). -/
def crc16Bit (r : BitVec 16) : BitVec 16 :=
  if r.getLsbD 15 then (r <<< 1) ^^^ 0x1021#16 else r <<< 1

/-- `n` bit steps of the CRC-16. -/
def crc16Bits : Nat → BitVec 16 → BitVec 16
  | 0, r => r
  | n + 1, r => crc16Bits n (crc16Bit r)

/-- CRC-16 with polynomial 1021h from a seed, most significant bit first, no final XOR (05 R133). -/
def crc16 (seed : BitVec 16) : List Byte → BitVec 16
  | [] => seed
  | b :: bs => crc16 (crc16Bits 8 (seed ^^^ (b.setWidth 16 <<< 8))) bs

end Sys2Proof.Machine
end

