-- ==== Sys2Proof/Machine/Crypto.lean ====
section
/-! DEFINITION. The published algorithms that the spec names: SHA-384 (FIPS 180-4), the curve P-384 with ECDSA and ECDH (FIPS
186-5, SP 800-56A), AES (FIPS 197) with GCM, XTS and the key wrap (SP 800-38D, -38E, -38F), ChaCha20-Poly1305 (RFC 8439), and the
one-step KDF (SP 800-56C). The spec names them and leaves their text to the standards (PRESUMED, log entry 8). -/

namespace Sys2Proof.Machine

/-- Bytes XORed one by one. -/
def xorBytes (a b : List Byte) : List Byte := (a.zip b).map (fun e => e.1 ^^^ e.2)

/-- Zero bytes that fill up to a multiple of 16. -/
def pad16 (bs : List Byte) : List Byte := bs ++ List.replicate ((16 - bs.length % 16) % 16) 0

/-- Cut bytes into pieces of `n`, the last one shorter. -/
def chunks (n : Nat) (bs : List Byte) : List (List Byte) := (List.range ((bs.length + n - 1) / n)).map (fun i => (bs.drop (n * i)).take n)

/-! ## SHA-384 -/

/-- The largest `r` with `r ^ k ≤ n`, by its bits from `b - 1` down. -/
def iroot (k n : Nat) : Nat → Nat → Nat
  | 0, r => r
  | b + 1, r => iroot k n b (if (r + 2 ^ b) ^ k ≤ n then r + 2 ^ b else r)

/-- The first eighty primes: the numbers below 410 that nothing from 2 to 20 divides but themselves. -/
def primes80 : List Nat := (List.range 410).filter (fun p => decide (2 ≤ p) && (List.range 21).all (fun q => decide (q < 2 ∨ p ≤ q ∨ p % q ≠ 0)))

/-- The constants of SHA-384's rounds: 64 fraction bits of the cube roots of the first eighty primes. -/
def shaK : List Word := primes80.map (fun p => BitVec.ofNat 64 (iroot 3 (p * 2 ^ 192) 67 0))

/-- Its initial value: 64 fraction bits of the square roots of the ninth to the sixteenth prime. -/
def shaInit : List Word := ((primes80.drop 8).take 8).map (fun p => BitVec.ofNat 64 (iroot 2 (p * 2 ^ 128) 67 0))

/-- Extend the message schedule, newest word first. -/
def shaSchedule : Nat → List Word → List Word
  | 0, w => w
  | n + 1, w =>
    let a := w.getD 1 0
    let b := w.getD 14 0
    let s1 := a.rotateRight 19 ^^^ a.rotateRight 61 ^^^ (a >>> 6)
    let s0 := b.rotateRight 1 ^^^ b.rotateRight 8 ^^^ (b >>> 7)
    shaSchedule n ((s1 + w.getD 6 0 + s0 + w.getD 15 0) :: w)

/-- One round. -/
def shaRound (s : List Word) (kw : Word × Word) : List Word :=
  match s with
  | [a, b, c, d, e, f, g, h] =>
    let t1 := h + (e.rotateRight 14 ^^^ e.rotateRight 18 ^^^ e.rotateRight 41) + ((e &&& f) ^^^ (~~~e &&& g)) + kw.1 + kw.2
    let t2 := (a.rotateRight 28 ^^^ a.rotateRight 34 ^^^ a.rotateRight 39) + ((a &&& b) ^^^ (a &&& c) ^^^ (b &&& c))
    [t1 + t2, a, b, c, d + t1, e, f, g]
  | _ => s

/-- One block of 128 bytes. -/
def shaBlock (s : List Word) (block : List Byte) : List Word :=
  let w := (chunks 8 block).map (fun c => BitVec.ofNat 64 (beNat c))
  let all := (shaSchedule 64 w.reverse).reverse
  ((shaK.zip all).foldl shaRound s).zipWith (· + ·) s

/-- SHA-384. -/
def sha384 (m : List Byte) : List Byte :=
  let padded := m ++ [0x80] ++ List.replicate ((239 - m.length % 128) % 128) 0 ++ beBytes 16 (8 * m.length)
  (((chunks 128 padded).foldl shaBlock shaInit).take 6).flatMap (fun w => beBytes 8 w.toNat)

/-! ## P-384 -/

abbrev p384 : Nat := 2 ^ 384 - 2 ^ 128 - 2 ^ 96 + 2 ^ 32 - 1
abbrev b384 : Nat := 0xb3312fa7e23ee7e4988e056be3f82d19181d9c6efe8141120314088f5013875ac656398d8a2ed19d2a85c8edd3ec2aef
abbrev n384 : Nat := 0xffffffffffffffffffffffffffffffffffffffffffffffffc7634d81f4372ddf581a0db248b0a77aecec196accc52973

/-- A point of the curve; none is the point at infinity. -/
abbrev Point := Option (Nat × Nat)

/-- The base point. -/
def g384 : Point :=
  some (0xaa87ca22be8b05378eb1c71ef320ad746e1d3b628ba79b9859f741e082542a385502f25dbf55296c3a545e3872760ab7,
    0x3617de4a96262c6f5d9e98bf9292dc29f8f41dbd289a147ce9da3113b5f0b8c00a60b1ce1d7e819d7a431d7c90ea0e5f)

/-- Euclid's steps on `r0` and `r1`, with `t0` and `t1` such that `t * x` is `r` modulo `m`; the first argument bounds their number. -/
def euclid (m : Nat) : Nat → Nat → Nat → Nat → Nat → Nat
  | 0, _, _, t0, _ => t0
  | k + 1, r0, r1, t0, t1 => if r1 = 0 then t0 else euclid m k r1 (r0 % r1) t1 ((t0 + (m - r0 / r1 * t1 % m)) % m)

/-- The inverse modulo a prime of 384 bits, zero for zero; Euclid needs at most 554 steps on such numbers. -/
def invMod (m x : Nat) : Nat := euclid m 600 m (x % m) 0 1 % m

/-- Whether coordinates name a point of the curve. -/
def onCurve (x y : Nat) : Bool := decide (x < p384 ∧ y < p384 ∧ y * y % p384 = (x * x * x + (p384 - 3) * x + b384) % p384)

/-- The sum of two points. -/
def addPoint : Point → Point → Point
  | none, q => q
  | p, none => p
  | some (x1, y1), some (x2, y2) =>
    if x1 = x2 ∧ (y1 + y2) % p384 = 0 then none
    else
      let l := if x1 = x2 then (3 * x1 * x1 + (p384 - 3)) * invMod p384 (2 * y1) % p384
               else (y2 + p384 - y1) * invMod p384 (x2 + p384 - x1) % p384
      let x := (l * l + (p384 - x1) + (p384 - x2)) % p384
      some (x, (l * (x1 + (p384 - x)) + (p384 - y1)) % p384)

/-- A point in Jacobian coordinates: X / Z² and Y / Z³ are its coordinates, and Z = 0 is the point at infinity. They make a multiple
with one inversion. -/
structure Jac where
  x : Nat := 1
  y : Nat := 1
  z : Nat := 0
  deriving DecidableEq, Repr

/-- A difference modulo p, of numbers below p. -/
def subP (a b : Nat) : Nat := (a + (p384 - b)) % p384

/-- Twice a point. -/
def Jac.double (p : Jac) : Jac :=
  let yy := p.y * p.y % p384
  let zz := p.z * p.z % p384
  let s := 4 * p.x * yy % p384
  let m := 3 * subP p.x zz * (p.x + zz) % p384
  let x := subP (m * m % p384) (2 * s % p384)
  { x := x, y := subP (m * subP s x % p384) (8 * yy * yy % p384), z := 2 * p.y * p.z % p384 }

/-- The sum of two points. -/
def Jac.add (p q : Jac) : Jac :=
  if p.z = 0 then q
  else if q.z = 0 then p
  else
    let pp := p.z * p.z % p384
    let qq := q.z * q.z % p384
    let u := p.x * qq % p384
    let s := p.y * qq * q.z % p384
    let h := subP (q.x * pp % p384) u
    let r := subP (q.y * pp * p.z % p384) s
    if h = 0 then (if r = 0 then p.double else {})
    else
      let hh := h * h % p384
      let v := u * hh % p384
      let x := subP (subP (r * r % p384) (h * hh % p384)) (2 * v % p384)
      { x := x, y := subP (r * subP v x % p384) (s * h * hh % p384), z := h * p.z * q.z % p384 }

/-- A multiple of a point; the first argument bounds the bits of the factor. -/
def Jac.mul : Nat → Nat → Jac → Jac
  | 0, _, _ => {}
  | b + 1, k, p => if k % 2 = 1 then p.add (Jac.mul b (k / 2) p.double) else Jac.mul b (k / 2) p.double

/-- The point that Jacobian coordinates stand for. -/
def Jac.point (p : Jac) : Point :=
  if p.z = 0 then none
  else
    let i := invMod p384 p.z
    some (p.x * (i * i) % p384, p.y * (i * i * i) % p384)

/-- A multiple of a point by a factor of at most `b` bits. -/
def mulPoint (b k : Nat) (p : Point) : Point :=
  match p with
  | none => none
  | some (x, y) => (Jac.mul b k { x := x, y := y, z := 1 }).point

/-- The bytes of a point: x, then y, most significant byte first. -/
def pointBytes (p : Point) : List Byte := match p with | some (x, y) => beBytes 48 x ++ beBytes 48 y | none => List.replicate 96 0

/-- Whether an ECDSA signature `r ‖ s` of a message verifies under the public key `x ‖ y`. -/
def ecdsaVerify (pub sig msg : List Byte) : Bool :=
  let x := beAt pub 0 48
  let y := beAt pub 48 48
  let r := beAt sig 0 48
  let s := beAt sig 48 48
  let z := beNat (sha384 msg)
  let w := invMod n384 s
  decide (1 ≤ r ∧ r < n384 ∧ 1 ≤ s ∧ s < n384) && onCurve x y
    && (match addPoint (mulPoint 384 (z * w % n384) g384) (mulPoint 384 (r * w % n384) (some (x, y))) with
      | none => false
      | some q => decide (q.1 % n384 = r))

/-- The ECDSA signature of a message under a private key, with the per-message number `k`. -/
def ecdsaSign (key k : Nat) (msg : List Byte) : List Byte :=
  let r := ((mulPoint 384 k g384).map (fun q => q.1 % n384)).getD 0
  beBytes 48 r ++ beBytes 48 (invMod n384 k * (beNat (sha384 msg) + r * key) % n384)

/-- The scalar that 384 random bits stand for, from 1 to the order less one. -/
def scalarOf (v : Nat) : Nat := v % (n384 - 1) + 1

/-- The ECDH shared secret of a private key with a public one (SP 800-56A): the x coordinate; none where the public key is no point
of the curve. -/
def ecdh (key : Nat) (pub : List Byte) : Option (List Byte) :=
  let x := beAt pub 0 48
  let y := beAt pub 48 48
  if onCurve x y then (mulPoint 384 key (some (x, y))).map (fun q => beBytes 48 q.1) else none

/-- The one-step KDF with SHA-384, for 32 bytes of key (SP 800-56C). -/
def oneStepKdf (z fixed : List Byte) : List Byte := (sha384 (beBytes 4 1 ++ z ++ fixed)).take 32

/-! ## AES -/

/-- Multiplication by x in GF(2^8). -/
def xtime (b : Byte) : Byte := (b <<< 1) ^^^ (if b.toNat < 128 then 0 else 0x1B)

/-- Multiplication in GF(2^8), by the bits of the first factor. -/
def gfMul8 : Nat → Byte → Byte → Byte
  | 0, _, _ => 0
  | n + 1, a, b => (if a.toNat % 2 = 1 then b else 0) ^^^ gfMul8 n (a >>> 1) (xtime b)

/-- The S-box of one byte: the inverse in GF(2^8), and the affine map over it. -/
def sboxOf (a : Byte) : Byte :=
  let sq := fun (x : Byte) => gfMul8 8 x x
  -- a^254 = a^2 · a^4 · … · a^128
  let i := ((List.range 7).foldl (fun (s : Byte × Byte) _ => let y := sq s.1; (y, gfMul8 8 y s.2)) (a, 1)).2
  i ^^^ i.rotateLeft 1 ^^^ i.rotateLeft 2 ^^^ i.rotateLeft 3 ^^^ i.rotateLeft 4 ^^^ 0x63

/-- The S-box and its inverse. -/
def sboxTable : List Byte := (List.range 256).map (fun i => sboxOf (BitVec.ofNat 8 i))
def sboxBack : List Byte := (List.range 256).map (fun i => BitVec.ofNat 8 (sboxTable.idxOf (BitVec.ofNat 8 i)))

/-- The S-box. -/
def subByte (b : Byte) : Byte := sboxTable.getD b.toNat 0

/-- The key schedule: words of four bytes, newest first. -/
def aesExpand (nk : Nat) : Nat → List (List Byte) → List (List Byte)
  | 0, w => w
  | n + 1, w =>
    let i := w.length
    let t := w.headD []
    let u := if i % nk = 0 then
        xorBytes ((t.drop 1 ++ t.take 1).map subByte) [(List.range (i / nk - 1)).foldl (fun b _ => xtime b) 1, 0, 0, 0]
      else if nk = 8 ∧ i % nk = 4 then t.map subByte else t
    aesExpand nk n (xorBytes (w.getD (nk - 1) []) u :: w)

/-- The round keys of a key of 16 or 32 bytes. -/
def aesKeys (key : List Byte) : List (List Byte) :=
  let nk := key.length / 4
  chunks 16 ((aesExpand nk (4 * (nk + 7) - nk) (chunks 4 key).reverse).reverse.flatten)

/-- The rows of a state shifted: byte `i` of the new state is byte `i · m` modulo 16 of the old in its column order. -/
def shiftRows (s : List Byte) (back : Bool) : List Byte :=
  (List.range 16).map (fun i => s.getD ((i + (if back then 12 else 4) * (i % 4)) % 16) 0)

/-- The columns of a state mixed with the coefficients `c` of the first row. -/
def mixColumns (c : List Byte) (s : List Byte) : List Byte :=
  (List.range 16).map (fun i =>
    (List.range 4).foldl (fun (a : Byte) j => a ^^^ gfMul8 8 (c.getD ((j + 4 - i % 4) % 4) 0) (s.getD (4 * (i / 4) + j) 0)) 0)

/-- AES of one block, under its round keys. -/
def aesBlock (ks : List (List Byte)) (b : List Byte) : List Byte :=
  let s := ((ks.drop 1).dropLast).foldl (fun s k => xorBytes (mixColumns [2, 3, 1, 1] (shiftRows (s.map subByte) false)) k) (xorBytes b (ks.headD []))
  xorBytes (shiftRows (s.map subByte) false) (ks.getLastD [])

/-- The inverse of AES of one block. -/
def aesUnblock (ks : List (List Byte)) (b : List Byte) : List Byte :=
  let back := fun (s : List Byte) => (shiftRows s true).map (fun x => sboxBack.getD x.toNat 0)
  let s := (((ks.drop 1).dropLast).reverse).foldl (fun s k => mixColumns [14, 11, 13, 9] (xorBytes (back s) k)) (xorBytes b (ks.getLastD []))
  xorBytes (back s) (ks.headD [])

/-! ## GCM -/

/-- Multiplication in GF(2^128) as GHASH has it, by the bits of the first factor from its top bit down. -/
def gfMul128 (x : Nat) : Nat → Nat → Nat
  | 0, _ => 0
  | n + 1, v => (if x.testBit n then v else 0) ^^^ gfMul128 x n (v / 2 ^^^ (if v % 2 = 1 then 0xE1 * 2 ^ 120 else 0))

/-- GHASH over whole blocks. -/
def ghash (h : Nat) (bs : List Byte) : Nat := (chunks 16 bs).foldl (fun y c => gfMul128 (y ^^^ beNat c) 128 h) 0

/-- Counter mode from a nonce of 12 bytes, from counter `c` on. -/
def ctrMode (ks : List (List Byte)) (nonce : List Byte) (c : Nat) (data : List Byte) : List Byte :=
  (chunks 16 data).zipIdx.flatMap (fun e => xorBytes e.1 (aesBlock ks (nonce ++ beBytes 4 (c + e.2))))

/-- The tag of GCM over AAD and ciphertext. -/
def gcmTag (ks : List (List Byte)) (nonce aad text : List Byte) : List Byte :=
  let h := beNat (aesBlock ks (List.replicate 16 0))
  let s := ghash h (pad16 aad ++ pad16 text ++ beBytes 8 (8 * aad.length) ++ beBytes 8 (8 * text.length))
  xorBytes (beBytes 16 s) (aesBlock ks (nonce ++ beBytes 4 1))

/-! ## XTS -/

/-- The tweak of the next block: multiplication by x, over bytes stored least significant first. -/
def nextTweak (t : Nat) : Nat := t * 2 % 2 ^ 128 ^^^ (if 2 ^ 127 ≤ t then 0x87 else 0)

/-- The blocks of a data unit under XTS. -/
def xtsBlocks (f : List Byte → List Byte) : Nat → List (List Byte) → List (List Byte)
  | _, [] => []
  | t, b :: bs => xorBytes (f (xorBytes b (leBytes 16 t))) (leBytes 16 t) :: xtsBlocks f (nextTweak t) bs

/-- AES-XTS-256 of a data unit of whole blocks. -/
def xtsMode (enc : Bool) (key : Nat) (tweak data : List Byte) : List Byte :=
  let k1 := aesKeys (leBytes 32 key)
  let k2 := aesKeys (leBytes 32 (key / 2 ^ 256))
  (xtsBlocks (if enc then aesBlock k1 else aesUnblock k1) (leNat (aesBlock k2 tweak)) (chunks 16 data)).flatten

/-! ## ChaCha20-Poly1305 -/

abbrev Quad := BitVec 32

/-- A quarter round over places of the state. -/
def quarter (s : List Quad) (ia ib ic id_ : Nat) : List Quad :=
  let half := fun (s : List Quad) (x y : Nat) =>
    let a := s.getD ia 0 + s.getD ib 0
    let d := (s.getD id_ 0 ^^^ a).rotateLeft x
    let c := s.getD ic 0 + d
    let b := (s.getD ib 0 ^^^ c).rotateLeft y
    (((s.set ia a).set ib b).set ic c).set id_ d
  half (half s 16 12) 8 7

/-- Ten double rounds. -/
def chachaRounds : Nat → List Quad → List Quad
  | 0, s => s
  | n + 1, s =>
    let c := quarter (quarter (quarter (quarter s 0 4 8 12) 1 5 9 13) 2 6 10 14) 3 7 11 15
    chachaRounds n (quarter (quarter (quarter (quarter c 0 5 10 15) 1 6 11 12) 2 7 8 13) 3 4 9 14)

/-- A block of ChaCha20. -/
def chachaBlock (key nonce : List Byte) (counter : Nat) : List Byte :=
  let q := fun (bs : List Byte) => (chunks 4 bs).map (fun c => BitVec.ofNat 32 (leNat c))
  let s : List Quad := [0x61707865, 0x3320646e, 0x79622d32, 0x6b206574] ++ q key ++ [BitVec.ofNat 32 counter] ++ q nonce
  ((chachaRounds 10 s).zipWith (· + ·) s).flatMap (fun w => leBytes 4 w.toNat)

/-- Poly1305 under a one-time key. -/
def poly1305 (key msg : List Byte) : List Byte :=
  let r := leAt key 0 16 &&& 0x0ffffffc0ffffffc0ffffffc0fffffff
  let a := (chunks 16 msg).foldl (fun a c => (a + leNat (c ++ [1])) * r % (2 ^ 130 - 5)) 0
  leBytes 16 (a + leAt key 16 16)

/-! ## The algorithms of 10 R246 -/

/-- The AES key bytes of an algorithm in a slot's key material. -/
def aesKeyOf (alg key : Nat) : List (List Byte) := aesKeys (leBytes (if alg = 0 ∨ alg = 2 then 16 else 32) key)

/-- What an algorithm makes of data under a slot's key material; `enc` encrypts. -/
def cipherText (alg : Nat) (enc : Bool) (key : Nat) (nonce data : List Byte) : List Byte :=
  if alg = 4 then
    (chunks 64 data).zipIdx.flatMap (fun e => xorBytes e.1 (chachaBlock (leBytes 32 key) nonce (1 + e.2)))
  else if alg = 5 then xtsMode enc key nonce data
  else ctrMode (aesKeyOf alg key) nonce 2 data

/-- The 16-byte tag over AAD and ciphertext; XTS has none. -/
def cipherTag (alg key : Nat) (nonce aad text : List Byte) : List Byte :=
  if alg = 4 then
    poly1305 ((chachaBlock (leBytes 32 key) nonce 0).take 32) (pad16 aad ++ pad16 text ++ leBytes 8 aad.length ++ leBytes 8 text.length)
  else if alg = 5 then []
  else gcmTag (aesKeyOf alg key) nonce aad text

/-! ## The key wrap -/

/-- The steps of the unwrap, from the last one down: the check value and the registers of eight bytes. -/
def unwrapSteps (ks : List (List Byte)) (n : Nat) : Nat → Nat × List (List Byte) → Nat × List (List Byte)
  | 0, s => s
  | t + 1, (a, r) =>
    let i := t % n
    let b := aesUnblock ks (beBytes 8 (a ^^^ (t + 1)) ++ r.getD i [])
    unwrapSteps ks n t (beAt b 0 8, r.set i (b.drop 8))

/-- The AES-256 key unwrap; none when its integrity check fails. -/
def keyUnwrap (kek : List Byte) (blob : List Byte) : Option (List Byte) :=
  let c := chunks 8 blob
  let n := c.length - 1
  match unwrapSteps (aesKeys kek) n (6 * n) (beNat (c.headD []), c.drop 1) with
  | (a, r) => if a = 0xA6A6A6A6A6A6A6A6 then some r.flatten else none

end Sys2Proof.Machine
end

