-- ==== Sys2Proof/Machine/Coherence.lean ====
section
/-! DEFINITION. The memory an engine addresses: scratch, the coherent window with its caches, home slices and far
accesses, and the program store (02 R36 to R47, 03 R71, R72). -/

namespace Sys2Proof.Machine

/-! ## The coherent window (02 R36, R38, R56) -/

/-- The canonical form of a byte memory: addresses strictly rising, and no byte listed that reads as an unlisted one, which is zero
(log entry 7). -/
def Memory.wf (m : Tbl Byte) : Bool := Tbl.wf 0 m

/-- Replace the coherent memory. -/
def Dev.setCoh (d : Dev) (m : Coh) : Dev := { d with eng := { d.eng with coh := m } }

/-- Whether the coherent window exists for the engines. -/
def Dev.windowOn (d : Dev) : Bool := decide (d.rd ENG.STATUS_COMMITTED = 1) && decide (d.rd ENG.COH_SIZE_SIZE ≠ 0)

/-- First HBM byte of the window. -/
def Dev.windowBase (d : Dev) : Nat := d.rd ENG.COH_BASE_BASE * 2 ^ 30

/-- Bytes of the atomic region, at the top of the window. -/
def Dev.atomBytes (d : Dev) : Nat := d.rd ENG.COH_SIZE_ATOM * 2 ^ 20

/-- Bytes of the cacheable part. -/
def Dev.cacheBytes (d : Dev) : Nat := d.rd ENG.COH_SIZE_SIZE * 2 ^ 30 - d.atomBytes

/-- The HBM address of a cacheable offset. -/
def Dev.cacheAddr (d : Dev) (o n : Nat) : Option Nat :=
  if d.windowOn && decide (o + n ≤ d.cacheBytes) && decide (o % n = 0) then some (d.windowBase + o) else none

/-- The HBM address of an atomic-region offset. -/
def Dev.atomAddr (d : Dev) (o n : Nat) : Option Nat :=
  if d.windowOn && decide (o + n ≤ d.atomBytes) && decide (o % n = 0) then some (d.windowBase + d.cacheBytes + o) else none

/-- The coherence requester of a context (02 R32). -/
def requester (x : Nat) : Nat := if isCore x then 192 + (x - 1536) else x / 8

/-- The home slice of a line (02 R39). -/
def homeSlice (line : Nat) : Nat := line % 24

/-- A byte of the L2 and HBM copy of the window. -/
def Coh.byte (m : Coh) (a : Nat) : Byte := look 0 m.mem a

/-- `n` bytes of the L2 and HBM copy. -/
def Coh.bytesAt (m : Coh) (a n : Nat) : List Byte := (List.range n).map (fun i => m.byte (a + i))

/-- Write bytes to the L2 and HBM copy. -/
def Coh.write (m : Coh) (a : Nat) (bs : List Byte) : Coh := { m with mem := putBytes m.mem a bs }

/-- The line of a cache. -/
def Coh.cacheLine (m : Coh) (who line : Nat) : CacheLine := look {} m.caches (204 * line + who)

/-- Replace the line of a cache. -/
def Coh.setCacheLine (m : Coh) (who line : Nat) (l : CacheLine) : Coh :=
  { m with caches := put {} m.caches (204 * line + who) l }

/-- The directory entry of a line. -/
def Coh.dirLine (m : Coh) (line : Nat) : DirLine := look {} m.dir line

/-- Replace the directory entry of a line. -/
def Coh.setDir (m : Coh) (line : Nat) (l : DirLine) : Coh := { m with dir := put {} m.dir line l }

/-- The loaded value of bytes: zero- or sign-extended (03 R71). -/
def loadValue (bs : List Byte) (sx : Bool) : Word :=
  if sx then BitVec.ofInt 64 (signedOf (leNat bs) (8 * bs.length)) else BitVec.ofNat 64 (leNat bs)

/-! ## Misses, snoops, grants (02 R40 to R44) -/

/-- The request a memory operation needs of the home slice in a cache that holds the line in state `st`. -/
def missKind (st : CacheSt) (store : Bool) : ReqKind :=
  if store then (if st = .s then .upgrade else .readOwn) else .readShared

/-- Record an access that waits for a grant; the first access to the line asks the slice, later ones join it (R40). -/
def Coh.miss (m : Coh) (op : MemOp) : Coh :=
  let who := requester op.ctx
  let line := op.addr / 64
  let joined := m.misses.any (fun o => decide (requester o.ctx = who ∧ o.addr / 64 = line))
  { m with misses := m.misses ++ [op],
           reqs := if joined then m.reqs
                   else m.reqs ++ [{ who := who, line := line, kind := missKind (m.cacheLine who line).st op.store }] }

/-- Write a line of a cache back, or give notice of its clean eviction; the cache drops it. -/
def Coh.evict (m : Coh) (who line : Nat) (poison : Bool) : Coh :=
  let l := m.cacheLine who line
  if l.st = .i then m
  else { m.setCacheLine who line {} with
         wbs := m.wbs ++ [{ who := who, line := line, dirty := decide (l.st = .m), bytes := l.bytes, poison := poison || l.poison }] }

/-- A busy line whose snoops are all answered is granted, and is busy no longer (R42). A store's line is granted in M,
a load's in E when no other cache shares it, else in S (log entry 13). -/
def Coh.grantIfReady (m : Coh) (line : Nat) : Coh :=
  let l := m.dirLine line
  match l.busy, l.awaiting with
  | some r, [] =>
    let st : CacheSt := match r.kind with
      | .readShared => if l.sharers.isEmpty then .e else .s
      | _ => .m
    let l' : DirLine := match st with
      | .s => { l with st := .shared, sharers := r.who :: l.sharers, busy := none }
      | _ => { l with st := .owned, owner := r.who, sharers := [], busy := none }
    { m.setDir line l' with grants := m.grants ++ [{ who := r.who, line := line, st := st }] }
  | _, _ => m

/-- The data of a line of which a cache holds the only current copy: that of its M line, or of its writeback on the way (R44), with
its poison. -/
def Coh.dirtyData (m : Coh) (who line : Nat) : Option (Tbl Byte × Bool) :=
  let l := m.cacheLine who line
  if l.st = .m then some (l.bytes, l.poison)
  else (m.wbs.find? (fun w => decide (w.who = who ∧ w.line = line) && w.dirty)).map (fun w => (w.bytes, w.poison))

/-- The bytes of a whole line reach the slice. They replace all 64, and with them its poison (R47; log entry 13). -/
def Coh.fill (m : Coh) (line : Nat) (bytes : Tbl Byte) (poison : Bool) : Coh :=
  let m1 := m.write (64 * line) ((List.range 64).map (fun i => look 0 bytes i))
  m1.setDir line { m1.dirLine line with poison := poison }

/-- A cache answers a snoop or back-invalidation: data that it alone holds is handed to the slice, and the line is dropped. -/
def Coh.answerSnoop (m : Coh) (who line : Nat) : Coh :=
  let m1 := match m.dirtyData who line with
    | some (bytes, poison) => m.fill line bytes poison
    | none => m
  let m2 := m1.setCacheLine who line {}
  let e := m2.dirLine line
  let e' : DirLine := { e with
    sharers := e.sharers.filter (· ≠ who),
    st := if e.st = .owned ∧ e.owner = who then .uncached
          else if e.st = .shared ∧ (e.sharers.filter (· ≠ who)).isEmpty then .uncached else e.st,
    awaiting := e.awaiting.filter (· ≠ who) }
  -- an upgrade that still waits at the slice now needs the data too
  let m3 := { m2.setDir line e' with
    reqs := m2.reqs.map (fun (r : Req) => if r.who = who ∧ r.line = line ∧ r.kind = ReqKind.upgrade then { r with kind := ReqKind.readOwn } else r) }
  m3.grantIfReady line

/-- Whether a cache holds a snoop of a line until its grant (R43): it misses on the line, or its grant is on its way. An upgrade that the
slice has not granted is no miss: the cache holds the line, and answers (log entry 13). -/
def Coh.holdsSnoop (m : Coh) (who line : Nat) : Bool :=
  m.grants.any (fun g => decide (g.who = who ∧ g.line = line))
    || (decide ((m.cacheLine who line).st = .i) && m.misses.any (fun o => decide (requester o.ctx = who ∧ o.addr / 64 = line)))

/-- SNOOP: a snoop or back-invalidation on its way reaches a cache, which holds it until its own grant or answers at once (R43). -/
def Dev.snoop (d : Dev) (who line : Nat) (kind : SnoopKind) : Dev :=
  let m := d.eng.coh
  let fwd := decide (kind = .forward)
  let known := if kind = .backInvalidate then m.backs.contains (who, line) else m.snoops.contains (who, line, fwd)
  if !known then d
  else
    let m1 := if kind = .backInvalidate then { m with backs := m.backs.erase (who, line) } else { m with snoops := m.snoops.erase (who, line, fwd) }
    if m.holdsSnoop who line then d.setCoh { m1 with held := m1.held ++ [(who, line, fwd)] }
    else d.setCoh (m1.answerSnoop who line)

/-! ## Completing an access -/

/-- A waiting context takes the result of its access and goes on. -/
def Dev.finishLoad (d : Dev) (op : MemOp) (bs : List Byte) : Dev :=
  let c := d.ctx op.ctx
  if c.st = .wait ∧ c.waitOn = .memory then
    let c1 := { c with st := .run, waitOn := .nothing }
    d.setCtx op.ctx ((if op.store then c1 else c1.wg op.rd (loadValue bs op.sx)).next)
  else d

/-- A waiting context takes a memory fault (02 R47). -/
def Dev.faultMemoryOp (d : Dev) (x : Nat) : Dev :=
  let c := d.ctx x
  if c.st = .wait ∧ c.waitOn = .memory then (d.setCtx x { c with st := .run, waitOn := .nothing }).fault x faultMemory
  else d

/-- Perform an access on a line the cache holds with the right state: a load reads it, a store writes it and makes it
M. An access to a poisoned line ends its context (R47). -/
def Dev.accessHit (d : Dev) (op : MemOp) : Dev :=
  let m := d.eng.coh
  let who := requester op.ctx
  let line := op.addr / 64
  let l := m.cacheLine who line
  if l.poison then d.faultMemoryOp op.ctx
  else if op.store then
    (d.setCoh (m.setCacheLine who line
      { l with st := .m, bytes := putBytes l.bytes (op.addr % 64) (leBytes op.size op.value.toNat) })).finishLoad op []
  else d.finishLoad op ((List.range op.size).map (fun i => look 0 l.bytes (op.addr % 64 + i)))

/-- Whether a cache may perform an access on a line in a state. -/
def hits (st : CacheSt) (store : Bool) : Bool := if store then decide (st = .m ∨ st = .e) else decide (st ≠ .i)

/-- A context's coherent access at issue: an L1 hit is performed; a miss waits (R43). An ECC error in the line: single
corrected, double in S or E drops the line and misses, double in M writes it back poisoned and faults (R47). -/
def Dev.coherentAccess (d : Dev) (now : NetTime) (op : MemOp) (ecc : Ecc) : Dev :=
  let m := d.eng.coh
  let who := requester op.ctx
  let line := op.addr / 64
  let st := (m.cacheLine who line).st
  let c := d.ctx op.ctx
  let dw := d.setCtx op.ctx { c with st := .wait, waitOn := .memory }
  if hits st op.store then
    match ecc with
    | .good => dw.accessHit op
    | .single => (dw.bump ENG.L1ERR_CE).accessHit op
    | .double =>
      let d1 := dw.bump ENG.L1ERR_UE
      if st = .m then ((d1.setCoh (m.evict who line true)).raise now (ev 3 2) who).faultMemoryOp op.ctx
      else d1.setCoh ((m.evict who line false).miss op)
  else dw.setCoh (m.miss op)

/-- Perform the joined accesses of a cache on a line, in order, while the line allows them; the rest ask again. -/
def Dev.drainMisses (d : Dev) : List MemOp → Dev
  | [] => d
  | op :: ops =>
    let d1 := if hits (d.eng.coh.cacheLine (requester op.ctx) (op.addr / 64)).st op.store then d.accessHit op
              else d.setCoh (d.eng.coh.miss op)
    d1.drainMisses ops

/-- An access into a list of accesses by the age of its context (R34). -/
def Dev.ageInsert (d : Dev) (op : MemOp) : List MemOp → List MemOp
  | [] => [op]
  | o :: os => if (d.ctx op.ctx).age < (d.ctx o.ctx).age then op :: o :: os else o :: d.ageInsert op os

/-- Accesses in the age order in which the L1 port serves their contexts (R34). -/
def Dev.byAge (d : Dev) (ops : List MemOp) : List MemOp := ops.foldr d.ageInsert []

/-- The access that caused a miss, on its line just granted in state `st` (R43, R47). -/
def Dev.firstAccess (d : Dev) (now : NetTime) (op : MemOp) (st : CacheSt) (ecc : Ecc) : Dev :=
  match ecc with
  | .good => d.accessHit op
  | .single => (d.bump ENG.L1ERR_CE).accessHit op
  | .double =>
    let d1 := d.bump ENG.L1ERR_UE
    let d2 := d1.setCoh (d1.eng.coh.evict (requester op.ctx) (op.addr / 64) (decide (st = .m)))
    if st = .m then (d2.raise now (ev 3 2) (requester op.ctx)).faultMemoryOp op.ctx else d2.setCoh (d2.eng.coh.miss op)

/-- DATA_GRANT: a grant on its way reaches its cache (02 R43). The cache makes room in a full set, takes the line,
completes the access that caused the miss, answers a held snoop, and then serves the accesses that joined, in age order. A double-bit
error in the line as it is accessed: a line not yet modified is dropped and the accesses miss again; an M line is written back poisoned
and the context faults (R47). -/
def Dev.dataGrant (d : Dev) (now : NetTime) (who line : Nat) (ecc : Ecc) : Dev :=
  let m := d.eng.coh
  match m.grants.find? (fun g => decide (g.who = who ∧ g.line = line)) with
  | none => d
  | some g =>
    let mine := m.misses.filter (fun o => decide (requester o.ctx = who ∧ o.addr / 64 = line))
    let m1 : Coh := { m with
      grants := m.grants.erase g
      misses := m.misses.filter (fun o => !decide (requester o.ctx = who ∧ o.addr / 64 = line)) }
    let inSet := m1.caches.filter (fun e => decide (e.1 % 204 = who ∧ e.1 / 204 % 64 = line % 64 ∧ e.1 / 204 ≠ line))
    let m2 := if 4 ≤ inSet.length then
        match inSet[d.freeVal.toNat % 4]? with
        | some e => m1.evict who (e.1 / 204) false
        | none => m1
      else m1
    let d0 := if 4 ≤ inSet.length then d.drawn else d
    let m3 := m2.setCacheLine who line
      { st := g.st, poison := (m2.dirLine line).poison,
        bytes := putBytes [] 0 (m2.bytesAt (64 * line) 64) }
    let d1 := d0.setCoh m3
    let d3 : Dev := match mine with
      | [] => d1
      | op :: _ => d1.firstAccess now op g.st ecc
    let held := d3.eng.coh.held.filter (fun h => decide (h.1 = who ∧ h.2.1 = line))
    let m4 := { d3.eng.coh with held := d3.eng.coh.held.filter (fun h => !decide (h.1 = who ∧ h.2.1 = line)) }
    let d4 := d3.setCoh (if held.isEmpty then m4 else m4.answerSnoop who line)
    d4.drainMisses (d4.byAge (mine.drop 1))

/-! ## The home slice (02 R41, R42, R44, R46) -/

/-- The seven far atomics (03 R72): the new value from the old one, the operand and the compare value. -/
def atomicNew (fn : Nat) (old operand compare : Nat) (w : Nat) : Nat :=
  match fn with
  | 0 => (old + operand) % 2 ^ w
  | 1 => operand % 2 ^ w
  | 2 => if old = compare % 2 ^ w then operand % 2 ^ w else old
  | 3 => min old (operand % 2 ^ w)
  | 4 => max old (operand % 2 ^ w)
  | 5 => old &&& operand % 2 ^ w
  | _ => old ||| operand % 2 ^ w

/-- A writeback reaching the slice: applied while the cache still owns or shares the line, else discarded (R44). -/
def Coh.takeWriteback (m : Coh) (w : Writeback) : Coh :=
  let e := m.dirLine w.line
  if e.st = .owned ∧ e.owner = w.who then
    let m1 := if w.dirty then m.fill w.line w.bytes w.poison else m
    (m1.setDir w.line { m1.dirLine w.line with st := .uncached, owner := 0,
                                               awaiting := e.awaiting.filter (· ≠ w.who) }).grantIfReady w.line
  else if e.sharers.contains w.who then
    let sh := e.sharers.filter (· ≠ w.who)
    (m.setDir w.line { e with sharers := sh, st := if sh.isEmpty then .uncached else e.st,
                              awaiting := e.awaiting.filter (· ≠ w.who) }).grantIfReady w.line
  else m

/-- A far access or atomic at its home slice: performed on the slice's copy (R46); a poisoned line faults the context
(R47). -/
def Dev.farAccess (d : Dev) (r : Req) : Dev :=
  let m := d.eng.coh
  match r.kind with
  | .far op =>
    if (m.dirLine r.line).poison then d.faultMemoryOp op.ctx
    else if op.store then (d.setCoh (m.write op.addr (leBytes op.size op.value.toNat))).finishLoad op []
    else d.finishLoad op (m.bytesAt op.addr op.size)
  | .atomic x k fn a operand compare =>
    if (m.dirLine r.line).poison then (if x < noCtx then d.fault x faultMemory else d)
    else
      let n := if 8 ≤ fn then 8 else 4
      let old := leNat (m.bytesAt a n)
      let d1 := d.setCoh (m.write a (leBytes n (atomicNew (fn % 8) old operand.toNat compare.toNat (8 * n))))
      let c := d1.ctx x
      let t := c.tk k
      if t.busy ∧ t.pend = .atSlice then d1.setCtx x (c.setTk k { t with pend := .value (BitVec.ofNat 64 old) }) else d1
  | _ => d

/-- A cacheable request at its home slice: the line is busy until the caches that hold it have been snooped, then it is
granted (R42). -/
def Coh.takeRequest (m : Coh) (r : Req) : Coh :=
  let e := m.dirLine r.line
  let targets : List Nat :=
    if e.st = .owned then (if e.owner = r.who then [] else [e.owner])
    else match r.kind with
      | .readShared => []
      | _ => e.sharers.filter (· ≠ r.who)
  let fwd := decide (e.st = .owned)
  let m1 := { m.setDir r.line { e with busy := some r, awaiting := targets,
                                       sharers := if r.kind = .readShared then e.sharers else e.sharers.filter (· ≠ r.who) } with
              snoops := m.snoops ++ targets.map (fun t => (t, r.line, fwd)) }
  m1.grantIfReady r.line

/-- How far a requester stands above the rotation pointer, wrapping after 203 (R41). -/
def rotDist (ptr who : Nat) : Nat := (who + 204 - ptr % 204) % 204

/-- Make room for a line in L2 (R31): a slice holds 16 lines of each of its 2,048 sets, and the caches hold none that L2 does not. In a
full set a line that no transaction has busy is given up, `pick` among them (log entry 13): its holders are sent back-invalidations, and
its entry is awaiting them. -/
def Coh.allocate (m : Coh) (line pick : Nat) : Coh :=
  if m.l2.contains line then m
  else
    let inSet := m.l2.filter (fun y => decide (homeSlice y = homeSlice line ∧ Config.l2Set y % 2048 = Config.l2Set line % 2048))
    let idle := inSet.filter (fun y => (m.dirLine y).busy.isNone && (m.dirLine y).awaiting.isEmpty)
    let m1 := { m with l2 := m.l2 ++ [line] }
    if inSet.length < 16 then m1
    else match idle[pick % idle.length]? with
      | none => m1
      | some v =>
        let e := m.dirLine v
        let holders := if e.st = .owned then [e.owner] else e.sharers
        { m1.setDir v { e with awaiting := holders } with
          l2 := m1.l2.filter (fun y => decide (y ≠ v))
          backs := m.backs ++ holders.map (fun h => (h, v)) }

/-- The waiting request of a slice that rotation serves next: lowest requester at or above the pointer, lines not busy and not being
back-invalidated (R41, R42). -/
def Coh.nextReq (m : Coh) (sl : Nat) : Option Req :=
  (m.reqs.filter (fun r => decide (homeSlice r.line = sl) && (m.dirLine r.line).busy.isNone && (m.dirLine r.line).awaiting.isEmpty)).foldl
    (fun best r => match best with
      | none => some r
      | some b => if rotDist (look 0 m.rot sl) r.who < rotDist (look 0 m.rot sl) b.who then some r else some b) none

/-- An ECC error of the L2 copy of a line: corrected and counted, or the line is poisoned (R47). -/
def Dev.sliceEcc (d : Dev) (now : NetTime) (sl line : Nat) (ecc : Ecc) : Dev :=
  match ecc with
  | .good => d
  | .single => d.bump ENG.L2ERR_CE sl
  | .double =>
    let m := d.eng.coh
    let e := m.dirLine line
    let d1 := (d.setCoh (m.setDir line { e with poison := true })).bump ENG.L2ERR_UE sl
    d1.raise now (ev 3 3) sl

/-- HOME_SLICE_TAKE: one new transaction, a writeback first, else the next request in rotation (R41). -/
def Dev.homeSliceTake (d : Dev) (now : NetTime) (sl : Nat) (ecc : Ecc) : Dev :=
  let m := d.eng.coh
  match m.wbs.find? (fun w => decide (homeSlice w.line = sl)) with
  | some w => d.setCoh ({ m with wbs := m.wbs.erase w }.takeWriteback w)
  | none =>
    match m.nextReq sl with
    | none => d
    | some r =>
      let m1 : Coh := { m with reqs := m.reqs.erase r, rot := put 0 m.rot sl ((r.who + 1) % 204) }
      let d1 := (if m1.l2.contains r.line then d else d.drawn).setCoh (m1.allocate r.line d.freeVal.toNat)
      let d2 := d1.sliceEcc now sl r.line ecc
      match r.kind with
      | .far _ | .atomic .. => d2.farAccess r
      | _ => d2.setCoh (d2.eng.coh.takeRequest r)

/-- HOME_SLICE_TAKE (02 R41). -/
def execHomeSliceTake (sl : Fin 24) (ecc : Ecc) : State → Host.Outcome State Fault Refusal :=
  onDev (fun now d => d.homeSliceTake now sl ecc)

/-- DATA_GRANT (02 R43). -/
def execDataGrant (who : Fin 204) (line : Nat) (ecc : Ecc) : State → Host.Outcome State Fault Refusal :=
  onDev (fun now d => d.dataGrant now who line ecc)

/-- SNOOP (02 R43). -/
def execSnoop (who : Fin 204) (line : Nat) (kind : SnoopKind) : State → Host.Outcome State Fault Refusal :=
  onDev (fun _ d => d.snoop who line kind)

end Sys2Proof.Machine
end

