-- ==== Sys2Proof/Machine/Payload.lean ====
section
/-! DEFINITION. A stored payload leaves the device (01 R23, R24; 11 R284; 16 R443). -/

namespace Sys2Proof.Machine

/-- A copy of a stored packet leaves: sent or delivered, or dropped. With the last copy its reservation is given back
(01 R24), and a submitted packet's transmit completion is due (16 R443); `ts` is the transmit timestamp. -/
def Dev.leave (d : Dev) (p : Packet) (sent : Bool) (ts : Option (Nat × Nat)) : Dev :=
  let n := match p.share with
    | some k => look 0 d.sch.shared k
    | none => 1
  let went := sent || decide (256 ≤ n)
  let last := decide (n % 256 ≤ 1)
  let rest := if last then 0 else n % 256 - 1 + (if went then 256 else 0)
  let d1 := match p.share with
    | some k => { d with sch := { d.sch with shared := put 0 d.sch.shared k rest } }
    | none => d
  if !last then d1
  else
    let d2 := if p.resv = 0 then d1
      else
        let c := look {} d1.adm.contracts p.resvOf
        { d1 with adm := { d1.adm with contracts := put {} d1.adm.contracts p.resvOf { c with used := c.used - p.resv } } }
    match p.txring with
    | none => d2
    | some (r, pos) =>
      { d2 with rng := { d2.rng with left := d2.rng.left ++
        [{ ring := r, pos := pos, status := if went then 0 else 1, mark := p.mark, len := p.len, ts := ts }] } }

/-- A packet is dropped, and its buffer space is freed. -/
def Dev.freePacket (d : Dev) (p : Packet) : Dev := d.leave p false none

/-- The packet whose payload a write descriptor reads leaves: delivered with the descriptor's last write, or dropped with it (01 R29
step 8). -/
def Dev.leaveWrite (d : Dev) (q : Desc) (sent : Bool) : Dev :=
  match q.pkt with
  | some p => d.leave p sent none
  | none => d

/-- The packets whose payload a list of abandoned descriptors would have read are dropped. -/
def Dev.dropWrites (d : Dev) (qs : List Desc) : Dev := qs.foldl (fun y q => y.leaveWrite q false) d

end Sys2Proof.Machine
end

