-- ==== Sys2Proof/Machine/EngineMgmt.lean ====
section
/-! DEFINITION. Engines: commit of the coherent window, watchdogs, failure and re-dispatch, retest, withdrawal, and the
reload of a bay's program store (02 R47, R51 to R56; 08 R206 to R208). -/

namespace Sys2Proof.Machine

/-- ESTAT.STATE values (02 R56). -/
abbrev engOffline : Nat := 0
abbrev engOnline : Nat := 1
abbrev engSlow : Nat := 2
abbrev engFailed : Nat := 3
abbrev engRetest : Nat := 4

/-- Put an engine into a state, with the FAILED map bit that goes with it. -/
def Dev.setEngine (d : Dev) (n st cause : Nat) : Dev :=
  let d1 := (d.wr ENG.ESTAT_STATE n st).wr ENG.ESTAT_CAUSE n cause
  let on := decide (st = engFailed)
  let d1 := if st = engOnline then d1.repaired 5 n else d1
  if n < 64 then d1.wrBit ENG.FAILED0_MAP 0 n on
  else if n < 128 then d1.wrBit ENG.FAILED1_MAP 0 (n - 64) on
  else d1.wrBit ENG.FAILED2_MAP 0 (n - 128) on

/-- ENG_COMMIT: validate the window fields and lock them, or set CERR (02 R56). A window already committed stays. -/
def Dev.engCommit (d : Dev) : Dev :=
  let base := d.rd ENG.COH_BASE_BASE
  let size := d.rd ENG.COH_SIZE_SIZE
  let atom := d.rd ENG.COH_SIZE_ATOM
  if d.rd ENG.STATUS_COMMITTED = 1 then d
  else if base + size > 32 ∨ size > 8 ∨ atom > 256 ∨ atom > size * 1024 then d.wr ENG.STATUS_CERR 0 1
  else (d.wr ENG.STATUS_CERR 0 0).wr ENG.STATUS_COMMITTED 0 1

/-- ENG_COMMIT (02 R56). -/
def execEngCommit : State → Host.Outcome State Fault Refusal := onDev (fun _ d => d.engCommit)

/-! ## Failure of an engine (02 R53, 08 R207, R208) -/

/-- Write back the modified lines of a cache and drop its other lines; those of `bad` have an uncorrectable error and are written back
poisoned (R53 step 3). -/
def Coh.flush (m : Coh) (who : Nat) (bad : List Nat) : Coh :=
  (m.caches.filter (fun e => decide (e.1 % 204 = who))).foldl (fun x e => x.evict who (e.1 / 204) (bad.contains (e.1 / 204))) m

/-- A packet of a failed engine goes back to the head of its pipeline's dispatch order, unless this was its third
engine failure, with which it is dropped (R207, R208). `copies`: those already delivered (R209). -/
def Dev.sendAgain (d : Dev) (now : NetTime) (p : Packet) (copies : Nat) : Dev :=
  if 2 ≤ p.redisp then ((d.bump DSP.REDISP_LOST p.pipe).raise now (ev 8 3) p.pipe).freePacket p
  else
    let p' := { p with redisp := p.redisp + 1, skipCopies := max p.skipCopies copies }
    { d.bump DSP.REDISP_COUNT p.pipe with
      dsp := { d.dsp with againQ := put [] d.dsp.againQ p.pipe (look [] d.dsp.againQ p.pipe ++ [p']) } }

/-- One context of a failed engine: HOLD keeps its result; a packet in RUN or WAIT is dispatched again; a task goes
back to READY ahead of the bay's other tasks (R49, R53, R207). -/
def Dev.abandonCtx (d : Dev) (now : NetTime) (x : Nat) : Dev :=
  let c := d.ctx x
  if c.st = .idle ∨ c.st = .hold then d
  else
    let d2 := (d.detach x).setCtx x {}
    match c.task with
    | some h =>
      let t := look {} d2.eng.tasks h
      { d2 with eng := { d2.eng with tasks := put {} d2.eng.tasks h { t with st := .ready }, readyQ := h :: d2.eng.readyQ } }
    | none =>
      match look none d2.dsp.inflight x with
      | some p =>
        let d3 := { d2 with dsp := { d2.dsp with inflight := put none d2.dsp.inflight x none } }
        (d3.wr DSP.INFLIGHT_COUNT p.pipe (d3.rd DSP.INFLIGHT_COUNT p.pipe - 1)).sendAgain now p (p.skipCopies + c.sent)
      | none => d2

/-- The contexts of an engine that hold a packet or task in RUN or WAIT, youngest first. -/
def Dev.busyCtxs (d : Dev) (n : Nat) : List Nat :=
  ((List.range 8).map (fun c => 8 * n + c)).filter (fun x => decide ((d.ctx x).st = .run ∨ (d.ctx x).st = .wait))

/-- An engine fails: state and event, flush, and its packets and tasks start again elsewhere (R53, R207). `src` is the
event of the mechanism that failed it; an ECC failure of the store raises its own event and names none here. `bad` are the L1 lines in
which the flush finds an uncorrectable error. -/
def Dev.failEngine (d : Dev) (now : NetTime) (n cause : Nat) (src : Option Nat) (bad : List Nat := []) : Dev :=
  let d1 := (d.setEngine n engFailed cause).revalidate 1
  let d2 := match src with
    | some e => d1.raise now e n
    | none => d1
  let d3 := d2.setCoh (d2.eng.coh.flush n bad)
  let xs := d3.busyCtxs n
  let hadPacket := xs.any (fun x => (d3.ctx x).task.isNone)
  let d4 := xs.reverse.foldl (fun y x => y.abandonCtx now x) d3
  let d5 := { d4 with eng := { d4.eng with withdraw := d4.eng.withdraw.filter (· ≠ n) } }
  if hadPacket then d5.raise now (ev 8 2) n else d5

/-- Whether an engine can fail: it is in service or leaving it. -/
def Dev.engineServes (d : Dev) (n : Nat) : Bool :=
  decide (d.rd ENG.ESTAT_STATE n = engOnline ∨ d.rd ENG.ESTAT_STATE n = engSlow)

/-- CONTEXT_WATCHDOG: a running context reached twice its bound, and its engine fails with EVT 3.0 (R51). -/
def execContextWatchdog (x : Fin 1536) (bad : List Nat) : State → Host.Outcome State Fault Refusal :=
  onDev (fun now d =>
    let bound := (look {} d.prog.images (d.ctx x).image).bound
    if d.engineServes (x / 8) ∧ ((d.ctx x).st = .run ∨ (d.ctx x).st = .wait) ∧ 2 * bound ≤ (d.ctx x).cycles then
      d.failEngine now (x / 8) 0 (some (ev 3 0)) bad
    else d)

/-- STALL_WATCHDOG: an engine with a context in RUN issued nothing, and fails with EVT 3.1 (R51). -/
def execStallWatchdog (n : Fin 192) (bad : List Nat) : State → Host.Outcome State Fault Refusal :=
  onDev (fun now d =>
    if d.engineServes n ∧ ((List.range 8).any (fun c => decide ((d.ctx (8 * n + c)).st = .run))) then
      d.failEngine now n 2 (some (ev 3 1)) bad
    else d)

/-! ## Slow marking at retirement (08 R206) -/

/-- Compare the context cycles of a retirement with the verified bound: record the ratio, mark the engine SLOW or back
ONLINE, and answer whether the engine fails (more than twice the bound). -/
def Dev.slowMark (d : Dev) (now : NetTime) (n cycles bound : Nat) : Dev :=
  let ratio := if bound = 0 then 0xFFFF else min ((cycles * 512 + bound) / (2 * bound)) 0xFFFF
  let clean := decide (4 * cycles ≤ 5 * bound)
  let d1 := (d.wr DSP.ERATIO_LAST n ratio).peak DSP.ERATIO_PEAK n ratio
  let d2 := if clean then d1.bump DSP.ERATIO_CLEAN n else d1.wr DSP.ERATIO_CLEAN n 0
  if clean then
    if d2.rd ENG.ESTAT_STATE n = engSlow ∧ max 1 (d2.rd DSP.CFG_SLOWCLR) ≤ d2.rd DSP.ERATIO_CLEAN n then
      (d2.wr ENG.ESTAT_STATE n engOnline).raise now (ev 8 1) n
    else d2
  else if d2.rd ENG.ESTAT_STATE n = engOnline then (d2.wr ENG.ESTAT_STATE n engSlow).raise now (ev 8 0) n
  else d2

/-! ## Retest, withdrawal (02 R54, R56) -/

/-- RETEST: starts the retest of an engine that is OFFLINE or FAILED; ignored otherwise. -/
def execRetest (n : Fin 192) : State → Host.Outcome State Fault Refusal :=
  onDev (fun _ d =>
    if d.rd ENG.ESTAT_STATE n = engOffline ∨ d.rd ENG.ESTAT_STATE n = engFailed then d.setEngine n engRetest 0 else d)

/-- RETEST_DONE: EVT 3.8, and the engine is ONLINE, or FAILED with cause FAILED_TEST. -/
def execRetestDone (n : Fin 192) (pass : Bool) : State → Host.Outcome State Fault Refusal :=
  onDev (fun now d =>
    if d.rd ENG.ESTAT_STATE n = engRetest then
      (if pass then (d.setEngine n engOnline 0).revalidate 1 else d.setEngine n engFailed 4).raise now (ev 3 8) n
    else d)

/-- ENGINE_WITHDRAW: stops dispatch to an ONLINE or SLOW engine; ignored otherwise. -/
def execEngineWithdraw (n : Fin 192) : State → Host.Outcome State Fault Refusal :=
  onDev (fun _ d =>
    if d.engineServes n && !d.eng.withdraw.contains n.val then
      { d with eng := { d.eng with withdraw := n.val :: d.eng.withdraw } }
    else d)

/-- WITHDRAW_DONE: once the contexts of a withdrawn engine are IDLE its state is FAILED with cause 5h. -/
def execWithdrawDone (n : Fin 192) : State → Host.Outcome State Fault Refusal :=
  onDev (fun _ d =>
    if d.eng.withdraw.contains n.val && (List.range 8).all (fun c => decide ((d.ctx (8 * n + c)).st = .idle)) then
      (({ d with eng := { d.eng with withdraw := d.eng.withdraw.filter (· ≠ n.val) } }).setEngine n engFailed 5).revalidate 1
    else d)

/-- ENGINE_ONLINE: returns an engine with cause 5h to ONLINE; ignored otherwise. -/
def execEngineOnline (n : Fin 192) : State → Host.Outcome State Fault Refusal :=
  onDev (fun _ d =>
    if d.rd ENG.ESTAT_STATE n = engFailed ∧ d.rd ENG.ESTAT_CAUSE n = 5 then (d.setEngine n engOnline 0).revalidate 1 else d)

/-! ## Program store of a bay (02 R47) -/

/-- An uncorrectable error in a bay's program store: the bay's engines are withdrawn, the store reloads, EVT 3.4. -/
def Dev.storeError (d : Dev) (now : NetTime) (bay : Nat) : Dev :=
  let d1 := ((d.wr ENG.BSTAT_STORE_OK bay 0).wr ENG.BSTAT_RELOAD bay 1).raise now (ev 3 4) bay
  (List.range 16).foldl (fun x i =>
    if x.engineServes (16 * bay + i) then x.failEngine now (16 * bay + i) 3 none else x) d1

end Sys2Proof.Machine
end

