-- ==== Sys2Proof/Machine/Rings.lean ====
section
/-! DEFINITION. Rings: geometry, doorbells, contexts, entry fetch, completions, isolation, and the channels of the DMA
engine (16 R424 to R449). -/

namespace Sys2Proof.Machine

/-! ## A ring and its context words (R424, R425, R432) -/

def Ring.size (x : Ring) : Nat := bitsOf x.w0 0 5
def Ring.noSnoop (x : Ring) : Bool := x.w0.testBit 8
def Ring.relaxed (x : Ring) : Bool := x.w0.testBit 9
def Ring.cxlc (x : Ring) : Bool := x.w0.testBit 10
def Ring.base (x : Ring) : Nat := bitsOf x.w0 12 52 * 4096
def Ring.polder (x : Ring) : Nat := bitsOf x.w1 0 13
def Ring.adm (x : Ring) : Bool := x.w1.testBit 16
/-- The priority of the ring's descriptors: 7h under ADM (R448). -/
def Ring.prio (x : Ring) : Nat := if x.adm then 7 else bitsOf x.w1 13 3
def Ring.cq (x : Ring) : Nat := bitsOf x.w1 32 18
def Ring.mode (x : Ring) : Nat := bitsOf x.w2 0 2
def Ring.slot (x : Ring) : Nat := bitsOf x.w2 8 6
def Ring.pipe (x : Ring) : Nat := bitsOf x.w2 16 2
def Ring.txsrc (x : Ring) : Nat := bitsOf x.w2 20 20
def Ring.queue (x : Ring) : Nat := bitsOf x.w2 40 18
def Ring.ltidx (x : Ring) : Nat := bitsOf x.w2 0 8
def Ring.vector (x : Ring) : Nat := bitsOf x.w2 0 11
def Ring.ccnt (x : Ring) : Nat := bitsOf x.w2 16 8
def Ring.cusec (x : Ring) : Nat := bitsOf x.w2 32 10

/-- Units of the ring. -/
def Ring.units (x : Ring) : Nat := 2 ^ x.size

/-- The distance from position `a` to position `b`, modulo two laps (R425). -/
def Ring.dist (x : Ring) (a b : Nat) : Nat := (b + 2 * x.units - a % (2 * x.units)) % (2 * x.units)

/-- The used count (R425). -/
def Ring.used (x : Ring) : Nat := x.dist x.head x.tail

/-- A position moved on by `n` units. -/
def Ring.moved (x : Ring) (pos n : Nat) : Nat := (pos + n) % (2 * x.units)

/-- The phase bit of a unit at a position: 1 while the wrap bit is 0 (R426). -/
def Ring.phase (x : Ring) (pos : Nat) : Bool := decide (pos < x.units)

/-- The host address of the unit at a position. -/
def Ring.unitAddr (x : Ring) (pos : Nat) : Nat := x.base + 16 * (pos % x.units)

/-- A position as the HEAD and wrap fields of a completion, index in the low 16 bits and wrap above (R441). -/
def Ring.posField (x : Ring) (pos : Nat) : Nat := pos % x.units + (if pos < x.units then 0 else 2 ^ 16)

/-- INFO of a ring's event: [17:0] ring, [19:18] kind (18 R569). -/
def ringInfo (kind r : Nat) : Nat := r + kind * 2 ^ 18

/-! ## Completions (R441 to R446) -/

/-- Unit 0 of a completion: units, TYPE, STATUS, RING, HEAD with wrap, and the fields above bit 64. -/
def cplUnit0 (units type status ring headField hi : Nat) : Nat :=
  (units - 1) + type * 2 ^ 4 + status * 2 ^ 8 + ring * 2 ^ 16 + headField * 2 ^ 34 + hi * 2 ^ 64

/-- The bytes of a unit with its phase bit. -/
def unitBytes (u : Nat) (phase : Bool) : List Byte := leBytes 16 (u % 2 ^ 127 + (if phase then 2 ^ 127 else 0))

/-- Write units at the tail of a completion ring, one host write each unit, and move the tail. -/
def Dev.writeUnits (d : Dev) (r : Nat) : List Nat → Dev
  | [] => d
  | u :: us =>
    let x := d.ring kCq r
    ((d.hostWrite x.polder (x.unitAddr x.tail) (unitBytes u (x.phase x.tail))).setRing kCq r
      { x with tail := x.moved x.tail 1 }).writeUnits r us

/-- The pad entry that fills `n` units up to the end of a ring (R427). -/
def padUnits (n : Nat) : List Nat := (n - 1 + 0xF * 2 ^ 4) :: List.replicate (n - 1) 0

/-- The units a completion takes at the tail of a ring, with the pad before it if it would cross the ring's end. -/
def Ring.withPad (x : Ring) (us : List Nat) : List Nat :=
  let room := x.units - x.tail % x.units
  if room < us.length then padUnits room ++ us else us

/-- Whether a completion fits a ring now. -/
def Ring.fits (x : Ring) (us : List Nat) : Bool := decide ((x.withPad us).length + x.used ≤ x.units)

/-- Send the vector of a completion ring, after its completion writes: those held for a translation (R404), and the global observation
of the others (R420). -/
def Dev.ringVector (d : Dev) (r : Nat) : Dev :=
  let x := d.ring kCq r
  if 0 < x.gos ∨ d.hif.held.any (fun e => decide (e.1 = x.polder)) then d.setRing kCq r { x with armed := false, vecWait := true }
  else (d.setRing kCq r { x with armed := false }).vector x.polder x.vector

/-- The interrupt of an armed completion ring (R445): sent and disarmed when enough completions are written. -/
def Dev.coalesce (d : Dev) (r : Nat) : Dev :=
  let x := d.ring kCq r
  if x.armed ∧ 0 < x.since ∧ (max x.ccnt 1 ≤ x.since ∨ x.cusec = 0) then
    d.ringVector r
  else d

/-- Place a completion that fits in its ring, count it and judge the interrupt. -/
def Dev.placeCpl (d : Dev) (r : Nat) (c : Completion) : Dev :=
  let d1 := d.writeUnits r ((d.ring kCq r).withPad c.units)
  let x := d1.ring kCq r
  let go := if x.cxlc && d.cxlcAllowed x.polder then 1 else 0
  (d1.setRing kCq r { x with
    done := up32 x.done, since := x.since + 1, gos := x.gos + go, unread := x.unread ++ [x.tail]
    firstAt := if x.since = 0 then d.eng.tclks else x.firstAt }).coalesce r

/-- The TYPE 7h ring-event completion of a ring (R441, R446, R447). -/
def ringEvent (key status headField lost : Nat) : Completion :=
  { units := [cplUnit0 2 7 status (key % 2 ^ 18) headField ((key / 2 ^ 18) * 2 ^ 32), min lost (2 ^ 32 - 1)] }

/-- Write the completions that wait in the overflow of a ring while they fit, then the ring-event notices (R446). The
fuel is the number that wait. -/
def Dev.drainOverflow (d : Dev) (r : Nat) : Nat → Dev
  | 0 => d
  | fuel + 1 =>
    let x := d.ring kCq r
    match x.overflow, x.notices with
    | c :: cs, _ =>
      if x.fits c.units then ((d.setRing kCq r { x with overflow := cs }).placeCpl r c).drainOverflow r fuel else d
    | [], k :: ks =>
      let y := look {} d.rng.rings k
      let c := ringEvent k 5 (y.posField y.head) y.lost
      if x.fits c.units then ((d.setRing kCq r { x with notices := ks }).placeCpl r c).drainOverflow r fuel else d
    | [], [] => d

/-- The keys of the rings that name a completion ring and are in service. -/
def Dev.namers (d : Dev) (r : Nat) : List Nat :=
  (d.rng.rings.filter (fun e => decide (e.1 < 2 ^ 19 ∧ e.2.cq = r ∧ e.2.st ≠ .disabled))).map (fun e => e.1)

/-- The descriptors of a ring's entries that no channel has taken are given up. -/
def Dev.dropWaiting (d : Dev) (key : Nat) : Dev :=
  { d with rng := { d.rng with waiting := d.rng.waiting.filter (fun q => decide (q.ring ≠ key ∨ key / 2 ^ 18 ≠ kSub)) } }

/-- Isolate a completion ring and every ring that names it, with EVT 1.26 (R446). -/
def Dev.isolate (d : Dev) (now : NetTime) (r : Nat) : Dev :=
  let ks := d.namers r
  let held := ks.filter (fun k => decide (0 < (look ({} : Ring) d.rng.rings k).used))
  let d1 := ks.foldl (fun y k =>
    let x := look ({} : Ring) y.rng.rings k
    { y with rng := { y.rng with rings := put {} y.rng.rings k { x with st := .isolated, bufs := [], subs := x.subs.filter (fun e => e.started) } } }.dropWaiting k) d
  let x := d1.ring kCq r
  let d2 := d1.setRing kCq r { x with st := .isolated, notices := held }
  let d3 := d2.wr RNG.STATUS_ISOLATED 0 (d2.rd RNG.STATUS_ISOLATED + ks.length + 1)
  d3.raise now (ev 1 26) (ringInfo kCq r) (d3.ringPolder kCq r)

/-- Count a completion that is discarded: on its completion ring, on the ring concerned, and in RNG.CQFULL. -/
def Dev.discardCpl (d : Dev) (r key : Nat) : Dev :=
  let x := d.ring kCq r
  let d1 := (d.setRing kCq r { x with dropped := up32 x.dropped }).bump RNG.CQFULL_LOST
  let y := look ({} : Ring) d1.rng.rings key
  if y.st = .isolated then { d1 with rng := { d1.rng with rings := put {} d1.rng.rings key { y with lost := y.lost + 1 } } } else d1

/-- A completion reaches its ring: written, held in overflow, or discarded (R441, R446; 02 R48 for a ring not
ENABLED). -/
def Dev.postCpl (d : Dev) (now : NetTime) (r key : Nat) (c : Completion) : Dev :=
  let x := d.ring kCq r
  if x.st ≠ .enabled then d.discardCpl r key
  else if x.overflow.isEmpty && x.fits c.units then d.placeCpl r c
  else if x.overflow.length < 64 then
    let d1 := (d.setRing kCq r { x with
      overflow := x.overflow ++ [c], fullAt := if x.overflow.isEmpty then d.eng.tclks else x.fullAt }).bump RNG.CQFULL_HELD
    let d2 := if x.overflow.isEmpty then d1.raise now (ev 1 28) r (d1.ringPolder kCq r) else d1
    if x.overflow.length = 63 then d2.isolate now r else d2
  else (d.isolate now r).discardCpl r key

/-- A completion arises, under the next number: it waits until COMPLETION_WRITE writes it (R443, R444). -/
def Dev.queueCpl (d : Dev) (r key : Nat) (c : Completion) : Dev :=
  { d with rng := { d.rng with cpls := d.rng.cpls ++ [(r, key, { c with tag := d.rng.nextCpl, key := key })], nextCpl := d.rng.nextCpl + 1 } }

/-- The oldest completion that may be written: its payload writes are issued and observed, and no older completion of
its ring still waits (R440, R444). `seen` holds the rings passed over. -/
def nextWritable (seen : List Nat) : List (Nat × Nat × Completion) → Option (Nat × Nat × Completion)
  | [] => none
  | (r, key, c) :: rest =>
    if c.held ∨ 0 < c.gos ∨ seen.contains key then nextWritable (key :: seen) rest else some (r, key, c)

/-- COMPLETION_WRITE: the oldest completion that may be written goes to its ring or its overflow (R441, R444, R446). -/
def execCompletionWrite : State → Host.Outcome State Fault Refusal :=
  onDev (fun now d =>
    match nextWritable [] d.rng.cpls with
    | some (r, key, c) =>
      ({ d with rng := { d.rng with cpls := d.rng.cpls.filter (fun e => decide (e.2.2.tag ≠ c.tag)) } }).postCpl now r key c
    | none => d)

/-- COALESCE_TIMER: CUSEC µs have passed since the first completion written on an armed ring, and its vector is sent (R445). -/
def execCoalesceTimer (ring : Fin 131072) : State → Host.Outcome State Fault Refusal :=
  onDev (fun _ d =>
    let x := d.ring kCq ring
    if x.armed ∧ 0 < x.since ∧ x.firstAt + 1000 * x.cusec ≤ d.eng.tclks then d.ringVector ring else d)

/-- ISOLATION_TIMER: a completion ring that stayed full for ISOLMS is isolated with the rings that name it (R446). -/
def execIsolationTimer (ring : Fin 131072) : State → Host.Outcome State Fault Refusal :=
  onDev (fun now d =>
    let x := d.ring kCq ring
    if x.st = .enabled && !x.overflow.isEmpty && decide (x.fullAt + 1000000 * d.rd RNG.CFG_ISOLMS ≤ d.eng.tclks) then d.isolate now ring else d)

/-! ## Completed entries of a submission ring (R441) -/

/-- Drop the entries at the front that have completed, and move the head past them. -/
def Ring.settle (x : Ring) : Ring :=
  let run := x.subs.takeWhile (fun e => e.done)
  { x with head := run.foldl (fun p e => x.moved p e.units) x.head, subs := x.subs.drop run.length }

/-- Mark the entry at a position completed. -/
def Ring.finish (x : Ring) (pos : Nat) : Ring :=
  { x with
    subs := x.subs.map (fun (e : SubEntry) => if e.pos = pos then { e with started := true, done := true } else e)
    done := up32 x.done : Ring }.settle

/-- Mark a submission entry started (R434). -/
def Ring.start (x : Ring) (pos : Nat) : Ring :=
  { x with subs := x.subs.map (fun (e : SubEntry) => if e.pos = pos then { e with started := true } else e) }

/-- A ring goes to ERROR: fetching stops, a TYPE 7h completion with the status and HEAD at the failed entry, EVT 1.25
(R447). -/
def Dev.ringError (d : Dev) (now : NetTime) (kind r status pos : Nat) : Dev :=
  let x := d.ring kind r
  let d1 := (d.setRing kind r { x with
    st := if x.st = .enabled then .error else x.st
    subs := if x.st = .stopping then x.subs.filter (fun e => decide (e.pos ≠ pos)) else x.subs }).dropWaiting (ringKey kind r)
  let d2 := d1.queueCpl x.cq (ringKey kind r) (ringEvent (ringKey kind r) status (x.posField pos) 0)
  let d3 := ((d2.bump RNG.ERRORS_COUNT).wr RNG.ERRORS_LASTRING 0 r).wr RNG.ERRORS_LASTSTAT 0 status
  d3.raise now (ev 1 25) (ringInfo kind r) (d3.ringPolder kind r)

/-! ## Doorbells (R428 to R430) -/

/-- The fields of a doorbell value (R429). -/
def dbRing (v : Word) : Nat := bitsOf v.toNat 0 18
def dbKind (v : Word) : Nat := bitsOf v.toNat 18 2
def dbIndex (v : Word) : Nat := bitsOf v.toNat 32 16
def dbWrap (v : Word) : Nat := bitsOf v.toNat 48 1
def dbArm (v : Word) : Bool := v.toNat.testBit 49
/-- Whether the reserved bits of a doorbell value are zero; ARM is reserved but for KIND 2h. -/
def dbReserved (v : Word) : Bool :=
  decide (bitsOf v.toNat 20 12 = 0 ∧ bitsOf v.toNat 50 14 = 0) && (decide (dbKind v = kCq) || !dbArm v)

/-- The position a doorbell spells on a ring. -/
def Ring.dbPos (x : Ring) (v : Word) : Nat := dbIndex v + dbWrap v * x.units

/-- Whether a doorbell is in range: a tail leaves at most 2^SIZE units used; a head does not pass the device's tail
(R430). -/
def Ring.dbInRange (x : Ring) (v : Word) : Bool :=
  if dbKind v = kCq then decide (x.dist (x.dbPos v) x.tail ≤ x.units) else decide (x.dist x.head (x.dbPos v) ≤ x.units)

/-- Whether a doorbell in range would move its index backward (R430). -/
def Ring.dbStale (x : Ring) (v : Word) : Bool :=
  if dbKind v = kCq then decide (x.used < x.dist (x.dbPos v) x.tail) else decide (x.dist x.head (x.dbPos v) < x.used)

/-- The checks of R430. -/
def Dev.dbValid (d : Dev) (fn slot : Nat) (v : Word) : Bool :=
  let kind := dbKind v
  let r := dbRing v
  let x := d.ring kind r
  decide (slot = if fn % 4096 = 0 then r else r % 8192) && decide (kind ≠ 3) && decide (r < ringCount kind)
    && d.ownsRing fn kind r && (decide (x.st = .enabled) || (decide (kind = kCq) && decide (x.st = .isolated)))
    && decide (dbIndex v < x.units) && dbReserved v && x.dbInRange v

/-- A doorbell that takes effect: the new tail, or the new head with the space it frees and the arming (R430, R445). -/
def Dev.dbEffect (d : Dev) (v : Word) : Dev :=
  let kind := dbKind v
  let r := dbRing v
  let x := d.ring kind r
  if kind = kCq then
    let y := { x with head := x.dbPos v }
    let d1 := d.setRing kCq r { y with unread := x.unread.filter (fun e => decide (0 < y.dist y.head e ∧ y.dist y.head e ≤ y.used)) }
    let d2 := d1.drainOverflow r (x.overflow.length + x.notices.length)
    if dbArm v then
      let y := d2.ring kCq r
      (d2.setRing kCq r { y with armed := true, since := y.unread.length, firstAt := d.eng.tclks }).coalesce r
    else d2
  else d.setRing kind r { x with tail := x.dbPos v, stalled := false }

/-- A doorbell write of a function to a slot (R430): refused, stale, or taking effect. -/
def Dev.doorbell (d : Dev) (now : NetTime) (fn slot : Nat) (v : Word) : Dev :=
  if !d.memAnswers fn then d.urAnswer now fn
  else if !d.dbValid fn slot v then
    ((d.bump RNG.DBINVALID_COUNT).wr RNG.DBINVALID_LASTRING 0 (dbRing v)).raiseSec now (ev 1 24) 0
      (ringInfo (dbKind v) (dbRing v)) (some fn)
  else if (d.ring (dbKind v) (dbRing v)).dbStale v then d.bump RNG.DBSTALE_COUNT
  else d.dbEffect v

/-- SUBMISSION_TAIL_DOORBELL (R430). -/
def execSubmissionTailDoorbell (fn : Fn) (slot : Nat) (value : Word) : State → Host.Outcome State Fault Refusal :=
  onDev (fun now d => d.doorbell now fn slot value)
/-- RECEIVE_TAIL_DOORBELL (R430). -/
def execReceiveTailDoorbell (fn : Fn) (slot : Nat) (value : Word) : State → Host.Outcome State Fault Refusal :=
  onDev (fun now d => d.doorbell now fn slot value)
/-- COMPLETION_HEAD_DOORBELL (R430, R445, R446). -/
def execCompletionHeadDoorbell (fn : Fn) (slot : Nat) (value : Word) : State → Host.Outcome State Fault Refusal :=
  onDev (fun now d => d.doorbell now fn slot value)

/-! ## Contexts (R432 to R434) -/

/-- A channel of a group. -/
def Dev.chan (d : Dev) (g c : Nat) : Chan := look {} d.rng.chans (32 * g + c)

/-- Replace a channel. -/
def Dev.setChan (d : Dev) (g c : Nat) (x : Chan) : Dev :=
  { d with rng := { d.rng with chans := put {} d.rng.chans (32 * g + c) x } }

/-- Whether the bits of a context word outside a list of (lowest bit, width) fields are zero. -/
def onlyFields (v : Nat) (fs : List (Nat × Nat)) : Bool := decide (fs.foldl (fun x f => setBits x f.1 f.2 0) v = 0)

/-- Whether the words of a context obey R432 for its kind. -/
def Ring.fieldsOk (x : Ring) (kind : Nat) : Bool :=
  decide (6 ≤ x.size ∧ x.size ≤ 16) && decide (bitsOf x.w0 5 2 = kind)
    && onlyFields x.w0 [(0, 5), (5, 2), (8, 3), (12, 52)]
    && (if kind = kCq then onlyFields x.w1 [(0, 13)] && onlyFields x.w2 [(0, 11), (16, 8), (32, 10)]
        else onlyFields x.w1 [(0, 13), (13, 3), (16, 1), (32, 18)]
          && (if kind = kRx then onlyFields x.w2 [(0, 8)]
              else onlyFields x.w2 [(0, 2), (8, 6), (16, 2), (20, 20), (40, 18)]))

/-- Whether a writer may command a ring: the control cores any, a PF those of its own polders (R433). -/
def Dev.mayCommand (d : Dev) (w : Writer) (kind r : Nat) : Bool :=
  match w with
  | .control => true
  | .pf0 => decide ((d.ringPolder kind r).map pfOf = some 0)
  | .pf1 => decide ((d.ringPolder kind r).map pfOf = some 1)

/-- The polder an event of a writer's command carries: the writing function. -/
def writerPolder : Writer → Option Nat
  | .pf0 => some 0
  | .pf1 => some 4096
  | .control => none

/-- End a context command with a result; a refusal raises EVT 1.31 (R433). -/
def Dev.ctxResult (d : Dev) (now : NetTime) (w : Writer) (kind r code : Nat) : Dev :=
  let d1 := d.wr RNG.CSTAT_RESULT w.view code
  if code = 0 then d1 else d1.raise now (ev 1 31) (ringInfo kind r) (writerPolder w)

/-- Run a context command when its ring is in range and permitted; `body` answers the device and the result code. -/
def Dev.ctxCommand (d : Dev) (now : NetTime) (w : Writer) (kind r : Nat) (body : Dev × Nat) : Dev :=
  if kind = 3 ∨ ringCount kind ≤ r then d.ctxResult now w kind r 2
  else if !d.mayCommand w kind r then d.ctxResult now w kind r 1
  else body.1.ctxResult now w kind r body.2

/-- Staged context word `j` of a writer. -/
def Dev.cstg (d : Dev) (w : Writer) (j : Nat) : Nat := d.rd RNG.CSTG_DATA (8 * w.view + j)

/-- WRITE of a context: only the control cores write ADM, TXSRC and a PRIO of 7h (R432). -/
def Dev.ctxWrite (d : Dev) (w : Writer) (kind r : Nat) : Dev × Nat :=
  let x := d.ring kind r
  if x.st ≠ .disabled then (d, 4)
  else
    let w1 := setBits (d.cstg w 1) 0 13 ((d.ringPolder kind r).getD 0)
    let w2 := d.cstg w 2
    let (w1', w2') :=
      if w = .control then (w1, w2)
      else
        (setBits (setBits w1 16 1 (bitsOf x.w1 16 1)) 13 3 (min (bitsOf w1 13 3) 6),
         if kind = kSub then setBits w2 20 20 x.txsrc else w2)
    (d.setRing kind r { x with w0 := d.cstg w 0, w1 := w1', w2 := w2' }, 0)

/-- ENABLE of a ring (R433). Head, tail and wrap bits read 0 (R425). -/
def Dev.ctxEnable (d : Dev) (kind r : Nat) : Dev × Nat :=
  let x := d.ring kind r
  if x.st ≠ .disabled then (d, 4)
  else if !x.fieldsOk kind || (decide (kind = kRx ∧ x.ltidx ≠ 0) && decide (d.rd DMA.LTPROF_EN x.ltidx = 0))
      || (x.cxlc && !d.cxlcAllowed x.polder) then (d, 3)
  else if kind ≠ kCq ∧ ((d.ring kCq x.cq).st ≠ .enabled ∨ (d.ring kCq x.cq).polder ≠ x.polder) then (d, 4)
  else (d.setRing kind r { x with
      st := .enabled, head := 0, tail := 0, fetch := 0, stalled := false, subs := [], bufs := [],
      armed := false, since := 0, unread := [], overflow := [], notices := [], lost := 0 }, 0)

/-- The transfers of a submission ring's entries that channels run are given up: their reads are discarded on arrival (R434, for a ring in
ERROR or ISOLATED). -/
def Dev.abandonRing (d : Dev) (key : Nat) : Dev :=
  let mine := fun (q : Desc) => decide (q.ring = key ∧ key / 2 ^ 18 = kSub)
  let busy := (List.range 128).filter (fun i => ((d.chan (i / 32) (i % 32)).desc).any mine)
  let d1 : Dev := { d with hif := { d.hif with reads := d.hif.reads.map (fun e =>
    if busy.contains (32 * e.group + e.chan) then { e with dead := true } else e) } }
  busy.foldl (fun (y : Dev) i => (y.setChan (i / 32) (i % 32) { y.chan (i / 32) (i % 32) with desc := none }).wr DMA.GSTAT_BUSY (i / 32)
    (y.rd DMA.GSTAT_BUSY (i / 32) - 1)) d1

/-- DISABLE of a ring: it reads STOPPING until DISABLE_DONE (R434). -/
def Dev.ctxDisable (d : Dev) (kind r : Nat) : Dev × Nat :=
  let x := d.ring kind r
  if x.st = .disabled ∨ x.st = .stopping ∨ (kind = kCq ∧ !(d.namers r).isEmpty) then (d, 4)
  else
    let keep := if x.st = .enabled then x.subs.filter (fun e => e.started) else []
    let d1 := if x.st = .isolated then d.wr RNG.STATUS_ISOLATED 0 (d.rd RNG.STATUS_ISOLATED - 1) else d
    let d2 := (if x.st = .enabled then d1 else d1.abandonRing (ringKey kind r)).dropWaiting (ringKey kind r)
    (d2.setRing kind r { x with st := .stopping, subs := keep, bufs := [] }, 0)

/-- READ of a context: its six words into the writer's staging (R432, R433). -/
def Dev.ctxRead (d : Dev) (w : Writer) (kind r : Nat) : Dev × Nat :=
  let x := d.ring kind r
  let stn : Nat := match x.st with
    | .disabled => 0 | .enabled => 1 | .stopping => 2 | .error => 3 | .isolated => 4
  let w3 := x.posField x.head + x.posField x.tail * 2 ^ 32 + stn * 2 ^ 56
  let w4 := x.done + x.dropped * 2 ^ 32
  let w5 := if kind = kSub then x.waits else if kind = kCq then x.overflow.length * 2 ^ 32 else 0
  ([x.w0, x.w1, x.w2, w3, w4, w5].zipIdx.foldl (fun y e => y.wr RNG.CSTG_DATA (8 * w.view + e.2) e.1) d, 0)

/-- A context command runs to its end, and BUSY clears (R433). -/
def Dev.ctxRun (d : Dev) (now : NetTime) (w : Writer) (c : CtxCmd) : Dev :=
  let d0 : Dev := { d with rng := { d.rng with ctxWait := put none d.rng.ctxWait w.view none, ctxRot := turnAfter w } }
  let d1 := match c.op with
    | 1 => d0.ctxCommand now w c.kind c.ring (d0.ctxWrite w c.kind c.ring)
    | 2 => d0.ctxCommand now w c.kind c.ring (d0.ctxEnable c.kind c.ring)
    | 3 => d0.ctxCommand now w c.kind c.ring (d0.ctxDisable c.kind c.ring)
    | 4 => d0.ctxCommand now w c.kind c.ring (d0.ctxRead w c.kind c.ring)
    | _ => d0.ctxResult now w c.kind c.ring 5
  d1.wr RNG.CSTAT_BUSY w.view 0

/-- A writer writes RNG.CCMD: ignored and counted while BUSY is set; else its command waits for its turn (R433, R454). -/
def Dev.ctxPost (d : Dev) (w : Writer) (c : CtxCmd) : Dev :=
  if d.rd RNG.CSTAT_BUSY w.view = 1 then d.bump RNG.CSTAT_IGNORED w.view
  else ({ d with rng := { d.rng with ctxWait := put none d.rng.ctxWait w.view (some c) } } : Dev).wr RNG.CSTAT_BUSY w.view 1

/-- The commands of the writers run one at a time, in rotating writer order, within a TCLK (R433; log entry 35). -/
def Dev.ctxTick (d : Dev) (now : NetTime) : Dev :=
  let r := d.rng.ctxRot
  (writerTurns r).foldl (fun (y : Dev) v =>
    match look none y.rng.ctxWait v with
    | some c => y.ctxRun now (writerOf v) c
    | none => y) d

/-- CONTEXT_WRITE: RNG.CCMD WRITE (R433). -/
def execContextWrite (w : Writer) (kind : Fin 4) (ring : Fin 262144) : State → Host.Outcome State Fault Refusal :=
  onDev (fun _ d => d.ctxPost w { op := 1, kind := kind, ring := ring })
/-- CONTEXT_ENABLE: RNG.CCMD ENABLE (R433). -/
def execContextEnable (w : Writer) (kind : Fin 4) (ring : Fin 262144) : State → Host.Outcome State Fault Refusal :=
  onDev (fun _ d => d.ctxPost w { op := 2, kind := kind, ring := ring })
/-- CONTEXT_DISABLE: RNG.CCMD DISABLE (R433, R434). -/
def execContextDisable (w : Writer) (kind : Fin 4) (ring : Fin 262144) : State → Host.Outcome State Fault Refusal :=
  onDev (fun _ d => d.ctxPost w { op := 3, kind := kind, ring := ring })
/-- CONTEXT_READ: RNG.CCMD READ (R433). -/
def execContextRead (w : Writer) (kind : Fin 4) (ring : Fin 262144) : State → Host.Outcome State Fault Refusal :=
  onDev (fun _ d => d.ctxPost w { op := 4, kind := kind, ring := ring })

/-- DISABLE_DONE: a STOPPING ring whose started entries have completed and whose completions are written becomes
DISABLED, with EVT 1.29 (R434). -/
def execDisableDone (kind : Fin 3) (ring : Fin 262144) : State → Host.Outcome State Fault Refusal :=
  onDev (fun now d =>
    let x := d.ring kind ring
    if x.st = .stopping && x.subs.all (fun e => e.done) && !d.rng.cpls.any (fun c => decide (c.2.1 = ringKey kind ring))
        && (d.ring kCq x.cq).overflow.all (fun c => decide (kind.val = kCq ∨ c.key ≠ ringKey kind ring)) then
      (d.setRing kind ring { x with st := .disabled, overflow := [], notices := [] }).raise now (ev 1 29)
        (ringInfo kind ring) (d.ringPolder kind ring)
    else d)

/-! ## Entry fetch (R427, R437 to R439) -/

/-- Whether the units of a submission entry obey R435 and R438 for the ring's MODE. -/
def subEntryOk (mode : Nat) (us : List Nat) : Bool :=
  match us with
  | [] => false
  | u0 :: rest =>
    let type := bitsOf u0 4 4
    if mode = 2 then decide (type = 2 ∧ us.length = 6) && decide (bitsOf u0 9 23 = 0 ∧ bitsOf u0 48 79 = 0)
    else if mode = 3 then
      decide (type = 3 ∧ us.length = 4) && decide (bitsOf u0 17 15 = 0 ∧ bitsOf u0 48 16 = 0 ∧ bitsOf u0 96 31 = 0 ∧ bitsOf u0 8 8 ≤ 4)
    else
      decide (type = 0 ∧ 2 ≤ us.length ∧ us.length ≤ 16) && decide (bitsOf u0 10 22 = 0 ∧ bitsOf u0 64 63 = 0)
        && rest.all (fun g => decide (bitsOf g 64 16 ≠ 0 ∧ bitsOf g 80 47 = 0))

/-- Whether a receive entry obeys R439. -/
def rxEntryOk (us : List Nat) : Bool :=
  match us with
  | [u] => decide (bitsOf u 4 4 = 0 ∧ bitsOf u 8 8 = 0 ∧ 64 ≤ bitsOf u 16 16)
  | _ => false

/-- One entry at the fetch position of a ring, from units read there: taken, a phase wait, or a bad entry. The units
are as read from the fetch position on. -/
def Dev.fetchOne (d : Dev) (now : NetTime) (kind r : Nat) (us : List Nat) : Option (Dev × List Nat) :=
  let x := d.ring kind r
  match us with
  | [] => none
  | u0 :: _ =>
    let n := bitsOf u0 0 4 + 1
    let ahead := x.dist x.head x.fetch
    if x.used ≤ ahead ∨ d.rd RNG.CFG_FETCH < ahead + n ∨ us.length < n then none
    else
      let e := us.take n
      let phased := (List.range n).all (fun i => decide ((e.getD i 0).testBit 127 = x.phase (x.moved x.fetch i)))
      if !phased ∨ x.used < ahead + n then some (d.setRing kind r { x with waits := up32 x.waits, stalled := true }, [])
      else if x.units < x.fetch % x.units + n then some (d.ringError now kind r 3 x.fetch, [])
      else if bitsOf u0 4 4 = 0xF then
        let y := { x with fetch := x.moved x.fetch n }
        some (d.setRing kind r (if kind = kSub then
            { y with subs := y.subs ++ [{ pos := x.fetch, units := n, words := e, started := true, done := true }] : Ring }.settle
          else { y with bufs := y.bufs ++ [{ pos := x.fetch, pad := true, blen := n }] }), us.drop n)
      else if kind = kSub then
        if subEntryOk x.mode e then
          -- a storage or RDMA entry is taken by STORAGE_COMMAND or RDMA_WORK_REQUEST, a packet entry by a channel
          let q : Desc := { group := 2 * (x.polder / 4096), prio := x.prio, ring := ringKey kind r, fn := x.polder,
                            reqs := [], pos := x.fetch }
          let w := if x.mode < 2 then d.rng.waiting ++ [q] else d.rng.waiting
          some (({ d with rng := { d.rng with waiting := w } }).setRing kind r
            { x with fetch := x.moved x.fetch n, subs := x.subs ++ [({ pos := x.fetch, units := n, words := e } : SubEntry)] }, us.drop n)
        else some (d.ringError now kind r 3 x.fetch, [])
      else if rxEntryOk e then
        some (d.setRing kind r { x with
          fetch := x.moved x.fetch n,
          bufs := x.bufs ++ [{ pos := x.fetch, blen := bitsOf u0 16 16, cookie := bitsOf u0 32 32, addr := bitsOf u0 64 63 }] },
          us.drop n)
      else some (d.ringError now kind r 3 x.fetch, [])

/-- Fetch entries one after another; the fuel is the number of units read. -/
def Dev.fetchAll (d : Dev) (now : NetTime) (kind r : Nat) : Nat → List Nat → Dev
  | 0, _ => d
  | fuel + 1, us =>
    match d.fetchOne now kind r us with
    | some (d', us') => d'.fetchAll now kind r fuel us'
    | none => d

/-! ## Channels (R448, R449, R455) -/

/-- CHANNEL_STOP: the channel finishes its descriptor and takes no new one (R449). -/
def execChannelStop (g : Fin 4) (c : Fin 32) : State → Host.Outcome State Fault Refusal :=
  onDev (fun _ d => d.setChan g c { d.chan g c with stop := true })

/-- CHANNEL_START: a stopped channel returns to service (R455). -/
def execChannelStart (g : Fin 4) (c : Fin 32) : State → Host.Outcome State Fault Refusal :=
  onDev (fun _ d => d.setChan g c { d.chan g c with stop := false })

end Sys2Proof.Machine
end

