-- ==== Sys2Proof/Machine/HostLink.lean ====
section
/-! DEFINITION. Host links: training, requests answered, completions and translations of the device's own requests,
MSI-X, power states, the host-line cache, and the bursts of the DMA channels (15 R392 to R420; 16 R448 to R450). -/

namespace Sys2Proof.Machine

/-! ## Links (R392 to R394, R411) -/

/-- The lanes a link has in the lane mode (R392). -/
def Dev.linkLanes (d : Dev) (l : Nat) : Nat :=
  match d.rd HIF.CFG_BIFMODE with
  | 0 => 16
  | 3 => if l = 0 then 16 else 0
  | _ => 8

/-- The rate in tenths of GT/s of a RATE code (R423). -/
def rateTenths (code : Nat) : Nat :=
  match code with
  | 1 => 25
  | 2 => 50
  | 3 => 80
  | 4 => 160
  | 5 => 320
  | 6 => 640
  | _ => 0

/-- The link figure in Gb/s (R394): 800 · (width / 16) · (rate / 64 GT/s), rounded down. -/
def linkFigure (width rate : Nat) : Nat := 800 * width * rateTenths rate / (16 * 640)

/-- A change of a link's figure is a change of capacity, and starts a revalidation (R394; 13 R359). -/
def Dev.figureChanged (d : Dev) (was l : Nat) : Dev := if d.rd HIF.LSTAT_FIGURE l = was then d else d.revalidate 5

/-- The event of a link going up or down (R422). -/
def linkEvent (l : Nat) : Nat := ev 15 l

/-- HOST_LINK_UP: a link whose PERST# is released finishes training at a rate code and width within its lanes (R393,
R394, R417). At 64 GT/s the link runs in FLIT mode. CXL needs link 0, CXLEN and 64 GT/s; EVT 15.2 names a training below
the mode. -/
def execHostLinkUp (l : Fin 2) (rate width : Nat) (flit cxl : Bool) : State → Host.Outcome State Fault Refusal :=
  onDev (fun now d =>
    let lanes := d.linkLanes l
    if d.rd HIF.LSTAT_UP l = 1 ∨ look false d.hif.perst l = false ∨ rate = 0 ∨ 6 < rate
        ∨ !([1, 2, 4, 8, 16].contains width) ∨ lanes < width then d
    else
      let d1 := (((d.wr HIF.LSTAT_UP l 1).wr HIF.LSTAT_RATE l rate).wr HIF.LSTAT_WIDTH l width).wr HIF.LSTAT_FIGURE l
        (linkFigure width rate)
      let d2 := d1.wr HIF.LSTAT_FLIT l (if rate = 6 || flit then 1 else 0)
      let d3 := if l.val = 0 then
          d2.wr HIF.CXLSTAT_CXL 0 (if cxl && decide (d.rd HIF.CFG_CXLEN = 1 ∧ rate = 6) then 1 else 0) else d2
      let d4 := { d3 with hif := { d3.hif with inReset := put false d3.hif.inReset l false } }
      let d5 := (d4.raise now (linkEvent l)).figureChanged (d.rd HIF.LSTAT_FIGURE l) l
      if rate < 6 ∨ width < lanes then (d5.bump HIF.LDOWN_DEGRADE l).raise now (ev 15 2) l else d5)

/-- PERST_RELEASE: PERST# of a present link is released, and the link trains (R411). -/
def execPerstRelease (l : Fin 2) : State → Host.Outcome State Fault Refusal :=
  onDev (fun _ d =>
    if d.linkPresent l then
      (({ d with hif := { d.hif with perst := put false d.hif.perst l true } }).wr HIF.LSTAT_PRESENT l 1)
    else d)

/-! ## Tags (R399) -/

/-- The outstanding-read limit of a link, from its PF's enables. -/
def Dev.tagLimit (d : Dev) (l : Nat) : Nat :=
  if (d.fn (4096 * l)).tag14 then 4096 else if (d.fn (4096 * l)).tag10 then 768 else 256

/-- The control reservation of a link. -/
def Dev.tagCtl (d : Dev) (l : Nat) : Nat := min (d.rd HIF.CFG_TAGCTL * 4) (d.tagLimit l / 4)

/-- The contract reservation of a link. -/
def Dev.tagAdm (d : Dev) (l : Nat) : Nat := min (d.rd HIF.CFG_TAGADM * 16) (d.tagLimit l / 2 - d.tagCtl l)

/-- Keep the registers that show limits and reservations in force. -/
def Dev.showTags (d : Dev) (l : Nat) : Dev :=
  ((d.wr HIF.TAGS_LIMIT l (d.tagLimit l)).wr HIF.TAGRES_CTL l (d.tagCtl l)).wr HIF.TAGRES_ADM l (d.tagAdm l)

/-- The outstanding reads of a link that draw from a reservation (or, class 0, from the shared tags). -/
def Dev.readsOf (d : Dev) (l cls : Nat) : Nat := (d.hif.reads.filter (fun r => decide (r.link = l ∧ r.cls = cls))).length

/-- Whether a shared tag of a link is free. -/
def Dev.sharedFree (d : Dev) (l : Nat) : Bool :=
  decide (d.readsOf l 0 + d.tagCtl l + d.tagAdm l < d.tagLimit l)

/-- The reservation a read of a ring draws from: a ring with contracts first from theirs, then from the shared tags;
every other ring from the shared tags. -/
def Dev.tagClass (d : Dev) (l : Nat) (adm : Bool) : Option Nat :=
  if adm ∧ d.readsOf l 2 < d.tagAdm l then some 2 else if d.sharedFree l then some 0 else none

/-- The lowest tag of a link that no outstanding read carries; 10-bit tags start at 256 (log entry 15). -/
def Dev.freeTag (d : Dev) (l : Nat) : Nat :=
  let lo := if d.tagLimit l = 768 then 256 else 0
  let used := (d.hif.reads.filter (fun r => decide (r.link = l))).map (fun r => r.tag)
  ((List.range (used.length + 1)).map (fun i => lo + i)).find? (fun t => !used.contains t) |>.getD lo

/-- Show the reads outstanding and the completion bytes reserved on a link (R423). -/
def Dev.showReads (d : Dev) (l : Nat) : Dev :=
  let rs := d.hif.reads.filter (fun r => decide (r.link = l))
  let bytes := (rs.map (fun r => r.len)).sum
  (((d.wr HIF.TAGS_INUSE l rs.length).peak HIF.TAGS_PEAK l rs.length).wr HIF.CPLBUF_USED l bytes).peak HIF.CPLBUF_PEAK l bytes

/-! ## Splitting a transfer into requests (16 R450) -/

/-- The reads of a buffer: split at 4 KiB and Max Read Request boundaries, whole DWs each. The fuel is the length. -/
def splitRead (mrrs : Nat) : Nat → Nat → Nat → List (Nat × Nat)
  | 0, _, _ => []
  | _ + 1, _, 0 => []
  | fuel + 1, addr, len + 1 =>
    let n := min (len + 1) (min (4096 - addr % 4096) (mrrs - addr % mrrs))
    (addr / 4 * 4, (addr + n + 3) / 4 * 4 - addr / 4 * 4) :: splitRead mrrs fuel (addr + n) (len + 1 - n)

/-- The attributes of a request of a ring's polder (R398, R404, R414, R415): payload requests take No Snoop and Relaxed
Ordering when the ring asks and the function's Device Control enables them. -/
def Dev.reqAttr (d : Dev) (x : Ring) (f : Nat) (payload write cxl : Bool) : Nat :=
  (if payload && x.noSnoop && (d.fn f).noSnoop then 1 else 0) + (if payload && write && x.relaxed && (d.fn f).relaxed then 2 else 0)
    + (if cxl then 4 else 0) + d.pasidAttr f

/-! ## Failed reads (R401) -/

/-- The payload of a submission entry will never be whole: the ring goes to ERROR, the descriptor ends with its
remaining requests unissued, and its frame is not sent (16 R447, R449). -/
def Dev.payloadFails (d : Dev) (now : NetTime) (g c : Nat) (ring pos : Nat) : Dev :=
  let ch := d.chan g c
  match ch.desc with
  | some q =>
    if q.ring = ring ∧ q.pos = pos then
      ((d.setChan g c { ch with desc := none }).wr DMA.GSTAT_BUSY g (d.rd DMA.GSTAT_BUSY g - 1)).ringError now
        (ring / 2 ^ 18) (ring % 2 ^ 18) 4 pos
    else d
  | none => d

/-- The read that carries a tag on a link. -/
def Dev.readOf (d : Dev) (l tag : Nat) : Option HostRead := d.hif.reads.find? (fun r => decide (r.link = l ∧ r.tag = tag))

/-- Remove an outstanding read. -/
def Dev.dropRead (d : Dev) (l tag : Nat) : Dev :=
  ({ d with hif := { d.hif with reads := d.hif.reads.filter (fun r => decide (r.link ≠ l ∨ r.tag ≠ tag)) } }).showReads l

/-- Whether a channel's descriptor has no request left and no read outstanding: a read descriptor is then done. -/
def Dev.chanDone (d : Dev) (g c : Nat) : Bool :=
  match (d.chan g c).desc with
  | some q => q.reqs.isEmpty && !d.hif.reads.any (fun r => decide (r.group = g ∧ r.chan = c ∧ r.ring = q.ring ∧ r.pos = q.pos))
  | none => false

/-- Free a channel whose descriptor is done, and release the completion that followed its writes (R444); the packet that it wrote
leaves, `sent` or dropped. -/
def Dev.chanEnd (d : Dev) (g c : Nat) (sent : Bool := true) : Dev :=
  let ch := d.chan g c
  match ch.desc with
  | some q =>
    let d1 := ((d.setChan g c { ch with desc := none }).wr DMA.GSTAT_BUSY g (d.rd DMA.GSTAT_BUSY g - 1)).leaveWrite q sent
    match q.cpl with
    | some t => { d1 with rng := { d1.rng with cpls := d1.rng.cpls.map (fun e =>
        if e.2.2.tag = t then (e.1, e.2.1, { e.2.2 with held := false }) else e) } }
    | none => d1
  | none => d

/-- The time after which a read fails, in nanoseconds, by the Completion Timeout Value of Device Control 2: 40 ms at the default value,
else the least of the range that PCIe 6.0 gives the value, A to D (R401; log entry 34). -/
def timeoutNs (code : Nat) : Nat :=
  match code with
  | 1 => 50000
  | 2 => 1000000
  | 5 => 16000000
  | 6 => 65000000
  | 9 => 260000000
  | 10 => 1000000000
  | 13 => 4000000000
  | 14 => 17000000000
  | _ => 40000000

/-- COMPLETION_TIMEOUT: a read whose function lets reads time out fails when its time is over (R401). -/
def execCompletionTimeout (l : Fin 2) (tag : Fin 16384) : State → Host.Outcome State Fault Refusal :=
  onDev (fun now d =>
    match d.readOf l tag with
    | none => d
    | some r =>
      if (d.fn r.fn).ctoOff || decide (d.eng.tclks < r.since + timeoutNs (d.fn r.fn).ctoValue) then d
      else if (d.fn r.fn).inFlr || r.dead then d.dropRead l tag
      else ((((d.dropRead l tag).bump HIF.CTO_TIMEOUT l).raiseSec now (ev 15 3) l l (some r.fn)).aerLog r.fn .timeout).payloadFails now
        r.group r.chan r.ring r.pos)

/-! ## Bursts (16 R448 to R450) -/

/-- Whether a channel's next access is held for a translation (R404). -/
def Dev.xlHeld (d : Dev) (q : Desc) : Bool :=
  match q.reqs with
  | (a, _) :: _ => d.hif.xlWait.contains (q.fn, pageOf a)
  | [] => false

/-- Whether a channel has a request it could issue. -/
def Dev.chanReady (d : Dev) (g c : Nat) : Bool :=
  match (d.chan g c).desc with
  | some q => !q.reqs.isEmpty && !d.xlHeld q && !(d.fn q.fn).inFlr
  | none => false

/-- The channel served next (R448): one passed over DMA.CFG.AGE times in a row, else the highest priority, and among
equals the next in rotation. -/
def Dev.nextChan (d : Dev) (g : Nat) : Option Nat :=
  let ready := (List.range 32).filter (fun c => d.chanReady g c)
  let age := max (d.rd DMA.CFG_AGE) 1
  match ready.find? (fun c => decide (age ≤ (d.chan g c).passed)) with
  | some c => some c
  | none =>
    let prio := fun c => ((d.chan g c).desc.map (fun q => q.prio)).getD 0
    let top := (ready.map prio).foldl max 0
    let best := ready.filter (fun c => decide (prio c = top))
    match best.find? (fun c => decide (look 0 d.rng.rot g ≤ c)) with
    | some c => some c
    | none => best.head?

/-- Count a burst of a group, and who was passed over for channel `c`. -/
def Dev.countBurst (d : Dev) (g c : Nat) : Dev :=
  let ready := (List.range 32).filter (fun k => d.chanReady g k)
  let d1 := ready.foldl (fun x k => x.setChan g k { x.chan g k with passed := if k = c then 0 else (x.chan g k).passed + 1 }) d
  ({ d1 with rng := { d1.rng with rot := put 0 d1.rng.rot g ((c + 1) % 32) } }).bump DMA.GSTAT_BURSTS g

/-- Whether a requester ID may take a shared tag now: with readers waiting, the next one in rotation (R399). -/
def Dev.tagTurn (d : Dev) (l f : Nat) : Bool :=
  let w := (d.hif.tagWait.filter (fun k => decide (linkOf k = l)))
  if w.isEmpty then true
  else
    let p := look 0 d.hif.tagRot l
    let first := (w.filter (fun k => decide (p ≤ k))).foldl min 8192
    let pick := if first < 8192 then first else w.foldl min 8192
    decide (pick = f)

/-! ## Link power (R395) -/

/-- Whether a contract guards a link: an ACTIVE one whose source is a submission ring, or whose sink is a receive ring, of a polder of the
link. -/
def Dev.linkGuarded (d : Dev) (l : Nat) : Bool :=
  d.adm.contracts.any (fun e => decide (d.rd ADM.CSTAT_STATE e.1 = 2)
    && (e.2.rcd.flags.testBit 0 || e.2.rcd.flags.testBit 1) && decide (linkOf e.2.rcd.polder = l))

/-- Whether a link has nothing to carry: no read is outstanding and no channel has a request. -/
def Dev.linkIdle (d : Dev) (l : Nat) : Bool :=
  !d.hif.reads.any (fun r => decide (r.link = l)) && !(List.range 64).any (fun i => d.chanReady (2 * l + i / 32) (i % 32))

/-- In a TCLK a link whose PF has ASPM L1 enabled, and which has nothing to carry, goes to L1, unless a contract guards it, and stays
there while it has nothing to carry (R395; log entry 34). -/
def Dev.linkPower (d : Dev) : Dev :=
  { d with hif := { d.hif with inL1 := [0, 1].foldl (fun t l =>
      put false t l (decide (d.rd HIF.LSTAT_UP l = 1) && (d.fn (4096 * l)).aspmL1 && d.linkIdle l
        && (look false d.hif.inL1 l || !d.linkGuarded l))) d.hif.inL1 } }

/-! ## Translations (R404) -/

/-- The translations held for a link. -/
def Dev.atcOf (d : Dev) (l : Nat) : List (Nat × Nat × Nat) := d.hif.atc.filter (fun e => decide (linkOf e.1 = l))

/-- Show how many translations a link holds. -/
def Dev.showAtc (d : Dev) (l : Nat) : Dev := d.wr HIF.ATC_VALID l (d.atcOf l).length

/-- The interrupts of completion rings of a function that waited for held writes go out once none of its accesses is held (R404, R420). -/
def Dev.heldVectors (d : Dev) (f : Nat) : Dev :=
  if d.hif.held.any (fun e => decide (e.1 = f)) then d
  else ((d.rng.rings.filter (fun e => decide (e.1 / 2 ^ 18 = kCq ∧ e.2.polder = f ∧ e.2.vecWait ∧ e.2.gos = 0))).map (fun e => e.1 % 2 ^ 18)).foldl
    (fun y r => (y.setRing kCq r { y.ring kCq r with vecWait := false }).vector f (y.ring kCq r).vector) d

/-- The held accesses of a page go on with its translation: writes are sent in order, fetches may run again (R404). -/
def Dev.releaseHeld (d : Dev) (f page : Nat) : Dev :=
  let mine := d.hif.held.filter (fun e => decide (e.1 = f ∧ e.2.1 = page))
  let d1 : Dev := { d with hif := { d.hif with held := d.hif.held.filter (fun e => decide (e.1 ≠ f ∨ e.2.1 ≠ page)) } }
  (mine.foldl (fun (y : Dev) e => match e.2.2 with
    | .write a bytes attr => y.writeReq f a bytes attr
    | .fetch _ _ => y) d1).heldVectors f

/-- The held accesses of a page fail: writes are lost, and a ring whose fetch was held takes the error of a failed read (R401, R404). -/
def Dev.failHeld (d : Dev) (now : NetTime) (f page : Nat) : Dev :=
  let mine := d.hif.held.filter (fun e => decide (e.1 = f ∧ e.2.1 = page))
  let d1 : Dev := { d with hif := { d.hif with held := d.hif.held.filter (fun e => decide (e.1 ≠ f ∨ e.2.1 ≠ page)) } }
  (mine.foldl (fun (y : Dev) e => match e.2.2 with
    | .write _ _ _ => y
    | .fetch k r => ((y.bump HIF.CTO_CPLERR (linkOf f)).raiseSec now (ev 15 4) (linkOf f) (linkOf f) (some f)).ringError now k r 4
        (y.ring k r).fetch) d1).heldVectors f

/-- TRANSLATION_COMPLETION: the answer to a translation request arrives: the held access proceeds, or fails (R401,
R404). Which translation a full cache gives up is not stated (log entry 5). -/
def execTranslationCompletion (fn : Fn) (page : Nat) (answer : Option Nat) : State → Host.Outcome State Fault Refusal :=
  onDev (fun now d =>
    if !d.hif.xlWait.contains (fn.val, page) then d
    else
      let d1 := { d with hif := { d.hif with xlWait := d.hif.xlWait.filter (· ≠ (fn.val, page)) } }
      match answer with
      | some a =>
        let mine := d1.atcOf (linkOf fn)
        let d2 := if mine.length < 16384 then d1
          else { d1.drawn with hif := { d1.hif with atc := d1.hif.atc.erase (mine.getD (d1.freeVal.toNat % mine.length) (0, 0, 0)) } }
        (({ d2 with hif := { d2.hif with atc := d2.hif.atc ++ [(fn.val, page, a)] } }).showAtc (linkOf fn)).releaseHeld fn page
      | none =>
        let d2 := ((d1.bump HIF.XLFAIL_COUNT (linkOf fn)).raise now (ev 15 9) (linkOf fn) (some fn)).failHeld now fn page
        let gs := [2 * linkOf fn, 2 * linkOf fn + 1]
        gs.foldl (fun y g => (List.range 32).foldl (fun z c =>
          match (z.chan g c).desc with
          | some q =>
            if q.fn = fn.val ∧ (q.reqs.head?.map (fun r => pageOf r.1)) = some page then
              if g % 2 = 0 then ((z.bump HIF.CTO_CPLERR (linkOf fn)).raiseSec now (ev 15 4) (linkOf fn) (linkOf fn) (some fn)).payloadFails now g c q.ring q.pos
              else (z.setChan g c { z.chan g c with desc := some { q with reqs := [] } }).chanEnd g c false
            else z
          | none => z) y) d2)

/-- ATS_INVALIDATION: an invalidation of a page, or of every page of a function, is counted, and completed after the
requests that used the translation, which are issued already (R404, R421). -/
def execAtsInvalidation (fn : Fn) (page : Option Nat) : State → Host.Outcome State Fault Refusal :=
  onDev (fun _ d =>
    let d1 := d.bump HIF.ATC_INVREQ (linkOf fn)
    let gone := fun (e : Nat × Nat × Nat) => decide (e.1 = fn.val) && (page.isNone || decide (some e.2.1 = page))
    let d2 := ({ d1 with hif := { d1.hif with atc := d1.hif.atc.filter (fun e => !gone e) } }).showAtc (linkOf fn)
    d2.send (.message 3 [fn.val, page.getD 0]))

/-! ## Requests the device answers (R402, R407) -/

/-- UR_REQUEST: an I/O, AtomicOp, locked, Deferrable Memory Write or unsupported request is answered with UR (R402). -/
def execUrRequest (fn : Fn) : State → Host.Outcome State Fault Refusal := onDev (fun now d => d.urAnswer now fn)

/-- The effect of a configuration write on a function's controls. -/
def cfgWrite (r : CfgReq) (x : HostFn) : HostFn :=
  match r with
  | .memEnable on => { x with memEnable := on }
  | .busMaster on => { x with busMaster := on }
  | .maxPayload c => { x with payload := c }
  | .maxRead c => { x with readReq := c }
  | .noSnoop on => { x with noSnoop := on }
  | .relaxed on => { x with relaxed := on }
  | .tag10 on => { x with tag10 := on }
  | .tag14 on => { x with tag14 := on }
  | .timeoutValue c => { x with ctoValue := c }
  | .timeoutOff on => { x with ctoOff := on }
  | .ats on => { x with ats := on }
  | .pasid on => { x with pasid := on }
  | .vfEnable on n => { x with vfEnable := on, numVfs := n }
  | .romEnable on => { x with romEnable := on }
  | .msixEnable on => { x with msixEnable := on }
  | .msixMask on => { x with msixMask := on }
  | .pmeEnable on => { x with pmeEnable := on }
  | .aspmL1 on => { x with aspmL1 := on }
  | .aerClear e => { x with aer := { x.aer with logged := x.aer.logged.filter (· ≠ AerErr.ofIndex e) } }
  | .aerSeverity e on => { x with aer := { x.aer with
      fatal := if on then x.aer.fatal.erase (AerErr.ofIndex e) ++ [AerErr.ofIndex e] else x.aer.fatal.filter (· ≠ AerErr.ofIndex e) } }
  | .other _ _ => x
  | .read _ => x
  | .cacheEnable => x

/-- Send the vectors whose pending bit is set and that are no longer masked (R406). -/
def Dev.sendPending (d : Dev) (f : Nat) : Dev :=
  ((d.fn f).pba.map (fun e => e.1)).foldl (fun y v =>
    (y.setFn f { y.fn f with pba := put false (y.fn f).pba v false }).vector f v) d

/-- Keep VIR.PCTL.EXISTS of a family and VIR.STATUS.POLDERS with the functions that exist (17 R456, R476). -/
def Dev.showExists (d : Dev) (l : Nat) : Dev :=
  let d1 := (List.range 4096).foldl (fun y k =>
    let f := 4096 * l + k
    let e := if y.fnExists f then 1 else 0
    if y.rd VIR.PCTL_EXISTS f = e then y else y.wr VIR.PCTL_EXISTS f e) d
  d1.wr VIR.STATUS_POLDERS 0 (((List.range 2).map (fun k =>
    if d1.linkPresent k then 1 + (if (d1.fn (4096 * k)).vfEnable then min (d1.fn (4096 * k)).numVfs 4095 else 0) else 0)).sum)

/-! ## Interrupts and power (R406, R407) -/

/-- An entry of a function's MSI-X table takes a value; a pending bit of a vector that is not masked sends its message (R406). -/
def Dev.setVec (d : Dev) (fn vec : Nat) (e : MsixEntry) : Dev :=
  let x := d.fn fn
  let d1 := d.setFn fn { x with vecs := put {} x.vecs vec e }
  if !e.masked && look false x.pba vec then (d1.setFn fn { d1.fn fn with pba := put false x.pba vec false }).vector fn vec else d1

/-- VECTOR_UNMASK: the mask bit of a vector clears, and a set pending bit sends the message (R406). -/
def execVectorUnmask (fn : Fn) (vec : Fin 2048) : State → Host.Outcome State Fault Refusal :=
  onDev (fun now d =>
    if !d.memAnswers fn then d.urAnswer now fn
    else if d.rd VIR.PVEC_VECTORS fn ≤ vec then d
    else d.setVec fn vec { look {} (d.fn fn).vecs vec with masked := false })

/-- D3HOT_ENTRY: a function whose rings are stopped enters D3hot (R407). -/
def execD3hotEntry (fn : Fn) : State → Host.Outcome State Fault Refusal :=
  onDev (fun now d =>
    if !d.fnExists fn then d.urAnswer now fn
    else if (d.fn fn).inFlr then d.send (.message 4 [fn])
    else d.setFn fn { d.fn fn with d3hot := true })

/-! ## The host-line cache (R418 to R420) -/

/-- Show how many lines the host-line cache holds. -/
def Dev.showLines (d : Dev) : Dev := d.wr HIF.CXLSTAT_LINES 0 d.hif.lines.length

/-- Drop lines, each by CleanEvictNoData (R420). -/
def Dev.dropLines (d : Dev) (p : Nat × Nat → Bool) : Dev :=
  let d1 := (d.hif.lines.filter p).foldl (fun y e => y.send (.message 5 [e.1])) d
  ({ d1 with hif := { d1.hif with lines := d1.hif.lines.filter (fun e => !p e) } }).showLines

/-- A line read by RdShared is held in S; a full set gives up a line, and which is not stated (log entry 5). -/
def Dev.holdLine (d : Dev) (line f : Nat) : Dev :=
  if d.hif.lines.any (fun e => decide (e.1 = line)) then d
  else
    let set := d.hif.lines.filter (fun e => decide (e.1 % 1024 = line % 1024))
    let d1 := if set.length < 16 then d
      else d.drawn.dropLines (fun e => decide (e = set.getD (d.freeVal.toNat % set.length) (0, 0)))
    ({ d1 with hif := { d1.hif with lines := d1.hif.lines ++ [(line, f)] } }).showLines

/-- The lines that an entry read over CXL.cache leaves held in S: a translated address of a ring that asks for it
(R418). -/
def Dev.holdEntries (d : Dev) (x : Ring) (n : Nat) : Dev :=
  if x.cxlc && d.cxlcAllowed x.polder then
    (List.range n).foldl (fun y i =>
      let a := x.unitAddr (x.moved x.fetch i)
      match y.translation x.polder (pageOf a) with
      | some t => y.holdLine ((t * 4096 + a % 4096) / 64) x.polder
      | none => y) d
  else d

/-- Fetch entries of a ring (R437, R446, R447). -/
def Dev.entryFetch (d : Dev) (now : NetTime) (kind ring : Nat) (units : List (BitVec 128)) (ok : Bool) : Dev :=
  let x := d.ring kind ring
  if x.st ≠ .enabled ∨ x.stalled ∨ (kind = kSub ∧ !(d.ring kCq x.cq).overflow.isEmpty) then d
  else if d.needsTranslation x.polder (x.unitAddr x.fetch) then
    let e := (x.polder, pageOf (x.unitAddr x.fetch), HeldAccess.fetch kind ring)
    let d1 := d.askTranslation x.polder (pageOf (x.unitAddr x.fetch))
    if d1.hif.held.contains e then d1 else { d1 with hif := { d1.hif with held := d1.hif.held ++ [e] } }
  else if !ok then d.ringError now kind ring 4 x.fetch
  else
    let us := (units.take 32).map BitVec.toNat
    let d1 := d.fetchAll now kind ring 32 us
    if kind = kSub then d1.holdEntries x us.length else d1

/-- CXL_SNOOP: the answer to a snoop of a host line (R419): 0 RspIHitI, 1 RspIHitSE, 2 RspSHitSE. -/
def execCxlSnoop (line : Nat) (kind : CxlSnoop) : State → Host.Outcome State Fault Refusal :=
  onDev (fun _ d =>
    let d1 := d.bump HIF.CXLSNP_COUNT
    if d.hif.lines.any (fun e => decide (e.1 = line)) then
      if kind = .cur then d1.send (.message 6 [line, 2])
      else (({ d1 with hif := { d1.hif with lines := d1.hif.lines.filter (fun e => decide (e.1 ≠ line)) } }).showLines).send
        (.message 6 [line, 1])
    else d1.send (.message 6 [line, 0]))

/-- GLOBAL_OBSERVATION: the observation of a payload write arrives for the completion with a number, or that of a
completion write for a completion ring; what waited for the last one goes on (R420). -/
def execGlobalObservation (cpl : Option Nat) (ring : Fin 131072) : State → Host.Outcome State Fault Refusal :=
  onDev (fun _ d =>
    match cpl with
    | some t => { d with rng := { d.rng with cpls := d.rng.cpls.map (fun e =>
        if e.2.2.tag = t then (e.1, e.2.1, { e.2.2 with gos := e.2.2.gos - 1 }) else e) } }
    | none =>
      let x := d.ring kCq ring
      if x.gos = 1 ∧ x.vecWait ∧ d.hif.held.all (fun e => decide (e.1 ≠ x.polder)) then (d.setRing kCq ring { x with gos := 0, vecWait := false }).vector x.polder x.vector
      else d.setRing kCq ring { x with gos := x.gos - 1 })

/-- Drop every line of the host-line cache, with EVT 15.10 (R420). -/
def Dev.dropAllLines (d : Dev) (now : NetTime) : Dev := (d.dropLines (fun _ => true)).raise now (ev 15 10)

/-- CACHE_ENABLE_CLEAR (R420). -/
def execCacheEnableClear : State → Host.Outcome State Fault Refusal :=
  onDev (fun now d => if d.rd HIF.CXLSTAT_CACHEEN = 1 then (d.wr HIF.CXLSTAT_CACHEEN 0 0).dropAllLines now else d)

/-- WRITE_BACK_INVALIDATE: a DVSEC request drops every line (R420). -/
def execWriteBackInvalidate : State → Host.Outcome State Fault Refusal :=
  onDev (fun now d => if d.rd HIF.CXLSTAT_CXL = 1 then d.dropAllLines now else d)

end Sys2Proof.Machine
end

