-- ==== Sys2Proof/Machine/PueriWindow.lean ====
section
/-! DEFINITION. The window and metadata instructions of Pueri (03 R69, R70). -/

namespace Sys2Proof.Machine

/-- Read `n` big-endian bytes at a header-buffer position into rd, or take a window fault (R60). -/
def Dev.windowLoad (d : Dev) (x rd : Nat) (reads : List Nat) (n : Nat) (pos : Ctx → Nat) : Dev :=
  d.issuePacket x { regs := rd :: reads, header := true } (fun c =>
    if readFaults (pos c) n then d.fault x faultWindow
    else d.setCtx x (c.wg rd (BitVec.ofNat 64 (beNat (c.hdrBytes (pos c) n)))).next)

/-- Write the low `n` bytes of a value at a header-buffer position in network order, or take a window fault (R60). DESIGN CHOICE (log
entry 39): a store that faults writes none of its bytes. -/
def Dev.windowStore (d : Dev) (x : Nat) (reads : List Nat) (n : Nat) (pos : Ctx → Nat) (val : Ctx → Word) : Dev :=
  d.issuePacket x { regs := reads, header := true } (fun c =>
    if c.writeFaults (pos c) n then d.fault x faultWindow
    else d.setCtx x { c with hdr := putBytes c.hdr (pos c) (beBytes n (val c).toNat) }.next)

/-- WLD. -/
def execWld (x : CtxId) (rd : Reg) (off : Fin 128) (sz : Fin 4) : State → Host.Outcome State Fault Refusal :=
  onDev (fun _ d => d.windowLoad x rd [] (szBytes sz) (fun c => c.s + c.b + off))
/-- WST. -/
def execWst (x : CtxId) (ra : Reg) (off : Fin 128) (sz : Fin 4) : State → Host.Outcome State Fault Refusal :=
  onDev (fun _ d => d.windowStore x [ra] (szBytes sz) (fun c => c.s + c.b + off) (fun c => c.rg ra))
/-- WLDX: the position also adds ra, as an unsigned number without wrapping (log entry 9). -/
def execWldx (x : CtxId) (rd ra : Reg) (off : Fin 128) (sz : Fin 4) : State → Host.Outcome State Fault Refusal :=
  onDev (fun _ d => d.windowLoad x rd [ra] (szBytes sz) (fun c => c.s + c.b + (c.rg ra).toNat + off))
/-- WSTX: the position also adds ra; the value is in rd. -/
def execWstx (x : CtxId) (rd ra : Reg) (off : Fin 128) (sz : Fin 4) : State → Host.Outcome State Fault Refusal :=
  onDev (fun _ d => d.windowStore x [rd, ra] (szBytes sz) (fun c => c.s + c.b + (c.rg ra).toNat + off) (fun c => c.rg rd))
/-- WGET: rd takes window register i. -/
def execWget (x : CtxId) (rd : Reg) (i : Fin 16) : State → Host.Outcome State Fault Refusal :=
  onDev (fun _ d => d.windowLoad x rd [] 8 (fun c => c.s + c.b + 8 * i))
/-- WPUT: window register i takes ra. -/
def execWput (x : CtxId) (ra : Reg) (i : Fin 16) : State → Host.Outcome State Fault Refusal :=
  onDev (fun _ d => d.windowStore x [ra] 8 (fun c => c.s + c.b + 8 * i) (fun c => c.rg ra))
/-- WBASE: B = ra[8:0], above 504 a window fault. -/
def execWbase (x : CtxId) (ra : Reg) : State → Host.Outcome State Fault Refusal :=
  onDev (fun _ d => d.issuePacket x { regs := [ra], header := true } (fun c =>
    if (c.rg ra).toNat % 512 ≤ 504 then d.setCtx x { c with b := (c.rg ra).toNat % 512 }.next else d.fault x faultWindow))
/-- HADJ: S moves by the signed low 10 bits of ra within 0 to E, and LEN moves against it. -/
def execHadj (x : CtxId) (ra : Reg) : State → Host.Outcome State Fault Refusal :=
  onDev (fun _ d => d.issuePacket x { regs := [ra], header := true } (fun c =>
    let n : Int := signedOf (c.rg ra).toNat 10
    if 0 ≤ c.s + n ∧ c.s + n ≤ c.e then
      d.setCtx x (Ctx.next { c with s := (c.s + n).toNat,
                                    pkt := c.pkt.map (fun p => { p with len := ((p.len - n) % 2 ^ 19).toNat }) })
    else d.fault x faultWindow))

/-- The 16-bit ones' complement sum of big-endian words; an odd byte is the high byte of a word (R69). -/
def onesSum : Nat → List Byte → Nat
  | acc, [] => acc
  | acc, [b] => let t := acc + 256 * b.toNat; if 65535 < t then t - 65535 else t
  | acc, b :: b' :: bs =>
    let t := acc + 256 * b.toNat + b'.toNat
    onesSum (if 65535 < t then t - 65535 else t) bs

/-- CSUM: over `off + 1 + 128 · sz` bytes from S + ra, with no B term. -/
def execCsum (x : CtxId) (rd ra : Reg) (off : Fin 128) (sz : Fin 4) : State → Host.Outcome State Fault Refusal :=
  onDev (fun _ d => d.issuePacket x { regs := [rd, ra], header := true } (fun c =>
    let n : Nat := off.val + 1 + 128 * sz.val
    if readFaults (c.s + (c.rg ra).toNat) n then d.fault x faultWindow
    else d.setCtx x (c.wg rd (BitVec.ofNat 64 (onesSum 0 (c.hdrBytes (c.s + (c.rg ra).toNat) n)))).next))

/-! ## Metadata (R70) -/

/-- The value of a metadata field of a context; none for an index the table does not list. A task context has no packet
and its packet fields read zero (log entry 11). -/
def Ctx.meta (c : Ctx) (field : Nat) : Option Nat :=
  let p := c.pkt.getD {}
  match field with
  | 0 => some p.iport | 1 => some p.len | 2 => some p.tsin | 3 => some p.tsfrac | 4 => some p.cls
  | 5 => some p.colour | 6 => some p.queue | 7 => some p.fwd | 8 => some p.fwdst | 9 => some p.polder
  | 10 => some p.flow | 11 => some p.parse | 12 => some p.contract | 13 => some p.mark
  | 14 => some (c.slot + 64 * c.epoch) | 15 => some c.s | 16 => some c.b
  | _ => none

/-- MDR: an index the table does not list is an illegal instruction. LEN and PSTART wait for a busy tunnel ticket
(04 R98). -/
def execMdr (x : CtxId) (rd : Reg) (field : Fin 32) : State → Host.Outcome State Fault Refusal :=
  onDev (fun _ d => d.issuePacket x { regs := [rd], header := decide (field.val = 1 ∨ field.val = 15) } (fun c =>
    match c.meta field with
    | some v => d.setCtx x (c.wg rd (BitVec.ofNat 64 v)).next
    | none => d.fault x faultIllegal))

/-- The packet after a write of metadata field CLASS, COLOUR or MARK; none for any other index (R70). -/
def Packet.setMeta (p : Packet) (field v : Nat) : Option Packet :=
  match field with
  | 4 => some { p with cls := v % 8 }
  | 5 => some { p with colour := if v % 4 = 3 then 2 else v % 4 }
  | 13 => some { p with mark := v % 2 ^ 32 }
  | _ => none

/-- MDW: a field marked RO, or no field, is an illegal instruction. -/
def execMdw (x : CtxId) (ra : Reg) (field : Fin 32) : State → Host.Outcome State Fault Refusal :=
  onDev (fun _ d => d.issuePacket x { regs := [ra] } (fun c =>
    match (c.pkt.getD {}).setMeta field (c.rg ra).toNat with
    | some p => d.setCtx x { c with pkt := c.pkt.map (fun _ => p) }.next
    | none => d.fault x faultIllegal))

end Sys2Proof.Machine
end

