-- ==== Sys2Proof/Machine/Frames.lean ====
section
/-! DEFINITION. Whole frames: lengths, checksums inserted at egress, segments of a train, the dual-path option and the
PRP trailer (09 R218, R223 to R225; 14 R371, R372, R376). -/

namespace Sys2Proof.Machine

/-- The bytes of a packet as stored, without the FCS. -/
def Packet.bytes (p : Packet) : List Byte := p.hdr ++ p.tail

/-- The ones' complement sum of a byte string on top of a start value (03 R69). -/
def sumOf (acc : Nat) (bs : List Byte) : Nat := onesSum acc bs

/-- The checksum field of a sum: its complement. -/
def csumField (s : Nat) : Nat := 65535 - s

/-- Write a 16-bit field in network order at an offset. -/
def put16 (bs : List Byte) (o v : Nat) : List Byte := splice bs o (beBytes 2 v)

/-- Write a 32-bit field in network order at an offset. -/
def put32 (bs : List Byte) (o v : Nat) : List Byte := splice bs o (beBytes 4 v)

/-- Whether the IP header at an offset is version 6. -/
def ipV6 (bs : List Byte) (o : Nat) : Bool := decide ((bs.getD o 0).toNat / 16 = 6)

/-- The sum of the pseudo-header of an L4 header of `len` bytes with a protocol. -/
def pseudoSum (bs : List Byte) (ip proto len : Nat) : Nat :=
  let addrs := if ipV6 bs ip then slice bs (ip + 8) 32 else slice bs (ip + 12) 8
  sumOf (sumOf (sumOf 0 addrs) (beBytes 4 len)) (beBytes 2 proto)

/-- The end of the payload of the IP header at an offset, by its length field and within the frame. -/
def ipEnd (bs : List Byte) (ip : Nat) : Nat :=
  min bs.length (if ipV6 bs ip then ip + 40 + beAt bs (ip + 4) 2 else ip + beAt bs (ip + 2) 2)

/-- The sum over an L4 header and its payload with its pseudo-header: FFFFh when a checksum in it is right. -/
def l4Sum (bs : List Byte) (ip l4 proto : Nat) : Nat :=
  let n := ipEnd bs ip - l4
  sumOf (pseudoSum bs ip proto n) (slice bs l4 n)

/-- Insert the checksum of an L4 header at `off` bytes into it; a UDP checksum of zero is sent as FFFFh. -/
def insertL4 (bs : List Byte) (ip l4 proto : Nat) : List Byte :=
  let off := if proto = 6 then 16 else 6
  let z := put16 bs (l4 + off) 0
  let c := csumField (l4Sum z ip l4 proto)
  put16 z (l4 + off) (if proto = 17 ∧ c = 0 then 65535 else c)

/-- The IPv4 header checksum at an offset, recomputed. -/
def insertIp4 (bs : List Byte) (ip : Nat) : List Byte :=
  let z := put16 bs (ip + 10) 0
  put16 z (ip + 10) (csumField (sumOf 0 (slice z ip ((bs.getD ip 0).toNat % 16 * 4))))

/-- The checksum of a GRE header over the header and its payload. -/
def insertGre (bs : List Byte) (o : Nat) : List Byte :=
  let z := put16 bs (o + 4) 0
  put16 z (o + 4) (csumField (sumOf 0 (z.drop o)))

/-- The checksums that egress inserts, innermost first (R218, R224). -/
def Egress.insert (e : Egress) (bs : List Byte) : List Byte :=
  let b1 := match e.l4 with
    | some (ip, l4, proto, true) => insertL4 bs ip l4 proto
    | _ => bs
  let b2 := e.gres.foldl insertGre b1
  e.udps.foldl (fun b u => if u.2.2 then insertL4 b u.1 u.2.1 17 else b) b2

/-- Positions moved against a new first byte; a header that now lies before it is no longer part of the frame. -/
def Egress.rebase (e : Egress) (s : Nat) : Egress :=
  { mss := e.mss
    ips := (e.ips.filter (fun p => decide (s ≤ p))).map (fun p => p - s)
    udps := (e.udps.filter (fun u => decide (s ≤ u.1))).map (fun u => (u.1 - s, u.2.1 - s, u.2.2))
    gres := (e.gres.filter (fun p => decide (s ≤ p))).map (fun p => p - s)
    l4 := match e.l4 with
      | some (ip, l4, proto, ins) => if s ≤ ip then some (ip - s, l4 - s, proto, ins) else none
      | none => none
    dp := match e.dp with
      | some (p, src) => if s ≤ p then some (p - s, src) else none
      | none => none }

/-! ## Segment trains (R225) -/

/-- The length of the headers that every segment carries: to the end of the innermost TCP header. -/
def Egress.segHdr (e : Egress) (bs : List Byte) : Nat :=
  match e.l4 with
  | some (_, l4, _, _) => l4 + (bs.getD (l4 + 12) 0).toNat / 16 * 4
  | none => 0

/-- How many segments a packet leaves as: one frame when it is not marked for segmentation. -/
def Packet.segments (p : Packet) : Nat :=
  if p.egress.mss = 0 then 1
  else max 1 ((p.bytes.length - p.egress.segHdr p.bytes + p.egress.mss - 1) / p.egress.mss)

/-- The length of segment `i`, without the FCS. -/
def Packet.segLen (p : Packet) (i : Nat) : Nat :=
  if p.egress.mss = 0 then p.bytes.length
  else
    let h := p.egress.segHdr p.bytes
    h + min p.egress.mss (p.bytes.length - h - i * p.egress.mss)

/-- Patch the IP and UDP lengths, IPv4 identifications and header checksums of segment `i`. -/
def Egress.patchLens (e : Egress) (i : Nat) (bs : List Byte) : List Byte :=
  let b1 := e.ips.foldl (fun b ip =>
    if ipV6 b ip then put16 b (ip + 4) (bs.length - ip - 40)
    else insertIp4 (put16 (put16 b (ip + 2) (bs.length - ip)) (ip + 4) ((beAt b (ip + 4) 2 + i) % 65536)) ip) bs
  e.udps.foldl (fun b u => put16 b (u.2.1 + 4) (bs.length - u.2.1)) b1

/-- Segment `i` of a packet: headers, payload, sequence number, flags, lengths, checksums. -/
def Packet.segment (p : Packet) (i : Nat) : List Byte :=
  if p.egress.mss = 0 then p.egress.insert p.bytes
  else
    let all := p.bytes
    let h := p.egress.segHdr all
    let b0 := all.take h ++ (all.drop (h + i * p.egress.mss)).take p.egress.mss
    let b1 := match p.egress.l4 with
      | some (_, l4, _, _) =>
        let f := (all.getD (l4 + 13) 0).toNat
        let f1 := if i = 0 then f else setBit f 7 false
        let f2 := if i + 1 = p.segments then f1 else setBit (setBit f1 0 false) 3 false
        splice (put32 b0 (l4 + 4) ((beAt all (l4 + 4) 4 + i * p.egress.mss) % 2 ^ 32)) (l4 + 13) [BitVec.ofNat 8 f2]
      | none => b0
    p.egress.insert (p.egress.patchLens i b1)

/-! ## Tags (09 R223; 14 R371, R372) -/

/-- The dual-path option at its data: VER, PATH, PAIR, SOURCE, SEQ. -/
structure DpOption where
  ver  : Nat
  path : Nat
  pair : Nat
  src  : Nat
  seq  : Nat

/-- Read the dual-path option whose data start at an offset (R223). -/
def dpOption (bs : List Byte) (o : Nat) : DpOption :=
  let w := beAt bs o 4
  { ver := w / 2 ^ 28, path := bitsOf w 26 2, pair := bitsOf w 24 2, src := w % 2 ^ 20, seq := beAt bs (o + 4) 2 }

/-- Fill SEQ, PAIR and PATH of a dual-path option (14 R371). -/
def fillDp (bs : List Byte) (o seq pair path : Nat) : List Byte :=
  let w := setBits (setBits (beAt bs o 4) 26 2 path) 24 2 pair
  put16 (put32 bs o w) (o + 4) seq

/-- The LSDU size of PRP (IEC 62439-3): the frame's bytes behind its EtherType and tags, with the trailer of 6. -/
def lsduSize (bs : List Byte) : Nat :=
  let tagged := fun (o : Nat) => decide (beAt bs o 2 = 0x8100 ∨ beAt bs o 2 = 0x88A8)
  let n := if tagged 12 then (if tagged 16 then 22 else 18) else 14
  (bs.length - n + 6) % 4096

/-- Append the redundancy control trailer of a path (14 R371). -/
def appendTrailer (bs : List Byte) (seq path : Nat) : List Byte :=
  bs ++ beBytes 2 seq ++ beBytes 2 ((if path = 1 then 0xA else 0xB) * 4096 + lsduSize bs) ++ beBytes 2 0x88FB

/-- The trailer of a received frame, given without its FCS: sequence number and path of its LanId (14 R372). -/
def trailerOf (bs : List Byte) : Option (Nat × Nat) :=
  let n := bs.length
  let w := beAt bs (n - 4) 2
  if n < 20 ∨ beAt bs (n - 2) 2 ≠ 0x88FB ∨ (w / 4096 ≠ 0xA ∧ w / 4096 ≠ 0xB) ∨ w % 4096 ≠ lsduSize (bs.take (n - 6)) then none
  else some (beAt bs (n - 6) 2, if w / 4096 = 0xA then 1 else 2)

/-- A packet without its last `n` stored bytes. -/
def Packet.cutEnd (p : Packet) (n : Nat) : Packet :=
  let b := p.bytes.take (p.bytes.length - n)
  { p with hdr := b.take p.hdr.length, tail := b.drop p.hdr.length, trailer := false }

end Sys2Proof.Machine
end

