-- ==== Sys2Proof/Machine/Triple.lean ====
section
/-! DEFINITION. The triple store's objects, their hardware copies, and the commit (18 R487, R488, R490). -/

namespace Sys2Proof.Machine

/-- The key of an object: its kind in the row order of R487 and its instance. -/
def objKey (kind inst : Nat) : Nat := kind * 2 ^ 16 + inst

/-- The register fields that hold an object's hardware copy (R487, R490). Kind 0: instances 0 to 15 are the sluice list
and settings of a port, 16 to 19 the full-mode sets. -/
def objFields (kind inst : Nat) : List (Fld × Nat) :=
  match kind with
  | 0 =>
    if inst < 16 then
      [(SLU.PCTL_MODE, inst), (SLU.PCTL_FSET, inst), (SLU.PCTL_LENAWARE, inst), (SLU.CMAX0_CMAX, inst), (SLU.CMAX1_CMAX, inst),
       (SLU.CBASELO_NS, inst), (SLU.CBASEHI_SEC, inst), (SLU.CCYCLE_CYCLE, inst), (SLU.CCYCLE_LEN, inst)]
        ++ (List.range 64).map (fun j => (SLU.CENT_ENTRY, 64 * inst + j))
    else
      let s := inst - 16
      [(SLU.FOBASELO_NS, s), (SLU.FOBASEHI_SEC, s), (SLU.FOCYCLE_CYCLE, s), (SLU.FOCYCLE_LEN, s), (SLU.FOEXT_EXT, s)]
        ++ (List.range 4096).map (fun j => (SLU.FOENT_ENTRY, 4096 * s + j))
  | 1 => [(ADM.EPOCH_EPOCH, 0)]
  | 2 => (List.range 4).flatMap (fun i => [(PRT.MODE_GMODE, 4 * inst + i), (PRT.CTL_EN, 4 * inst + i)])
  | 3 => [VIR.PSQ_BASE, VIR.PSQ_COUNT, VIR.PRQ_BASE, VIR.PRQ_COUNT, VIR.PCQ_BASE, VIR.PCQ_COUNT, VIR.PVEC_VECTORS,
      VIR.PVEC_L2BASE, VIR.PVEC_L2CNT, VIR.PKEY_BASE, VIR.PKEY_COUNT, VIR.PID_PASID, VIR.PID_TASKQ, VIR.PMAC_MAC,
      VIR.PCTL_WEIGHT, VIR.PCTL_CNLIM, VIR.PCTL_EN, VIR.PPEAK_RATE, VIR.PCRLIM_RATE, VIR.PTCQ_RING, VIR.PTCQ_EN].map (·, inst)
  | 4 => [(DUP.PAIR_PORT1, inst), (DUP.PAIR_PORT2, inst), (DUP.PAIR_EN, inst)]
  | _ => [(DKW.PACT_ACT, 0)]

/-- The content of an object as its hardware copy holds it. -/
def Dev.hwContent (d : Dev) (kind inst : Nat) : List Nat := (objFields kind inst).map (fun f => d.rd f.1 f.2)

/-- Put a content into an object's hardware copy. -/
def Dev.putContent (d : Dev) (kind inst : Nat) (vs : List Nat) : Dev :=
  ((objFields kind inst).zip vs).foldl (fun y e => y.wr e.1.1 e.1.2 e.2) d

/-- The content an object takes at its reset. -/
def resetContent (kind inst : Nat) : List Nat := (objFields kind inst).map (fun f => f.1.coldValue f.2)

/-- The content the copies of an object agree on: as committed, or what stands while no commit wrote it. -/
def Dev.objContent (d : Dev) (kind inst : Nat) : List Nat :=
  (look none d.dkw.objs (objKey kind inst)).getD (d.hwContent kind inst)

/-- Drop log entries beyond the 32 newest whose every object a newer entry commits (R488). -/
def trimLog (log : List CommitEntry) : List CommitEntry :=
  log.take 32 ++ (log.zipIdx.filter (fun e => decide (32 ≤ e.2) &&
    !e.1.objs.all (fun o => (log.take e.2).any (fun n => n.objs.any (fun p => decide (p.1 = o.1)))))).map (fun e => e.1)

/-- A commit (R488): the objects as their hardware copies now hold them, and an entry of the commit log. The step is
past the commit point; one that does not reach it commits nothing. -/
def Dev.commit (d : Dev) (objs : List (Nat × Nat)) : Dev :=
  let vs : List (Nat × List Nat) := objs.map (fun o => (objKey o.1 o.2, d.hwContent o.1 o.2))
  let e := d.rd DKW.TLOG_EPOCH + 1
  let log := trimLog (⟨e, vs⟩ :: d.dkw.log)
  (({ d with dkw := { d.dkw with objs := vs.foldl (fun t (v : Nat × List Nat) => put none t v.1 (some v.2)) d.dkw.objs, log := log } }.wr
    DKW.TLOG_EPOCH 0 e).wr DKW.TLOG_ENTRIES 0 (min log.length 32))

/-- The object that a register field belongs to, if one does: a change of it is committed. -/
def objectOf (f : Fld) (i : Nat) : Option (Nat × Nat) :=
  if f.id = PRT.MODE_GMODE.id ∨ f.id = PRT.CTL_EN.id then some (2, i / 4)
  else if f.id = DUP.PAIR_PORT1.id ∨ f.id = DUP.PAIR_PORT2.id ∨ f.id = DUP.PAIR_EN.id then some (4, i)
  else if f.id = DKW.PACT_ACT.id then some (5, 0)
  else if f.id = SLU.CMAX0_CMAX.id ∨ f.id = SLU.CMAX1_CMAX.id then some (0, i)
  else none

end Sys2Proof.Machine
end

