-- ==== Sys2Proof/Machine/Ports.lean ====
section
/-! DEFINITION. Ports: modes of the lane groups, links, the FEC second and the verification of preemption (05 R112 to
R119, R126). -/

namespace Sys2Proof

/-- The sink of a contract is a receive ring; the contract is duplicated (13 R338). -/
def CRec.toHost (r : CRec) : Bool := r.flags.testBit 1
def CRec.dup (r : CRec) : Bool := r.flags.testBit 2

/-- The egress queues of a contract: TARGET, and TWIN where it is duplicated. -/
def CRec.queues (r : CRec) : List Nat := if r.toHost then [] else r.target :: (if r.dup then [r.twin] else [])

end Sys2Proof

namespace Sys2Proof.Machine

/-- A port's state beside its registers. -/
def Dev.port (d : Dev) (n : Nat) : PortSt := look {} d.mac.port n

/-- Replace a port's state. -/
def Dev.setPort (d : Dev) (n : Nat) (p : PortSt) : Dev := { d with mac := { d.mac with port := put {} d.mac.port n p } }

/-- The mode in force of a lane group (R112). -/
def Dev.groupMode (d : Dev) (g : Nat) : Nat := look 0 d.mac.mode g

/-- Whether the modes in force create a port (R112). -/
def Dev.portExists (d : Dev) (n : Nat) : Bool :=
  match d.groupMode (n / 4) with
  | 1 => decide (n % 4 = 0)
  | 2 => decide (n % 2 = 0)
  | 3 => true
  | 4 => decide (n % 8 = 0)
  | _ => false

/-- The lanes of an existing port. -/
def Dev.portLanes (d : Dev) (n : Nat) : Nat :=
  match d.groupMode (n / 4) with
  | 1 => 4
  | 2 => 2
  | 3 => 1
  | 4 => 8
  | _ => 0

/-- The SPEED code of an existing port (R137). -/
def Dev.portSpeed (d : Dev) (n : Nat) : Nat :=
  match d.groupMode (n / 4) with
  | 1 => 3
  | 2 => 2
  | 3 => 1
  | 4 => 4
  | _ => 0

/-- Whether what a port sends reaches its lanes: no loopback is set (R137; DESIGN CHOICE, log entry 32). -/
def Dev.toLanes (d : Dev) (n : Nat) : Bool := decide (d.rd PRT.CTL_LOOP n = 0 ∨ d.rd PRT.CTL_LOOP n = 3)

/-- A port sends: to its lanes; with near-end PCS loopback to its own receiver, as which it arrives; with far-end PMA loopback, where
the lanes carry what they receive, nowhere (R137; DESIGN CHOICE, log entry 32). -/
def Dev.toLine (d : Dev) (n : Nat) (o : Out) (a : Arrival) : Dev :=
  if d.toLanes n then d.send o
  else if d.rd PRT.CTL_LOOP n = 1 then d.setPort n { d.port n with looped := (d.port n).looped ++ [a] }
  else d

/-- The rate of a port in Gb/s. -/
def Dev.portRate (d : Dev) (n : Nat) : Nat := 100 * d.portLanes n

/-- Whether a port's link is up. -/
def Dev.linkUp (d : Dev) (n : Nat) : Bool := decide (d.rd PRT.STATUS_LINK n = 1)

/-! ## Paths (14 R367, R368, R379) -/

/-- The pairs that are enabled and have lost a port to a lane mode: they stay DISABLED until they are written again (21 R545). -/
def Dev.undoPairs (d : Dev) : Dev :=
  let lost := (List.range 2).filter (fun x =>
    decide (d.rd DUP.PAIR_EN x = 1) && !(d.portExists (d.rd DUP.PAIR_PORT1 x) && d.portExists (d.rd DUP.PAIR_PORT2 x)))
  { d with dup := { d.dup with undone := (d.dup.undone.filter (fun x => !lost.contains x)) ++ lost } }

/-- Whether a path pair is enabled and its ports exist (R367), and no lane mode has undone it since it was written (21 R545). -/
def Dev.pairOn (d : Dev) (x : Nat) : Bool :=
  decide (d.rd DUP.PAIR_EN x = 1) && !d.dup.undone.contains x && d.portExists (d.rd DUP.PAIR_PORT1 x) && d.portExists (d.rd DUP.PAIR_PORT2 x)

/-- The port of a path; paths 0 and 1 are path 1 and 2 of pair A, 2 and 3 those of pair B. -/
def Dev.pathPort (d : Dev) (i : Nat) : Nat := if i % 2 = 0 then d.rd DUP.PAIR_PORT1 (i / 2) else d.rd DUP.PAIR_PORT2 (i / 2)

/-- The path of a port; none for a non-redundant port (R367). -/
def Dev.pathOf (d : Dev) (port : Nat) : Option Nat :=
  (List.range 4).find? (fun i => d.pairOn (i / 2) && decide (d.pathPort i = port))

/-- The other path of the pair. -/
def otherPath (i : Nat) : Nat := if i % 2 = 0 then i + 1 else i - 1

/-- Codes of the states of a path (R368). -/
abbrev pathUp : Nat := 0
abbrev pathFailed : Nat := 1
abbrev pathQuarantined : Nat := 2
abbrev pathResync : Nat := 3
abbrev pathDisabled : Nat := 4

/-- The state of a path. -/
def Dev.pathState (d : Dev) (i : Nat) : Nat := if i % 2 = 0 then d.rd DUP.PSTAT_STATE1 (i / 2) else d.rd DUP.PSTAT_STATE2 (i / 2)

/-- A path beside its registers. -/
def Dev.pathSt (d : Dev) (i : Nat) : PathSt := look {} d.dup.path i

/-- Replace a path beside its registers. -/
def Dev.setPathSt (d : Dev) (i : Nat) (x : PathSt) : Dev := { d with dup := { d.dup with path := put {} d.dup.path i x } }

/-- A path enters a state at a time; `fromQuar` marks a RESYNC entered from QUARANTINED. -/
def Dev.enterPath (d : Dev) (now : NetTime) (i st : Nat) (fromQuar : Bool := false) : Dev :=
  let d1 := if i % 2 = 0 then d.wr DUP.PSTAT_STATE1 (i / 2) st else d.wr DUP.PSTAT_STATE2 (i / 2) st
  d1.setPathSt i { d1.pathSt i with run := 0, fromQuar := fromQuar, since := now.toNs }

/-- A path fails, with EVT 14.0 (R379). A quarantined path stays quarantined, whose exit needs its link in any case (R384;
log entry 21). -/
def Dev.failPath (d : Dev) (now : NetTime) (i : Nat) : Dev :=
  if d.pathState i = pathUp ∨ d.pathState i = pathResync then
    (d.enterPath now i pathFailed).raise now (ev 14 0) (d.pathPort i)
  else d

/-- Show the states of the paths after a change of the pairs or of the modes: a pair that is off has its paths DISABLED
(R367); a path of a pair that comes on starts in a state that the spec leaves open, a free value among UP, FAILED and
RESYNC (log entry 5). -/
def Dev.showPaths (d : Dev) (now : NetTime) : Dev :=
  (List.range 4).foldl (fun y i =>
    if !y.pairOn (i / 2) then (if y.pathState i = pathDisabled then y else y.enterPath now i pathDisabled)
    else if y.pathState i = pathDisabled then
      (y.enterPath now i ([pathUp, pathFailed, pathResync].getD (y.freeVal.toNat % 3) pathUp)).drawn
    else y) d

/-- The groups an APPLY of a port's block with a mode concerns: both of the pair when it joins or undoes a pair (R113,
R114). -/
def Dev.affected (d : Dev) (g mode : Nat) : List Nat :=
  if mode = 4 ∨ d.groupMode g = 4 then [g / 2 * 2, g / 2 * 2 + 1] else [g]

/-- Whether GMODE is not allowed in the block of a lowest port (R114). -/
def Dev.modeRefused (d : Dev) (n mode : Nat) : Bool :=
  decide (5 ≤ mode) || decide (mode = 4 ∧ n % 8 ≠ 0) || (decide (n % 8 = 4) && decide (d.groupMode (n / 4) = 4))

/-- Whether a mode change runs in the block of group `g`, or in the other group of a pair it joins (R114). -/
def Dev.applyRuns (d : Dev) (g : Nat) : Bool :=
  let o := if g % 2 = 0 then g + 1 else g - 1
  decide (d.rd PRT.MODE_STATE (4 * g) = 1)
    || (decide (d.rd PRT.MODE_STATE (4 * o) = 1)
        && decide (d.groupMode g = 4 ∨ look 0 d.mac.applying o = 5))

/-- Clear the ready bits of ports and count the reset of their lane groups (19 R500, R511, R520). -/
def Dev.resetLanes (d : Dev) (gs : List Nat) : Dev :=
  gs.foldl (fun y g =>
    let y1 := (List.range 4).foldl (fun z k => z.wrBit TOP.READY_BITS 0 (4 * g + k) false) y
    (y1.wrBit CLK.RGSTAT_INRESET 0 (12 + g) true).bump CLK.RGCNT_COUNT (12 + g)) d

/-- MODE_APPLY: PRT.MODE.APPLY of a block (R112 to R114). -/
def execModeApply (port : Fin 16) : State → Host.Outcome State Fault Refusal :=
  onDev (fun now d =>
    let g := port.val / 4
    let mode := d.rd PRT.MODE_GMODE port
    if port.val % 4 ≠ 0 then d
    else if d.applyRuns g then d.raise now (ev 5 22) (g * 4)
    else
      let gs := d.affected g mode
      if d.modeRefused port mode || (List.range 16).any (fun n => gs.contains (n / 4) && decide (d.rd PRT.CTL_EN n = 1)) then
        (d.wr PRT.MODE_STATE port 2).raise now (ev 5 22) (g * 4)
      else
        let d1 := d.wr PRT.MODE_STATE port 1
        ({ d1 with mac := { d1.mac with applying := put 0 d1.mac.applying g (mode + 1) } }).resetLanes gs)

/-- The PRT fields that a mode change returns to their reset values for the new ports: status and counters (R114). -/
def portCounters : List Fld :=
  [PRT.RXFRAMES_COUNT, PRT.RXOCTETS_COUNT, PRT.RXFCS_COUNT, PRT.RXRUNT_COUNT, PRT.RXOVERSIZE_COUNT, PRT.RXREASM_COUNT,
   PRT.RXOVERRUN_COUNT, PRT.TXFRAMES_COUNT, PRT.TXOCTETS_COUNT, PRT.TXUNDERRUN_HBM, PRT.TXUNDERRUN_EXP,
   PRT.TXDISCARD_COUNT, PRT.TXPREEMPT_COUNT, PRT.FECCW_COUNT, PRT.FECUNC_COUNT, PRT.FECSYM_COUNT, PRT.STATUS_LINK,
   PRT.STATUS_ALIGN, PRT.STATUS_FECHI, PRT.STATUS_SPEED, PRT.STATUS_PVERIFY]

/-- Link down and counters zero for a port. -/
def Dev.freshPort (d : Dev) (n : Nat) : Dev :=
  let d1 := portCounters.foldl (fun y f => y.wr f n 0) d
  let d2 := (List.range 8).foldl (fun y c => y.wr PRT.TXCLASS_COUNT (8 * n + c) 0) d1
  d2.setPort n { d2.port n with tx := none, held := none, clean := 0, symbols := 0, tries := 0, twoStep := [], rxOpen := none, looped := [] }

/-- The line-rate INC of a port (11 R287, R296), rounded down; 0 for a port that the modes do not create. -/
def Dev.showLineInc (d : Dev) (n : Nat) : Dev := d.wr SCH.PORT_LINEINC n (d.portRate n * 1000000000 * 131072 / 1350000000)

/-- Put a mode in force on a group's block (R113): joining takes both groups, undoing leaves the upper one disabled. -/
def Dev.putMode (d : Dev) (g mode : Nat) : Dev :=
  let o := g / 2 * 2 + 1
  let pair := decide (mode = 4) || decide (d.groupMode g = 4)
  let set := fun (y : Dev) (k m : Nat) =>
    ({ y with mac := { y.mac with mode := put 0 y.mac.mode k m } }).wr PRT.MODE_GMODE (4 * k) m
  if pair then set (set d g mode) o (if mode = 4 then 4 else 0) else set d g mode

/-- MODE_CHANGE_DONE: the lanes are reconfigured: the mode is in force, STATE reads 0h, the new ports start with link
down and counters zero (R114). A change of an upper group that a pairing has overtaken brings no mode: only an APPLY at the lower port
undoes a pair (R113). -/
def execModeChangeDone (group : Fin 4) : State → Host.Outcome State Fault Refusal :=
  onDev (fun now d =>
    match look 0 d.mac.applying group with
    | 0 => d
    | m + 1 =>
      let upper := decide (group.val % 2 = 1 ∧ d.groupMode group = 4)
      let gs := if upper then [] else d.affected group m
      let d1 := (if upper then d else (d.putMode group m).commit (gs.map (fun k => (2, k)))).wr PRT.MODE_STATE (4 * group) 0
      let d2 := { d1 with mac := { d1.mac with applying := put 0 d1.mac.applying group 0 } }
      let d3 := (List.range 16).foldl (fun y n => if gs.contains (n / 4) then (y.freshPort n).showLineInc n else y) d2
      ((gs.foldl (fun y k => y.wrBit CLK.RGSTAT_INRESET 0 (12 + k) false) d3).undoPairs).showPaths now)

/-- PORT_ENABLE: PRT.CTL.EN is set with LT as written, and the port starts training or alignment (R117). -/
def execPortEnable (port : Fin 16) (lt : Bool) : State → Host.Outcome State Fault Refusal :=
  onDev (fun _ d =>
    if d.portExists port && d.ready port then ((d.wr PRT.CTL_LT port (if lt then 1 else 0)).wr PRT.CTL_EN port 1).commit [(2, port / 4)] else d)

/-- The user taps of a lane come into effect at a training (19 R513, R515): factory plus offset, in range. -/
def Dev.trainLane (d : Dev) (x : Nat) : Dev :=
  let eff := fun (f u : Fld) (w lo hi : Nat) =>
    let v : Int := d.rd f x + signedOf (d.rd u x) w
    if v < lo then lo else if (hi : Int) < v then hi else v.toNat
  (((((d.wr CAL.TXE_C2 x (eff CAL.TXF_C2 CAL.TXU_C2 6 0 8)).wr CAL.TXE_C1 x (eff CAL.TXF_C1 CAL.TXU_C1 6 0 24)).wr
    CAL.TXE_C0 x (eff CAL.TXF_C0 CAL.TXU_C0 6 24 63)).wr CAL.TXE_CP1 x (eff CAL.TXF_CP1 CAL.TXU_CP1 6 0 24)).wr
    CAL.TXE_CTLE x (eff CAL.TXF_CTLE CAL.TXU_CTLE 5 0 31)).wr CAL.TXE_PEND x 0

/-- Whether the SerDes transmitter of a port is squelched: its safe state is DARK (18 R481). -/
def Dev.portDark (d : Dev) (n : Nat) : Bool := d.portSafe n && decide (bitsOf (d.rd DKW.PACT_ACT) (2 * n) 2 ≠ 0)

/-- A link change is reported to the board's management controller on a channel that has asked for it (20 R523): the frame type
FFh of DSP0222, channel, event type 0, and the link status. -/
def Dev.linkAen (d : Dev) (n : Nat) : Dev :=
  let c := look {} d.mgt.ncsi n
  if c.init && c.aen.testBit 0 && !d.dkw.mgtDown && d.ready 37 then
    d.send (.message 11 [0xFF, n, 0, d.rd PRT.STATUS_LINK n, d.rd PRT.STATUS_SPEED n])
  else d

/-- LINK_UP: an enabled port's link comes up (R117), its lanes trained (19 R515), verification starting again (R126). -/
def execLinkUp (port : Fin 16) : State → Host.Outcome State Fault Refusal :=
  onDev (fun now d =>
    if d.portExists port && decide (d.rd PRT.CTL_EN port = 1) && !d.linkUp port && !d.portDark port then
      let d1 := (List.range (d.portLanes port)).foldl (fun y k => y.trainLane (port + k)) d
      let d2 := ((d1.wr PRT.STATUS_LINK port 1).wr PRT.STATUS_ALIGN port 1).wr PRT.STATUS_SPEED port (d.portSpeed port)
      let d3 := if d.rd PRT.PREEMPT_VERIFY port = 1 then
          ((d2.wr PRT.STATUS_PVERIFY port 1).setPort port { d2.port port with tries := 1 }).toLine port (.verify port false) .verify
        else d2.wr PRT.STATUS_PVERIFY port 0
      ((d3.linkAen port).raise now (ev 5 port) port).revalidate 5
    else d)

/-- The MAC is done with a frame: its payload leaves with it, with the last segment of a train (R128; 09 R225). A segment
that was sent is counted in TUN.SEGS. -/
def Dev.macDone (d : Dev) (t : TxFrame) (sent : Bool) (ts : Option (Nat × Nat)) : Dev :=
  let d1 := if sent && decide (t.pkt.egress.mss ≠ 0) && !t.beat then d.bump TUN.SEGS_COUNT else d
  if t.beat || decide (t.pkt.segsOut + 1 < t.pkt.segments) then d1 else d1.leave t.pkt sent ts

/-- A frame at a MAC ends with the inverted FCS or mCRC. -/
def Dev.spoil (d : Dev) (n : Nat) (t : TxFrame) : Dev := (d.toLine n (.frame n t.bytes false) (.frame t.bytes false)).macDone t false none

/-- The frame on the wire, and one held for its next fragment, end with the inverted FCS or mCRC, counted in TXDISCARD
(R124, R135; 18 R481). -/
def Dev.endFrames (d : Dev) (n : Nat) : Dev :=
  let p := d.port n
  let d1 := d.setPort n { p with tx := none, held := none }
  (p.tx.toList ++ p.held.toList).foldl (fun y t => (y.spoil n t).bump PRT.TXDISCARD_COUNT n) d1

/-- A link goes down (R124, R135; 13 R359; 14 R377, R379, R384): its frames end, and a frame that was being received is counted in RXFCS;
status and event; the path of the port fails, and a heartbeat that was due is not. -/
def Dev.linkFalls (d : Dev) (now : NetTime) (n : Nat) : Dev :=
  let d0 := if (d.port n).rxOpen.isSome then (d.endFrames n).bump PRT.RXFCS_COUNT n else d.endFrames n
  let d1 := d0.setPort n { d0.port n with tries := 0, rxOpen := none, looped := [] }
  let d2 := (((d1.wr PRT.STATUS_LINK n 0).wr PRT.STATUS_ALIGN n 0).wr PRT.STATUS_SPEED n 0).wr PRT.STATUS_PVERIFY n 0
  let d3 := ((d2.linkAen n).raise now (ev 5 n) n).revalidate 5
  match d3.pathOf n with
  | some i => (d3.setPathSt i { d3.pathSt i with upAll := false, hbDue := false }).failPath now i
  | none => d3

/-! ## The FEC second (R119) -/

/-- FEC_SECOND: a second of network time ends at a port: FECHI sets with EVT 5.16, or clears. A SYMTHR of 0 disables the check, and a FECHI
that stands then clears at the end of the second (DESIGN CHOICE, log entry 32). -/
def execFecSecond (port : Fin 16) : State → Host.Outcome State Fault Refusal :=
  onDev (fun now d =>
    let p := d.port port
    let thr := d.rd PRT.FECTHR_SYMTHR port
    let d1 := d.setPort port { p with symbols := 0 }
    if thr ≠ 0 ∧ thr < p.symbols then (d1.wr PRT.STATUS_FECHI port 1).raiseSec now (ev 5 16) port port
    else d1.wr PRT.STATUS_FECHI port 0)

/-! ## Verification of preemption (R126) -/

/-- Whether an ACTIVE contract of CCLASS 2h or 3h leaves by a port: a change of its PVERIFY to 3h starts a revalidation (21
R546). -/
def Dev.timedContract (d : Dev) (n : Nat) : Bool :=
  d.adm.contracts.any (fun e =>
    let port := fun (q : Nat) =>
      let l3 := bitsOf (look ({} : Node) d.sch.nodes (2 ^ 22 + q)).inForce.w2 0 18
      bitsOf (look ({} : Node) d.sch.nodes (2 ^ 21 + l3 / 8)).inForce.w2 0 18 / 2
    decide (d.rd ADM.CSTAT_STATE e.1 = 2 ∧ 2 ≤ e.2.rcd.cclass) && e.2.rcd.queues.any (fun q => decide (port q = n)))

/-- VERIFY_TIMER: VTIME passes without a response: the next of three attempts, or PVERIFY 3h and EVT 5.19. -/
def execVerifyTimer (port : Fin 16) : State → Host.Outcome State Fault Refusal :=
  onDev (fun now d =>
    let p := d.port port
    if d.rd PRT.STATUS_PVERIFY port ≠ 1 ∨ !d.linkUp port then d
    else if p.tries < 3 then (d.setPort port { p with tries := p.tries + 1 }).toLine port (.verify port false) .verify
    else
      let d1 := (d.wr PRT.STATUS_PVERIFY port 3).raise now (ev 5 19) port
      if d1.timedContract port then d1.revalidate 5 else d1)

/-- Whether a port preempts now: its link is up, and verification is off or has succeeded (R126). -/
def Dev.preempts (d : Dev) (n : Nat) : Bool :=
  d.linkUp n && (decide (d.rd PRT.PREEMPT_VERIFY n = 0) || decide (d.rd PRT.STATUS_PVERIFY n = 2))

end Sys2Proof.Machine
end

