-- ==== Sys2Proof/Machine/Sluice.lean ====
section
/-! DEFINITION. Network time as software sees it, and the sluices: lists, gate states, berms, and changes of a list
(12 R311 to R332). -/

namespace Sys2Proof.Machine

/-! ## Network time (R312 to R314, R316) -/

/-- Keep the per-second and per-hour limits with a time that a SET or STEP moved (00_scope R568). -/
def Dev.limitsAfter (d : Dev) (old new : NetTime) : Dev :=
  let e := d.evt
  { d with evt := { e with
      secondMarks := if old.sec = new.sec then e.secondMarks else []
      hourMarks := if old.sec / 3600 = new.sec / 3600 then e.hourMarks else [] } }

/-- A write of a time register by a PF that does not own time (R312): ignored, counted, EVT 12.8. -/
def Dev.notOwner (d : Dev) (now : NetTime) (pf : Nat) : Dev :=
  (d.bump SLU.TSTAT_IGNORED).raise now (ev 12 8) pf (some (4096 * pf))

/-- Whether a PF owns time. -/
def Dev.ownsTime (d : Dev) (pf : Nat) : Bool := decide (d.rd SLU.TCTL_OWNER = pf)

/-- The latest value of 48 bits of seconds. -/
def maxSec : Nat := 2 ^ 48 - 1

/-- A write of SLU.TRATE by the owner: stored, or stored clamped with CLAMP set (R312). -/
def Dev.setRate (d : Dev) (v : BitVec 32) : Dev :=
  let x := v.toInt
  let lim : Int := 549755813
  let y := if lim < x then lim else if x < -lim then -lim else x
  (d.wr SLU.TRATE_RATE 0 (unsignedOf y 32)).wr SLU.TSTAT_CLAMP 0 (if x = y then 0 else 1)

/-- RATE_WRITE: a PF writes SLU.TRATE (R312). -/
def execRateWrite (pf : Pf) (rate : BitVec 32) : State → Host.Outcome State Fault Refusal :=
  onDev (fun now d => if d.ownsTime pf then d.setRate rate else d.notOwner now pf)

/-- The 16-bit fraction of a nanosecond of R10. -/
def NetTime.frac16 (t : NetTime) : Nat := t.frac / 2 ^ 24

/-- A time in units of 2⁻¹⁶ ns in the format of TSIN (03 R70). -/
def tsinOf (t : Nat) : Nat := t / 65536 / 1000000000 % 2 ^ 32 * 2 ^ 32 + t / 65536 % 1000000000

/-- What SLU.TNOWLO shows: nanoseconds and fraction (R313). -/
def NetTime.lowWord (t : NetTime) : Nat := t.ns + t.frac16 * 2 ^ 32

/-- TNOWLO_READ: nanoseconds and fraction are returned and the seconds latched for the reading PF (R313; 19 R510). -/
def execTnowloRead (pf : Pf) : State → Host.Outcome State Fault Refusal :=
  onDev (fun now d => (d.drawn.wr SLU.TNOWHI_SEC pf (d.readTime now).sec).send (.readData (4096 * pf.val) (BitVec.ofNat 64 (d.readTime now).lowWord)))

/-- PPS_OUT_END: PPS_OUT falls after PPSW ms (R314). -/
def execPpsOutEnd : State → Host.Outcome State Fault Refusal :=
  onDev (fun _ d => if d.slu.pps then ({ d with slu := { d.slu with pps := false } }).send (.pin 0 false) else d)

/-- PPS_IN: a rising edge latches network time, over an older capture (R314). -/
def execPpsIn : State → Host.Outcome State Fault Refusal :=
  onDev (fun now d => (((d.wr SLU.PPSCAP_NS 0 now.ns).wr SLU.PPSCAP_SEC 0 now.sec).wr SLU.TSTAT_PPSV 0 1).raise now (ev 12 1))

/-- A read of SLU.TXTSA: the oldest two-step entry of a port is removed and returned; all ones with none held (R316). -/
def Dev.takeTwoStep (d : Dev) (port : Nat) : Dev × Word :=
  match (d.port port).twoStep with
  | [] => (d, BitVec.allOnes 64)
  | e :: rest =>
    let d1 := (d.setPort port { d.port port with twoStep := rest }).wr SLU.TXTSSTAT_COUNT port rest.length
    ((d1.wr SLU.TXTSB_SEC port e.sec).wr SLU.TXTSB_FRAC port e.frac, BitVec.ofNat 64 (e.mark % 2 ^ 32 + e.ns * 2 ^ 32))

/-- TXTSA_READ (R316). -/
def execTxtsaRead (fn : Fn) (port : Fin 16) : State → Host.Outcome State Fault Refusal :=
  onDev (fun _ d => (d.takeTwoStep port).1.send (.readData fn (d.takeTwoStep port).2))

/-! ## Lists (R319 to R321) -/

/-- A list in force or proposed: base time in nanoseconds, cycle and length, and its entries as words. -/
structure GateList where
  base    : Nat
  cycle   : Nat
  entries : List Nat

def entryGates (e : Nat) : Nat := bitsOf e 0 8
def entryOp (e : Nat) : Nat := bitsOf e 8 2
def entryLen (e : Nat) : Nat := bitsOf e 16 27

/-- The compact list of a port. -/
def Dev.compactList (d : Dev) (p : Nat) : GateList :=
  { base := d.rd SLU.CBASEHI_SEC p * 1000000000 + d.rd SLU.CBASELO_NS p, cycle := d.rd SLU.CCYCLE_CYCLE p,
    entries := (List.range (min (d.rd SLU.CCYCLE_LEN p) 64)).map (fun i => d.rd SLU.CENT_ENTRY (64 * p + i)) }

/-- The administrative list of a full-mode set. -/
def Dev.adminList (d : Dev) (s : Nat) : GateList :=
  { base := d.rd SLU.FABASEHI_SEC s * 1000000000 + d.rd SLU.FABASELO_NS s, cycle := d.rd SLU.FACYCLE_CYCLE s,
    entries := (List.range (min (d.rd SLU.FACYCLE_LEN s) 4096)).map (fun i => d.rd SLU.FAENT_ENTRY (4096 * s + i)) }

/-- The operational list of a full-mode set. -/
def Dev.operList (d : Dev) (s : Nat) : GateList :=
  { base := d.rd SLU.FOBASEHI_SEC s * 1000000000 + d.rd SLU.FOBASELO_NS s, cycle := d.rd SLU.FOCYCLE_CYCLE s,
    entries := (List.range (min (d.rd SLU.FOCYCLE_LEN s) 4096)).map (fun i => d.rd SLU.FOENT_ENTRY (4096 * s + i)) }

/-- Whether a list obeys R320 and R321 for a base whose nanoseconds and a length are given. -/
def GateList.ok (l : GateList) (ns len limit : Nat) : Bool :=
  decide (ns % 8 = 0 ∧ ns < 1000000000 ∧ 32 ≤ l.cycle ∧ l.cycle ≤ 125000000 ∧ 1 ≤ len ∧ len ≤ limit)
    && l.entries.all (fun e => decide (entryOp e ≠ 3 ∧ 1 ≤ entryLen e ∧ entryLen e ≤ 125000000 ∧ bitsOf e 10 6 = 0 ∧ bitsOf e 43 21 = 0))

/-- A port's sluice beside its registers. -/
def Dev.sluice (d : Dev) (p : Nat) : Sluice := look {} d.slu.port p

/-- Replace it. -/
def Dev.setSluice (d : Dev) (p : Nat) (x : Sluice) : Dev := { d with slu := { d.slu with port := put {} d.slu.port p x } }

/-- The list a port runs, if its mode has one (R318); that of a port which the lane mode does not create is kept but not run (21
R545). -/
def Dev.running (d : Dev) (p : Nat) : Option GateList :=
  if !d.portExists p then none else
  match d.rd SLU.PSTAT_STATE p with
  | 1 => some (d.compactList p)
  | 2 => some (d.operList (d.sluice p).fset)
  | _ => none

/-- Where a time falls in the cycle of a list, in ells, and the entry that covers it (R321). -/
def GateList.offset (l : GateList) (t : Nat) : Nat := (((t : Int) - l.base) % ((l.cycle * 8 : Nat) : Int)).toNat / 8

/-- The entry that covers an offset: the last one to its end and beyond. -/
def entryAt : List Nat → Nat → Nat → Nat
  | [], i, _ => i - 1
  | e :: es, i, o => if o < entryLen e then i else entryAt es (i + 1) (o - entryLen e)

/-- The entry of a list in force at a time. -/
def GateList.index (l : GateList) (t : Nat) : Nat := entryAt l.entries 0 (l.offset t)

/-- The entry of a list in force at a time: its number and its word. -/
def GateList.entryOn (l : GateList) (t : Nat) : Nat × Nat := (l.index t, l.entries.getD (l.index t) 0xFF)

/-- The start of the cycle of a list at or before a time. -/
def GateList.cycleStart (l : GateList) (t : Nat) : Nat := t / 8 * 8 - l.offset t * 8

/-- The list entry that a port runs at a time not before the last take-over, if it runs a list: its number and its word (R318, R321).
With EXT the last entry of the old cycle runs on up to the take-over (R329). -/
def Dev.entryAtTime (d : Dev) (p t : Nat) : Option (Nat × Nat) :=
  match (d.sluice p).next with
  | none => (d.running p).map (fun l => l.entryOn t)
  | some n =>
    let new : Option GateList := if n.mode = 1 then some (d.compactList p) else if n.mode = 2 then some (d.adminList n.fset) else none
    if n.t0 ≤ t then new.map (fun l => l.entryOn t)
    else (d.running p).map (fun l =>
      let start := l.cycleStart (n.t0 - 1)
      let ext := if n.mode = 2 then d.rd SLU.FAEXT_EXT n.fset else 0
      if ext ≠ 0 ∧ start ≤ t ∧ n.t0 < start + ext * 8 then l.entryOn (start - 1) else l.entryOn t)

/-- The gate state a port runs at such a time: all gates open without a list. -/
def Dev.gatesAt (d : Dev) (p t : Nat) : Nat := ((d.entryAtTime p t).map (fun e => entryGates e.2)).getD 0xFF

/-- Whether a class may start now as far as its gate goes. -/
def Dev.gateOpen (d : Dev) (now : NetTime) (p c : Nat) : Bool := (d.gatesAt p now.toNs).testBit c

/-! ## Berms (R323, R324, R326) -/

/-- CMAX of a class as written, and as it counts: LEN for 0 or above LEN. -/
def Dev.cmaxRaw (d : Dev) (p c : Nat) : Nat :=
  if c < 4 then bitsOf (d.rd SLU.CMAX0_CMAX p) (16 * c) 14 else bitsOf (d.rd SLU.CMAX1_CMAX p) (16 * (c - 4)) 14

/-- The largest frame of a class (R323). -/
def Dev.cmax (d : Dev) (p c : Nat) : Nat :=
  let x := d.cmaxRaw p c
  if x = 0 ∨ d.rd PRT.MAXLEN_LEN p < x then d.rd PRT.MAXLEN_LEN p else x

/-- Whether a class is preemptable for berms. -/
def Dev.bermPreemptable (d : Dev) (p c : Nat) : Bool :=
  d.rdBit PRT.PREEMPT_PMASK p c && decide (d.rd PRT.STATUS_PVERIFY p ≠ 3)

/-- Division rounded up. -/
def ceilDiv (a b : Nat) : Nat := (a + b - 1) / b

/-- The preemptable berm of a port in ells. -/
def Dev.bermP (d : Dev) (p : Nat) : Nat := ceilDiv (131 + 64 * d.rd PRT.PREEMPT_ADDFRAG p) (max (d.portRate p) 1)

/-- The berm of a class in ells (R323); a CMAX of 1 to 63 counts as 64. -/
def Dev.berm (d : Dev) (p c : Nat) : Nat :=
  if d.portRate p = 0 then 0
  else if d.bermPreemptable p c then d.bermP p
  else ceilDiv (max (d.cmax p c) 64 + 8) (d.portRate p)

/-- The next closing of a class after a time, within `n` ells of it. -/
def Dev.closing (d : Dev) (p c t n : Nat) : Option Nat :=
  ((List.range n).find? (fun j =>
    (d.gatesAt p (t / 8 * 8 + 8 * j)).testBit c && !(d.gatesAt p (t / 8 * 8 + 8 * (j + 1))).testBit c)).map
    (fun j => t / 8 * 8 + 8 * (j + 1))

/-- The closing whose berm runs for a class at a time; a berm in progress keeps its length (R324, R333). -/
def Dev.inBerm (d : Dev) (p c t : Nat) : Option Nat :=
  let kept := look 0 (d.sluice p).inBerm c
  if t < kept then some kept else d.closing p c t (d.berm p c)

/-- Network time plus the effective transmit latency of a port, in units of 2⁻¹⁶ ns: when a frame that starts now crosses the
reference plane (05 R131). -/
def Dev.txTime (d : Dev) (now : NetTime) (n : Nat) : Nat :=
  (((now.toNs * 65536 + now.frac16 : Nat) : Int) + signedOf (d.rd PRT.TSLAT_TXEFF n) 32).toNat

/-- Whether the sluice lets a frame of `len` bytes (FCS included) of a class start, which crosses the reference plane when the transmit
latency has passed (R322, R324). The preamble lies within the ±4 ns of R322 (log entry 19). -/
def Dev.sluiceLets (d : Dev) (now : NetTime) (p c len : Nat) : Bool :=
  let t := d.txTime now p / 65536
  (d.gatesAt p t).testBit c &&
    match d.inBerm p c t with
    | none => true
    | some close => decide ((d.sluice p).lena) && !d.bermPreemptable p c
        && decide ((len + 8) * 8 ≤ (close - t - (if d.txTime now p % 65536 = 0 then 0 else 1)) * d.portRate p)

/-- The open stretches of a class over one cycle of a list: for each entry its ells and whether the class is open. -/
def stretches (c : Nat) : List Nat → Nat → List (Nat × Bool)
  | [], _ => []
  | [e], room => [(room, (entryGates e).testBit c)]
  | e :: es, room => (min (entryLen e) room, (entryGates e).testBit c) :: stretches c es (room - min (entryLen e) room)

/-- The longest run of open ells in stretches, `cur` being the run in progress. -/
def longestOpen : Nat → Nat → List (Nat × Bool) → Nat
  | best, cur, [] => max best cur
  | best, cur, (n, o) :: xs => if o then longestOpen best (cur + n) xs else longestOpen (max best cur) 0 xs

/-- MAXOPEN of a class in ells, or none when it never closes (R326). The cycle is taken twice, which joins its end to its
start. -/
def GateList.maxOpen (l : GateList) (c : Nat) : Option Nat :=
  let s := stretches c l.entries l.cycle
  if s.all (fun x => x.2 || decide (x.1 = 0)) then none else some (longestOpen 0 0 (s ++ s))

/-- Whether a frame of `len` bytes of a class can never be sent (R326). -/
def Dev.neverSent (d : Dev) (p c len : Nat) : Bool :=
  decide (d.cmax p c < len) ||
    match d.running p with
    | none => false
    | some l =>
      if d.bermPreemptable p c then false
      else match l.maxOpen c with
        | none => false
        | some m =>
          if (d.sluice p).lena then decide (m * 8 * d.portRate p < (len + 8) * 8) else decide (m ≤ d.berm p c)

/-- Whether a hold keeps the preemptable MAC quiet: it has no effect while PVERIFY reads 3h or no class is preemptable
(R327). -/
def Dev.held (d : Dev) (p : Nat) : Bool :=
  decide (d.rd SLU.PSTAT_HOLD p = 1 ∧ d.rd PRT.STATUS_PVERIFY p ≠ 3 ∧ d.rd PRT.PREEMPT_PMASK p ≠ 0)

/-! ## Gate changes (R321, R322, R327) -/

/-- Show the entry and gate state of a port at a time. -/
def Dev.showGates (d : Dev) (p t : Nat) : Dev :=
  (d.wr SLU.PSTAT_GATES p (d.gatesAt p t)).wr SLU.PSTAT_ENTRY p (((d.entryAtTime p t).map (fun e => e.1)).getD 0)

/-- An entry of a port's list begins: the gate state, and the hold it sets or releases. -/
def Dev.enterGate (d : Dev) (p t : Nat) : Dev :=
  let d1 := d.showGates p t
  match d1.entryAtTime p t with
  | none => d1.wr SLU.PSTAT_HOLD p 0
  | some e =>
    match entryOp e.2 with
    | 1 => d1.wr SLU.PSTAT_HOLD p 1
    | 2 => d1.wr SLU.PSTAT_HOLD p 0
    | _ => d1

/-- GATE_CHANGE: a list entry or cycle begins at a port, as network time stands (R321, R322, R327). -/
def execGateChange (port : Fin 16) : State → Host.Outcome State Fault Refusal :=
  onDev (fun now d => if (d.running port).isSome then d.enterGate port now.toNs else d)

/-! ## Changing a list (R328 to R331) -/

/-- The first time BASE + k · CYCLE · 8 ns at or after a time; BASE itself when it lies there already (R329). -/
def GateList.firstAfter (l : GateList) (t : Nat) : Nat :=
  if t ≤ l.base then l.base else l.base + ceilDiv (t - l.base) (l.cycle * 8) * (l.cycle * 8)

/-- Nanoseconds, rounded up. -/
def NetTime.ceilNs (t : NetTime) : Nat := t.toNs + (if t.frac = 0 then 0 else 1)

/-- Whether a set serves another port, or is to (R319). -/
def Dev.setTaken (d : Dev) (s p : Nat) : Bool :=
  (List.range 16).any (fun q => decide (q ≠ p) &&
    (decide (d.rd SLU.PSTAT_STATE q = 2 ∧ (d.sluice q).fset = s)
      || (match (d.sluice q).next with | some n => decide (n.mode = 2 ∧ n.fset = s) | none => false)))

/-- The result of validating a CHANGE (R328), in the order pending, running, set, list, CMAX (log entry 19). -/
def Dev.changeResult (d : Dev) (p : Nat) : Nat :=
  let mode := d.rd SLU.PCTL_MODE p
  let s := d.rd SLU.PCTL_FSET p
  let bad :=
    if mode = 1 then !(d.compactList p).ok (d.rd SLU.CBASELO_NS p) (d.rd SLU.CCYCLE_LEN p) 64
    else if mode = 2 then !(d.adminList s).ok (d.rd SLU.FABASELO_NS s) (d.rd SLU.FACYCLE_LEN s) 4096
    else false
  if (d.sluice p).next.isSome ∨ d.rd SLU.PSTAT_COPYING p = 1 then 3
  else if d.rd SLU.PSTAT_STATE p = 1 ∧ (mode = 1 ∨ mode = 2) then 5
  else if mode = 2 ∧ d.setTaken s p then 2
  else if bad then 1
  else if (List.range 8).any (fun c => decide (1 ≤ d.cmaxRaw p c ∧ d.cmaxRaw p c ≤ 63)) then 6
  else 0

/-- T₀ of an accepted change (R329, R331): at least 50 µs ahead. Leaving a list waits for its next cycle start. -/
def Dev.takeOverTime (d : Dev) (now : NetTime) (p : Nat) : Nat :=
  let t := now.ceilNs + 50000
  match d.rd SLU.PCTL_MODE p with
  | 1 => (d.compactList p).firstAfter t
  | 2 => (d.adminList (d.rd SLU.PCTL_FSET p)).firstAfter t
  | _ => match d.running p with
    | some l => l.firstAfter t
    | none => t

/-- SLU.PCTL.CHANGE of a port (R328): accepted with its T₀, or refused with EVT 12.4. -/
def Dev.sluiceChange (d : Dev) (now : NetTime) (p : Nat) : Dev :=
  let r := d.changeResult p
  let d1 := d.wr SLU.PSTAT_RESULT p r
  if r ≠ 0 then d1.raise now (ev 12 4) p
  else
    let t0 := d.takeOverTime now p
    let mode := d.rd SLU.PCTL_MODE p
    let n : Pending := { mode := if mode = 3 then 0 else mode, fset := d.rd SLU.PCTL_FSET p, lena := decide (d.rd SLU.PCTL_LENAWARE p = 1), t0 := t0 }
    (((d1.setSluice p { d1.sluice p with next := some n }).wr SLU.PSTAT_PENDING p 1).wr SLU.PT0LO_NS p (t0 % 1000000000)).wr
      SLU.PT0HI_SEC p (t0 / 1000000000)

/-- SLUICE_CHANGE: the control cores write SLU.PCTL.CHANGE of a port (R328). -/
def execSluiceChange (port : Fin 16) : State → Host.Outcome State Fault Refusal := onDev (fun now d => d.sluiceChange now port)

/-- SLUICE_CANCEL: a pending change is withdrawn with EVT 12.6, or it is too late (R330, R333). -/
def execSluiceCancel (port : Fin 16) : State → Host.Outcome State Fault Refusal :=
  onDev (fun now d =>
    match (d.sluice port).next with
    | none => d
    | some n =>
      if now.toNs / 8 * 8 + 5000 ≤ n.t0 then
        ((d.setSluice port { d.sluice port with next := none }).wr SLU.PSTAT_PENDING port 0).raise now (ev 12 6) port
      else (d.wr SLU.PSTAT_RESULT port 4).raise now (ev 12 4) port)

/-- Copy the listed instances [lo, lo + n) of a register field over those of another. -/
def Dev.copyField (d : Dev) (src dst : Fld) (lo n : Nat) : Dev :=
  let mine := fun (f : Fld) (k : Nat) => decide (k % 1024 = f.id ∧ lo ≤ k / 1024 ∧ k / 1024 < lo + n)
  let d1 := { d with regs := d.regs.filter (fun e => !mine dst e.1) }
  (d.regs.filter (fun e => mine src e.1)).foldl (fun y e => y.wr dst (e.1 / 1024) e.2) d1

/-- The pairs of administrative and operational fields of a full-mode set, with their instances per set. -/
def bankFields : List (Fld × Fld × Nat) :=
  [(SLU.FABASELO_NS, SLU.FOBASELO_NS, 1), (SLU.FABASEHI_SEC, SLU.FOBASEHI_SEC, 1), (SLU.FACYCLE_CYCLE, SLU.FOCYCLE_CYCLE, 1),
   (SLU.FACYCLE_LEN, SLU.FOCYCLE_LEN, 1), (SLU.FAEXT_EXT, SLU.FOEXT_EXT, 1), (SLU.FAENT_ENTRY, SLU.FOENT_ENTRY, 4096)]

/-- The two banks of a set change places (R330). -/
def Dev.swapBanks (d : Dev) (s : Nat) : Dev :=
  bankFields.foldl (fun y f =>
    let keep := y
    let y1 := y.copyField f.1 f.2.1 (f.2.2 * s) f.2.2
    let mine := fun (k : Nat) => decide (k % 1024 = f.1.id ∧ f.2.2 * s ≤ k / 1024 ∧ k / 1024 < f.2.2 * s + f.2.2)
    let y2 := { y1 with regs := y1.regs.filter (fun e => !mine e.1) }
    (keep.regs.filter (fun e => decide (e.1 % 1024 = f.2.1.id ∧ f.2.2 * s ≤ e.1 / 1024 ∧ e.1 / 1024 < f.2.2 * s + f.2.2))).foldl
      (fun z e => z.wr f.1 (e.1 / 1024) e.2) y2) d

/-- The change of a port that is due takes effect (R329 to R331). -/
def Dev.takeOver (d : Dev) (now : NetTime) (p : Nat) : Dev :=
  match (d.sluice p).next with
  | none => d
  | some n =>
    let old := d.sluice p
    let d0 := if d.rd SLU.PSTAT_STATE p = 2 then d.wr SLU.FSTAT_INUSE old.fset 0 else d
    let d1 := if n.mode = 2 then ((d0.swapBanks n.fset).wr SLU.FSTAT_INUSE n.fset 1).wr SLU.FSTAT_PORT n.fset p else d0
    let d2 := d1.setSluice p { old with fset := n.fset, lena := n.lena, next := none, inBerm := [] }
    let d3 := ((d2.wr SLU.PSTAT_STATE p n.mode).wr SLU.PSTAT_PENDING p 0).wr SLU.PSTAT_COPYING p (if n.mode = 2 then 1 else 0)
    let d4 := d3.commit ((0, p) :: (if n.mode = 2 then [(0, 16 + n.fset)] else []))
    (d4.enterGate p (max now.toNs n.t0)).raise now (ev 12 5) p

/-- TAKE_OVER: T₀ of a port's pending change is reached (R329). -/
def execTakeOver (port : Fin 16) : State → Host.Outcome State Fault Refusal :=
  onDev (fun now d =>
    match (d.sluice port).next with
    | some n => if n.t0 ≤ now.toNs then d.takeOver now port else d
    | none => d)

/-- COPY_BACK_DONE: the operational list of a port's set is copied into the administrative bank (R330). -/
def execCopyBackDone (port : Fin 16) : State → Host.Outcome State Fault Refusal :=
  onDev (fun _ d =>
    if d.rd SLU.PSTAT_COPYING port = 0 then d
    else
      let s := (d.sluice port).fset
      (bankFields.foldl (fun y f => y.copyField f.2.1 f.1 (f.2.2 * s) f.2.2) d).wr SLU.PSTAT_COPYING port 0)

/-! ## SET and STEP (R312, R332) -/

/-- After a SET or STEP: counted, EVT 12.0, limits, pending changes it passed, and the gates of the new time. -/
def State.moved (s : State) (new : NetTime) (how : Nat) : State :=
  let d1 := ((s.dev.bump SLU.TSTAT_STEPS).limitsAfter s.time new).raise new (ev 12 0) how
  let d2 := (List.range 16).foldl (fun y p =>
    let y1 := match (y.sluice p).next with
      | some n => if n.t0 ≤ new.toNs then y.takeOver new p else y
      | none => y
    if (y1.running p).isSome then (y1.setSluice p { y1.sluice p with inBerm := [] }).enterGate p new.toNs else y1) d1
  { s with dev := d2, time := new }

/-- A command of the owner of network time. -/
def asOwner (pf : Pf) (f : State → State) (s : State) : Host.Outcome State Fault Refusal :=
  .next (if s.dev.ownsTime pf then f s else { s with dev := s.dev.notOwner s.time pf })

/-- TIME_SET: SLU.TCMD SET loads network time, or is refused (R312). -/
def execTimeSet (pf : Pf) : State → Host.Outcome State Fault Refusal :=
  asOwner pf (fun s =>
    let ns := s.dev.rd SLU.TSETLO_NS
    if 999999999 < ns then { s with dev := s.dev.bump SLU.TSTAT_IGNORED }
    else s.moved { sec := s.dev.rd SLU.TSETHI_SEC % 2 ^ 48, ns := ns, frac := 0 } 1)

/-- TIME_STEP: SLU.TCMD STEP adds the signed nanoseconds of SLU.TOFF, or is refused (R312). -/
def execTimeStep (pf : Pf) : State → Host.Outcome State Fault Refusal :=
  asOwner pf (fun s =>
    let t : Int := s.time.toNs + signedOf (s.dev.rd SLU.TOFF_OFF) 32
    if t < 0 ∨ ((maxSec * 1000000000 + 999999999 : Nat) : Int) < t then { s with dev := s.dev.bump SLU.TSTAT_IGNORED }
    else s.moved { sec := t.toNat / 1000000000, ns := t.toNat % 1000000000, frac := s.time.frac } 2)

end Sys2Proof.Machine
end

