-- ==== Sys2Proof/Machine/Scheduler.lean ====
section
/-! DEFINITION. The scheduler: node records, shapers and policers, enqueueing, and the selection of frames down the tree
(11 R282 to R309). -/

namespace Sys2Proof.Machine

/-- The parent of a node as a record gives it (R282). -/
def parentOf (lvl n : Nat) (r : Rec) : Nat :=
  match lvl with
  | 1 => n / 2
  | 3 => n / 8
  | _ => r.parent

/-- The listed nodes of a level. -/
def Dev.nodesAt (d : Dev) (lvl : Nat) : List (Nat × Node) :=
  (d.sch.nodes.filter (fun e => decide (e.1 / 2 ^ 20 = lvl))).map (fun e => (e.1 % 2 ^ 20, e.2))

/-- CSUM of a node (R295): the committed INC of its children, as written. -/
def Dev.csum (d : Dev) (lvl n : Nat) : Nat :=
  if lvl < 4 then
    (((d.nodesAt (lvl + 1)).filter (fun e => decide (parentOf (lvl + 1) e.1 e.2.wrote = n))).map (fun e => e.2.wrote.cinc)).sum
  else 0

/-! ## Credits (R287 to R290) -/

/-- A burst in bytes as credit, 1/256 grain. -/
def capOf (burst : Nat) : Int := (burst : Int) * 16 * 256

/-- The refill step of a shaper or bucket (R288). -/
def refill (inc burst : Nat) (cred : Int) : Int :=
  if inc = 0 then cred else if cred < capOf burst then min (cred + inc) (capOf burst) else cred

/-- Whether a record is enabled. -/
def Rec.enabled (r : Rec) (lvl : Nat) : Bool := if lvl = lvlPolicer then r.polEn else r.en

/-- Whether the peak shaper of a node permits (R287, R289). -/
def Node.peakOk (x : Node) : Bool := decide (x.inForce.pinc = 0 ∨ 0 ≤ x.peak)

/-- Whether a node is committed-eligible as far as its shapers go (R292). -/
def Node.committedOk (x : Node) : Bool := x.inForce.en && x.peakOk && decide (x.inForce.cinc ≠ 0 ∧ 0 ≤ x.cred)

/-- Whether a node is excess-eligible as far as its shapers and weight go (R292, R294). -/
def Node.excessOk (x : Node) : Bool := x.inForce.en && x.peakOk && !x.committedOk && decide (x.inForce.weight ≠ 0)

/-- A node at a refill boundary: a record written since the last one comes into force (R290) — on EN rising the credits
start at zero, a policer's buckets full (R289, R303), and a credit above its new cap is cut — and both shapers refill. The
refill of a class shaper is held while its gate is closed (R297). A node that is no longer excess-eligible loses its deficit (R294). -/
def Node.atRefill (x : Node) (lvl : Nat) (held : Bool) : Node :=
  let r := x.wrote
  let rises := r.enabled lvl && (x.fresh || !x.inForce.enabled lvl)
  let start := fun (c : Int) (burst : Nat) =>
    if rises then (if lvl = lvlPolicer then capOf burst else 0) else if x.wrote = x.inForce then c else min c (capOf burst)
  let c := start x.cred r.cburst
  let p := start x.peak r.pburst
  let y : Node := { x with
    inForce := r
    fresh := false
    cred := if held then c else refill r.cinc r.cburst c
    peak := if held then p else refill r.pinc r.pburst p }
  if y.excessOk then y else { y with deficit := 0 }

/-- REFILL: a refill boundary (R288, R290, R297). -/
def execRefill : State → Host.Outcome State Fault Refusal :=
  onDev (fun now d =>
    { d with sch := { d.sch with nodes := d.sch.nodes.mapKept {} (fun k x =>
        let lvl := k / 2 ^ 20
        let n := k % 2 ^ 20
        x.atRefill lvl (decide (lvl = lvlClass) && !d.gateOpen now (n / 8) (n % 8))) } })

/-- The charge of `len` bytes with OVH, in 1/256 grain (R288). -/
def chargeOf (len ovh : Nat) : Int := ((len + ovh : Nat) : Int) * 16 * 256

/-- Charge a node: both shapers under committed eligibility, else its peak shaper (R292). A shaper with INC 0 is off and
is not charged (log entry 20). -/
def Node.charge (x : Node) (amount : Int) (committed : Bool) : Node :=
  { x with
    cred := if committed ∧ x.inForce.cinc ≠ 0 then x.cred - amount else x.cred
    peak := if x.inForce.pinc ≠ 0 then x.peak - amount else x.peak }

/-! ## Node commands (R295, R309) -/

/-- The bytes added to every charge at a port (R288). -/
def Dev.ovh (d : Dev) (p : Nat) : Nat := d.rd SCH.PORT_OVH p

/-- The staged record of a writer. -/
def Dev.stagedRec (d : Dev) (w : Writer) : Rec :=
  { w0 := d.rd SCH.NSTG_DATA (8 * w.view), w1 := d.rd SCH.NSTG_DATA (8 * w.view + 1),
    w2 := d.rd SCH.NSTG_DATA (8 * w.view + 2), w3 := d.rd SCH.NSTG_DATA (8 * w.view + 3) }

/-- Whether the fields that a kind does not use are zero, and a queue's depths descend (R298, R309). -/
def Rec.fieldsOk (r : Rec) (lvl : Nat) : Bool :=
  match lvl with
  | 4 =>
    onlyFields r.w1 [(0, 60)] && onlyFields r.w2 [(0, 18), (24, 4), (32, 18)] && onlyFields r.w3 [(0, 60)]
      && decide (r.depth 2 ≤ r.depth 1 ∧ r.depth 1 ≤ r.depth 0)
  | 5 => onlyFields r.w1 [(0, 54), (56, 2)] && decide (r.w2 = 0 ∧ r.w3 = 0)
  | 6 => onlyFields r.w0 [(0, 32)] && onlyFields r.w1 [(0, 24)] && onlyFields r.w2 [(24, 1)] && decide (r.w3 = 0)
  | 2 => onlyFields r.w1 [(0, 60)] && onlyFields r.w2 [(0, 18), (24, 1)] && decide (r.w3 = 0)
  | _ => onlyFields r.w1 [(0, 60)] && onlyFields r.w2 [(24, 1)] && decide (r.w3 = 0)

/-- Whether two ports are those of one path pair. -/
def Dev.arePair (d : Dev) (a b : Nat) : Bool :=
  (List.range 2).any (fun x => decide ((d.rd DUP.PAIR_PORT1 x = a ∧ d.rd DUP.PAIR_PORT2 x = b)
    ∨ (d.rd DUP.PAIR_PORT1 x = b ∧ d.rd DUP.PAIR_PORT2 x = a)))

/-- Whether PARENT and TWIN of a record are valid (R282, R284). -/
def Dev.linksOk (d : Dev) (lvl n : Nat) (r : Rec) : Bool :=
  let l1 := fun (l3 : Nat) => (d.node 2 (l3 / 8)).wrote.parent
  if lvl = 2 then decide (r.parent < 32)
  else if lvl = 4 then
    let t := (d.node 4 r.twin).wrote
    let named := (d.nodesAt 4).any (fun e => decide (e.1 ≠ n) && e.2.wrote.dup && decide (e.2.wrote.twin = n))
    decide (r.parent < 65536) && (!r.dup ||
      (!named && decide (r.twin ≠ n) && !t.dup && decide (l1 r.parent % 2 = 0 ∧ l1 t.parent % 2 = 0)
        && d.arePair (l1 r.parent / 2) (l1 t.parent / 2)))
  else true

/-- Whether the committed sums allow a record (R295). At L0 a committed INC of 0 limits the children no more than the line rate does. -/
def Dev.sumsOk (d : Dev) (lvl n : Nat) (r : Rec) : Bool :=
  if 4 < lvl then true
  else
    let own := decide (d.csum lvl n ≤ r.cinc)
    let par :=
      if lvl = 0 then true
      else
        let k := parentOf lvl n r
        let after := (d.setNode lvl n { d.node lvl n with wrote := r }).csum (lvl - 1) k
        let lim := (d.node (lvl - 1) k).wrote.cinc
        if lvl = 1 then decide (after ≤ d.rd SCH.PORT_LINEINC k ∧ (lim = 0 ∨ after ≤ lim)) else decide (after ≤ lim)
    own && par

/-- Whether a PF owns an L3 node (R309). -/
def Dev.pfOwnsL3 (d : Dev) (pf l3 : Nat) : Bool := decide ((d.l2Owner (l3 / 8)).map pfOf = some pf)

/-- Whether a writer may write a record (R309): the control cores any; a PF the L3 and L4 nodes of its polders, without a
change of committed INC, committed burst, CCLASS, DUP or TWIN. -/
def Dev.mayWriteNode (d : Dev) (w : Writer) (lvl n : Nat) (r : Rec) : Bool :=
  match w with
  | .control => true
  | _ =>
    let old := (d.node lvl n).wrote
    let same := decide (r.cinc = old.cinc ∧ r.cburst = old.cburst ∧ r.cclass = old.cclass ∧ r.dup = old.dup ∧ r.twin = old.twin)
    if lvl = 3 then d.pfOwnsL3 w.view n && same
    else if lvl = 4 then
      d.pfOwnsL3 w.view r.parent && (decide (old = {}) || d.pfOwnsL3 w.view old.parent) && same
    else false

/-- Whether a level and node number name a record. -/
def nodeExists (lvl n : Nat) : Bool := decide (lvl < 7 ∧ n < levelCount lvl ∧ (lvl ≠ lvlPolicer ∨ n ≠ 0))

/-- The result of a WRITE, in the order range, permission, fields, parent or twin, sums (log entry 20). -/
def Dev.nodeResult (d : Dev) (w : Writer) (lvl n : Nat) (r : Rec) : Nat :=
  if !nodeExists lvl n then 2
  else if !d.mayWriteNode w lvl n r then 1
  else if !r.fieldsOk lvl then 4
  else if !d.linksOk lvl n r then 5
  else if !d.sumsOk lvl n r then 3
  else 0

/-- Write a record that passes, or refuse it with EVT 11.2. -/
def Dev.nodeWrite (d : Dev) (now : NetTime) (w : Writer) (lvl n : Nat) (r : Rec) : Dev :=
  let res := d.nodeResult w lvl n r
  let d1 := d.wr SCH.NSTAT_RESULT w.view res
  let x := d1.node lvl n
  if res = 0 then d1.setNode lvl n { x with wrote := r, fresh := r.enabled lvl && (x.fresh || !x.wrote.enabled lvl) }
  else d1.raise now (ev 11 2) (n + lvl * 2 ^ 18 + res * 2 ^ 21) (writerPolder w)

/-- The frames of a queue. -/
def Dev.queue (d : Dev) (q : Nat) : List Packet := look [] d.sch.queues q

/-- Replace the frames of a queue. -/
def Dev.setQueue (d : Dev) (q : Nat) (l : List Packet) : Dev := { d with sch := { d.sch with queues := put [] d.sch.queues q l } }

/-- The length on the wire of a stored packet: its bytes, the FCS, and the trailer a PRP copy takes (R288; 14 R371). -/
def Packet.wire (p : Packet) : Nat := p.bytes.length + 4 + (if p.drawn.isSome ∧ p.egress.dp.isNone then 6 else 0)

/-- A counter of a record, saturated at 32 bits (R309). -/
def sat32 (n : Nat) : Nat := min n (2 ^ 32 - 1)

/-- The eight words of a record (R309). -/
def Dev.nodeWords (d : Dev) (lvl n : Nat) : List Nat :=
  let x := d.node lvl n
  let w6 :=
    if lvl = 4 then sat32 ((d.queue n).map Packet.wire).sum + sat32 (d.queue n).length * 2 ^ 32
    else if lvl = 5 then x.green + x.yellow * 2 ^ 32
    else if lvl = 6 then 0 else sat32 (d.csum lvl n)
  let w7 := if lvl = 4 then x.drops + x.sent * 2 ^ 32 else if lvl = 5 then x.red + x.redDrop * 2 ^ 32 else 0
  [x.wrote.w0, x.wrote.w1, x.wrote.w2, x.wrote.w3, unsignedOf x.cred 64, if lvl = 6 then 0 else unsignedOf x.peak 64, w6, w7]

/-- Read a record into the writer's staging set; any writer may read any record (R309). -/
def Dev.nodeRead (d : Dev) (w : Writer) (lvl n : Nat) : Dev :=
  if !nodeExists lvl n then d.wr SCH.NSTAT_RESULT w.view 2
  else ((d.nodeWords lvl n).zipIdx.foldl (fun y e => y.wr SCH.NSTG_DATA (8 * w.view + e.2) e.1) d).wr SCH.NSTAT_RESULT w.view 0

/-- A node command runs to its end: its result is posted and BUSY clears (R290, R309). -/
def Dev.nodeRun (d : Dev) (now : NetTime) (w : Writer) (c : NodeCmd) : Dev :=
  let d0 : Dev := { d with sch := { d.sch with waiting := put none d.sch.waiting w.view none, cmdRot := turnAfter w } }
  let d1 := match c.op with
    | 1 => d0.nodeRead w c.lvl c.node
    | 2 => d0.nodeWrite now w c.lvl c.node (d0.stagedRec w)
    | _ => d0.wr SCH.NSTAT_RESULT w.view 6
  d1.wr SCH.NSTAT_BUSY w.view 0

/-- A writer writes SCH.NCMD: ignored and counted while BUSY is set; else its command waits for its turn (R309, R310). -/
def Dev.nodeCommand (d : Dev) (w : Writer) (c : NodeCmd) : Dev :=
  if d.rd SCH.NSTAT_BUSY w.view = 1 then d.bump SCH.NSTAT_IGNORED w.view
  else ({ d with sch := { d.sch with waiting := put none d.sch.waiting w.view (some c) } } : Dev).wr SCH.NSTAT_BUSY w.view 1

/-- The commands of the writers run one at a time, in rotating writer order, within a TCLK (R307, R309). -/
def Dev.nodeTick (d : Dev) (now : NetTime) : Dev :=
  let r := d.sch.cmdRot
  (writerTurns r).foldl (fun (y : Dev) v =>
    match look none y.sch.waiting v with
    | some c => y.nodeRun now (writerOf v) c
    | none => y) d

/-- NODE_READ: SCH.NCMD READ (R309). -/
def execNodeRead (w : Writer) (lvl : Fin 8) (n : Fin 262144) : State → Host.Outcome State Fault Refusal :=
  onDev (fun _ d => d.nodeCommand w { op := 1, lvl := lvl, node := n })

/-- NODE_WRITE: SCH.NCMD WRITE (R290, R295, R309). -/
def execNodeWrite (w : Writer) (lvl : Fin 8) (n : Fin 262144) : State → Host.Outcome State Fault Refusal :=
  onDev (fun _ d => d.nodeCommand w { op := 2, lvl := lvl, node := n })

/-! ## Policing (R303 to R305) -/

/-- The meter of R303: buckets Tc and Tp, the size in credit, the pre-colour; answers Tc, Tp and the colour. -/
def meter (tc tp b : Int) (pc : Nat) : Int × Int × Nat :=
  if pc = 2 ∨ tp < b then (tc, tp, 2)
  else if pc = 1 ∨ tc < b then (tc, tp - b, 1)
  else (tc - b, tp - b, 0)

/-- Whether a number names an enabled policer. -/
def Dev.policerOn (d : Dev) (n : Nat) : Bool := decide (1 ≤ n ∧ n < 131072) && (d.node 5 n).inForce.polEn

/-- An out-of-range or disabled policer (R304, R305). -/
def Dev.badMeter (d : Dev) (now : NetTime) (n : Nat) : Dev :=
  ((d.bump SCH.BADMETER_COUNT).wr SCH.BADMETER_LAST 0 n).raiseSec now (ev 11 3) 0 n

/-- Colour `len` bytes by a policer (R303): the device and the colour, which is red for a policer not there. -/
def Dev.police (d : Dev) (now : NetTime) (n len pc : Nat) : Dev × Nat :=
  if !d.policerOn n then (d.badMeter now n, 2)
  else
    let x := d.node 5 n
    let r := meter x.cred x.peak (chargeOf len x.inForce.polOvh) (if pc = 3 then 0 else pc)
    let y := { x with cred := r.1, peak := r.2.1 }
    let z := if r.2.2 = 0 then { y with green := sat32 (y.green + 1) }
      else if r.2.2 = 1 then { y with yellow := sat32 (y.yellow + 1) } else { y with red := sat32 (y.red + 1) }
    (d.setNode 5 n z, r.2.2)

/-- MTR: meter rb bytes by policer ra[16:0] with pre-colour ra[18:17]; the bits above are taken as zero (R305). -/
def execMtr (x : CtxId) (rd ra rb : Reg) (k : Tick) : State → Host.Outcome State Fault Refusal :=
  onDev (fun now d => d.async x k { regs := [rd, ra, rb] } (fun c =>
    let a := (c.rg ra).toNat
    let r := d.police now (a % 2 ^ 17) (c.rg rb).toNat (bitsOf a 17 2)
    .ok (r.1, { rd := rd, pend := .value (BitVec.ofNat 64 r.2) })))

/-! ## Enqueueing (R283, R284, R298, R299) -/

/-- Show the free pool entries. -/
def Dev.showPool (d : Dev) : Dev := d.wr SCH.POOL_FREE 0 (16777216 - d.sch.poolBe - d.sch.poolAdm)

/-- A packet gives its pool entry back (R299). -/
def Dev.freeEntry (d : Dev) (p : Packet) : Dev :=
  match p.pool with
  | 1 => ({ d with sch := { d.sch with poolBe := d.sch.poolBe - 1 } }).showPool
  | 2 => ({ d with sch := { d.sch with poolAdm := d.sch.poolAdm - 1 } }).showPool
  | _ => d

/-- Why a packet does not fit a queue: 0 depth, 1 pool; none when it fits (R298, R299). -/
def Dev.misfit (d : Dev) (q : Nat) (p : Packet) : Option Nat :=
  let r := (d.node 4 q).inForce
  if r.depth p.colour < ((d.queue q).map Packet.wire).sum + p.wire then some 0
  else
    let res := d.rd SCH.POOL_ADMRES
    if r.cclass ≠ 0 then (if res ≤ d.sch.poolAdm then some 1 else none)
    else if 16777216 - res ≤ d.sch.poolBe then some 1 else none

/-- Put a packet that fits at the end of a queue, with its CLASS made that of the queue (R283). -/
def Dev.push (d : Dev) (now : NetTime) (q : Nat) (p : Packet) : Dev :=
  let c := d.queueL3 q % 8
  let adm := decide ((d.node 4 q).inForce.cclass ≠ 0)
  let d1 := if p.cls = c then d else (d.bump SCH.CLASSFIX_COUNT).raiseSec now (ev 11 5) 0 q (d.queuePolder q)
  let d2 := { d1 with sch := { d1.sch with
    poolAdm := if adm then d1.sch.poolAdm + 1 else d1.sch.poolAdm
    poolBe := if adm then d1.sch.poolBe else d1.sch.poolBe + 1 } }
  (d2.setQueue q (d2.queue q ++ [{ p with cls := c, pool := if adm then 2 else 1, outq := q }])).showPool

/-- Note the last drop (R310). -/
def Dev.lastDrop (d : Dev) (q cause : Nat) : Dev := (d.wr SCH.LASTDROP_QUEUE 0 q).wr SCH.LASTDROP_CAUSE 0 cause

/-- Count a packet that does not fit a queue (R298, R299). -/
def Dev.countMisfit (d : Dev) (now : NetTime) (q : Nat) (p : Packet) (cause : Nat) : Dev :=
  let x := d.node 4 q
  let adm := decide (x.inForce.cclass ≠ 0)
  let d0 := d.lastDrop q cause
  if cause = 0 then
    let d1 := d0.setNode 4 q { x with drops := sat32 (x.drops + 1) }
    let d2 := d1.bump (if p.colour = 0 then SCH.DDROP_GREEN else if p.colour = 1 then SCH.DDROP_YELLOW else SCH.DROPS_RED)
    if adm then d2.raiseSec now (ev 11 0) 0 q (d2.queuePolder q) else d2
  else (d0.bump (if adm then SCH.POOLDROP_ADM else SCH.POOLDROP_BE)).raiseSec now (ev 11 1) 0 (if adm then 1 else 0)

/-- Count the copy of a DUP queue or its twin that does not fit alone (R284). -/
def Dev.twinDrop (d : Dev) (now : NetTime) (q : Nat) : Dev :=
  ((d.lastDrop q 3).bump SCH.TWINDROP_COUNT).raiseSec now (ev 11 4) 0 q (d.queuePolder q)

/-- Enqueue a packet to a queue, and to its twin when the queue has DUP set (R284, R298, R299). -/
def Dev.enqueue (d : Dev) (now : NetTime) (q : Nat) (p : Packet) : Dev :=
  let r := (d.node 4 q).inForce
  if !r.dup then
    match d.misfit q p with
    | none => d.push now q p
    | some cause => (d.countMisfit now q p cause).freePacket p
  else
    match d.misfit q p with
    | none =>
      let k := d.sch.nextShare
      let both := { p with share := some k }
      match (d.push now q p).misfit r.twin p with
      | none =>
        let d1 := { d with sch := { d.sch with nextShare := k + 1, shared := put 0 d.sch.shared k 2 } }
        (d1.push now q both).push now r.twin both
      | some _ => (d.push now q p).twinDrop now r.twin
    | some cause =>
      match d.misfit r.twin p with
      | none => (d.push now r.twin p).twinDrop now q
      | some cause2 => ((d.countMisfit now q p cause).countMisfit now r.twin p cause2).freePacket p

/-! ## Selection (R285, R292 to R294, R300) -/

/-- The head of a queue that may be sent: its onward cipher jobs have merged (R300). -/
def Dev.readyHead (d : Dev) (q : Nat) : Option Packet :=
  match d.queue q with
  | p :: _ => if p.onward.isEmpty then some p else none
  | [] => none

/-- Whether a packet loses the PRP trailer it was received with as it leaves through a port (14 R376). -/
def Dev.strips (d : Dev) (port : Nat) (p : Packet) : Bool :=
  p.trailer && decide (d.rd DUP.CFG_TXSTRIP = 1) && (d.pathOf port).isNone

/-- The length on the wire of the next frame that leaves a queue through a port: the packet, or the next segment of its
train (R225). -/
def Dev.sendWire (d : Dev) (port : Nat) (p : Packet) : Nat :=
  if p.egress.mss = 0 then p.wire - (if d.strips port p then 6 else 0)
  else p.segLen p.segsOut + 4 + (if p.drawn.isSome ∧ p.egress.dp.isNone then 6 else 0)

/-- A step of a selection: the child chosen at a level, whether committed, and the deficits its siblings take. -/
structure Choice where
  lvl       : Nat
  node      : Nat
  committed : Bool
  deficits  : List (Nat × Nat)

/-- What a selection below a node finds: the queue, and the choices down to it. -/
structure Found where
  queue : Nat
  path  : List Choice

/-- The children of a node for a class (R282, R285). -/
def Dev.children (d : Dev) (lvl n c : Nat) : List Nat :=
  match lvl with
  | 0 => [2 * n, 2 * n + 1]
  | 2 => [8 * n + c]
  | _ => ((d.nodesAt (lvl + 1)).filter (fun e => decide (e.2.inForce.parent = n))).map (fun e => e.1)

/-- Deficit round robin (R294) among excess-eligible children in rotating order, each with its deficit, its quantum and
what its head frame needs: the place of the child served and the quanta each child gains. -/
def drrRounds (xs : List (Nat × Nat × Nat)) : List Nat :=
  xs.map (fun x => if x.2.2 ≤ x.1 then 0 else ceilDiv (x.2.2 - x.1) (max x.2.1 1))

/-- The place of the least element of a list, the first of equals. -/
def leastAt (xs : List Nat) : Nat := (xs.findIdx? (fun x => decide (x = xs.foldl min (xs.headD 0)))).getD 0

/-- Choose among the children of a node that have a frame, each with what was found below it (R292 to R294). -/
def Dev.choose (d : Dev) (lvl n port : Nat) (kids : List (Nat × Found)) : Option (Choice × Found) :=
  let child := fun (k : Nat) => d.node (lvl + 1) k
  let com := kids.filter (fun e => (child e.1).committedOk)
  let exc := kids.filter (fun e => (child e.1).excessOk)
  let keep := exc.map (fun e => (e.1, (child e.1).deficit))
  match (rotated (d.node lvl n).rot (com.map (fun e => e.1))).head? with
  | some k => (com.find? (fun e => decide (e.1 = k))).map (fun e => (⟨lvl + 1, k, true, keep⟩, e.2))
  | none =>
    let order := rotated (d.node lvl n).erot (exc.map (fun e => e.1))
    let need := fun (k : Nat) => match exc.find? (fun e => decide (e.1 = k)) with
      | some e => (match d.readyHead e.2.queue with | some p => d.sendWire port p | none => 0)
      | none => 0
    let rounds := drrRounds (order.map (fun k => ((child k).deficit, (child k).inForce.weight * 64, need k + d.ovh port)))
    let i := leastAt rounds
    let r := rounds.getD i 0
    let grown := order.zipIdx.map (fun e =>
      let q := (child e.1).inForce.weight * 64
      let v := (child e.1).deficit + (r + (if e.2 < i then 1 else 0)) * q
      (e.1, if e.2 = i then v - need e.1 else v))
    match order[i]? with
    | none => none
    | some k => (exc.find? (fun e => decide (e.1 = k))).map (fun e => (⟨lvl + 1, k, false, grown⟩, e.2))

/-- Whether an L2 node is not served: its polder is in its safe state (18 R482). -/
def Dev.l2Silent (d : Dev) (n : Nat) : Bool :=
  match d.l2Owner n with
  | some p => d.polSafe p
  | none => false

/-- The frame that would be selected below a node (R285, R292): the fuel is the number of levels below it. -/
def Dev.select (d : Dev) (c port : Nat) : Nat → Nat → Nat → Option Found
  | 0, _, n => if (d.node 4 n).inForce.en && (d.readyHead n).isSome then some ⟨n, []⟩ else none
  | fuel + 1, lvl, n =>
    if !(d.node lvl n).inForce.en || (decide (lvl = 2) && d.l2Silent n) then none
    else
      let kids := (d.children lvl n c).filterMap (fun k => (d.select c port fuel (lvl + 1) k).map (fun f => (k, f)))
      (d.choose lvl n port kids).map (fun r => { r.2 with path := r.1 :: r.2.path })

/-- Apply one choice: rotation, deficits of the siblings (others are cleared), and the charge (R292 to R294). -/
def Dev.applyChoice (d : Dev) (parent c : Nat) (amount : Int) (x : Choice) : Dev :=
  let y := d.node (x.lvl - 1) parent
  let d1 := d.setNode (x.lvl - 1) parent (if x.committed then { y with rot := x.node + 1 } else { y with erot := x.node })
  let d2 := (d1.children (x.lvl - 1) parent c).foldl (fun z k =>
    z.setNode x.lvl k { z.node x.lvl k with deficit := ((x.deficits.find? (fun e => decide (e.1 = k))).map (fun e => e.2)).getD 0 }) d1
  d2.setNode x.lvl x.node ((d2.node x.lvl x.node).charge amount x.committed)

/-- Apply the choices of a path from a node down. -/
def Dev.applyPath (d : Dev) (c : Nat) (amount : Int) : Nat → List Choice → Dev
  | _, [] => d
  | n, x :: xs => (d.applyChoice n c amount x).applyPath c amount x.node xs

/-- The nodes of a path that are no longer excess-eligible for a class after a frame of it left have their deficit cleared (R294). -/
def Dev.settleDeficits (d : Dev) (c port : Nat) (path : List Choice) : Dev :=
  path.foldl (fun (y : Dev) x =>
    if (y.node x.lvl x.node).excessOk && (y.select c port (4 - x.lvl) x.lvl x.node).isSome then y
    else y.setNode x.lvl x.node { y.node x.lvl x.node with deficit := 0 }) d

/-- The frames in a class buffer of a port. -/
def Dev.classBuf (d : Dev) (p c : Nat) : List Packet := look [] (d.port p).bufs c

/-- Replace the frames in a class buffer. -/
def Dev.setClassBuf (d : Dev) (p c : Nat) (l : List Packet) : Dev :=
  d.setPort p { d.port p with bufs := put [] (d.port p).bufs c l }

/-- A removed frame charges no shaper (R302, R326): what its selection charged is given back, up to the burst. -/
def Node.refund (x : Node) (amount : Nat) (committed : Bool) : Node :=
  { x with
    cred := if committed ∧ x.inForce.cinc ≠ 0 then max x.cred (min (x.cred + amount) (capOf x.inForce.cburst)) else x.cred
    peak := if x.inForce.pinc ≠ 0 then max x.peak (min (x.peak + amount) (capOf x.inForce.pburst)) else x.peak }

/-- Give back what the selection of a frame charged. -/
def Dev.refund (d : Dev) (x : Packet) : Dev :=
  x.paid.2.foldl (fun (y : Dev) e => y.setNode e.1 e.2.1 ((y.node e.1 e.2.1).refund x.paid.1 e.2.2)) d

/-- Take the head of a queue into a class buffer: whole, or the next segment of its train, which leaves the queue with its
last one (R225, R300). -/
def Dev.takeHead (d : Dev) (q p c : Nat) (paid : Nat × List (Nat × Nat × Bool)) : Dev :=
  match d.queue q with
  | [] => d
  | x :: rest =>
    let y := { x with segsOut := x.segsOut + 1 }
    let d1 := d.setClassBuf p c (d.classBuf p c ++ [{ x with paid := paid }])
    if y.segsOut < x.segments then d1.setQueue q (y :: rest) else (d1.setQueue q rest).freeEntry x

/-! ## Removal on a quarantined path, and of frames that are too long (R302, R326) -/

/-- Whether the device holds the path of a port quarantined (14 R368). -/
def Dev.quarantined (d : Dev) (port : Nat) : Bool :=
  match d.pathOf port with
  | some i => decide (d.pathState i = 2) || (decide (d.pathState i = 3) && (look {} d.dup.path i).fromQuar)
  | none => false

/-- Count a removed frame, and give its payload back (R302). -/
def Dev.quarDrop (d : Dev) (x : Packet) : Dev := ((d.lastDrop x.outq 2).bump SCH.QUARDROP_COUNT).freePacket x

/-- Remove what stands below the duplicated node of a quarantined port, in queues and class buffers (R302). -/
def Dev.quarRemove (d : Dev) (p : Nat) : Dev :=
  if !d.quarantined p then d
  else
    let qs := (d.sch.queues.map (fun e => e.1)).filter (fun q => decide (d.queueL1 q = 2 * p))
    let d1 := qs.foldl (fun y q => ((y.queue q).foldl (fun z x => (z.quarDrop x).freeEntry x) y).setQueue q []) d
    (List.range 8).foldl (fun y c =>
      let out := (y.classBuf p c).filter (fun x => decide (d.queueL1 x.outq = 2 * p))
      (out.foldl (fun (z : Dev) x => (z.refund x).quarDrop x) y).setClassBuf p c ((y.classBuf p c).filter (fun x => decide (d.queueL1 x.outq ≠ 2 * p)))) d1

/-- Remove frames from the head of a class buffer that can never be sent (R326). -/
def Dev.trimClass (d : Dev) (now : NetTime) (p c : Nat) : Nat → Dev
  | 0 => d
  | fuel + 1 =>
    match d.classBuf p c with
    | x :: rest =>
      if d.neverSent p c (d.sendWire p x) then
        (((((d.setClassBuf p c rest).refund x).freePacket x).bump SLU.PDROP_LONG p).raiseSec now (ev 12 7) p p).trimClass now p c fuel
      else d
    | [] => d

/-- CLASS_BUFFER_REQUEST: the slice selects the next frame of a class for a class buffer with a free place (R285, R292 to
R294, R300 to R302). -/
def execClassBufferRequest (port : Fin 16) (cls : Fin 8) : State → Host.Outcome State Fault Refusal :=
  onDev (fun now d =>
    let d1 := d.quarRemove port
    if !d1.portExists port || decide (2 ≤ (d1.classBuf port cls).length)
        || (!d1.linkUp port && decide (d1.rd PRT.CTL_DOWNACT port = 1)) then d1
    else
      let top := d1.node 0 port
      if !top.inForce.en || !top.peakOk then d1
      else match d1.select cls port 4 0 port with
        | none => d1
        | some f =>
          match d1.readyHead f.queue with
          | none => d1
          | some x =>
            let amount := chargeOf (d1.sendWire port x) (d1.ovh port)
            let d2 := d1.setNode 0 port (top.charge amount top.committedOk)
            let paid := ((d1.sendWire port x + d1.ovh port) * 4096,
              (0, port.val, top.committedOk) :: f.path.map (fun e => (e.lvl, e.node, e.committed)))
            (((d2.applyPath cls amount port f.path).takeHead f.queue port cls paid).settleDeficits cls port f.path).trimClass now port cls 2)

end Sys2Proof.Machine
end

