-- ==== Sys2Proof/Machine/SafeState.lean ====
section
/-! DEFINITION. Safe states of a port, a polder and the device, FAULT_N, the triple store, and the mechanisms of the
Dikewarden (18 R478 to R490, R497; 20 R522; 22 R553, R558, R559). -/

namespace Sys2Proof.Machine

/-! ## FAULT_N (R485) -/

/-- Assert FAULT_N, if it is not asserted: the pin goes low, EVT 0.21. -/
def Dev.assertFault (d : Dev) (now : NetTime) : Dev :=
  if d.rd DKW.STATUS_FAULTN = 1 then d else ((d.wr DKW.STATUS_FAULTN 0 1).send (.pin 1 false)).raise now (ev 0 21)

/-! ## Entry (R481 to R483) -/

/-- A port stops as DKW.PACT gives for it (R481): SILENT ends what it sends, DARK also loses the link. -/
def Dev.silencePort (d : Dev) (now : NetTime) (n : Nat) : Dev :=
  let d1 := ((d.wrBit DKW.PSAFE_PORTS 0 n true).endFrames n).raise now (ev 0 17) n
  if d1.portDark n ∧ d1.linkUp n then d1.linkFalls now n else d1

/-- A port enters its safe state for a cause (R481). -/
def Dev.safePort (d : Dev) (now : NetTime) (cause : Nat × Nat) (n : Nat) : Dev :=
  if d.portSafe n then d
  else ({ d with dkw := { d.dkw with portCause := put (0, 0) d.dkw.portCause n cause } }.silencePort now n).assertFault now

/-- A function's DMA is silenced (15 R409 step 2): its descriptors are abandoned at the request boundary, completions of
its reads will be discarded, and frames whose payload is still being read are lost. -/
def Dev.silenceDma (d : Dev) (f : Nat) : Dev :=
  let mine := (d.rng.chans.filter (fun e => (e.2.desc.map (fun q => q.fn)) = some f)).map (fun e => e.1)
  let d1 := mine.foldl (fun y k => (y.setChan (k / 32) (k % 32) { y.chan (k / 32) (k % 32) with desc := none }).wr
    DMA.GSTAT_BUSY (k / 32) (y.rd DMA.GSTAT_BUSY (k / 32) - 1)) d
  let gone := mine.filterMap (fun k => (d.chan (k / 32) (k % 32)).desc) ++ d.rng.waiting.filter (fun q => decide (q.fn = f))
  let d2 := d1.dropWrites gone
  { d2 with
    rng := { d2.rng with waiting := d2.rng.waiting.filter (fun q => decide (q.fn ≠ f)) }
    hif := { d2.hif with
      reads := d2.hif.reads.map (fun r => if r.fn = f then { r with dead := true } else r)
      tagWait := d2.hif.tagWait.filter (fun k => decide (k ≠ f)) } }

/-- The completion rings of a polder that are in service, and its other rings by key. -/
def Dev.polderRings (d : Dev) (p : Nat) : List Nat :=
  (d.rng.rings.filter (fun e => decide (e.2.st ≠ .disabled ∧ e.2.st ≠ .isolated) && d.ownsRing p (e.1 / 2 ^ 18) (e.1 % 2 ^ 18))).map
    (fun e => e.1)

/-- The rings of a polder become ISOLATED (16 R446): its completion rings with the rings that name them, then any left. -/
def Dev.isolatePolder (d : Dev) (now : NetTime) (p : Nat) : Dev :=
  let d1 := ((d.polderRings p).filter (fun k => decide (k / 2 ^ 18 = kCq))).foldl (fun y k => y.isolate now (k % 2 ^ 18)) d
  (d1.polderRings p).foldl (fun y k =>
    let x := look ({} : Ring) y.rng.rings k
    let x1 := { x with st := .isolated, bufs := [], subs := x.subs.filter (fun e => e.started) }
    let y1 := { y with rng := { y.rng with rings := put {} y.rng.rings k x1 } }
    y1.wr RNG.STATUS_ISOLATED 0 (y1.rd RNG.STATUS_ISOLATED + 1)) d1

/-- The cause that revalidation gives the contracts of a polder in its safe state, as 13 R362 numbers causes (R482). -/
def Dev.safeBreach (d : Dev) (m : Nat) : Nat :=
  if d.rd DKW.STATUS_SECOND = 1 then 4 else if m = 5 then 1 else if m = 9 then 2 else if m = 14 then 3 else 5

/-- What a polder's safe state does (R482). -/
def Dev.silencePolder (d : Dev) (now : NetTime) (p : Nat) : Dev :=
  (((d.wrBit DKW.POLSAFE_MAP (p / 64) (p % 64) true).isolatePolder now p).silenceDma p).raise now (ev 0 18) 0 (some p)

/-- A polder enters its safe state for a cause (R482). -/
def Dev.safePolder (d : Dev) (now : NetTime) (cause : Nat × Nat) (p : Nat) : Dev :=
  if d.polSafe p then d
  else
    let d1 := { d with dkw := { d.dkw with polCause := put (0, 0) d.dkw.polCause p cause } }.silencePolder now p
    (d1.revalidate (d1.safeBreach cause.1)).assertFault now

/-- The polders whose functions exist. -/
def Dev.polders (d : Dev) : List Nat := (List.range 8192).filter (fun p => d.fnExists p)

/-- The device-wide safe state (R483): every port, every polder, ILK_OUT low, EVT 0.19 and FAULT_N. A polder whose
function does not exist has no ring and no DMA; its bit alone sets. -/
def Dev.safeDevice (d : Dev) (now : NetTime) (cause : Nat × Nat) : Dev :=
  if d.devSafe then d
  else
    let d1 := ({ d with dkw := { d.dkw with devCause := cause } }.wr DKW.STATUS_DEVSAFE 0 1).raise now (ev 0 19) cause.1
    let d2 := ((List.range 16).filter (fun n => !d1.portSafe n)).foldl (fun y n => y.silencePort now n) d1
    let d3 := (d2.polders.filter (fun p => !d2.polSafe p)).foldl (fun y p => y.silencePolder now p) d2
    let d4 := (List.range 128).foldl (fun y n => y.wr DKW.POLSAFE_MAP n (2 ^ 64 - 1)) d3
    ((d4.revalidate (d4.safeBreach cause.1)).send (.message 8 [0])).assertFault now

/-! ## Causes -/

/-- A mechanism reports its cause present, or clear (R484). -/
def Dev.setPresent (d : Dev) (m inst : Nat) (on : Bool) : Dev :=
  let rest := d.dkw.present.filter (· ≠ (m, inst))
  { d with dkw := { d.dkw with present := if on then (m, inst) :: rest else rest } }

/-- Whether a cause still stands. A device-wide safe state from SM 4, SM 13 or SM 12 on a domain other than LCLK and
XCLK ends only by reset (R484). -/
def Dev.causeStands (d : Dev) (cause : Nat × Nat) : Bool :=
  d.dkw.present.contains cause || decide (cause.1 = 4 ∨ cause.1 = 13)
    || decide (cause.1 = 12 ∧ (cause.2 < 7 ∨ cause.2 = 13))

/-- A payload check fails (SM 7): EVT 0.3, and a second failure on one port within 1 s is the port's safe state. A
payload of a frame that came from no port names none. -/
def Dev.payloadFailure (d : Dev) (now : NetTime) (port : Option Nat) : Dev :=
  match port with
  | none => d.raise now (ev 0 3)
  | some n =>
    let d1 := d.raise now (ev 0 3) n
    let again := match look none d.dkw.payload n with
      | some t => decide (now.toNs ≤ t + 1000000000)
      | none => false
    let d2 := { d1 with dkw := { d1.dkw with payload := put none d1.dkw.payload n (some now.toNs) } }
    if again then d2.safePort now (7, n) n else d2

/-! ## The triple store (R487 to R490) -/

/-- What the Dikewarden finds of one copy of an object: its ECC passes with the content committed, or with another, or
its ECC fails. -/
def copyContent (c : Copy) (committed : List Nat) : Option (List Nat) :=
  match c with
  | .intact => some committed
  | .holds vs => some vs
  | .eccFails => none

/-- The ports an object concerns (R487). -/
def Dev.concerns (d : Dev) (kind inst : Nat) : List Nat :=
  match kind with
  | 0 => if inst < 16 then [inst]
    else (List.range 16).filter (fun p => decide (d.rd SLU.PCTL_MODE p = 2 ∧ d.rd SLU.PCTL_FSET p = inst - 16))
  | 1 => (List.range 16).filter (fun p => d.adm.contracts.any (fun c => c.2.rcd.ports.testBit p))
  | 2 => (List.range 4).map (fun i => 4 * inst + i)
  | 3 => []
  | 4 => [d.rd DUP.PAIR_PORT1 inst, d.rd DUP.PAIR_PORT2 inst]
  | _ => List.range 16

/-- The safe state that an object brings: its ports, or its polder (R489, R490). -/
def Dev.safeObject (d : Dev) (now : NetTime) (kind inst : Nat) : Dev :=
  let cause := (10, objKey kind inst)
  let d1 := (d.concerns kind inst).foldl (fun y n => y.safePort now cause n) d
  if kind = 3 then d1.safePolder now cause inst else d1

/-- INFO and polder of EVT 0.10 to EVT 0.13 (R569). -/
def objInfo (kind inst : Nat) : Nat := kind + (if kind = 1 ∨ kind = 5 then 0 else inst * 2 ^ 16)

/-- The polder that an object's events name. -/
def objPolder (kind inst : Nat) : Option Nat := if kind = 3 then some inst else none

/-- Read an object and compare its copies (R489). -/
def Dev.readObject (d : Dev) (now : NetTime) (kind inst : Nat) (a b c : Copy) : Dev :=
  let key := objKey kind inst
  let v := d.objContent kind inst
  let raise := fun (y : Dev) (e : Nat) => y.raise now (ev 0 e) (objInfo kind inst) (objPolder kind inst)
  let take := fun (y : Dev) (vs : List Nat) => { y with dkw := { y.dkw with objs := put none y.dkw.objs key (some vs) } }
  let repair := fun (vs : List Nat) => raise ((take d vs).bump DKW.TSTAT_REPAIRS) 10
  let fallback :=
    match d.dkw.log.findSome? (fun e => (e.objs.find? (fun o => decide (o.1 = key))).map (fun o => o.2)) with
    | some vs => raise ((take d vs).bump DKW.TSTAT_FALLBACKS) 11
    | none => ((raise ((take d (resetContent kind inst)).bump DKW.TSTAT_NOEPOCH) 12).putContent kind inst
        (resetContent kind inst)).safeObject now kind inst
  match copyContent a v, copyContent b v, copyContent c v with
  | some x, some y, some z =>
    if x = y ∧ y = z then d
    else if x = y ∨ x = z then repair x
    else if y = z then repair y
    else fallback
  | some x, some y, none | some x, none, some y | none, some x, some y => if x = y then repair x else fallback
  | _, _, _ => fallback

/-- OBJECT_SCAN: an object is read and its three copies compared, as the Dikewarden finds them (R489, R490). -/
def execObjectScan (kind : Fin 6) (inst : Nat) (a b c : Copy) : State → Host.Outcome State Fault Refusal :=
  onDev (fun now d => d.readObject now kind inst a b c)

/-- A hardware copy was rewritten; a second time within 1 s is the safe state of what the object concerns (R490). -/
def Dev.hwRewritten (d : Dev) (now : NetTime) (kind inst : Nat) : Dev :=
  let key := objKey kind inst
  let again := match look none d.dkw.rewrites key with
    | some t => decide (now.toNs ≤ t + 1000000000)
    | none => false
  let d1 := { d with dkw := { d.dkw with rewrites := put none d.dkw.rewrites key (some now.toNs) } }
  if again then d1.safeObject now kind inst else d1

/-- HW_COPY_COMPARE: a hardware copy is compared with the majority; `found` is what it is found to hold where a fault has
changed it. A difference is rewritten, with EVT 0.13; a second within 1 s is the safe state of what the object concerns
(R490). -/
def execHwCopyCompare (kind : Fin 6) (inst : Nat) (found : Option (List Nat)) : State → Host.Outcome State Fault Refusal :=
  onDev (fun now d =>
    let v := d.objContent kind inst
    if found.getD (d.hwContent kind inst) = v then d
    else
      (((d.putContent kind inst v).bump DKW.TSTAT_HWFIX).raise now (ev 0 13) (objInfo kind inst) (objPolder kind inst)).hwRewritten
        now kind inst)

/-! ## Control cores, the management controller and the Dikewarden pairs (R479; SM 1 to SM 4, SM 11) -/

/-- A control core is isolated and reset (SM 1, SM 11). -/
def Dev.isolateCore (d : Dev) (now : NetTime) (core src : Nat) : Dev :=
  if d.dkw.coresOut.contains core then d
  else
    let d1 := (d.setCtx (1536 + core) {}).setCsr core {}
    ({ d1 with dkw := { d1.dkw with coresOut := core :: d1.dkw.coresOut } }).raise now src core

/-- LOCKSTEP_MISMATCH: a control-core pair disagrees (SM 1). -/
def execLockstepMismatch (core : Fin 12) : State → Host.Outcome State Fault Refusal :=
  onDev (fun now d => d.isolateCore now core (ev 0 0))

/-- CONTROL_HEARTBEAT_MISS: a control core has not signalled (SM 11). -/
def execControlHeartbeatMiss (core : Fin 12) : State → Host.Outcome State Fault Refusal :=
  onDev (fun now d => d.isolateCore now core (ev 0 5))

/-- CONTROL_CORE_RETURN: an isolated core finishes its reset and self-test and runs again, or stays out. -/
def execControlCoreReturn (core : Fin 12) (pass : Bool) : State → Host.Outcome State Fault Refusal :=
  onDev (fun _ d =>
    if d.dkw.coresOut.contains core.val && pass then
      let d1 := { d with dkw := { d.dkw with coresOut := d.dkw.coresOut.filter (· ≠ core.val) } }
      ((d1.repaired 1 core).repaired 11 core).setCtx (1536 + core) { st := .run }
    else d)

/-- The image set in the flash slots of a part as made: valid, of the least accepted version (log entry 29). -/
def factoryImage : FwImage :=
  { good := true, version := Config.otp DKW.FWVER_MINVER.id 0 % 2 ^ 32, content := 0 }

/-- The image set in a flash slot, 0 A and 1 B (20 R537). -/
def Dev.flashSlot (d : Dev) (slot : Nat) : FwImage :=
  ((d.mgt.flash.find? (fun e => decide (e.1 = slot))).map (fun e => e.2)).getD factoryImage

/-- An update under way ends, and the slot it was writing is left invalid (20 R538, R540). -/
def Dev.abortUpdate (d : Dev) : Dev :=
  if 1 ≤ d.rd MGT.FWUPD_STATE ∧ d.rd MGT.FWUPD_STATE ≤ 3 then
    let slot := d.rd MGT.FWUPD_SLOT
    let bad : FwImage := { d.flashSlot slot with good := false }
    let m := { d.mgt with update := none, flash := Tbl.insert d.mgt.flash slot bad }
    ({ d with mgt := m }.wr MGT.FWUPD_STATE 0 5).wr MGT.FWUPD_ERR 0 5
  else d

/-- The management controller leaves service to restart: its reset group, its ready bit, and an update under way (19 R500,
R511; 20 R522, R540; SM 2). -/
def Dev.mgtFails (d : Dev) (now : NetTime) : Dev :=
  if d.dkw.mgtDown then d
  else
    let d0 : Dev := { d with dkw := { d.dkw with mgtDown := true }, mgt := { d.mgt with reading := none, scan1 := none, rescans := 0 } }
    let d1 := ((d0.wr MGT.SNAPSTAT_READING 0 0).raise now (ev 0 1)).abortUpdate
    (((d1.wrBit TOP.READY_BITS 0 37 false).wr MGT.STATUS_READY 0 0).wrBit CLK.RGSTAT_INRESET 0 4 true).bump CLK.RGCNT_COUNT 4

/-- MGT_LOCKSTEP_MISMATCH: the management controller restarts from the active image (SM 2). -/
def execMgtLockstepMismatch : State → Host.Outcome State Fault Refusal :=
  onDev (fun now d => d.mgtFails now)

/-- A Dikewarden pair stops: the other one continues alone (R479, SM 3). -/
def Dev.pairStops (d : Dev) (now : NetTime) (f : Fld) : Dev :=
  if d.rd f = 1 then d
  else
    let both := decide (d.rd DKW.STATUS_PAIRA = 1 ∨ d.rd DKW.STATUS_PAIRB = 1)
    let d1 := ((d.wr f 0 1).wr DKW.STATUS_DEGRADED 0 1).raise now (ev 0 2)
    if both then (d1.wr DKW.STATUS_SECOND 0 1).routeEvent now (ev 0 23) 3 none else d1

/-- PAIR_CHECK: the two cores of a Dikewarden pair agree and the pair, which has not stopped, signals; or they disagree and the pair stops (R479). -/
def execPairCheck (pair : Fin 2) (agree : Bool) : State → Host.Outcome State Fault Refusal :=
  onDev (fun now d =>
    let f := if pair.val = 0 then DKW.STATUS_PAIRA else DKW.STATUS_PAIRB
    if !agree then d.pairStops now f
    else if d.rd f = 1 then d
    else { d with dkw := { d.dkw with signalAt := d.eng.tclks } })

/-- The reaction block places the device in its safe state on its own (R479, SM 4). -/
def Dev.reactionDeadline (d : Dev) (now : NetTime) : Dev :=
  if d.devSafe then d else (d.detected now 4 (ev 0 19) 4).safeDevice now (4, 4)

/-- 4 ACLK periods in TCLK, rounded up (R479; 19 R507). -/
abbrev reactionTime : Nat := 122071

/-- REACTION_DEADLINE: neither pair has signalled for 4 ACLK, and the reaction block acts on its own (R479, SM 4). -/
def execReactionDeadline : State → Host.Outcome State Fault Refusal :=
  onDev (fun now d => if d.eng.tclks < d.dkw.signalAt + reactionTime then d else d.reactionDeadline now)

/-! ## Gate comparator, clocks, supplies, temperature (SM 8, SM 12 to SM 14) -/

/-- A gate comparator finds a port's gate bits wrong (SM 8). -/
def Dev.gateFault (d : Dev) (now : NetTime) (port : Nat) : Dev := (d.raise now (ev 0 4) port).safePort now (8, port) port

/-- GATE_COMPARATOR: the gate state that the operational list gives is compared with the gate bits of the MAC; with no
fault they are the bits that SLU.PSTAT.GATES shows (SM 8). -/
def execGateComparator (port : Fin 16) (equal : Bool) : State → Host.Outcome State Fault Refusal :=
  onDev (fun now d =>
    if equal then d.setPresent 8 port false
    else if d.dkw.present.contains (8, port.val) then d
    else (d.setPresent 8 port true).gateFault now port)

/-- The polders of a link. -/
def Dev.linkPolders (d : Dev) (l : Nat) : List Nat := d.polders.filter (fun p => decide (linkOf p = l))

/-- The reaction to a clock domain that leaves its limits (SM 12): XCLKg the ports of lane group g, LCLKl the polders of
link l, any other domain the device. -/
def Dev.clockFault (d : Dev) (now : NetTime) (dom : Nat) : Dev :=
  let d1 := d.raise now (ev 0 6) dom
  if 9 ≤ dom ∧ dom ≤ 12 then (List.range 4).foldl (fun y i => y.safePort now (12, dom) (4 * (dom - 9) + i)) d1
  else if dom = 7 ∨ dom = 8 then (d1.linkPolders (dom - 7)).foldl (fun y p => y.safePolder now (12, dom) p) d1
  else d1.safeDevice now (12, dom)

/-- CLOCK_MONITOR: a clock domain is found within its limits, or out of them (SM 12). -/
def execClockMonitor (dom : Fin 14) (inRange : Bool) : State → Host.Outcome State Fault Refusal :=
  onDev (fun now d =>
    let d1 := d.wrBit CLK.STATUS_LOCK 0 dom inRange
    if inRange then d1.setPresent 12 dom false
    else if d.dkw.present.contains (12, dom.val) then d1
    else (d1.setPresent 12 dom true).clockFault now dom)

/-- SUPPLY_MONITOR: a rail has stayed out of its operating range for 2 µs, or is back in it (SM 13; 22 R553). -/
def execSupplyMonitor (rail : Fin 9) (inRange : Bool) : State → Host.Outcome State Fault Refusal :=
  onDev (fun now d =>
    if inRange then d.setPresent 13 rail false
    else if d.dkw.present.contains (13, rail.val) then d
    else ((d.setPresent 13 rail true).raise now (ev 0 7) rail).safeDevice now (13, rail))

/-- SUPPLY_NEAR_LIMIT: a rail has stayed near its limit for 100 µs (22 R553). -/
def execSupplyNearLimit (rail : Fin 9) : State → Host.Outcome State Fault Refusal :=
  onDev (fun now d => d.raiseSec now (ev 1 8) rail rail)

/-- The thresholds of the grade in 1/16 °C (22 R558): warning, critical, and end of throttling. TOP.IDENT.GRADE 0 is
grade C. -/
def Dev.thresholds (d : Dev) : Int × Int × Int :=
  if d.rd TOP.IDENT_GRADE = 0 then (90 * 16, 100 * 16, 85 * 16) else (100 * 16, 110 * 16, 95 * 16)

/-- The clocks that throttling changes, nominal and throttled in kHz (22 R559). -/
def throttledClocks : List (Nat × Nat × Nat) :=
  [(0, 2000000, 1500000), (1, 1600000, 1200000), (2, 1350000, 1000000), (3, 2200000, 1650000)]

/-- Set the clocks to their throttled frequencies, or back (22 R559). -/
def Dev.setThrottle (d : Dev) (on : Bool) : Dev :=
  { throttledClocks.foldl (fun y c => y.wr CLK.FREQ_KHZ c.1 (if on then c.2.2 else c.2.1)) d with
    dkw := { d.dkw with throttled := on } }

/-- TEMPERATURE_SAMPLE: a sample of the junction temperature: the sensor that reads highest and its reading, in 1/16 °C
(22 R558, R559; SM 14). At the warning threshold EVT 1.5, and throttling starts; at the critical one the device is placed
in its safe state. -/
def execTemperatureSample (sensor : Fin 16) (temp : Int) : State → Host.Outcome State Fault Refusal :=
  onDev (fun now d =>
    let (warn, crit, _) := d.thresholds
    let d0 : Dev := if d.thresholds.2.2 ≤ temp then { d with dkw := { d.dkw with hotAt := d.eng.tclks } } else d
    let d1 := if warn ≤ temp then d0.raise now (ev 1 5) sensor else d0
    let d2 := if warn ≤ temp ∧ !d1.dkw.throttled then ((d1.setThrottle true).raise now (ev 1 6)).revalidate 3 else d1
    if temp < crit then { d2 with dkw := { d2.dkw with present := d2.dkw.present.filter (fun c => decide (c.1 ≠ 14)) } }
    else if d2.dkw.present.any (fun c => decide (c.1 = 14)) then d2
    else ((d2.setPresent 14 sensor true).raise now (ev 0 8) sensor).safeDevice now (14, sensor))

/-- THROTTLE_END: the junction temperature has stayed below the end threshold for 10 ms (22 R559). -/
def execThrottleEnd : State → Host.Outcome State Fault Refusal :=
  onDev (fun now d =>
    if d.dkw.throttled && decide (d.dkw.hotAt + 10000000 ≤ d.eng.tclks) then ((d.setThrottle false).raise now (ev 1 7)).revalidate 3 else d)

/-! ## Release (R484, R485) -/

/-- A release is refused: nothing changes, EVT 0.26. -/
def Dev.refuseRelease (d : Dev) (now : NetTime) (m : Nat) : Dev := d.raise now (ev 0 26) m

/-- A release is done: the next fault is the first again, EVT 0.20. -/
def Dev.released (d : Dev) (now : NetTime) (info : Nat) (polder : Option Nat) : Dev :=
  let d1 := { d with dkw := { d.dkw with causeSet := false } }
  let d2 := (((d1.wr DKW.CAUSE_SOURCE 0 0).wr DKW.CAUSE_SM 0 0).wr DKW.CAUSE_INFO 0 0)
  ((d2.wr DKW.FTIME_NS 0 0).wr DKW.FTIME_SEC 0 0).raise now (ev 0 20) info polder

/-- End the safe state of a port: it retrains its link (R484). -/
def Dev.freePort (d : Dev) (now : NetTime) (n : Nat) : Dev :=
  let cause : Nat × Nat := look (0, 0) d.dkw.portCause n
  let d1 := { d.wrBit DKW.PSAFE_PORTS 0 n false with dkw := { d.dkw with portCause := put (0, 0) d.dkw.portCause n (0, 0) } }
  let d2 := if d1.linkUp n then d1.linkFalls now n else d1
  if decide (cause = (0, 0)) || d2.dkw.portCause.any (fun e => decide (e.2 = cause)) then d2 else d2.repaired cause.1 cause.2

/-- PSCLR: PF 0 ends the safe states of ports whose causes are clear; else the release is refused (R484). A port that the
device-wide safe state holds is not released by it. -/
def execPsclr (pf : Pf) (ports : BitVec 16) : State → Host.Outcome State Fault Refusal :=
  onDev (fun now d =>
    let ns := (List.range 16).filter (fun n => ports.getLsbD n && d.portSafe n)
    if pf.val ≠ 0 ∨ ns = [] then d
    else if d.devSafe then d.refuseRelease now d.dkw.devCause.1
    else match ns.find? (fun n => d.causeStands (look (0, 0) d.dkw.portCause n)) with
      | some n => d.refuseRelease now (look (0, 0) d.dkw.portCause n).1
      | none => (ns.foldl (fun y n => y.freePort now n) d).released now ((ns.map (fun n => 2 ^ (n + 4))).sum) none)

/-- POLCLR: the PF of a polder's family ends its safe state if its cause is clear (R484). -/
def execPolclr (pf : Pf) (polder : Fn) : State → Host.Outcome State Fault Refusal :=
  onDev (fun now d =>
    let cause : Nat × Nat := look (0, 0) d.dkw.polCause polder
    if pfOf polder ≠ pf.val ∨ !d.polSafe polder then d
    else if d.devSafe then d.refuseRelease now d.dkw.devCause.1
    else if d.causeStands cause then d.refuseRelease now cause.1
    else
      let d1 := { d.wrBit DKW.POLSAFE_MAP (polder / 64) (polder % 64) false with
        dkw := { d.dkw with polCause := put (0, 0) d.dkw.polCause polder (0, 0) } }
      let d2 := if d1.dkw.polCause.any (fun e => decide (e.2 = cause)) then d1 else d1.repaired cause.1 cause.2
      d2.released now 1 (some polder))

/-- FCLR_DEVICE: PF 0 ends the device-wide safe state if its cause is clear and it may end so (R484). Ports and polders
with a cause of their own stay in their safe states. -/
def execFclrDevice (pf : Pf) : State → Host.Outcome State Fault Refusal :=
  onDev (fun now d =>
    let cause := d.dkw.devCause
    if pf.val ≠ 0 ∨ !d.devSafe then d
    else if d.causeStands cause then d.refuseRelease now cause.1
    else
      let ns := (List.range 16).filter (fun n => decide (look (0, 0) d.dkw.portCause n = (0, 0)))
      let d1 := { d.wr DKW.STATUS_DEVSAFE 0 0 with dkw := { d.dkw with devCause := (0, 0) } }
      let d2 := ns.foldl (fun y n => y.freePort now n) d1
      let d3 := (List.range 128).foldl (fun y n => y.wr DKW.POLSAFE_MAP n
        (((List.range 64).filter (fun j => decide (look (0, 0) d.dkw.polCause (64 * n + j) ≠ (0, 0)))).map (fun j => 2 ^ j)).sum) d2
      (d3.repaired cause.1 cause.2).released now (2 + (ns.map (fun n => 2 ^ (n + 4))).sum) none)

/-- Whether a safe state of any kind remains. -/
def Dev.anySafe (d : Dev) : Bool :=
  d.devSafe || decide (d.rd DKW.PSAFE_PORTS ≠ 0) || (List.range 128).any (fun n => decide (d.rd DKW.POLSAFE_MAP n ≠ 0))

/-- FCLR_RELEASE: PF 0 releases FAULT_N when no safe state remains, no cause is present and no mechanism has failed its
self-test; else the write is refused (R485). -/
def execFclrRelease (pf : Pf) : State → Host.Outcome State Fault Refusal :=
  onDev (fun now d =>
    if pf.val ≠ 0 then d
    else if d.anySafe || !d.dkw.present.isEmpty || decide (d.rd DKW.SMSTAT_FAILED ≠ 0) || !d.ready 36 then
      d.refuseRelease now ((d.dkw.present.head?.map (fun c => c.1)).getD d.dkw.devCause.1)
    else if d.rd DKW.STATUS_FAULTN = 0 then d
    else
      let d1 := { d with dkw := { d.dkw with causeSet := false } }
      let d2 := (((d1.wr DKW.CAUSE_SOURCE 0 0).wr DKW.CAUSE_SM 0 0).wr DKW.CAUSE_INFO 0 0)
      ((((d2.wr DKW.FTIME_NS 0 0).wr DKW.FTIME_SEC 0 0).wr DKW.STATUS_FAULTN 0 0).send (.pin 1 true)).raise now (ev 0 22))

end Sys2Proof.Machine
end

