-- ==== Sys2Proof/Machine/Dma.lean ====
section
/-! DEFINITION. The bursts of the DMA channels (15 R398 to R400, R404, R414, R415; 16 R448, R450; 18 R480). -/

namespace Sys2Proof.Machine

/-- Issue the next request of channel `c` of group `g`; a packet whose payload fails its block CRC when it is
read is dropped: no completion, its buffers are spent (18 R480, SM 7). -/
def Dev.burst (d : Dev) (now : NetTime) (g c : Nat) (crcOk : Bool) : Dev :=
  let ch := d.chan g c
  let l := g / 2
  match ch.desc with
  | none => d
  | some q =>
    match q.reqs with
    | [] => d
    | (a, n) :: rest =>
      let x := look ({} : Ring) d.rng.rings q.ring
      if d.needsTranslation q.fn a then d.askTranslation q.fn (pageOf a)
      else if g % 2 = 1 then
        if !crcOk then
          let gone := { d with rng := { d.rng with cpls := d.rng.cpls.filter (fun e => decide (some e.2.2.tag ≠ q.cpl)) } }
          let d1 := gone.setRing (q.ring / 2 ^ 18) (q.ring % 2 ^ 18) { x with dropped := up32 x.dropped }
          (((d1.setChan g c { ch with desc := some { q with reqs := [] } }).chanEnd g c false).bump RNG.RXDROP_OTHER).payloadFailure
            now q.port
        else
          let cxl := q.cxl && d.cxlcAllowed q.fn
          let d1 := (d.countBurst g c).send (.hostWrite q.fn (d.reqAddr q.fn a).1 (q.data.take n)
            (d.reqAttr x q.fn true true cxl + (d.reqAddr q.fn a).2))
          let d2 := d1.bump DMA.BYTES_COUNT g n
          let d3 := if cxl then { d2 with rng := { d2.rng with cpls := d2.rng.cpls.map (fun e =>
              if some e.2.2.tag = q.cpl then (e.1, e.2.1, { e.2.2 with gos := e.2.2.gos + 1 }) else e) } } else d2
          let d4 := d3.setChan g c { d3.chan g c with desc := some { q with reqs := rest, data := q.data.drop n } }
          if rest.isEmpty then d4.chanEnd g c else d4
      else
        match d.tagClass l x.adm with
        | none =>
          if d.hif.tagWait.contains q.fn then d else { d with hif := { d.hif with tagWait := q.fn :: d.hif.tagWait } }
        | some cls =>
          let used := ((d.hif.reads.filter (fun r => decide (r.link = l))).map (fun r => r.len)).sum
          if (cls = 0 ∧ !d.tagTurn l q.fn) ∨ 4194304 < used + n then d
          else
            let tag := d.freeTag l
            let rd : HostRead := { link := l, tag := tag, fn := q.fn, len := n, cls := cls, group := g, chan := c, ring := q.ring, pos := q.pos, since := d.eng.tclks }
            let d1 := (d.countBurst g c).send (.hostRead q.fn (d.reqAddr q.fn a).1 n tag
              (d.reqAttr x q.fn true false (x.cxlc && d.cxlcAllowed q.fn) + (d.reqAddr q.fn a).2))
            let wait := if cls = 0 then d1.hif.tagWait.filter (· ≠ q.fn) else d1.hif.tagWait
            let rot := if cls = 0 then put 0 d1.hif.tagRot l (q.fn + 1) else d1.hif.tagRot
            let d2 := { d1 with hif := { d1.hif with reads := d1.hif.reads ++ [rd], tagWait := wait, tagRot := rot } }
            (d2.setChan g c { d2.chan g c with desc := some { q with reqs := rest } }).showReads l

/-- DMA_BURST: the channel served next in a group issues one request (R398 to R400, R404, R414, R415, R448, R450); a
payload that fails its CRC when read ends the packet (PAYLOAD_CHECK). -/
def execDmaBurst (g : Fin 4) (crcOk : Bool) : State → Host.Outcome State Fault Refusal :=
  onDev (fun now d =>
    match d.nextChan g with
    | some c => d.burst now g c crcOk
    | none => d)

end Sys2Proof.Machine
end

