-- ==== Sys2Proof/Machine/HbmRings.lean ====
section
/-! DEFINITION. The rings in HBM that hand entries to the control cores: learn, aging, exception and task rings
(07 R191; 20 R529 to R531). The hardware owns the tail, the control cores own the head. -/

namespace Sys2Proof.Machine

/-- A ring in HBM by its register fields and the index of its registers. -/
structure HbmRing where
  size  : Fld
  base  : Fld
  tail  : Fld
  twrap : Fld
  head  : Fld
  hwrap : Fld
  i     : Nat
  /-- units of an entry -/
  units : Nat := 4

/-- Entries of a ring; a ring not placed has none (its SIZE reads below 6). -/
def Dev.hringSize (d : Dev) (r : HbmRing) : Nat := if d.rd r.size r.i < 6 then 0 else 2 ^ d.rd r.size r.i

/-- Whether a ring is full: equal index, different wrap, or no place at all (07 R191). -/
def Dev.hringFull (d : Dev) (r : HbmRing) : Bool :=
  decide (d.hringSize r = 0) || (decide (d.rd r.tail r.i = d.rd r.head r.i) && decide (d.rd r.twrap r.i ≠ d.rd r.hwrap r.i))

/-- Whether a ring is empty. -/
def Dev.hringEmpty (d : Dev) (r : HbmRing) : Bool :=
  decide (d.rd r.tail r.i = d.rd r.head r.i) && decide (d.rd r.twrap r.i = d.rd r.hwrap r.i)

/-- Move an index with its wrap bit on by one. -/
def Dev.hringStep (d : Dev) (r : HbmRing) (idx wrap : Fld) : Dev :=
  if d.rd idx r.i + 1 < d.hringSize r then d.wr idx r.i (d.rd idx r.i + 1)
  else (d.wr idx r.i 0).wr wrap r.i (1 - d.rd wrap r.i)

/-- The HBM address of the entry at an index; an entry is `units` of 16 bytes. -/
def Dev.hringAddr (d : Dev) (r : HbmRing) (idx : Nat) : Nat := d.rd r.base r.i * 4096 + 16 * r.units * idx

/-- The bytes of a notification of four units with the lap's phase in bit 127 of each: 1 while the wrap bit is 0
(07 R191; 16 R426). -/
def phaseUnits (us : List Nat) (phase : Bool) : List Byte :=
  (us.map (fun u => leBytes 16 (u % 2 ^ 127 + (if phase then 2 ^ 127 else 0)))).flatten

/-- Whether a range of HBM bytes meets the coherent window (02 R38). -/
def Dev.meetsWindow (d : Dev) (a n : Nat) : Bool :=
  d.windowOn && decide (a < d.windowBase + d.rd ENG.COH_SIZE_SIZE * 2 ^ 30) && decide (d.windowBase < a + n)

/-- A unit other than an L2 slice writes HBM; an access to the coherent window is refused, with EVT 3.5 (02 R38). -/
def Dev.hbmWrite (d : Dev) (now : NetTime) (a : Nat) (bs : List Byte) : Dev :=
  if d.meetsWindow a bs.length then d.raise now (ev 3 5)
  else d.setCoh { d.eng.coh with mem := putBytes d.eng.coh.mem a bs }

/-- Write an entry at the tail and move the tail; none when the ring is full. -/
def Dev.hringPush (d : Dev) (now : NetTime) (r : HbmRing) (us : List Nat) : Option Dev :=
  if d.hringFull r then none
  else some ((d.hbmWrite now (d.hringAddr r (d.rd r.tail r.i)) (phaseUnits us (decide (d.rd r.twrap r.i = 0)))).hringStep r r.tail r.twrap)

/-- A unit other than an L2 slice reads HBM; an access to the coherent window is refused, with EVT 3.5, and reads all ones (02 R38). -/
def Dev.hbmRead (d : Dev) (now : NetTime) (a n : Nat) : Dev × List Byte :=
  if d.meetsWindow a n then (d.raise now (ev 3 5), List.replicate n 0xFF)
  else (d, (List.range n).map (fun i => d.eng.coh.byte (a + i)))

/-- The units of the entry at the head, as the control cores read it. -/
def Dev.hringPeek (d : Dev) (now : NetTime) (r : HbmRing) : Dev × List Nat :=
  match d.hbmRead now (d.hringAddr r (d.rd r.head r.i)) (16 * r.units) with
  | (d1, bs) => (d1, (List.range r.units).map (fun u => leAt bs (16 * u) 16))

/-- The control cores take the entry at the head. -/
def Dev.hringPop (d : Dev) (r : HbmRing) : Dev := if d.hringEmpty r then d else d.hringStep r r.head r.hwrap

/-- The learn ring of a pipeline. -/
def learnRing (p : Nat) : HbmRing :=
  { size := LRN.LRING_SIZE, base := LRN.LRING_BASE, tail := LRN.LTAIL_INDEX, twrap := LRN.LTAIL_WRAP,
    head := LRN.LHEAD_INDEX, hwrap := LRN.LHEAD_WRAP, i := p }

/-- The aging ring of an area: that of a pipeline, or that of the connection area. -/
def agingRing (area : Nat) : HbmRing :=
  if area < 4 then
    { size := LRN.ARING_SIZE, base := LRN.ARING_BASE, tail := LRN.ATAIL_INDEX, twrap := LRN.ATAIL_WRAP,
      head := LRN.AHEAD_INDEX, hwrap := LRN.AHEAD_WRAP, i := area }
  else
    { size := LRN.CRING_SIZE, base := LRN.CRING_BASE, tail := LRN.CTAIL_INDEX, twrap := LRN.CTAIL_WRAP,
      head := LRN.CHEAD_INDEX, hwrap := LRN.CHEAD_WRAP, i := 0 }

/-- The exception ring of a pipeline (20 R530). -/
def exceptionRing (p : Nat) : HbmRing :=
  { size := MGT.XRING_SIZE, base := MGT.XRING_BASE, tail := MGT.XTAIL_INDEX, twrap := MGT.XTAIL_WRAP,
    head := MGT.XHEAD_INDEX, hwrap := MGT.XHEAD_WRAP, i := p }

/-- The control task ring, whose entries are completions of two units (20 R531). -/
def taskRing : HbmRing :=
  { size := MGT.TRING_SIZE, base := MGT.TRING_BASE, tail := MGT.TTAIL_INDEX, twrap := MGT.TTAIL_WRAP,
    head := MGT.THEAD_INDEX, hwrap := MGT.THEAD_WRAP, i := 0, units := 2 }

end Sys2Proof.Machine
end

