-- ==== Sys2Proof/Machine/Forwarding.lean ====
section
/-! DEFINITION. Forwarding tables, connections, aging, table DMA and learning (07 R170 to R193). -/

namespace Sys2Proof.Machine

/-! ## Buckets (R170, R172) -/

/-- The area of table `t` of pipeline `p`. -/
def Dev.tblArea (d : Dev) (p t : Nat) : Nat := if d.rd FWD.TBL_KIND (16 * p + t) = 1 then 4 else p

/-- The HBM address at which an area begins (R170, R195). -/
def Dev.areaBase (d : Dev) (area : Nat) : Nat :=
  if area < 4 then bitsOf (d.rd FWD.AREA_BASE) (8 * area) 5 * 2 ^ 30 else d.rd FWD.AREA_CONNBASE * 2 ^ 29

/-- Whether a bucket lies in the coherent window, whose accesses by the table unit are refused (02 R38). -/
def Dev.bucketBarred (d : Dev) (area b : Nat) : Bool := d.meetsWindow (d.areaBase area + 64 * b) 64

/-- The content of a bucket; a refused read returns all ones. -/
def Dev.bucket (d : Dev) (area b : Nat) : Nat :=
  if d.bucketBarred area b then 2 ^ 512 - 1 else look 0 d.fwd.buckets (2 ^ 24 * area + b)

/-- EVT 3.5 for an access to a bucket that is refused (02 R38). -/
def Dev.noteBarred (d : Dev) (now : NetTime) (area b : Nat) : Dev := if d.bucketBarred area b then d.raise now (ev 3 5) else d

/-- The lock on a bucket, if it is taken. -/
def Dev.lockOf (d : Dev) (area b : Nat) : Option TblLock := d.fwd.locks.find? (fun l => decide (l.area = area ∧ l.bucket = b))

/-- What a lookup reads of a bucket: the copy in the lock table while it is locked (R185). -/
def Dev.readBucket (d : Dev) (area b : Nat) : Nat :=
  match d.lockOf area b with
  | some l => l.copy
  | none => d.bucket area b

def eValid (e : Nat) : Bool := e.testBit 0
def eAlt (e : Nat) : Bool := e.testBit 1
def eSecond (e : Nat) : Bool := e.testBit 2
def eStatic (e : Nat) : Bool := e.testBit 3
def eHit (e : Nat) : Bool := e.testBit 4
def eClr1 (e : Nat) : Bool := e.testBit 5
def eDamp (e : Nat) : Bool := e.testBit 6
def eTable (e : Nat) : Nat := bitsOf e 8 4
def eAge (e : Nat) : Nat := bitsOf e 16 16
def ePolder (e : Nat) : Nat := bitsOf e 32 13
def ePort (e : Nat) : Nat := bitsOf e 48 5

/-- The key bytes of an entry. -/
def eKey (e n : Nat) : List Byte := leBytes n (e / 2 ^ 64)

/-- Write a bucket; a refused write does nothing. -/
def Dev.setBucket (d : Dev) (area b e : Nat) : Dev :=
  if d.bucketBarred area b then d else { d with fwd := { d.fwd with buckets := put 0 d.fwd.buckets (2 ^ 24 * area + b) e } }

/-- The valid entries of the connection area (R195). -/
def Dev.validConns (d : Dev) : Nat := (d.fwd.buckets.filter (fun e => decide (e.1 / 2 ^ 24 = 4) && eValid e.2)).length

/-- The valid entries of table `t` of pipeline `p`: those of its number in its buckets (R195). -/
def Dev.validIn (d : Dev) (p t : Nat) : Nat :=
  let i := 16 * p + t
  let lo := 2 ^ 24 * d.tblArea p t + d.rd FWD.TBL_BASE i
  (d.fwd.buckets.filter (fun e => decide (lo ≤ e.1 ∧ e.1 < lo + 2 ^ d.rd FWD.TBL_SIZE i ∧ eTable e.2 = t) && eValid e.2)).length

/-- AREAS_READY: the placed areas are cleared and FWD.CFG.READY sets (R170). -/
def execAreasReady : State → Host.Outcome State Fault Refusal :=
  onDev (fun _ d =>
    if d.rd FWD.CFG_READY = 1 then d
    else ({ d with fwd := { d.fwd with buckets := [], locks := [], marks := [] } }).wr FWD.CFG_READY 0 1)

/-! ## Table descriptors (R171, R181, R187) -/

/-- A sum of fractions `a / b` as one numerator and denominator. -/
def sumFrac (l : List (Nat × Nat)) : Nat × Nat := l.foldl (fun s x => (s.1 * x.2 + x.1 * s.2, s.2 * x.2)) (0, 1)

/-- Whether the aging tables of an area, with table (p, t) as given, exceed 33,554 buckets per ms (R181). A connection table that several
pipelines name with one BASE, SIZE and SWEEP is one table. -/
def Dev.overSwept (d : Dev) (area p t : Nat) (desc : TableDesc) : Bool :=
  let others := (List.range 64).filter (fun i =>
    decide (i ≠ 16 * p + t ∧ d.rd FWD.TBL_EN i = 1 ∧ (if d.rd FWD.TBL_KIND i = 1 then 4 else i / 16) = area)
      && decide (d.rd FWD.TBL_AGEMODE i = 1 ∨ d.rd FWD.TBL_AGEMODE i = 2))
  let tables := (others.map (fun i => (d.rd FWD.TBL_BASE i, d.rd FWD.TBL_SIZE i, d.rd FWD.TAGE_SWEEP i)) ++
    (if desc.agemode.val = 1 ∨ desc.agemode.val = 2 then [(desc.base.val, desc.size.val, desc.sweep.val)] else [])).eraseDups
  let s := sumFrac (tables.map (fun x => (2 ^ x.2.1, x.2.2 * d.rd FWD.CFG_TICK)))
  decide (33554 * s.2 < s.1)

/-- Whether a descriptor is refused (R171, R181, R187); a SIZE outside the values of R171 is refused alike (log entry
16). -/
def Dev.descRefused (d : Dev) (p t : Nat) (q : TableDesc) : Bool :=
  let area := if q.kind then 4 else p
  let areaSize := if q.kind then 2 ^ 23 else 2 ^ 24
  let len := 2 ^ q.size.val
  let others := (List.range 16).filter (fun i => decide (i ≠ t ∧ d.rd FWD.TBL_EN (16 * p + i) = 1 ∧ d.tblArea p i = area))
  let overlaps := others.any (fun i =>
    let b := d.rd FWD.TBL_BASE (16 * p + i)
    let n := 2 ^ d.rd FWD.TBL_SIZE (16 * p + i)
    decide (q.base.val < b + n ∧ b < q.base.val + len))
  let learns := (List.range 18).any (fun i => decide (d.rd FWD.IPROF_LEARN (18 * p + i) = 1 ∧ d.rd FWD.IPROF_LTABLE (18 * p + i) = t))
  decide (q.base.val % len ≠ 0 ∨ areaSize < q.base.val + len ∨ q.keylen.val = 0 ∨ (if q.kind then 40 else 24) < q.keylen.val)
    || decide (q.size.val < 10 ∨ (if q.kind then 23 else 24) < q.size.val) || overlaps || (learns && decide (16 < q.keylen.val))
    || (decide (q.agemode.val = 1) && decide (32768 < q.agelim.val + q.sweep.val))
    || ((decide (q.agemode.val = 1) || decide (q.agemode.val = 2))
        && (decide (q.sweep.val = 0) || d.overSwept area p t q))

/-- TABLE_DESCRIPTOR: the control cores write a descriptor, which is enabled or refused with ERR and EVT 7.6. -/
def execTableDescriptor (pipe : Fin 4) (t : Fin 16) (desc : TableDesc) : State → Host.Outcome State Fault Refusal :=
  onDev (fun now d =>
    let i := 16 * pipe.val + t.val
    if d.descRefused pipe t desc then
      ((d.wr FWD.TBL_EN i 0).wr FWD.TBL_ERR i 1).raise now (ev 7 6) (t.val + pipe.val * 2 ^ 24)
    else
      let sets : List (Fld × Nat) :=
        [(FWD.TBL_EN, bitNat desc.en), (FWD.TBL_KIND, bitNat desc.kind), (FWD.TBL_AGEMODE, desc.agemode),
         (FWD.TBL_KEYLEN, desc.keylen), (FWD.TBL_SIZE, desc.size), (FWD.TBL_ERR, 0), (FWD.TBL_BASE, desc.base),
         (FWD.TSEED_SEED1, desc.seed1.toNat), (FWD.TSEED_SEED2, desc.seed2.toNat), (FWD.TAGE_AGELIM, desc.agelim),
         (FWD.TAGE_SWEEP, desc.sweep)]
      sets.foldl (fun y s => y.wr s.1 i s.2) d)

/-! ## Lookup (R173 to R175) -/

/-- The primary and alternate bucket of a key (R173). -/
def Dev.bucketsOf (d : Dev) (p t : Nat) (key : List Byte) : Nat × Nat :=
  let i := 16 * p + t
  let at_ := fun (seed : Nat) => d.rd FWD.TBL_BASE i + (crc32c (BitVec.ofNat 32 seed) key).toNat % 2 ^ d.rd FWD.TBL_SIZE i
  let pb := at_ (d.rd FWD.TSEED_SEED1 i)
  let ab := at_ (d.rd FWD.TSEED_SEED2 i)
  (pb, if ab = pb then pb ^^^ 1 else ab)

/-- Whether an entry is that of a key of table `t` at its primary or alternate place. -/
def entryIs (e t : Nat) (key : List Byte) (second : Bool) : Bool :=
  eValid e && (eSecond e == second) && decide (eTable e = t) && decide (eKey e key.length = key)

/-- Look a key up in an enabled table: the bucket, and the entry on a hit. -/
def Dev.find (d : Dev) (p t : Nat) (key : List Byte) : Nat × Option Nat :=
  let area := d.tblArea p t
  let (pb, ab) := d.bucketsOf p t key
  let e := d.readBucket area pb
  if entryIs e t key false then (pb, some e)
  else if !eAlt e then (pb, none)
  else
    let e2 := d.readBucket area ab
    if entryIs e2 t key true then (ab, some e2) else (pb, none)

/-- The bucket whose read ends a lookup with an uncorrectable error, if one does: the primary, or the alternate where the lookup reads it.
A locked bucket is read in the lock table, not in HBM (R173, R174). -/
def Dev.badRead (d : Dev) (p t : Nat) (key : List Byte) (ecc : ReadEcc) : Option Nat :=
  let area := d.tblArea p t
  let (pb, ab) := d.bucketsOf p t key
  let e := d.readBucket area pb
  let bad := fun (b : Nat) (c : Ecc) => decide (c = .double) && (d.lockOf area b).isNone
  if bad pb ecc.primary then some pb
  else if !entryIs e t key false && eAlt e && bad ab ecc.alternate then some ab
  else none

/-- Post the marking of a hit (R179), where the entry needs one and its bucket is not locked. -/
def Dev.mark (d : Dev) (p t b e : Nat) : Dev :=
  let area := d.tblArea p t
  let mode := d.rd FWD.TBL_AGEMODE (16 * p + t)
  let tick := d.rd FWD.NOW_TICK
  if (d.lockOf area b).isSome then d
  else if (mode = 1 ∧ eAge e ≠ tick) ∨ (mode = 2 ∧ !eHit e) then
    { d with fwd := { d.fwd with marks := d.fwd.marks ++ [(area, b, mode, tick)] } }
  else d

/-- A lookup with the ECC outcomes of its bucket reads (R173, R174): the device, the bucket, and the entry on a hit. A miss reports the
primary bucket, also of a disabled table, which reads nothing. -/
def Dev.lookup (d : Dev) (now : NetTime) (p t : Nat) (key : List Byte) (ecc : ReadEcc) : Dev × Nat × Option Nat :=
  let pb := (d.bucketsOf p t key).1
  if d.rd FWD.TBL_EN (16 * p + t) = 0 then (d, pb, none)
  else match d.badRead p t key ecc with
    | some b => (((d.bump FWD.UNCORR_COUNT p).wr FWD.LASTERR_BUCKET p b).raise now (ev 7 7) (b + d.tblArea p t * 2 ^ 24), pb, none)
    | none =>
      match d.find p t key with
      | (b, some e) => ((d.noteBarred now (d.tblArea p t) pb).mark p t b e, b, some e)
      | (b, none) => (d.noteBarred now (d.tblArea p t) pb, b, none)

/-- MARKING_WRITE: the oldest posted marking reaches its entry; it is discarded when the entry is no longer valid or its
bucket is locked (R179, R185). -/
def execMarkingWrite : State → Host.Outcome State Fault Refusal :=
  onDev (fun _ d =>
    match d.fwd.marks with
    | [] => d
    | (area, b, mode, tick) :: rest =>
      let d1 := { d with fwd := { d.fwd with marks := rest } }
      let e := d.bucket area b
      if !eValid e || (d.lockOf area b).isSome then d1
      else if mode = 1 then d1.setBucket area b (setBits e 16 16 tick)
      else d1.setBucket area b (setBit e 4 true))

/-- AGE_TICK: FWD.NOW.TICK advances and wraps at 2^16 (R179). -/
def execAgeTick : State → Host.Outcome State Fault Refusal := onDev (fun _ d => d.wr FWD.NOW_TICK 0 (d.rd FWD.NOW_TICK + 1))

/-! ## Connections (R178) -/

/-- The entry a create writes (R178): VALID, HIT, AGE, TABLE, POLDER, PORT, the key, CREATED, and zero USER. -/
def connEntry (t polder iport tick : Nat) (key : List Byte) (tsin : Nat) (second : Bool) : Nat :=
  1 + bitNat second * 4 + 16 + t * 2 ^ 8 + tick * 2 ^ 16 + polder * 2 ^ 32 + iport * 2 ^ 48 + leNat key * 2 ^ 64 + tsin * 2 ^ 384

/-- A created entry's place keeps the ALT bit of its bucket, on which an entry of another key may rely (log entry 16). -/
def keepAlt (old new : Nat) : Nat := setBit new 1 (eAlt old)

/-- Create a connection that missed (R178): the device, and which bit of rd is set, with the bucket and the entry: bit 63 for a key that is in its place by now, bit 62 for a
connection created, bit 61 for a full table. -/
def Dev.create (d : Dev) (now : NetTime) (p t : Nat) (key : List Byte) (polder iport tsin : Nat) : Dev × Nat × Nat × Nat :=
  let (pb, ab) := d.bucketsOf p t key
  let ep := d.bucket 4 pb
  let ea := d.bucket 4 ab
  let free := fun (b e : Nat) => !eValid e && (d.lockOf 4 b).isNone
  let e := connEntry t polder iport (d.rd FWD.NOW_TICK) key tsin
  match d.find p t key with
  | (b, some x) => (d.mark p t b x, 63, b, x)
  | (_, none) =>
  if free pb ep then
    ((d.setBucket 4 pb (keepAlt ep (e false))).bump FWD.CREATED_COUNT, 62, pb, keepAlt ep (e false))
  else if eValid ep && (d.lockOf 4 pb).isNone && free ab ea then
    (((d.setBucket 4 ab (keepAlt ea (e true))).setBucket 4 pb (setBit ep 1 true)).bump FWD.CREATED_COUNT,
      62, ab, keepAlt ea (e true))
  else ((d.bump FWD.CREATEFULL_COUNT).raiseSec now (ev 7 5) 0 (t + p * 2 ^ 24) (some polder), 61, pb, 0)

/-- LKH and LKC: check the operands, look the key of scratch up, and write the entry, or zeros, at rb (03 R77). `create`
asks for a connection on a miss in a table of KIND 1 (R178). -/
def Dev.lookupIssue (d : Dev) (now : NetTime) (x rd ra rb k t : Nat) (create conn : Bool) (ecc : ReadEcc) : Dev :=
  let c0 := d.ctx x
  let p := c0.pipeline
  let n := d.rd FWD.TBL_KEYLEN (16 * p + t)
  let ko := (c0.rg ra).toNat
  let eo := (c0.rg rb).toNat
  d.async x k { regs := [rd, ra, rb], scratch := (eo, 64), scratch2 := (ko, n) } (fun c =>
    if !scratchOk x ko n || !scratchOk x eo 64 || decide (eo % 64 ≠ 0) then .error faultAddress
    else
      let key := c.scrBytes ko n
      let tk := fun (v : Word) (e : Nat) => ({ rd := rd, scratch := (eo, 64), pend := .toScratch v eo (leBytes 64 e) } : Ticket)
      let b63 : Word := 1#64 <<< 63
      match d.lookup now p t key ecc with
      | (d1, b, some e) => .ok (d1, tk (if conn then b63 else b63 ||| BitVec.ofNat 64 b) e)
      | (d1, b, none) =>
        let kind1 := decide (d.rd FWD.TBL_EN (16 * p + t) = 1 ∧ d.rd FWD.TBL_KIND (16 * p + t) = 1)
        if create && kind1 then
          let polder := match c.pkt with | some q => q.polder | none => 0
          let iport := match c.pkt with | some q => q.iport | none => 0
          let tsin := match c.pkt with | some q => q.tsin | none => 0
          match d1.create now p t key polder iport tsin with
          | (d2, bit, _, e) => .ok (d2, tk (1#64 <<< bit) e)
        else .ok (d1, tk (if conn then 0 else BitVec.ofNat 64 b) 0))

/-- LKH (03 R77, 07 R174). -/
def execLkh (x : CtxId) (rd ra rb : Reg) (k : Tick) (table : Fin 16) (ecc : ReadEcc) : State → Host.Outcome State Fault Refusal :=
  onDev (fun now d => d.lookupIssue now x rd ra rb k table false false ecc)

/-- LKC (03 R77, 07 R178). -/
def execLkc (x : CtxId) (rd ra rb : Reg) (k : Tick) (table : Fin 16) (create : Bool) (ecc : ReadEcc) :
    State → Host.Outcome State Fault Refusal :=
  onDev (fun now d => d.lookupIssue now x rd ra rb k table create true ecc)

/-! ## Aging (R180 to R182) -/

/-- The aging table of an area that holds a bucket: its pipeline and number. -/
def Dev.agingTable (d : Dev) (area b : Nat) : Option (Nat × Nat) :=
  ((List.range 64).find? (fun i =>
    decide (d.rd FWD.TBL_EN i = 1 ∧ (if d.rd FWD.TBL_KIND i = 1 then 4 else i / 16) = area)
      && decide (d.rd FWD.TBL_AGEMODE i = 1 ∨ d.rd FWD.TBL_AGEMODE i = 2)
      && decide (d.rd FWD.TBL_BASE i ≤ b ∧ b < d.rd FWD.TBL_BASE i + 2 ^ d.rd FWD.TBL_SIZE i))).map (fun i => (i / 16, i % 16))

/-- The units of an aging notification (R192). -/
def agingUnits (now : NetTime) (area e b keylen : Nat) : List Nat :=
  let conn := decide (area = 4)
  let key := leNat (eKey e (min keylen 16))
  [2 + eTable e * 2 ^ 4 + (if conn then 0 else area * 2 ^ 8) + bitNat conn * 2 ^ 13 + bitNat (decide (16 < keylen)) * 2 ^ 14
     + ePort e * 2 ^ 16 + ePolder e * 2 ^ 64 + b * 2 ^ 88,
   now.tsin.toNat % 2 ^ 63, key % 2 ^ 64, key / 2 ^ 64 % 2 ^ 64]

/-- Remove an entry with its notification, or count the spillway when the aging ring is full (R180, R182). -/
def Dev.ageOut (d : Dev) (now : NetTime) (area p t b : Nat) : Dev :=
  let e := d.bucket area b
  match d.hringPush now (agingRing area) (agingUnits now area e b (d.rd FWD.TBL_KEYLEN (16 * p + t))) with
  | some d1 =>
    let d2 := d1.setBucket area b (setBit e 0 false)
    if area < 4 then d2.bump FWD.AGED_COUNT area else d2.bump FWD.CONNAGED_COUNT
  | none =>
    (if area < 4 then d.bump LRN.ASPILL_COUNT area else d.bump LRN.CSPILL_COUNT).raiseSec now (ev 7 1) area (area * 2 ^ 24)

/-- SWEEP_VISIT: the sweeper visits a bucket (R180). -/
def execSweepVisit (area : Fin 5) (bucket : Fin 16777216) : State → Host.Outcome State Fault Refusal :=
  onDev (fun now d =>
    match d.agingTable area bucket with
    | none => d
    | some (p, t) =>
      let e := d.bucket area bucket
      if !eValid e || eStatic e || eDamp e || (d.lockOf area bucket).isSome then d
      else if d.rd FWD.TBL_AGEMODE (16 * p + t) = 1 then
        if d.rd FWD.TAGE_AGELIM (16 * p + t) ≤ (d.rd FWD.NOW_TICK + 2 ^ 16 - eAge e) % 2 ^ 16 then d.ageOut now area p t bucket else d
      else if eHit e then d.setBucket area bucket (setBit (setBit e 4 false) 5 false)
      else if eClr1 e then d.ageOut now area p t bucket
      else d.setBucket area bucket (setBit e 5 true))

/-! ## Table DMA (R183 to R185) -/

/-- Replace the 8-byte words of a bucket that a mask names. -/
def maskedWords (old new : Nat) (mask : Byte) : Nat :=
  (List.range 8).foldl (fun x i => if mask.getLsbD i then setBits x (64 * i) 64 (bitsOf new (64 * i) 64) else x) old

/-- Whether a table-DMA command can take its lock: its bucket is not locked, and the area's lock table has room (R183). -/
def Dev.canLock (d : Dev) (c : TblCmd) : Bool :=
  (d.lockOf c.area c.bucket).isNone && decide ((d.fwd.locks.filter (fun l => decide (l.area = c.area))).length < 64)

/-- A table-DMA command is carried out: it takes the bucket's lock, compares VALID if asked, and writes the masked words (R183). -/
def Dev.runDma (d : Dev) (c : TblCmd) : Dev :=
  let e := d.bucket c.area c.bucket
  if c.cmpv.isSome && decide (c.cmpv ≠ some (eValid e)) then d.send (.message 7 [c.area, c.bucket, 1])
  else
    let l : TblLock := { area := c.area, bucket := c.bucket, copy := e }
    ({ d with fwd := { d.fwd with locks := d.fwd.locks ++ [l] } } : Dev).setBucket c.area c.bucket (maskedWords e c.data c.mask)

/-- A table-DMA command comes: behind those that wait for its bucket or its area's lock table, and it waits itself while it cannot take its
lock (R183). -/
def Dev.tableDma (d : Dev) (area bucket data : Nat) (mask : Byte) (cmpv : Option Bool) : Dev :=
  let c : TblCmd := { area := area, bucket := bucket, data := data, mask := mask, cmpv := cmpv }
  if d.canLock c then d.runDma c else { d with fwd := { d.fwd with dmaWait := d.fwd.dmaWait ++ [c] } }

/-- The waiting table-DMA commands are gone through, the oldest first; each that can takes its lock (R183). -/
def Dev.dmaNext (d : Dev) : Dev :=
  d.fwd.dmaWait.foldl (fun (y : Dev) c => y.tableDma c.area c.bucket c.data c.mask c.cmpv) { d with fwd := { d.fwd with dmaWait := [] } }

/-- TABLE_DMA (R183). -/
def execTableDma (area : Fin 5) (bucket : Fin 16777216) (data : BitVec 512) (mask : Byte) (cmpv : Option Bool) :
    State → Host.Outcome State Fault Refusal :=
  onDev (fun now d => (d.noteBarred now area bucket).tableDma area bucket data.toNat mask cmpv)

/-- Drop the lock of a bucket. -/
def Dev.unlock (d : Dev) (area b : Nat) : Dev :=
  { d with fwd := { d.fwd with locks := d.fwd.locks.filter (fun l => decide (l.area ≠ area ∨ l.bucket ≠ b)) } }

/-- LOCK_RELEASE: the write completes and the lock is released (R183). -/
def execLockRelease (area : Fin 5) (bucket : Fin 16777216) : State → Host.Outcome State Fault Refusal :=
  onDev (fun _ d =>
    if (d.lockOf area bucket).isSome then ((d.unlock area bucket).send (.message 7 [area, bucket, 0])).dmaNext else d)

/-- LOCK_TIMEOUT: the command is abandoned: the copy goes back, the lock is released, TIMEOUT, EVT 7.4 (R184). An abandonment in the
connection area, which has no count of its own, is counted with pipeline 0 (DESIGN CHOICE, log entry 16). -/
def execLockTimeout (area : Fin 5) (bucket : Fin 16777216) : State → Host.Outcome State Fault Refusal :=
  onDev (fun now d =>
    match d.lockOf area bucket with
    | none => d
    | some l =>
      let d1 := (d.setBucket area bucket l.copy).unlock area bucket
      let d2 := d1.bump FWD.LOCKTIMEOUT_COUNT (if area.val < 4 then area.val else 0)
      ((d2.raise now (ev 7 4) (bucket.val + area.val * 2 ^ 24)).send (.message 7 [area, bucket, 2])).dmaNext)

/-! ## Ingress lookups and learning (R176, R177, R186 to R189) -/

/-- The ingress key of a format (R176): destination or source address; none when the frame lacks the layer. -/
def fwdKey (fmt : Nat) (p : Parsed) (v : View) (source : Bool) : Option (List Byte) :=
  if p.pfcode ≠ 0 then none
  else match fmt with
    | 1 => some ((slice v.bytes (if source then 6 else 0) 6).reverse ++ leBytes 2 (p.tci v % 4096))
    | 2 =>
      match p.il2 with
      | some o => some ((slice v.bytes (o + (if source then 6 else 0)) 6).reverse ++ leBytes 3 p.vni ++ leBytes 3 0)
      | none => none
    | _ => none

/-- The pending-learn memory of a pipeline. -/
def Dev.pendOf (d : Dev) (p : Nat) : List PendLearn := look [] d.fwd.pend p

/-- Replace it, showing how many entries are in use. -/
def Dev.setPend (d : Dev) (p : Nat) (l : List PendLearn) : Dev :=
  (({ d with fwd := { d.fwd with pend := put [] d.fwd.pend p l } }).wr LRN.PEND_INUSE p l.length).peak LRN.PEND_PEAK p l.length

/-- A further sighting of a pending key (R188). -/
def PendLearn.again (x : PendLearn) (i ts : Nat) (move : Bool) : PendLearn :=
  let y := { x with count := min (x.count + 1) 65535, move := x.move || move }
  if i = y.porta then { y with tsa := ts }
  else if y.conflict then
    if i = y.portb then { y with tsb := ts }
    else if y.tsa < y.tsb then { y with multi := true, porta := i, tsa := ts }
    else { y with multi := true, portb := i, tsb := ts }
  else { y with portb := i, tsb := ts, conflict := true }

/-- The learn spillway (R189). -/
def Dev.learnSpill (d : Dev) (now : NetTime) (p : Nat) : Dev :=
  (d.bump LRN.LSPILL_COUNT p).raiseSec now (ev 7 0) p (p * 2 ^ 24)

/-- The network time, in ns, of a timestamp in the format of TSIN, which has the low 32 bits of the seconds: the nearest to now. -/
def fullNs (now : NetTime) (ts : Nat) : Nat :=
  let lap := 2 ^ 32 * 1000000000
  let x := now.toNs / lap * lap + ts / 2 ^ 32 * 1000000000 + ts % 2 ^ 32
  if now.toNs + lap / 2 < x ∧ lap ≤ x then x - lap else if x + lap / 2 < now.toNs then x + lap else x

/-- A sighting (R188): the device, and whether it was recorded. -/
def Dev.sighting (d : Dev) (now : NetTime) (p t : Nat) (key : List Byte) (i ts polder : Nat) (move : Bool) : Dev × Bool :=
  let l := d.pendOf p
  if l.any (fun x => decide (x.table = t ∧ x.key = key)) then
    ((d.setPend p (l.map (fun x => if x.table = t ∧ x.key = key then x.again i ts move else x))).bump LRN.SUPPRESS_COUNT p, true)
  else if 256 ≤ l.length then (d.learnSpill now p, false)
  else
    (d.setPend p (l ++ [{ table := t, key := key, porta := i, tsa := ts, move := move, polder := polder, first := fullNs now ts }]), true)

/-- What the ingress lookups give a frame (R177): FWD, FWDST. -/
structure FwdResult where
  fwd   : Nat := 0
  fwdst : Nat := 0

/-- Whether a format and a table of an ingress lookup make none because the table's KEYLEN is another (R176). -/
def Dev.keyMismatch (d : Dev) (p t : Nat) (key : Option (List Byte)) : Bool :=
  key.any (fun k => decide (d.rd FWD.TBL_KEYLEN (16 * p + t) ≠ k.length))

/-- The destination key of a frame at a port, and its source key where the port learns. -/
def Dev.destKey (d : Dev) (p i : Nat) (q : Parsed) (v : View) : Option (List Byte) := fwdKey (d.rd FWD.IPROF_DKEY (18 * p + i)) q v false
def Dev.sourceKey (d : Dev) (p i : Nat) (q : Parsed) (v : View) : Option (List Byte) :=
  if d.rd FWD.IPROF_LEARN (18 * p + i) = 0 then none else fwdKey (d.rd FWD.IPROF_LKEY (18 * p + i)) q v true

/-- The destination lookup of a frame. -/
def Dev.destLookup (d : Dev) (now : NetTime) (p i : Nat) (q : Parsed) (v : View) (ecc : ReadEcc) : Dev × FwdResult :=
  let t := d.rd FWD.IPROF_DTABLE (18 * p + i)
  match d.destKey p i q v with
  | none => (d, {})
  | some key =>
    if d.keyMismatch p t (some key) then (d, {})
    else
      match (d.bump FWD.DLOOKUPS_COUNT p).lookup now p t key ecc with
      | (d1, _, some e) =>
        let d2 := d1.bump FWD.DHITS_COUNT p
        if eDamp e then (d2, {}) else (d2, { fwd := e % 2 ^ 64, fwdst := 1 })
      | (d1, _, none) => (d1, {})

/-- What a hit of the source check counts, where it counts anything: every hit on a damped entry, and one on a STATIC entry with another
PORT (R186). -/
def Dev.countSource (d : Dev) (p i e : Nat) : Dev :=
  let d1 := if eDamp e then d.bump LRN.DAMPED_COUNT p else d
  if eStatic e && decide (ePort e ≠ i) then d1.bump FWD.STATICMOVE_COUNT p else d1

/-- The source check of a frame (R186 to R189): the device, and whether a sighting was recorded or spilled. A multicast or broadcast
source, or a frame the classifier drops, makes no sighting. -/
def Dev.sourceCheck (d : Dev) (now : NetTime) (p i : Nat) (q : Parsed) (v : View) (drops : Bool) (ts polder : Nat) (ecc : ReadEcc) :
    Dev × Option Bool :=
  let t := d.rd FWD.IPROF_LTABLE (18 * p + i)
  match d.sourceKey p i q v with
  | none => (d, none)
  | some key =>
    if d.keyMismatch p t (some key) then (d, none)
    else
      let barred := (key.getD 5 0).getLsbD 0 || drops
      match (d.bump FWD.SLOOKUPS_COUNT p).lookup now p t key ecc with
      | (d1, _, some e) =>
        if decide (ePort e = i) || eStatic e || eDamp e || barred then (d1.countSource p i e, none)
        else match d1.sighting now p t key i ts polder true with | (d2, b) => (d2, some b)
      | (d1, _, none) =>
        if barred then (d1, none)
        else match d1.sighting now p t key i ts polder false with | (d2, b) => (d2, some b)

/-- Both ingress lookups of a frame (R176, R177); a frame of which a table's KEYLEN differs is counted once. -/
def Dev.ingressLookups (d : Dev) (now : NetTime) (p i : Nat) (q : Parsed) (v : View) (drops : Bool) (ts polder : Nat)
    (ecc : FrameEcc) : Dev × FwdResult :=
  let mismatch := d.keyMismatch p (d.rd FWD.IPROF_DTABLE (18 * p + i)) (d.destKey p i q v)
    || d.keyMismatch p (d.rd FWD.IPROF_LTABLE (18 * p + i)) (d.sourceKey p i q v)
  match (if mismatch then d.bump FWD.KEYMISMATCH_COUNT p else d).destLookup now p i q v ecc.dest with
  | (d1, r) =>
    match d1.sourceCheck now p i q v drops ts polder ecc.source with
    | (d2, some true) => (d2, if r.fwdst = 1 then { r with fwdst := 2 } else r)
    | (d2, some false) => (d2, {})
    | (d2, none) => (d2, r)

/-- The units of a learn notification (R192). -/
def learnUnits (p : Nat) (x : PendLearn) (bucket : Nat) : List Nat :=
  [1 + x.table * 2 ^ 4 + p * 2 ^ 8 + bitNat x.conflict * 2 ^ 10 + bitNat x.move * 2 ^ 11 + bitNat x.multi * 2 ^ 12
     + x.porta * 2 ^ 16 + x.portb * 2 ^ 21 + x.count * 2 ^ 32 + x.polder * 2 ^ 64 + bucket * 2 ^ 88,
   x.tsa % 2 ^ 63 + x.tsb % 2 ^ 63 * 2 ^ 63, leNat (x.key.take 8), leNat (x.key.drop 8)]

/-- SETTLE_EXPIRY: a pending entry whose settle window has passed is posted to the learn ring, or spilled, and freed
(R188, R189). -/
def execSettleExpiry (pipe : Fin 4) (n : Fin 256) : State → Host.Outcome State Fault Refusal :=
  onDev (fun now d =>
    match (d.pendOf pipe)[n.val]? with
    | none => d
    | some x =>
      if now.toNs < x.first + d.rd LRN.CFG_SETTLE * 1000 then d
      else
        let d1 := d.setPend pipe ((d.pendOf pipe).eraseIdx n)
        match d1.hringPush now (learnRing pipe) (learnUnits pipe x (d1.bucketsOf pipe x.table x.key).1) with
        | some d2 => d2.bump LRN.NOTIF_COUNT pipe
        | none => d1.learnSpill now pipe)

/-! ## The learning policy (R190) -/

/-- Moves of a key within MOVEWIN, with one more at `now`. -/
def Dev.countMove (d : Dev) (now : NetTime) (p t : Nat) (key : List Byte) : Dev × Nat :=
  let who := if d.rd LRN.POLICY_SPREAD = 1 then 4 else p
  let same := fun (m : Moves) => decide (m.pipe = who ∧ m.table = t ∧ m.key = key)
  let old := ((d.fwd.moves.find? same).map (fun m => m.times)).getD []
  let times := now.toNs :: old.filter (fun x => decide (now.toNs < x + d.rd LRN.POLICY_MOVEWIN * 1000000))
  ({ d with fwd := { d.fwd with moves :=
      { pipe := who, table := t, key := key, times := times } :: d.fwd.moves.filter (fun m => !same m) } }, times.length)

/-- The control word and key of a learned entry, over the bucket it takes: bytes 32 to 63 and USER are the control
software's, a free value in a new entry (log entry 5). -/
def learnedEntry (old t port polder tick : Nat) (key : List Byte) (second damp keep : Bool) (free : Nat) : Nat :=
  let base := if keep then old else leNat key * 2 ^ 64 + free % 2 ^ 256 * 2 ^ 256 + free % 2 ^ 11 * 2 ^ 53 + bitNat (eAlt old) * 2
  let e1 := setBits (setBits (setBits base 48 5 port) 32 13 polder) 8 4 t
  let e2 := setBit (setBit (setBit (setBit e1 0 true) 2 second) 3 false) 6 damp
  if keep then e2 else setBit (setBits e2 16 16 tick) 4 true

/-- Write a learned entry into a pipeline's table (R190 step 2): the key's bucket, else its primary, else its alternate;
with both taken or locked the policy writes nothing (log entry 17). A STATIC entry is never moved (R172), and a damped one stays damped
until DAMPTIME has passed. Answers the bucket written. -/
def Dev.learnInto (d : Dev) (p t port polder : Nat) (key : List Byte) (damp : Bool) : Dev × Option Nat :=
  let area := d.tblArea p t
  let (pb, ab) := d.bucketsOf p t key
  let unlocked := fun (b : Nat) => (d.lockOf area b).isNone
  let tick := d.rd FWD.NOW_TICK
  let free := d.freeVal.toNat
  if d.rd FWD.TBL_EN (16 * p + t) = 0 then (d, none)
  else match d.find p t key with
    | (b, some e) =>
      if unlocked b && !eStatic e then (d.setBucket area b (learnedEntry e t port polder tick key (eSecond e) (damp || eDamp e) true 0), some b)
      else (d, none)
    | (_, none) =>
      let ep := d.bucket area pb
      let ea := d.bucket area ab
      if !eValid ep && unlocked pb then
        (d.drawn.setBucket area pb (learnedEntry ep t port polder tick key false damp false free), some pb)
      else if !eValid ea && unlocked ab && unlocked pb then
        ((d.drawn.setBucket area ab (learnedEntry ea t port polder tick key true damp false free)).setBucket area pb (setBit ep 1 true), some ab)
      else (d, none)

/-- The learning policy writes a learned entry into a pipeline's table, and notes an entry that it damps now: its area and bucket. -/
def Dev.learnEntry (d : Dev) (now : NetTime) (p t port polder : Nat) (key : List Byte) (damp : Bool) : Dev × Option (Nat × Nat) :=
  let was := ((d.find p t key).2.map eDamp).getD false
  match d.learnInto p t port polder key damp with
  | (z, some b) =>
    if damp && !was then
      let a := z.tblArea p t
      ({ z with fwd := { z.fwd with damped := (a, b, now.toNs) :: z.fwd.damped.filter (fun e => decide (e.1 ≠ a ∨ e.2.1 ≠ b)) } }, some (a, b))
    else (z, none)
  | (z, none) => (z, none)

/-- LEARN_NOTIFICATION: the learning policy takes the notification at the head of a pipeline's learn ring (R190). Damping that starts is
counted, and reported with EVT 7.2, once for the key. -/
def execLearnNotification (pipe : Fin 4) : State → Host.Outcome State Fault Refusal :=
  onDev (fun now d0 =>
    let r := learnRing pipe
    if d0.hringEmpty r then d0
    else
      let (d, us) := d0.hringPeek now r
      let u0 := us.getD 0 0
      let u1 := us.getD 1 0
      let t := bitsOf u0 4 4
      let conflict := u0.testBit 10
      let moved := u0.testBit 11 || conflict
      let port := if conflict && decide (bitsOf u1 0 63 < bitsOf u1 63 63) then bitsOf u0 21 5 else bitsOf u0 16 5
      let polder := bitsOf u0 64 13
      let key := leBytes (d.rd FWD.TBL_KEYLEN (16 * pipe.val + t)) (us.getD 2 0 % 2 ^ 64 + us.getD 3 0 % 2 ^ 64 * 2 ^ 64)
      let d1 := d.hringPop r
      let (d2, n) := if moved then (d1.bump LRN.MOVES_COUNT pipe).countMove now pipe t key else (d1, 0)
      let damp := moved && decide (d.rd LRN.POLICY_MOVELIM ≤ n)
      let others := if d.rd LRN.POLICY_SPREAD = 1 then [0, 1, 2, 3].filter (fun p => decide (p ≠ pipe.val)) else []
      let (d3, new) := (pipe.val :: others).foldl (fun (y : Dev × Option (Nat × Nat)) p =>
        match y.1.learnEntry now p t port polder key damp with
        | (z, b) => (z, y.2.or b)) (d2, none)
      match new with
      | some (a, b) => (d3.bump LRN.DAMPS_COUNT pipe).raise now (ev 7 2) (b + a * 2 ^ 24) (some polder)
      | none => d3)

/-- DAMP_EXPIRY: an entry damped for DAMPTIME is invalidated, with EVT 7.3 (R190 step 5). -/
def execDampExpiry (area : Fin 5) (bucket : Fin 16777216) : State → Host.Outcome State Fault Refusal :=
  onDev (fun now d =>
    match d.fwd.damped.find? (fun e => decide (e.1 = area.val ∧ e.2.1 = bucket.val)) with
    | none => d
    | some (_, _, since) =>
      let e := d.bucket area bucket
      if now.toNs < since + d.rd LRN.POLICY_DAMPTIME * 1000000 ∨ (d.lockOf area bucket).isSome then d
      else
        let d1 := { d with fwd := { d.fwd with damped := d.fwd.damped.filter (fun x => decide (x.1 ≠ area.val ∨ x.2.1 ≠ bucket.val)) } }
        if eValid e && eDamp e then
          (d1.setBucket area bucket (setBit e 0 false)).raise now (ev 7 3) (bucket.val + area.val * 2 ^ 24) (some (ePolder e))
        else d1)

end Sys2Proof.Machine
end

