-- ==== Sys2Proof/Machine/Dup.lean ====
section
/-! DEFINITION. Redundant paths and the partner interlock: sources, the sequence draw, the discard decision, path errors and
quarantine, heartbeats, and the proxy role (14 R367 to R391). -/

namespace Sys2Proof.Machine

/-! ## Sources (14 "Numbering the copies", R369, R370) -/

/-- How many sources there are: 2 to the SIZE, none for SIZE 0h. -/
def Dev.sourceCount (d : Dev) : Nat := if d.rd DUP.CFG_SIZE = 0 then 0 else 2 ^ d.rd DUP.CFG_SIZE

/-- G, the number of Geneve sources. -/
def Dev.geneveSources (d : Dev) : Nat := 256 * d.rd DUP.CFG_GLIM

/-- The receive state of a source. -/
def Dev.dupSource (d : Dev) (n : Nat) : DupSource := look {} d.dup.sources n

/-- Replace the receive state of a source. -/
def Dev.setDupSource (d : Dev) (n : Nat) (x : DupSource) : Dev :=
  { d with dup := { d.dup with sources := put {} d.dup.sources n x } }

/-- A frame without a source: counted, with EVT 14.6 at most once per second (R369, R370). -/
def Dev.noSource (d : Dev) (now : NetTime) : Dev := (d.bump DUP.NOSRC_COUNT).raiseSec now (ev 14 6) 0

/-- Whether PRP is enabled: a configuration that breaks the limits of its table and of its range of numbers leaves it disabled (14
"Numbering the copies"). -/
def Dev.prpOn (d : Dev) (p : Nat) : Bool :=
  let i := 16 * p + d.rd DUP.PRP_TABLE
  decide (d.rd DUP.PRP_EN = 1 ∧ d.rd FWD.TBL_KIND i = 1 ∧ d.rd FWD.TBL_KEYLEN i = 8 ∧ d.rd FWD.TBL_SIZE i ≤ 20
    ∧ d.geneveSources ≤ d.rd DUP.PRP_PRPBASE ∧ d.rd DUP.PRP_PRPBASE + 2 ^ d.rd FWD.TBL_SIZE i ≤ d.sourceCount)

/-- The PRP source of a frame by its source MAC address, looked up with create in pipeline `p` (R369). A created entry
resets the receive state and the transmit counter of its number. -/
def Dev.prpSource (d : Dev) (now : NetTime) (p : Nat) (mac : List Byte) (polder iport tsin : Nat) : Dev × Option Nat :=
  let t := d.rd DUP.PRP_TABLE
  let i := 16 * p + t
  let key := mac ++ [0, 0]
  let number := fun (b : Nat) => d.rd DUP.PRP_PRPBASE + b - d.rd FWD.TBL_BASE i
  let inside := fun (y : Dev) (b : Nat) =>
    if number b < y.sourceCount then (y, some (number b)) else (y.noSource now, none)
  if d.rd FWD.TBL_EN i = 0 then (d.noSource now, none)
  else match d.lookup now p t key {} with
    | (d1, b, some _) => inside d1 b
    | (d1, _, none) =>
      match d1.create now p t key polder iport tsin with
      | (d2, 62, b, _) =>
        match inside d2 b with
        | (d3, some n) =>
          ({ d3 with dup := { d3.dup with txCtr := put 0 d3.dup.txCtr n 0, sources := put {} d3.dup.sources n {} } }, some n)
        | r => r
      | (d2, 63, b, _) => inside d2 b
      | (d2, _) => (d2.noSource now, none)

/-- A frame handed to a queue with DUP set draws the next number of its source (R370): the SOURCE of an option that
encapsulation set, else its PRP or transmit source. A frame without a source leaves untagged. -/
def Dev.drawSeq (d : Dev) (now : NetTime) (p : Packet) : Dev × Packet :=
  let src := match p.egress.dp with
    | some (_, s) => if s < min d.geneveSources d.sourceCount then some s else none
    | none => match p.source with
      | some s => if s < d.sourceCount then some s else none
      | none => none
  match src with
  | none => (d.noSource now, { p with drawn := none })
  | some s =>
    let v := look 0 d.dup.txCtr s
    ({ d with dup := { d.dup with txCtr := put 0 d.dup.txCtr s ((v + 1) % 65536) } }, { p with drawn := some v })

/-! ## The discard decision (R374, R375) -/

/-- Outcomes of a decision. -/
inductive Verdict where
  | accept | late | duplicate | resync
  deriving DecidableEq, Repr

/-- TSIN in nanoseconds. -/
def tsinNs (v : Nat) : Nat := v / 2 ^ 32 * 1000000000 + v % 2 ^ 32

/-- Clear the window bits of the sequence values a, …, a + n − 1, modulo 2^16. -/
def clearBits (win : Tbl Bool) (a n : Nat) : Tbl Bool := win.filter (fun e => decide (n ≤ (e.1 + 65536 - a % 65536) % 65536))

/-- The decision of R374 for sequence number `s` at time `ts` (ns): the source state and the verdict. -/
def DupSource.judge (e : DupSource) (s ts forget : Nat) (resync : Bool) (rsmax : Nat) : DupSource × Verdict :=
  let dist := (s + 65536 - e.h) % 65536
  if !e.sync || decide (e.last + forget ≤ ts) then ({ sync := true, h := s, last := ts, win := put false [] s true }, .accept)
  else if 1 ≤ dist ∧ dist ≤ 32767 then
    if resync && decide (rsmax < dist) then (e, .resync)
    else ({ e with h := s, last := ts, win := put false (clearBits e.win (e.h + 1) (dist - 1)) s true }, .accept)
  else if look false e.win s then (e, .duplicate)
  else ({ e with last := ts, win := put false e.win s true }, .late)

/-- The discard unit judges a packet that the collector accepts: the device, and whether the packet goes on (R368, R372 to
R375). Untagged packets, those of a port of no pair, and those that say they are not duplicated (PATH 0h; log entry 21) pass without a
decision. -/
def Dev.discard (d : Dev) (p : Packet) : Dev × Bool :=
  match p.tag, d.pathOf p.iport with
  | some t, some q =>
    if t.path = 0 then (d, true)
    else if d.pathState q = pathQuarantined then (d.bump DUP.PQDROP_COUNT p.iport, false)
    else
      let r := (d.dupSource t.src).judge t.seq (tsinNs p.tsin) (d.rd DUP.CFG_FORGET * 1000000)
        (decide (d.pathState q = pathResync)) (d.rd DUP.QCFG_RSMAX)
      let d1 := d.setDupSource t.src r.1
      match r.2 with
      | .accept => (d1.bump DUP.PACC_COUNT p.iport, true)
      | .late => ((d1.bump DUP.PACC_COUNT p.iport).bump DUP.PLATE_COUNT p.iport, true)
      | .duplicate => (d1.bump DUP.PDUP_COUNT p.iport, false)
      | .resync => (d1.bump DUP.PRSDROP_COUNT p.iport, false)
  | _, _ => (d, true)

/-! ## Path errors and quarantine (R382 to R384) -/

/-- A path error of a port (R382), and quarantine where it brings the count to QTHR (R383). -/
def Dev.pathError (d : Dev) (now : NetTime) (port : Nat) : Dev :=
  let d1 := d.bump DUP.PERR_CUR port
  if d.rd DUP.PERR_CUR port < d1.rd DUP.QCFG_QTHR ∧ d1.rd DUP.QCFG_QTHR ≤ d1.rd DUP.PERR_CUR port then
    match d1.pathOf port with
    | none => d1.raiseSec now (ev 14 4) port port
    | some i =>
      let o := d1.pathState (otherPath i)
      if d1.pathState i = pathQuarantined then d1
      else if o = pathUp ∨ o = pathResync then
        (((d1.enterPath now i pathQuarantined).bump DUP.PERR_QUARS port).raise now (ev 14 3) port).revalidate 5
      else d1.raiseSec now (ev 14 4) port port
  else d1

/-- The end of a second of network time for a path: the return from quarantine, with EVT 14.5 (R384). `sec` is the second
that begins. -/
def Dev.quarantineExit (d : Dev) (now : NetTime) (sec i : Nat) : Dev :=
  let x := d.pathSt i
  let port := d.pathPort i
  let d1 := d.setPathSt i { x with upAll := d.linkUp port }
  if d.pathState i = pathQuarantined ∧ x.since + d.rd DUP.QCFG_QHOLD * 1000000000 ≤ (sec - 1) * 1000000000
      ∧ d.rd DUP.PERR_CUR port ≤ d.rd DUP.QCFG_QEXIT ∧ x.upAll ∧ d.linkUp port then
    ((d1.enterPath now i pathResync true).raise now (ev 14 5) port).revalidate 5
  else d1

/-- The counts of path errors move to LAST and restart (R382). -/
def Dev.rollErrors (d : Dev) : Dev :=
  (List.range 16).foldl (fun y n => (y.wr DUP.PERR_LAST n (y.rd DUP.PERR_CUR n)).wr DUP.PERR_CUR n 0) d

/-! ## Heartbeats (R377 to R380) -/

/-- Whether the device is eligible for proxy (R387). -/
def Dev.eligible (d : Dev) : Bool :=
  !d.devSafe && (List.range 2).all (fun x => !d.pairOn x || decide (d.pathState (2 * x) = pathUp ∨ d.pathState (2 * x + 1) = pathUp))

/-- The heartbeat frame of a path at a time, without its FCS (R377). -/
def Dev.heartbeat (d : Dev) (now : NetTime) (i : Nat) : List Byte :=
  let port := d.pathPort i
  let sa := d.rd DUP.HBSA_SA
  let flags := i % 2 + 1 + i / 2 * 4 + bitNat (decide (d.rd DUP.ILK_ROLE = 1)) * 8 + d.rd DUP.ILK_EN * 16
    + d.rd DUP.ILK_PRIO * 32 + bitNat d.eligible * 64 + bitNat (decide (d.pathState i = pathQuarantined)) * 128
  beBytes 6 (d.rd DUP.HBDA_DA) ++ beBytes 6 (setBits sa 0 8 (sa + port)) ++ beBytes 2 0x88B5
    ++ [0x10, BitVec.ofNat 8 flags] ++ beBytes 8 (d.rd DUP.ILKID_ID) ++ beBytes 4 ((d.pathSt i).sent + 1)
    ++ beBytes 6 now.sec ++ beBytes 4 now.ns ++ beBytes 4 (d.rd DUP.ILKSTAT_EPOCH) ++ beBytes 18 0

/-- Whether a frame received on a path is a heartbeat (R377). -/
def Dev.isHeartbeat (d : Dev) (bs : List Byte) : Bool :=
  decide (beAt bs 0 6 = d.rd DUP.HBDA_DA ∧ beAt bs 12 2 = 0x88B5)

/-- Whether a path has a peer that supervises it (R378). -/
def Dev.supervised (d : Dev) (i : Nat) : Bool := (List.range 8).any (fun j => decide (d.rd DUP.HBPEER_ID (8 * (i / 2) + j) ≠ 0))

/-- Whether an adapter ID is listed for the pair of a path. -/
def Dev.isPeer (d : Dev) (i id : Nat) : Bool :=
  decide (id ≠ 0) && (List.range 8).any (fun j => decide (d.rd DUP.HBPEER_ID (8 * (i / 2) + j) = id))

/-- The time of a miss: 3 × HBINT + 100 µs, in nanoseconds (R378). -/
def Dev.missTime (d : Dev) : Nat := (3 * d.rd DUP.CFG_HBINT + 100) * 1000

/-- A heartbeat counts for a path (R378 to R380): the third in time on a FAILED path whose link is up starts RESYNC with
EVT 14.1; PEERLOST clears. -/
def Dev.heartbeatCounts (d : Dev) (now : NetTime) (i : Nat) : Dev :=
  let x := d.pathSt i
  let near := match x.heard with
    | some t => decide (2 * (now.toNs - t) ≤ 3 * d.rd DUP.CFG_HBINT * 1000)
    | none => false
  let run := if near && decide (0 < x.run) then x.run + 1 else 1
  let d1 := (d.setPathSt i { x with heard := some now.toNs, run := run }).wr DUP.PSTAT_PEERLOST (i / 2) 0
  if d1.pathState i = pathFailed ∧ d1.linkUp (d1.pathPort i) ∧ 3 ≤ run then
    ((d1.enterPath now i pathResync).raise now (ev 14 1) (d1.pathPort i)).revalidate 5
  else d1

/-- A heartbeat received on a path (R377, R378, R385, R387): consumed and counted; that of the partner gives its role. -/
def Dev.hearHeartbeat (d : Dev) (now : NetTime) (i : Nat) (bs : List Byte) : Dev :=
  let f := (bs.getD 15 0).toNat
  let id := beAt bs 16 8
  let d1 := d.bump DUP.PHB_RX (d.pathPort i)
  let d2 := if id = d1.rd DUP.ILKPARTNER_ID then
      { d1.wr DUP.ILK_INBAND 0 (if f.testBit 3 then 2 else 1) with
        dup := { d1.dup with partnerEligible := f.testBit 6, partnerPrio := some (bitsOf f 5 1) } }
    else d1
  if d2.isPeer i id then d2.heartbeatCounts now i else d2

/-- Whether the time of a miss has passed on a path since the last heartbeat that counted (R378). -/
def Dev.missed (d : Dev) (now : NetTime) (i : Nat) : Bool :=
  match (d.pathSt i).heard with
  | some t => decide (t + d.missTime ≤ now.toNs)
  | none => true

/-- HEARTBEAT_MISS: no heartbeat has counted on a path for the time of a miss (R378, R379): the path fails while the other
one is heard; on both, PEERLOST sets with EVT 14.11. -/
def execHeartbeatMiss (path : Fin 4) : State → Host.Outcome State Fault Refusal :=
  onDev (fun now d =>
    if !d.pairOn (path / 2) || !d.supervised path || !d.missed now path then d
    else
      let d1 := (d.bump DUP.PHB_MISS (d.pathPort path)).setPathSt path { d.pathSt path with run := 0 }
      let heard := match (d1.pathSt (otherPath path)).heard with
        | some t => decide (now.toNs < t + d1.missTime)
        | none => false
      if heard then d1.failPath now path
      else if d1.rd DUP.PSTAT_PEERLOST (path / 2) = 1 then d1
      else (d1.wr DUP.PSTAT_PEERLOST (path / 2) 1).raise now (ev 14 11) (path / 2))

/-- RESYNC_END: a path has been in RESYNC for RSYNC × HBINT: it becomes UP, with EVT 14.2 (R380). -/
def execResyncEnd (path : Fin 4) : State → Host.Outcome State Fault Refusal :=
  onDev (fun now d =>
    if d.pathState path = pathResync ∧ (d.pathSt path).since + max 1 (d.rd DUP.QCFG_RSYNC) * d.rd DUP.CFG_HBINT * 1000 ≤ now.toNs then
      ((d.enterPath now path pathUp).raise now (ev 14 2) (d.pathPort path)).revalidate 5
    else d)

/-! ## The partner interlock (R385 to R387) -/

/-- ILK_OUT_PERIOD: a period of 200 µs on ILK_OUT starts, with its high time in µs (R385); low, with no edge, while the
interlock is off or the device is in a safe state (R386). -/
def execIlkOutPeriod : State → Host.Outcome State Fault Refusal :=
  onDev (fun _ d =>
    if d.rd DUP.ILK_EN = 1 ∧ !d.devSafe then d.send (.message 8 [if d.rd DUP.ILK_ROLE = 1 then 150 else 50]) else d)

/-- ILK_IN_PULSE: a high time on ILK_IN, in µs: PROXY from 100 µs on, else STANDBY (R385). -/
def execIlkInPulse (high : Nat) : State → Host.Outcome State Fault Refusal :=
  onDev (fun _ d => d.wr DUP.ILK_CABLE 0 (if 100 ≤ high then 2 else 1))

/-- The partner is LOST on one route; on one only it raises EVT 14.9 (R385, R387). -/
def Dev.routeLost (d : Dev) (now : NetTime) (lost other : Fld) (info : Nat) : Dev :=
  let d1 := d.wr lost 0 0
  if d1.rd other = 0 then d1 else d1.raiseSec now (ev 14 9) info info

/-- ILK_IN_LOST: no edge on ILK_IN for 1 ms (R385). -/
def execIlkInLost : State → Host.Outcome State Fault Refusal :=
  onDev (fun now d => d.routeLost now DUP.ILK_CABLE DUP.ILK_INBAND 0)

/-- INBAND_LOST: no heartbeat of the partner for 3 × HBINT + 100 µs (R385). -/
def execInbandLost : State → Host.Outcome State Fault Refusal :=
  onDev (fun now d => d.routeLost now DUP.ILK_INBAND DUP.ILK_CABLE 1)

/-- Take the proxy role (R387). -/
def Dev.takeProxy (d : Dev) (now : NetTime) : Dev :=
  let e := d.rd DUP.ILKSTAT_EPOCH + 1
  (((d.wr DUP.ILK_ROLE 0 1).wr DUP.ILKSTAT_EPOCH 0 e).bump DUP.ILKSTAT_TAKEOVERS).raise now (ev 14 7) (e % 2 ^ 32)

/-- Leave the proxy role for another (R387). -/
def Dev.leaveProxy (d : Dev) (now : NetTime) (role : Nat) : Dev :=
  (d.wr DUP.ILK_ROLE 0 role).raise now (ev 14 8) (d.rd DUP.ILKSTAT_EPOCH)

/-- ROLE_DECISION: the rules of R387 in order, while the interlock is enabled (log entry 21). -/
def execRoleDecision : State → Host.Outcome State Fault Refusal :=
  onDev (fun now d =>
    let role := d.rd DUP.ILK_ROLE
    let prio := d.rd DUP.ILK_PRIO
    let cable := d.rd DUP.ILK_CABLE
    let band := d.rd DUP.ILK_INBAND
    let partner := decide (cable = 2 ∨ band = 2)
    let standby := decide (role = 0) && d.eligible
    if d.rd DUP.ILK_EN = 0 then d
    else if partner && decide (role = 1) && decide (d.dup.partnerPrio = some prio) then
      (d.leaveProxy now 2).raise now (ev 14 10)
    else if partner && decide (role = 1 ∧ prio = 1) then d.leaveProxy now 0
    else if partner then d
    else if role = 1 ∧ !d.eligible then d.leaveProxy now 0
    else if standby && decide (cable = 0 ∧ band = 0) then d.takeProxy now
    else if standby && decide (prio = 0 ∧ (cable = 1 ∨ band = 1)) then d.takeProxy now
    else if standby && !d.dup.partnerEligible then d.takeProxy now
    else d)

/-- Whether a target is in the proxy duty, 0 a queue and 1 a receive ring (R388). -/
def Dev.inDuty (d : Dev) (kind n : Nat) : Bool :=
  (List.range 16).any (fun r => decide (d.rd DUP.PXRANGE_EN r = 1 ∧ d.rd DUP.PXRANGE_KIND r = kind
    ∧ d.rd DUP.PXRANGE_BASE r ≤ n ∧ n < d.rd DUP.PXRANGE_BASE r + d.rd DUP.PXRANGE_COUNT r))

end Sys2Proof.Machine
end

