-- ==== Sys2Proof/Machine/PueriFlow.lean ====
section
/-! DEFINITION. Control flow of Pueri (03 R73 to R76), and of the control profile (R86). -/

namespace Sys2Proof.Machine

/-- The image a context runs. -/
def Dev.imageOf (d : Dev) (x : Nat) : Image := look {} d.prog.images (d.ctx x).image

/-- The bodies of the LOOP words of an image: first and last word of each (R73). -/
def loopBodies (code : List Nat) : List (Nat × Nat) :=
  code.zipIdx.filterMap (fun e => if e.1 / 2 ^ 26 = 0x19 then some (e.2 + 1, e.2 + e.1 % 2 ^ 18) else none)

/-- Whether a branch or table jump from `pc` to `t` is a control fault in the packet profile (R73, R74): a target not
later than the instruction, outside the innermost body the context is in, or inside a body that does not contain the
instruction. -/
def controlFaults (c : Ctx) (code : List Nat) (t : Nat) : Bool :=
  decide (t ≤ c.pc)
    || (match c.loops with
        | l :: _ => decide (l.first ≤ c.pc ∧ c.pc ≤ l.last) && !decide (l.first ≤ t ∧ t ≤ l.last)
        | [] => false)
    || (loopBodies code).any (fun b => decide (b.1 ≤ t ∧ t ≤ b.2) && !decide (b.1 ≤ c.pc ∧ c.pc ≤ b.2))

/-- Jump to a word, with the control fault of the packet profile. DESIGN CHOICE (log entry 39): on a control core a jump out of a loop body
leaves the loop stack as it is. -/
def Dev.jump (d : Dev) (x : Nat) (c : Ctx) (t : Nat) : Dev :=
  if !isCore x && controlFaults c (d.imageOf x).code t then d.fault x faultControl
  else d.setCtx x { c with pc := t }

/-- BR: a signed word offset from the instruction (R73). -/
def execBr (x : CtxId) (p : Pred) (n : Bool) (off : BitVec 22) : State → Host.Outcome State Fault Refusal :=
  onDev (fun _ d => d.issue x {} (fun c =>
    if c.taken p n then d.jump x c (unsignedOf (c.pc + off.toInt) 18) else d.setCtx x c.next))

/-- Set up a loop of `cnt` iterations of the words pc + 1 to pc + end: a stack fault at the third level (R74). A body of no words
is run through at once (log entry 12). -/
def Dev.pushLoop (d : Dev) (x : Nat) (c : Ctx) (cnt bodyEnd : Nat) : Dev :=
  if 2 ≤ c.loops.length then d.fault x faultStack
  else if bodyEnd = 0 then d.setCtx x c.next
  else d.setCtx x { c with pc := c.pc + 1,
                           loops := { left := cnt - 1, index := 0, first := c.pc + 1, last := c.pc + bodyEnd } :: c.loops }

/-- LOOP: cnt 0 is an illegal instruction (R74). -/
def execLoop (x : CtxId) (cnt : BitVec 8) (bodyEnd : BitVec 18) : State → Host.Outcome State Fault Refusal :=
  onDev (fun _ d => d.issue x {} (fun c =>
    if cnt = 0 then d.fault x faultIllegal else d.pushLoop x c cnt.toNat bodyEnd.toNat))

/-- LOOPR: 0 skips the body (R86). DESIGN CHOICE (log entry 39): of a count above 2^32 − 1 the low 32 bits count. -/
def execLoopr (x : CtxId) (ra : Reg) (bodyEnd : BitVec 18) : State → Host.Outcome State Fault Refusal :=
  onDev (fun _ d => d.issueCore x { regs := [ra] } (fun c =>
    if (c.rg ra).toNat % 2 ^ 32 = 0 then d.setCtx x { c with pc := c.pc + bodyEnd.toNat }.next
    else d.pushLoop x c ((c.rg ra).toNat % 2 ^ 32) bodyEnd.toNat))

/-- BREAK: leaves the innermost loop for the instruction after its end; the bodies around it are judged as at their own
last word. Outside every loop it goes on (log entry 12). -/
def execBreak (x : CtxId) (p : Pred) (n : Bool) : State → Host.Outcome State Fault Refusal :=
  onDev (fun _ d => d.issue x {} (fun c =>
    if c.taken p n then
      match c.loops with
      | l :: ls => d.setCtx x { c with pc := l.last, loops := ls }.next
      | [] => d.setCtx x c.next
    else d.setCtx x c.next))

/-- LIDX: the iteration index of the innermost loop; with no loop an illegal instruction (R73). -/
def execLidx (x : CtxId) (rd : Reg) : State → Host.Outcome State Fault Refusal :=
  onDev (fun _ d => d.issue x { regs := [rd] } (fun c =>
    match c.loops with
    | l :: _ => d.setCtx x (c.wg rd (BitVec.ofNat 64 l.index)).next
    | [] => d.fault x faultIllegal))

/-- The depth of the call stack: 4, and 64 in the control profile (R75, R86). -/
def callDepth (x : Nat) : Nat := if isCore x then 64 else 4

/-- CALL: push the word after it and go to the function's START; a stack fault when the stack is full (R75). An index
the image's function table does not list is an illegal instruction (log entry 12). -/
def execCall (x : CtxId) (fidx : BitVec 8) : State → Host.Outcome State Fault Refusal :=
  onDev (fun _ d => d.issue x {} (fun c =>
    if callDepth x ≤ c.calls.length then d.fault x faultStack
    else match (d.imageOf x).ftab[fidx.toNat]? with
      | some f => d.setCtx x { c with pc := f.1, calls := (c.pc + 1) :: c.calls }
      | none => d.fault x faultIllegal))

/-- RET: back to the word after the CALL, which ends the CALL's own place in a loop body (R74); a stack fault on an
empty stack. -/
def execRet (x : CtxId) : State → Host.Outcome State Fault Refusal :=
  onDev (fun _ d => d.issue x {} (fun c =>
    match c.calls with
    | r :: rs => d.setCtx x { c with pc := r - 1, calls := rs }.next
    | [] => d.fault x faultStack))

/-- JT: target ra of a jump table of the image, entry 0 for an index at or beyond its length (R76). -/
def execJt (x : CtxId) (ra : Reg) (table : Fin 32) : State → Host.Outcome State Fault Refusal :=
  onDev (fun _ d => d.issue x { regs := [ra] } (fun c =>
    match (d.imageOf x).jtabs[table.val]? with
    | some ts => d.jump x c (ts.getD (if (c.rg ra).toNat < ts.length then (c.rg ra).toNat else 0) 0)
    | none => d.fault x faultIllegal))

/-- JR: pc = ra[17:0] (R86). -/
def execJr (x : CtxId) (ra : Reg) : State → Host.Outcome State Fault Refusal :=
  onDev (fun _ d => d.issueCore x { regs := [ra] } (fun c =>
    d.setCtx x { c with pc := (c.rg ra).toNat % 2 ^ 18 }))

end Sys2Proof.Machine
end

