-- ==== Sys2Proof/Machine/PueriMemory.lean ====
section
/-! DEFINITION. The memory instructions of Pueri: LD, ST and AMO (03 R71, R72). -/

namespace Sys2Proof.Machine

/-! ## LD, ST, AMO (03 R71, R72) -/

/-- The offset of a memory instruction: ra + sext64(imm11). -/
def memOffset (a : Word) (imm : BitVec 11) : Nat := (a + imm.signExtend 64).toNat

/-- The word of the program store at a word address: every bay holds the same (02 R31). -/
def Dev.storeWord (d : Dev) (w : Nat) : Nat :=
  match d.prog.images.find? (fun e => decide (e.2.st ≠ .free ∧ e.2.base ≤ w ∧ w < e.2.base + e.2.words)) with
  | some e => e.2.code.getD (w - e.2.base) 0
  | none => 0

/-- `n` bytes of the program store from a byte offset on. -/
def Dev.storeBytes (d : Dev) (o n : Nat) : List Byte :=
  (List.range n).map (fun i => BitVec.ofNat 8 (d.storeWord ((o + i) / 4) / 256 ^ ((o + i) % 4)))

/-- A scratch access and its ECC outcome: a single error is corrected and counted, a double one faults (R47). -/
def Dev.scratchEcc (d : Dev) (now : NetTime) (x : Nat) (ecc : Ecc) (ok : Dev → Dev) : Dev :=
  match ecc with
  | .good => ok d
  | .single => ok (d.bump ENG.L1ERR_CE)
  | .double => ((d.bump ENG.L1ERR_UE).raise now (ev 3 2) (requester x)).fault x faultMemory

/-- LD (R71): a space, offset or alignment outside the table is an address fault. -/
def Dev.load (d : Dev) (now : NetTime) (x rd ra sp sz : Nat) (sx : Bool) (imm : BitVec 11) (ecc : Ecc) : Dev :=
  let n := szBytes sz
  let o := memOffset ((d.ctx x).rg ra) imm
  d.issue x { regs := [rd, ra], scratch := if sp = 0 then (o, n) else (0, 0) } (fun c =>
    let op : MemOp := { ctx := x, store := false, addr := 0, size := n, sx := sx, rd := rd, value := 0 }
    match sp with
    | 0 =>
      if isCore x || decide (0x2000 < o + n) || decide (o % n ≠ 0) then d.fault x faultAddress
      else d.scratchEcc now x ecc (fun d1 => d1.setCtx x (c.wg rd (loadValue (c.scrBytes o n) sx)).next)
    | 1 =>
      match d.cacheAddr o n with
      | none => d.fault x faultAddress
      | some a => d.coherentAccess now { op with addr := a } ecc
    | 2 =>
      match d.atomAddr o n with
      | none => d.fault x faultAddress
      | some a =>
        let m := d.eng.coh
        (d.setCtx x { c with st := .wait, waitOn := .memory }).setCoh
          { m with reqs := m.reqs ++ [{ who := requester x, line := a / 64, kind := .far { op with addr := a } }] }
    | _ =>
      if !isCore x || decide (0x40000 < o + n) || decide (o % 4 ≠ 0) then d.fault x faultAddress
      else
        -- which bay's copy serves a control core is not stated: a free value names the bay of an error (log entry 5)
        let d1 := if ecc = .double then d.drawn.storeError now (d.freeVal.toNat % 12) else d
        d1.setCtx x (c.wg rd (loadValue (d.storeBytes o n) sx)).next)

/-- ST (R71): the program store takes no stores (02 R36). -/
def Dev.store (d : Dev) (now : NetTime) (x rs ra sp sz : Nat) (imm : BitVec 11) (ecc : Ecc) : Dev :=
  let n := szBytes sz
  let o := memOffset ((d.ctx x).rg ra) imm
  d.issue x { regs := [rs, ra], scratch := if sp = 0 then (o, n) else (0, 0) } (fun c =>
    let op : MemOp := { ctx := x, store := true, addr := 0, size := n, sx := false, rd := 0, value := c.rg rs }
    match sp with
    | 0 =>
      if isCore x || decide (0x2000 < o + n) || decide (o % n ≠ 0) then d.fault x faultAddress
      else d.scratchEcc now x ecc (fun d1 => d1.setCtx x (c.scrPuts o (leBytes n (c.rg rs).toNat)).next)
    | 1 =>
      match d.cacheAddr o n with
      | none => d.fault x faultAddress
      | some a => d.coherentAccess now { op with addr := a } ecc
    | 2 =>
      match d.atomAddr o n with
      | none => d.fault x faultAddress
      | some a =>
        let m := d.eng.coh
        (d.setCtx x { c with st := .wait, waitOn := .memory }).setCoh
          { m with reqs := m.reqs ++ [{ who := requester x, line := a / 64, kind := .far { op with addr := a } }] }
    | _ => d.fault x faultAddress)

/-- LD (03 R71). -/
def execLd (x : CtxId) (rd ra : Reg) (sp sz : Fin 4) (sx : Bool) (imm : BitVec 11) (ecc : Ecc) :
    State → Host.Outcome State Fault Refusal :=
  onDev (fun now d => d.load now x rd ra sp sz sx imm ecc)

/-- ST (03 R71). -/
def execSt (x : CtxId) (rs ra : Reg) (sp sz : Fin 4) (imm : BitVec 11) (ecc : Ecc) :
    State → Host.Outcome State Fault Refusal :=
  onDev (fun now d => d.store now x rs ra sp sz imm ecc)

/-- AMO (03 R72): fn 7h is unassigned and an illegal instruction (R62); an offset outside the atomic region or not
aligned is an address fault with no ticket. The compare value of FCAS is rd at issue. -/
def execAmo (x : CtxId) (rd ra rb : Reg) (k : Tick) (fn : Fin 8) (wide : Bool) : State → Host.Outcome State Fault Refusal :=
  onDev (fun _ d => d.async x k { regs := [rd, ra, rb] } (fun c =>
    let n := if wide then 8 else 4
    if fn.val = 7 then .error faultIllegal
    else match d.atomAddr (c.rg ra).toNat n with
      | none => .error faultAddress
      | some a =>
        let m := d.eng.coh
        let kind : ReqKind := .atomic x k (fn.val + (if wide then 8 else 0)) a (c.rg rb) (c.rg rd)
        .ok (d.setCoh { m with reqs := m.reqs ++ [{ who := requester x, line := a / 64, kind := kind }] },
             { rd := rd, pend := .atSlice })))

end Sys2Proof.Machine
end

