-- ==== Sys2Proof/Machine/Tasks.lean ====
section
/-! DEFINITION. Deferred tasks, and the arrival of asynchronous results (02 R48 to R50; 03 R65, R81; 20 R531). -/

namespace Sys2Proof.Machine

/-! ## Handles and entries (R48) -/

/-- The handle of a task entry: entry, bay, generation. The entry is known by 4,096 · bay + entry. -/
def taskHandle (key gen : Nat) : Nat := key % 4096 + key / 4096 * 2 ^ 12 + gen * 2 ^ 16

/-- The entry that a handle names, if any: none for bay 12 to 15 and for bits [31:24] not zero. -/
def handleEntry (h : Nat) : Option Nat :=
  if bitsOf h 24 8 = 0 ∧ bitsOf h 12 4 < 12 then some (bitsOf h 0 12 + 4096 * bitsOf h 12 4) else none

/-- A task entry. -/
def Dev.taskAt (d : Dev) (key : Nat) : Task := look {} d.eng.tasks key

/-- Replace a task entry. -/
def Dev.setTask (d : Dev) (key : Nat) (t : Task) : Dev := { d with eng := { d.eng with tasks := put {} d.eng.tasks key t } }

/-- Status codes (R81). -/
abbrev taskOk : Nat := 0
abbrev taskFullCode : Nat := 1
abbrev taskStale : Nat := 2
abbrev taskRunning : Nat := 3

/-- EVT 1.18 of a spillway or a share, at most once per second, with its number as INFO (20 R528, R529; 18 R569). -/
def Dev.ccLate (d : Dev) (now : NetTime) (info : Nat) : Dev := d.raiseSec now (ev 1 18) info info

/-- The completion of a task to its owner (R48; 16 R441): to the completion ring named when it was armed, or to the
control task ring, where one that does not fit is lost (20 R529, R531). -/
def Dev.taskCpl (d : Dev) (now : NetTime) (key status : Nat) (result : Word) : Dev :=
  let t := d.taskAt key
  let us := [cplUnit0 2 5 status 0 0 (taskHandle key t.gen), result.toNat]
  match t.target with
  | some r => d.queueCpl r (ringKey kCq r) { units := us }
  | none =>
    match d.hringPush now taskRing us with
    | some d1 => d1
    | none => (d.bump MGT.TSPILL_COUNT).ccLate now 8

/-- An entry returns to FREE under the next generation, and its polder has one task less (R48; 17 R463). -/
def Dev.freeTask (d : Dev) (key : Nat) : Dev :=
  let t := d.taskAt key
  let d1 := d.setTask key { gen := (t.gen + 1) % 256 }
  let d2 := { d1 with eng := { d1.eng with readyQ := d1.eng.readyQ.filter (fun k => decide (k ≠ key)) } }
  d2.wr VIR.PUSE_TASKS t.owner (d2.rd VIR.PUSE_TASKS t.owner - 1)

/-- The entry of a handle, when its generation is current and the entry is not FREE. DESIGN CHOICE (log entry 39): a FREE entry whose
generation is the handle's answers STALE as well. -/
def Dev.liveTask (d : Dev) (h : Nat) : Option Nat :=
  match handleEntry h with
  | some key => if (d.taskAt key).gen = bitsOf h 16 8 ∧ (d.taskAt key).st ≠ .free then some key else none
  | none => none

/-- An entry becomes READY, behind those that became READY before (R49). -/
def Dev.readyTask (d : Dev) (key : Nat) : Dev :=
  let d1 := d.setTask key { d.taskAt key with st := .ready }
  { d1 with eng := { d1.eng with readyQ := d1.eng.readyQ ++ [key] } }

/-- Make ready (R49): the device and the status. One that a cancel of its ECLK has beaten returns OK (R50). -/
def Dev.makeReady (d : Dev) (h : Nat) : Dev × Nat :=
  match d.liveTask h with
  | none => if d.eng.beaten.contains h then ({ d with eng := { d.eng with beaten := d.eng.beaten.erase h } }, taskOk) else (d, taskStale)
  | some key => if (d.taskAt key).st = .armed then (d.readyTask key, taskOk) else (d, taskOk)

/-- Whether the cancel of context `y`, of age `ay`, takes effect over that of `x` in the same ECLK (R50): the older context, among equals
the lower requester number; a control core is younger than any engine context, the lower core first. -/
def cancelBeats (x ax y ay : Nat) : Bool :=
  if isCore x ∧ isCore y then decide (y < x)
  else if isCore x then true
  else if isCore y then false
  else decide (ay < ax ∨ (ay = ax ∧ y / 8 < x / 8))

/-- The context that has taken a task and not issued for it yet is IDLE again (R50). -/
def Dev.unstart (d : Dev) (key : Nat) : Dev :=
  match ((List.range 128).map (fun i => key / 4096 * 128 + i)).find? (fun y => decide ((d.ctx y).task = some key)) with
  | some y => d.setCtx y {}
  | none => d

/-- Cancel by context `x`, of age `age` (R49): the device and the status. With a make-ready, the due time or the start of the entry in the
same ECLK the cancel wins and the race is counted, with EVT 3.6; of two cancels one takes effect (R50). -/
def Dev.cancelTask (d : Dev) (now : NetTime) (x age h : Nat) (race : CancelRace) : Dev × Nat :=
  let beaten := match race with
    | .cancel y => cancelBeats x age y (d.ctx y).age
    | .none | .makeReady | .due | .start => false
  match d.liveTask h with
  | none => (d, taskStale)
  | some key =>
    let t := d.taskAt key
    if beaten then (d, taskStale)
    else if t.st = .running ∧ race ≠ .start then (d, taskRunning)
    else
      let d1 := match race with
        | .none | .cancel _ => d
        | .makeReady | .due | .start => (d.bump ENG.TASK_RACE_COUNT).raise now (ev 3 6) (h % 2 ^ 32) (some t.owner)
      let d2 := match race with
        | .makeReady => { d1 with eng := { d1.eng with beaten := h :: d1.eng.beaten } }
        | .start => d1.unstart key
        | .none | .due | .cancel _ => d1
      ((d2.taskCpl now key 8 0).freeTask key, taskOk)

/-! ## The task instructions (03 R81) -/

/-- The polder of the program in a context: that of its packet, or the owner of its task (R48). -/
def Dev.progPolder (d : Dev) (c : Ctx) : Nat :=
  match c.pkt, c.task with
  | some p, _ => p.polder
  | none, some k => (d.taskAt k).owner
  | none, none => 0

/-- The lowest FREE entry of a bay. -/
def Dev.freeEntryOf (d : Dev) (bay : Nat) : Option Nat :=
  (List.range 4096).find? (fun i => decide ((d.taskAt (4096 * bay + i)).st = .free))

/-- An Arm that is refused: FULL, counted, EVT 3.7 (R49). -/
def Dev.armFull (d : Dev) (now : NetTime) (bay polder : Nat) : Dev :=
  (d.bump ENG.TASK_FULL_COUNT).raise now (ev 3 7) bay (some polder)

/-- TARM: arm an entry of the own bay, within the polder's quota (R49, R81; 17 R463). -/
def execTarm (x : CtxId) (rd ra rb : Reg) (idx : Byte) : State → Host.Outcome State Fault Refusal :=
  onDev (fun now d =>
    let c0 := d.ctx x
    let a := (c0.rg ra).toNat
    d.issuePacket x { regs := [rd, ra, rb], scratch := (a, 64) } (fun c =>
      if 0x2000 < a + 64 then d.fault x faultAddress
      else match (d.imageOf x).ttab[idx.toNat]? with
        | none => d.fault x faultIllegal
        | some entry =>
          let bay := x.val / 128
          let polder := d.progPolder c
          let full := fun (y : Dev) => (y.armFull now bay polder).setCtx x (c.wg rd (BitVec.ofNat 64 (taskFullCode * 2 ^ 56))).next
          if d.rd VIR.PID_TASKQ polder ≤ d.rd VIR.PUSE_TASKS polder then full (d.bump VIR.PUSE_TASKFULL polder)
          else match d.freeEntryOf bay with
            | none => full d
            | some i =>
              let key := 4096 * bay + i
              let due := (c.rg rb).toNat
              let due' := if due = 0 then none else some (now.toNs + due)
              let target := if d.rd VIR.PTCQ_EN polder = 1 then some (d.rd VIR.PTCQ_RING polder) else none
              let arg := c.scrBytes a 64
              let gen := (d.taskAt key).gen
              let t : Task := ⟨.armed, gen, c.pipe, c.slot, entry, c.image, c.epoch, arg, due', target, polder, c.bind⟩
              let d1 := (d.setTask key t).wr VIR.PUSE_TASKS polder (d.rd VIR.PUSE_TASKS polder + 1)
              d1.setCtx x (c.wg rd (BitVec.ofNat 64 (taskHandle key t.gen))).next))

/-- Whether TRDY and TCAN of a context raise a task fault on a handle: its bay field names one of bays 0 to 11 that is not
the own one (R48, R81). -/
def foreignBay (x h : Nat) : Bool := decide (bitsOf h 12 4 < 12 ∧ bitsOf h 12 4 ≠ x / 128)

/-- TRDY: make ready, in the own bay. -/
def execTrdy (x : CtxId) (rd ra : Reg) : State → Host.Outcome State Fault Refusal :=
  onDev (fun _ d => d.issuePacket x { regs := [rd, ra] } (fun c =>
    let h := (c.rg ra).toNat % 2 ^ 32
    if foreignBay x h then d.fault x faultTask
    else
      let r := d.makeReady h
      r.1.setCtx x (c.wg rd (BitVec.ofNat 64 r.2)).next))

/-- TCAN: cancel, in the own bay. `race` as R50 states. -/
def execTcan (x : CtxId) (rd ra : Reg) (race : CancelRace) : State → Host.Outcome State Fault Refusal :=
  onDev (fun now d => d.issuePacket x { regs := [rd, ra] } (fun c =>
    let h := (c.rg ra).toNat % 2 ^ 32
    if foreignBay x h then d.fault x faultTask
    else
      let r := d.cancelTask now x c.age h race
      r.1.setCtx x (c.wg rd (BitVec.ofNat 64 r.2)).next))

/-- TRDYX and TCANX travel on the event channel and take effect where the entry is (R49, R81). -/
def Dev.remoteTask (d : Dev) (x rd ra k : Nat) (cancel : Bool) : Dev :=
  d.async x k { regs := [rd, ra] } (fun c =>
    .ok (d, { rd := rd, pend := .atTask cancel ((c.rg ra).toNat % 2 ^ 32) }))

/-- TRDYX. -/
def execTrdyx (x : CtxId) (rd ra : Reg) (k : Tick) : State → Host.Outcome State Fault Refusal :=
  onDev (fun _ d => d.remoteTask x rd ra k false)

/-- TCANX. -/
def execTcanx (x : CtxId) (rd ra : Reg) (k : Tick) : State → Host.Outcome State Fault Refusal :=
  onDev (fun _ d => d.remoteTask x rd ra k true)

/-- TASK_DUE: network time has reached the due time of an ARMED task, which becomes READY (R49). -/
def execTaskDue (bay : Fin 12) (entry : Fin 4096) : State → Host.Outcome State Fault Refusal :=
  onDev (fun now d =>
    let key := 4096 * bay.val + entry.val
    let t := d.taskAt key
    match t.due with
    | some due => if t.st = .armed ∧ due ≤ now.toNs then d.readyTask key else d
    | none => d)

/-! ## Starting a task (R49) -/

/-- Whether an engine takes work (08 R199): in service, not being withdrawn, its bay's program store good. -/
def Dev.engineTakes (d : Dev) (n : Nat) : Bool :=
  d.engineServes n && !d.eng.withdraw.contains n && decide (d.rd ENG.BSTAT_STORE_OK (n / 16) = 1)

/-- The lowest IDLE context of an engine. -/
def Dev.idleCtx (d : Dev) (n : Nat) : Option Nat :=
  ((List.range 8).find? (fun i => decide ((d.ctx (8 * n + i)).st = .idle))).map (fun i => 8 * n + i)

/-- How many contexts of an engine run tasks. -/
def Dev.taskCtxs (d : Dev) (n : Nat) : Nat := ((List.range 8).filter (fun i => (d.ctx (8 * n + i)).task.isSome)).length

/-- The context that the next READY task of a bay takes. -/
def Dev.taskPlace (d : Dev) (bay : Nat) : Option Nat :=
  ((List.range 16).find? (fun i =>
    let n := 16 * bay + i
    d.engineTakes n && (d.idleCtx n).isSome && decide (d.taskCtxs n < d.rd ENG.CFG_MAXCTX))).bind
      (fun i => d.idleCtx (16 * bay + i))

/-- A context takes the next age (02 R34). -/
def Dev.runCtx (d : Dev) (x : Nat) (c : Ctx) : Dev :=
  { d.setCtx x { c with st := .run, age := d.eng.nextAge } with
    eng := { (d.setCtx x { c with st := .run, age := d.eng.nextAge }).eng with nextAge := d.eng.nextAge + 1 } }

/-! ## Choosing an engine for a packet (08 R198 to R200) -/

/-- Whether an engine is eligible for a pipeline (08 R199). -/
def Dev.eligibleFor (d : Dev) (k n : Nat) : Bool :=
  d.engineTakes n && (d.idleCtx n).isSome && d.rdBit DSP.BAYMASK_MASK k (n / 16)

/-- How many contexts of an engine are not IDLE. -/
def Dev.busyCount (d : Dev) (n : Nat) : Nat := ((List.range 8).filter (fun i => decide ((d.ctx (8 * n + i)).st ≠ .idle))).length

/-- The engine a pipeline chooses (08 R199) among those that no earlier pipeline of the PCLK chose (08 R200): the fewest contexts not
IDLE, ties to the first at or above the rotation pointer. -/
def Dev.chooseEngine (d : Dev) (k : Nat) (chosen : List Nat := []) : Option Nat :=
  let ns := rotated (look 0 d.dsp.rot k) ((List.range 192).filter (fun n => d.eligibleFor k n && !chosen.contains n))
  let least := (ns.map (fun n => d.busyCount n)).foldl min 8
  ns.find? (fun n => decide (d.busyCount n = least))

/-- Where the head of a pipeline's dispatch order waits (08 R198). -/
inductive DispatchQueue where
  | again | express | ordinary
  deriving DecidableEq, Repr

/-- The packet at the head of a pipeline's dispatch order (08 R198): packets to be dispatched again first, then the express queue, unless
the ordinary queue has waited OFAIR PCLK. -/
def Dev.dispatchNext (d : Dev) (k : Nat) : Option (DispatchQueue × Packet) :=
  let a := look [] d.dsp.againQ k
  let e := look [] d.dsp.exprQ k
  let o := look [] d.dsp.ordQ k
  if !a.isEmpty then a.head?.map (fun p => (.again, p))
  else if !o.isEmpty && (e.isEmpty || decide (max 1 (d.rd DSP.CFG_OFAIR) ≤ look 0 d.dsp.ordWait k)) then o.head?.map (fun p => (.ordinary, p))
  else e.head?.map (fun p => (.express, p))

/-- The slot settings that a packet runs under: those of its first dispatch (04 R104). -/
def Dev.slotOf (d : Dev) (k : Nat) (p : Packet) : Slot := p.bind.getD (look {} d.prog.slots (64 * k + p.slot))

/-- The engines that pipelines choose one after another in a PCLK (08 R200). -/
def Dev.choices (d : Dev) : List Nat → List Nat → List (Nat × Nat)
  | [], _ => []
  | k :: ks, chosen =>
    let want := match d.dispatchNext k with
      | some (_, p) => if (d.slotOf k p).handle = 0 then none else d.chooseEngine k chosen
      | none => none
    match want with
    | some n => (k, n) :: d.choices ks (n :: chosen)
    | none => d.choices ks chosen

/-- The pipelines in the order in which they choose in the next PCLK (08 R200). -/
def Dev.pipeOrder (d : Dev) : List Nat := rotated d.dsp.first (List.range 4)

/-- TASK_START: the oldest READY task of a bay starts in an eligible IDLE context (R49; 03 R58). Where a packet that a pipeline dispatches
next takes that context, the task waits (08 R213). -/
def execTaskStart (bay : Fin 12) : State → Host.Outcome State Fault Refusal :=
  onDev (fun _ d =>
    match d.eng.readyQ.find? (fun k => decide (k / 4096 = bay.val)), d.taskPlace bay with
    | some key, some x =>
      if (d.choices d.pipeOrder []).any (fun e => decide (d.idleCtx e.2 = some x)) then d else
      let t := d.taskAt key
      let d1 := d.setTask key { t with st := .running }
      let d2 := { d1 with eng := { d1.eng with readyQ := d1.eng.readyQ.filter (fun k => decide (k ≠ key)) } }
      let c0 : Ctx := { task := some key, image := t.image, pipe := t.pipe, slot := t.slot, epoch := t.epoch, bind := t.bind, pc := t.entry }
      d2.runCtx x ((c0.wg 1 (BitVec.ofNat 64 (taskHandle key t.gen))).scrPuts 0 t.arg)
    | _, _ => d)

/-! ## Arrival of results (03 R65) -/

/-- A context whose result has arrived on ticket `k` goes on: an AWAIT completes, an instruction that waited for the lock
issues again (R65, R66). -/
def Ctx.wake (c : Ctx) (k : Nat) : Ctx :=
  match c.waitOn with
  | .await j => if j = k then { c with st := .run, waitOn := .nothing }.next else c
  | .locked j => if j = k then { c with st := .run, waitOn := .nothing } else c
  | _ => c

/-- The result of a ticket is written and the ticket becomes free. -/
def Ctx.result (c : Ctx) (k : Nat) (t : Ticket) (v : Word) : Ctx := ((c.wg t.rd v).setTk k {}).wake k

/-- Whether a context waits to end: results that arrive now are discarded (R82). -/
def Ctx.ending (c : Ctx) : Bool :=
  match c.waitOn with
  | .terminate _ => true
  | _ => false

/-- A result that arrives for ticket `k` with value `v` and what else it writes, `f`: taken, or discarded by a context that waits to end
(R82). -/
def Ctx.take (c : Ctx) (k : Nat) (t : Ticket) (v : Word) (f : Ctx → Ctx := id) : Ctx := if c.ending then c.setTk k {} else (f c).result k t v

/-- The rewritten header of a tunnel operation: S moves, LEN follows, and the bytes stand from the new S on (09 R218 to
R221). -/
def Ctx.reheader (c : Ctx) (s : Nat) (bytes : List Byte) (eg : Egress) (tag : Option DupTag) (late : Bool) (parse : Nat) : Ctx :=
  { c with
    hdr := putBytes c.hdr s bytes
    s := s
    pkt := c.pkt.map (fun p => { p with len := p.len + c.s - s, egress := eg, tag := tag, late := late, parse := parse }) }

/-- A remote task operation reaches the entry (R49, R50). -/
def Dev.remoteArrives (d : Dev) (now : NetTime) (x age : Nat) (cancel : Bool) (h : Nat) (race : CancelRace) : Dev × Nat :=
  if cancel then d.cancelTask now x age h race else d.makeReady h

/-- RESULT_ARRIVAL: the result of an asynchronous operation reaches its context (R65). `race` is the race of a TCANX at its
entry (02 R50). A result still held by another unit has not arrived. A remote operation of a context that has ended takes effect, and
its result is discarded (R84). -/
def execResultArrival (x : CtxId) (k : Tick) (race : CancelRace) : State → Host.Outcome State Fault Refusal :=
  onDev (fun now d =>
    match d.eng.strays.find? (fun y => decide (y.ctx = x.val ∧ y.k = k.val)) with
    | some y => (({ d with eng := { d.eng with strays := d.eng.strays.erase y } } : Dev).remoteArrives now x y.age y.cancel y.handle race).1
    | none =>
      let c := d.ctx x
      let t := c.tk k
      if !t.busy then d
      else match t.pend with
        | .value v => d.setCtx x (c.take k t v)
        | .search v => d.setCtx x (c.take k t v)
        | .toScratch v off bytes => d.setCtx x (c.take k t v (fun y => y.scrPuts off bytes))
        | .toHeader v s bytes eg tag late parse => d.setCtx x (c.take k t v (fun y => y.reheader s bytes eg tag late parse))
        | .atTask cancel h =>
          let r := d.remoteArrives now x c.age cancel h race
          r.1.setCtx x ((r.1.ctx x).take k t (BitVec.ofNat 64 r.2))
        | .atSlice => d
        | .atCipher _ => d)

/-- AWAIT: wait until a ticket is free (R65). -/
def execAwait (x : CtxId) (k : Tick) : State → Host.Outcome State Fault Refusal :=
  onDev (fun _ d => d.issue x {} (fun c =>
    if (c.tk k).busy then d.setCtx x { c with st := .wait, waitOn := .await k } else d.setCtx x c.next))

end Sys2Proof.Machine
end

