-- ==== Sys2Proof/Machine/Intake.lean ====
section
/-! DEFINITION. From a parsed frame to a dispatch queue: classification, policing, placement, the forwarding lookups, the
exception ring, and the dispatch queues (01 R23, R24, R28; 06 R145, R151 to R155; 08 R197, R202; 11 R304; 20 R530). -/

namespace Sys2Proof.Machine

/-! ## Fields of an action (06 R153, R154) -/

def actQueue (a : Nat) : Nat := bitsOf a 0 18
def actClass (a : Nat) : Nat := bitsOf a 18 3
def actColour (a : Nat) : Nat := bitsOf a 21 2
def actSlot (a : Nat) : Nat := bitsOf a 23 6
def actQkind (a : Nat) : Nat := bitsOf a 29 1
def actKind (a : Nat) : Nat := bitsOf a 30 2
def actContract (a : Nat) : Nat := bitsOf a 32 20
def actPolicer (x : Nat) : Nat := bitsOf x 0 20
def actMark (x : Nat) : Nat := bitsOf x 20 32

/-- The port default of a pipeline and ingress port: action and extension word. -/
def Dev.portDefault (d : Dev) (pipe iport : Nat) : Nat × Nat :=
  (d.rd ACS.PDEF_ACT (18 * pipe + iport), d.rd ACS.PDEFX_ACTX (18 * pipe + iport))

/-- What classification finds for a frame. -/
structure Classified where
  act   : Nat
  actx  : Nat
  found : Option (Nat × Nat) := none
  multi : Bool := false
  key   : List Byte

/-- The ingress lookup of a frame (R151, R152, R155), or the port default. -/
def Dev.classify (d : Dev) (now : NetTime) (pipe iport : Nat) (q : Parsed) (v : View) (f1 f2 : AcsFind) : Dev × Classified :=
  let w := d.rd (if q.ptype < 8 then ACS.PSEL_SEL else ACS.PSEL_SELHI) (18 * pipe + iport)
  let sel := bitsOf w (8 * (q.ptype % 8)) 8
  let prof := d.profile pipe (sel % 32)
  let key := buildKey prof.fmt q v iport prof.cust
  let (act, actx) := d.portDefault pipe iport
  let dflt : Classified := { act := act, actx := actx, key := leBytes (20 * fmtUnits prof.fmt) key }
  if !sel.testBit 7 || !prof.en || decide (q.ptype = 15) then (d, dflt)
  else
    let d1 := d.bump ACS.LOOKUPS_COUNT pipe
    let multi := decide (1 < (d1.matches_ pipe prof key).length)
    let d1' := if multi then d1.bump ACS.MULTI_COUNT pipe else d1
    match d1'.search now pipe prof key f1 f2 with
    | (d2, none) => (d2, { dflt with multi := multi })
    | (d2, some (b, i)) =>
      let e := d1.acsEntry pipe b i
      (d2.bump ACS.HITS_COUNT pipe, { dflt with act := e.act, actx := e.actx, found := some (b, i), multi := multi })

/-- The tuple T of a frame (08 R202). -/
def tupleOf (q : Parsed) (v : View) : List Byte :=
  let inner := q.tun && q.il3.isSome
  let l4 := if inner then q.il4 else q.l4
  let proto := if inner then q.iproto else q.proto
  match (if inner then q.il3 else q.l3) with
  | none => List.replicate 40 0
  | some o =>
    let (sp, dp) := v.ports l4 proto
    leBytes 16 (v.src o) ++ leBytes 16 (v.dst o) ++ leBytes 4 proto ++ leBytes 2 sp ++ leBytes 2 dp

/-- The flow number of a packet (08 R202), from the mode in force at dispatch. -/
def Dev.flowOf (d : Dev) (p : Packet) : Nat :=
  match p.txring with
  | some (r, _) => r
  | none =>
    match bitsOf (d.rd DSP.FMODE_MODE) (2 * p.iport) 2 with
    | 0 => 2 ^ 32 - 1
    | 1 => (crc32c (BitVec.ofNat 32 (d.rd DSP.FSEED_SEED)) p.tuple).toNat
    | 2 => p.qkind * 2 ^ 18 + p.queue
    | _ => p.iport

/-! ## Dispatch queues (08 R197) -/

/-- Show how many packets wait in the dispatch queues of a pipeline. -/
def Dev.showQueues (d : Dev) (k : Nat) : Dev :=
  let e := (look [] d.dsp.exprQ k).length
  let o := (look [] d.dsp.ordQ k).length
  (((d.wr DSP.QDEPTH_EXP k e).peak DSP.QDEPTH_EXPPEAK k e).wr DSP.QDEPTH_ORD k o).peak DSP.QDEPTH_ORDPEAK k o

/-- A packet joins the dispatch queue of its payload's place, or finds it full and is dropped. -/
def Dev.toDispatch (d : Dev) (now : NetTime) (p : Packet) : Dev :=
  let k := p.pipe
  if p.place = .express then
    let q := look [] d.dsp.exprQ k
    if 512 ≤ q.length then ((d.bump DSP.QDROP_EXP k).raiseSec now (ev 8 4) k k).freePacket p
    else { d with dsp := { d.dsp with exprQ := put [] d.dsp.exprQ k (q ++ [{ p with express := true }]) } }.showQueues k
  else
    let q := look [] d.dsp.ordQ k
    if 4096 ≤ q.length then ((d.bump DSP.QDROP_ORD k).raiseSec now (ev 8 5) k k).freePacket p
    else { d with dsp := { d.dsp with ordQ := put [] d.dsp.ordQ k (q ++ [p]) } }.showQueues k

/-! ## The exception ring (20 R530) -/

/-- The units of an exception entry. -/
def exceptionUnits (p : Packet) (source code : Nat) : List Nat :=
  [3 + p.pipe * 2 ^ 4 + source * 2 ^ 6 + code % 256 * 2 ^ 8 + p.iport * 2 ^ 16 + p.polder * 2 ^ 21 + p.bytes.length * 2 ^ 34
     + bitNat (decide (2048 < p.bytes.length)) * 2 ^ 53 + p.slot * 2 ^ 54,
   p.tsin + p.tsfrac * 2 ^ 64, p.parse + p.flow * 2 ^ 32 + p.contract * 2 ^ 64, p.mark]

/-- Put a frame into the exception ring of its pipeline: the entry, and the first 2,048 bytes in the entry's block; none
when the ring is full. -/
def Dev.pushException (d : Dev) (now : NetTime) (p : Packet) (source code : Nat) : Option Dev :=
  let r := exceptionRing p.pipe
  let a := d.rd MGT.XDATA_BASE p.pipe * 4096 + 2048 * d.rd r.tail r.i
  (d.hringPush now r (exceptionUnits p source code)).map (fun d1 => (d1.hbmWrite now a (p.bytes.take 2048)).leave p true none)

/-- The metadata that an action gives a packet (R153, R154). A target no polder owns leaves POLDER open (log entry 5). -/
def Dev.takeAction (d : Dev) (act actx : Nat) (p : Packet) : Dev × Packet :=
  let owner := d.targetPolder (actQkind act) (actQueue act)
  let p1 := { p with cls := actClass act, queue := actQueue act, qkind := actQkind act, slot := actSlot act
                     contract := actContract act, mark := actMark actx
                     polder := owner.getD (d.freeVal.toNat % 8192) }
  (if owner.isSome then d else d.drawn, p1)

/-- The parse descriptor with the extension word of the action that applies, in bytes 40 to 47 (06 R145). -/
def withExtension (desc : List Byte) (actx : Nat) : List Byte := splice desc 40 (leBytes 8 actx)

/-- A frame goes to the exception ring; one that finds it full takes its port default, and one whose default is the
exception ring again, or that a host submitted, is dropped (R530; 01 R26). -/
def Dev.exception (d : Dev) (now : NetTime) (p : Packet) (source code : Nat) : Dev :=
  match d.pushException now p source code with
  | some d1 => d1
  | none =>
    let d1 := (d.bump MGT.XSPILL_COUNT p.pipe).ccLate now (4 + p.pipe)
    let (act, actx) := d1.portDefault p.pipe p.iport
    if 16 ≤ p.iport ∨ actKind act = 2 then d1.freePacket p
    else if actKind act = 0 then
      let r := d1.takeAction act actx p
      r.1.toDispatch now { r.2 with bind := none, drawn := none, onward := [], desc := withExtension r.2.desc actx }
    else (d1.bump ACS.DROPS_COUNT p.pipe).freePacket p

/-! ## Placement (01 R23, R24) -/

/-- Whether a contract is admitted: its state is ACTIVE or LOWERED (13 R348, R360). -/
def Dev.admitted (d : Dev) (c : Nat) : Bool := decide (c ≠ 0 ∧ (d.rd ADM.CSTAT_STATE c = 2 ∨ d.rd ADM.CSTAT_STATE c = 3))

/-- Place the payload of a classified, coloured frame. DESIGN CHOICE (log entry 32): it takes of its contract's reservation its length
without the FCS. -/
def Dev.place (d : Dev) (p : Packet) : Dev × Packet :=
  if d.admitted p.contract && decide (p.colour = 0) then
    let c := look {} d.adm.contracts p.contract
    let set := fun (x : Contract) => { d with adm := { d.adm with contracts := put {} d.adm.contracts p.contract x } }
    if c.used + p.len ≤ c.express then (set { c with used := c.used + p.len }, { p with place := .express, resv := p.len, resvOf := p.contract })
    else (set { c with overrun := c.overrun + 1 }, p)
  else (d, p)

/-! ## The ingress stages (01 R28 steps 2 to 6) -/

/-- Colour a frame (11 R304): by its policer, or by the action's pre-colour where it names none; the Bool says that the
policer drops red and the frame is red. -/
def Dev.colourFrame (d : Dev) (now : NetTime) (act actx len : Nat) : Dev × Nat × Bool :=
  let pol := actPolicer actx
  if pol = 0 then (d, if actColour act = 3 then 0 else actColour act, false)
  else
    let on := d.policerOn pol
    let r := d.police now pol len (actColour act)
    if on && (d.node 5 pol).inForce.polRed && decide (r.2 = 2) then
      let x := r.1.node 5 pol
      ((r.1.setNode 5 pol { x with redDrop := sat32 (x.redDrop + 1) }).bump SCH.DROPS_POLRED, 2, true)
    else (r.1, r.2, false)

/-- The PRP source of a received frame (14 R369), and its tag where it came with a trailer on a path (14 R372). -/
def Dev.findSource (d : Dev) (now : NetTime) (p : Packet) (trailer : Option (Nat × Nat)) : Dev × Packet :=
  let onPath := decide (p.iport < 16) && (d.pathOf p.iport).isSome
  if !d.prpOn p.pipe ∨ (onPath ∧ trailer.isNone) then (d, p)
  else
    match d.prpSource now p.pipe (slice p.bytes 6 6) p.polder p.iport p.tsin with
    | (d1, src) =>
      (d1, { p with source := src
                    tag := match src, trailer with
                      | some n, some (s, path) => if onPath then some ⟨n, s, (d.pathOf p.iport).getD 0 / 2, path⟩ else p.tag
                      | _, _ => p.tag })

/-- A received frame passes parser, search, policer, placement and lookups, and is dropped, queued for dispatch or sent to
the exception ring. `p` holds its bytes, port and timestamp. A frame that a host submitted (`txring`) keeps the MARK, SLOT,
place it came with (R29; 16 R435, R436). -/
def Dev.intake (d : Dev) (now : NetTime) (p : Packet) (trailer : Option (Nat × Nat)) (f1 f2 : AcsFind) (ecc : FrameEcc) : Dev :=
  let v := View.of p.hdr p.len
  let q := walk d.parCfg v
  match (d.countParse p.pipe q).classify now p.pipe p.iport q v f1 f2 with
  | (d1, c) =>
    let parse := q.flags + bitNat c.multi * 2 ^ 19 + bitNat c.found.isSome * 2 ^ 20
    match d1.takeAction c.act c.actx { p with parse := parse, key := c.key, desc := q.descriptor parse c.found c.actx
                                              tuple := tupleOf q v } with
    | (d2, px) =>
      let p2 := if p.txring.isSome then
          { px with mark := p.mark, slot := p.slot } else px
      match d2.colourFrame now c.act c.actx (p.len + 4) with
      | (d3, _, true) => d3.freePacket p2
      | (d3, col, false) =>
        let drops := decide (actKind c.act = 1 ∨ actKind c.act = 3)
        match (if drops || p.txring.isSome then (d3, { p2 with colour := col }) else d3.place { p2 with colour := col }) with
        | (d4, p4) =>
          match d4.ingressLookups now p.pipe p.iport q v drops p.tsin p4.polder ecc with
          | (d5, r) =>
            match d5.findSource now { p4 with fwd := r.fwd, fwdst := r.fwdst } trailer with
            | (d6, p6) =>
              if drops then (d6.bump ACS.DROPS_COUNT p.pipe).freePacket p6
              else if actKind c.act = 2 then d6.exception now p6 0 0
              else d6.toDispatch now p6

end Sys2Proof.Machine
end

