-- ==== Sys2Proof/Machine/Delivery.lean ====
section
/-! DEFINITION. Handing a packet to an egress queue or a receive ring: proxy duty, sequence numbers, receive buffers and
receive completions, and the transmit completions of packets that left (14 R370, R372, R376, R388; 16 R437, R440, R441,
R443, R451). -/

namespace Sys2Proof.Machine

/-! ## The lane transform (16 R451) -/

/-- A packed byte string as planes, one after another. -/
def toPlanes (w e : Nat) (bs : List Byte) : List Byte :=
  ((List.range w).map (fun j =>
    ((List.range (bs.length / (w * e))).map (fun t => slice bs ((t * w + j) * e) e)).flatten)).flatten

/-- Whether a receive ring names a lane-transform profile that is in service. -/
def Dev.hasTransform (d : Dev) (x : Ring) : Bool := decide (x.ltidx ≠ 0 ∧ d.rd DMA.LTPROF_EN x.ltidx = 1)

/-! ## Receive delivery (16 R440, R441) -/

/-- CSUM of a delivered frame (R441): 1 good, 2 failed, 0 no check. -/
def Dev.csumOf (d : Dev) (bs : List Byte) : Nat :=
  let q := walk d.parCfg (View.of (bs.take 512) bs.length)
  let inner := q.tun && q.il3.isSome
  let proto := if inner then q.iproto else q.proto
  match (if inner then q.il3 else q.l3), (if inner then q.il4 else q.l4) with
  | some ip, some l4 =>
    let stated := if ipV6 bs ip then ip + 40 + beAt bs (ip + 4) 2 else ip + beAt bs (ip + 2) 2
    if q.frag ∨ (proto ≠ 6 ∧ proto ≠ 17) ∨ (proto = 17 ∧ !ipV6 bs ip ∧ beAt bs (l4 + 6) 2 = 0) then 0
    else if bs.length < stated ∨ l4Sum bs ip l4 proto ≠ 65535 then 2 else 1
  | _, _ => 0

/-- Fill fetched buffers in ring order with `len` bytes: the buffers used, and those left; none when they are too few. A
pad is passed over. -/
def fillBufs : List RxBuf → Nat → Option (List RxBuf × List RxBuf)
  | bs, 0 => some ([], bs)
  | [], _ + 1 => none
  | b :: bs, n + 1 =>
    if b.pad then fillBufs bs (n + 1) else (fillBufs bs (n + 1 - b.blen)).map (fun r => (b :: r.1, r.2))

/-- The host writes of a payload into its buffers (R440, R450). -/
def bufWrites (mps : Nat) : List RxBuf → Nat → List (Nat × Nat)
  | [], _ => []
  | b :: bs, len => let n := min len b.blen; splitWrite mps n b.addr n ++ bufWrites mps bs (len - n)

/-- The planes of a receive ring's lane-transform profile, and the bytes of its elements (R451, R455). -/
def Dev.planes (d : Dev) (x : Ring) : Nat := d.rd DMA.LTPROF_W x.ltidx + 1
def Dev.element (d : Dev) (x : Ring) : Nat := d.rd DMA.LTPROF_E x.ltidx

/-- A packet for a receive ring is dropped: word 4 of the ring's context and RNG.RXDROP; for lack of buffers EVT 1.27
(R440). -/
def Dev.rxDrop (d : Dev) (now : NetTime) (r : Nat) (nobuf : Bool) (p : Packet) : Dev :=
  let x := d.ring kRx r
  let d1 := (d.setRing kRx r { x with dropped := up32 x.dropped }).freePacket p
  if nobuf then (d1.bump RNG.RXDROP_NOBUF).raiseSec now (ev 1 27) 0 (ringInfo kRx r) (d1.ringPolder kRx r)
  else d1.bump RNG.RXDROP_OTHER

/-- Deliver a packet into buffers: the payload writes, with the last of which it leaves the device (01 R29 step 8), and the completion
that follows them. -/
def Dev.rxWrite (d : Dev) (r : Nat) (p : Packet) (bs : List Byte) (used rest : List RxBuf) : Dev :=
  let x := d.ring kRx r
  let last := (used.getLast?.map (fun b => b.pos)).getD x.head
  let pads := rest.takeWhile (fun b => b.pad)
  let y := { x with bufs := rest.drop pads.length, head := (pads.getLast?.map (fun b => x.moved b.pos b.blen)).getD (x.moved last 1), done := up32 x.done }
  let f := x.polder
  let mps := 128 * 2 ^ (d.fn f).payload
  let tag := d.rng.nextCpl
  let q : Desc := { group := 2 * linkOf f + 1, prio := x.prio, ring := ringKey kRx r, fn := f, reqs := bufWrites mps used bs.length
                    data := bs, pos := last, cxl := x.cxlc, cpl := some tag, port := if p.iport < 16 then some p.iport else none, pkt := some p }
  let c : Completion := {
    units := [cplUnit0 3 1 0 r (y.posField y.head) p.mark,
      p.tsin + p.tsfrac * 2 ^ 64 + ((used.head?.map (fun b => b.cookie)).getD 0) * 2 ^ 80,
      bs.length + (used.length - 1) * 2 ^ 19 + p.parse % 16 * 2 ^ 23 + d.csumOf bs * 2 ^ 27 + p.iport * 2 ^ 29
        + p.egress.mss * 2 ^ 34 + p.cipher * 2 ^ 48 + p.flow * 2 ^ 64]
    held := true }
  let d1 := (d.setRing kRx r y).queueCpl x.cq (ringKey kRx r) c
  { d1 with rng := { d1.rng with waiting := d1.rng.waiting ++ [q] } }

/-- Try to deliver a packet to a receive ring; none while it must wait for its buffers to be fetched, or for an onward
job to merge (R440; 10 R251). -/
def Dev.rxTry (d : Dev) (now : NetTime) (r : Nat) (p : Packet) : Option Dev :=
  let x := d.ring kRx r
  let cq := d.ring kCq x.cq
  if x.st ≠ .enabled || (d.fn x.polder).inFlr || decide (cq.st ≠ .enabled) || !cq.overflow.isEmpty then some (d.rxDrop now r false p)
  else if !p.onward.isEmpty then none
  else
    let p1 := if p.trailer ∧ d.rd DUP.CFG_RXSTRIP = 1 then p.cutEnd 6 else p
    let b0 := p1.bytes
    let unit := d.planes x * d.element x
    if d.hasTransform x && decide (b0.length % max unit 1 ≠ 0) then
      some ((((d.setRing kRx r { x with dropped := up32 x.dropped }).freePacket p).bump DMA.LTDROP_COUNT).raise now (ev 1 30)
        (ringInfo kRx r) (d.ringPolder kRx r))
    else
      let bs := if d.hasTransform x then toPlanes (d.planes x) (d.element x) b0 else b0
      match fillBufs x.bufs bs.length with
      | some (used, rest) => some (if 16 < used.length then d.rxDrop now r false p else d.rxWrite r p1 bs used rest)
      | none =>
        if 16 ≤ (x.bufs.filter (fun b => !b.pad)).length then some (d.rxDrop now r false p)
        else if x.stalled ∨ x.dist x.fetch x.tail = 0 then some (d.rxDrop now r true p)
        else none

/-- Serve the packets that wait at a receive ring, in order, until one must wait on; the fuel is how many wait. -/
def Dev.rxServe (d : Dev) (now : NetTime) (r : Nat) : Nat → Dev
  | 0 => d
  | fuel + 1 =>
    match look [] d.rng.rxWait r with
    | [] => d
    | p :: ps =>
      match d.rxTry now r p with
      | none => d
      | some d1 => ({ d1 with rng := { d1.rng with rxWait := put [] d1.rng.rxWait r ps } }).rxServe now r fuel

/-- The packets that wait at receive rings no longer in service are dropped (R434, R440, R446). -/
def Dev.rxTick (d : Dev) (now : NetTime) : Dev :=
  d.rng.rxWait.foldl (fun (y : Dev) e => if (y.ring kRx e.1).st = .enabled then y else y.rxServe now e.1 e.2.length) d

/-- Deliver a packet to a receive ring, behind the packets that wait there (R440). -/
def Dev.rxDeliver (d : Dev) (now : NetTime) (r : Nat) (p : Packet) : Dev :=
  let ps := look [] d.rng.rxWait r ++ [p]
  ({ d with rng := { d.rng with rxWait := put [] d.rng.rxWait r ps } }).rxServe now r ps.length

/-! ## Hand-over (01 R28 steps 10a and 10b) -/

/-- The offloaded storage connection whose ring a receive ring is (09 R226). -/
def Dev.boundConn (d : Dev) (r : Nat) : Option Nat :=
  (d.sto.conns.find? (fun e => decide (e.2.p.ring = r ∧ d.rd STO.TCONN_STATE e.1 = 2))).map (fun e => e.1)

/-- A packet reaches a receive ring: the transport unit processes it where the ring is that of an offloaded connection. -/
def Dev.toRing (d : Dev) (now : NetTime) (r : Nat) (p : Packet) : Dev :=
  match d.boundConn r with
  | some c => { d with sto := { d.sto with segs := put [] d.sto.segs c (look [] d.sto.segs c ++ [p]) } }
  | none => d.rxDeliver now r p

/-- Hand a packet to a target: dropped while the battery domain is tampered, where its polder is so marked (10 R276), or in
proxy duty while the device is not PROXY (14 R388); a queue with DUP draws a sequence number first (14 R370). -/
def Dev.handOver (d : Dev) (now : NetTime) (kind n : Nat) (p : Packet) : Dev :=
  if decide (d.rd CIP.STATUS_TAMPER = 1) && d.rdBit KEY.TPOL_DROP (p.polder / 64) (p.polder % 64) then
    (d.bump KEY.TDROP_COUNT).freePacket p
  else if d.inDuty kind n && decide (d.rd DUP.ILK_ROLE ≠ 1) then (d.bump DUP.PXSTBY_COUNT).freePacket p
  else if kind = 1 then d.toRing now n p
  else if (d.node 4 n).inForce.dup then
    match d.drawSeq now p with
    | (d1, p1) => d1.enqueue now n { p1 with outq := n }
  else d.enqueue now n { p with outq := n }

/-- ENTRY_FETCH: up to 512 bytes of entries from the fetch position on, as the host returns them (16 R437); a host read
error puts the ring in ERROR (R447). Nothing is fetched at a phase wait, outside ENABLED, or by a submission ring whose
completion ring holds completions in overflow (R446). Packets that waited for a receive ring's buffers go on. -/
def execEntryFetch (kind : Fin 2) (ring : Fin 262144) (units : List (BitVec 128)) (ok : Bool) :
    State → Host.Outcome State Fault Refusal :=
  onDev (fun now d =>
    let d1 := d.entryFetch now kind ring units ok
    if kind.val = kRx then d1.rxServe now ring (look [] d1.rng.rxWait ring).length else d1)

/-! ## Transmit completions (16 R443) -/

/-- TRANSMIT_COMPLETION: the completion of the oldest packet that left is written, unless its entry is suppressed and is
not the last of the published tail. -/
def execTransmitCompletion : State → Host.Outcome State Fault Refusal :=
  onDev (fun _ d =>
    match d.rng.left with
    | [] => d
    | t :: ts =>
      let d1 := { d with rng := { d.rng with left := ts } }
      let x := d1.ring kSub t.ring
      match x.subs.find? (fun e => decide (e.pos = t.pos)) with
      | none => d1
      | some e =>
        let y := x.finish t.pos
        let d2 := d1.setRing kSub t.ring y
        let suppress := (e.words.getD 0 0).testBit 9 && decide (x.moved e.pos e.units ≠ x.tail)
        if suppress then d2
        else
          let (tsin, frac) := t.ts.getD (0, 0)
          d2.queueCpl x.cq (ringKey kSub t.ring) { units :=
            [cplUnit0 2 2 t.status t.ring (y.posField y.head) t.mark, tsin + frac * 2 ^ 64 + t.len * 2 ^ 80] })

end Sys2Proof.Machine
end

