-- ==== Sys2Proof/Machine/Cipher.lean ====
section
/-! DEFINITION. The cipher complex: job descriptors and their checks, CIS, the scheduler and its cores, completion, merging, and
random numbers (10 R242 to R260, R267 to R270; 03 R77). -/

namespace Sys2Proof.Machine

/-! ## Key slots (R258 to R260) -/

/-- A key slot. -/
def Dev.key (d : Dev) (s : Nat) : KeySlot := look {} d.cip.slots s

/-- Replace a key slot and show its attributes in KEY.SLOT and KEY.STATUS; no register shows material (R257). -/
def Dev.setKey (d : Dev) (s : Nat) (x : KeySlot) : Dev :=
  let t := put {} d.cip.slots s x
  let d1 : Dev := { d with cip := { d.cip with slots := t } }
  (((((((d1.wr KEY.SLOT_STATE s x.st).wr KEY.SLOT_ALG s x.alg).wr KEY.SLOT_DIRS s x.dirs).wr KEY.SLOT_SCOPE s x.scope).wr KEY.SLOT_EXPORT s
    (if x.exp then 1 else 0)).wr KEY.SLOT_OWNER s x.owner).wr KEY.SLOT_EXH s (if x.exh then 1 else 0)).wr KEY.STATUS_ACTIVE 0
    (t.filter (fun e => decide (e.2.st ≠ 0))).length

/-- Zeroise a slot: it is EMPTY, jobs accepted before fail with TAMPER, and the cores hold no share of its key (R253, R260, R277). -/
def Dev.zeroise (d : Dev) (s : Nat) : Dev :=
  let d1 : Dev := { d with cip := { d.cip with jobs := d.cip.jobs.map (fun e =>
    (e.1, e.2.map (fun j => if j.slot = s ∧ j.result.isNone ∧ j.fail.isNone then { j with fail := some 0x08, shares := (0, 0) } else j))) } }
  d1.setKey s {}

/-- Whether a slot's ALG serves a descriptor's (R246): the same, or GMAC of the same key size on a GCM slot. -/
def servesAlg (slot desc : Nat) : Bool := decide (slot = desc ∨ (slot ≤ 1 ∧ desc = slot + 2))

/-- Whether a polder lies in a slot's SCOPE (R259). -/
def KeySlot.admits (x : KeySlot) (polder : Nat) : Bool :=
  if x.scope = 0 then decide (polder = x.owner) else if x.scope = 1 then decide (pfOf polder = pfOf x.owner) else true

/-- The status that refuses a job on a slot (R258, R259), or 0. -/
def KeySlot.refuses (x : KeySlot) (alg : Nat) (enc : Bool) (polder : Nat) : Nat :=
  if x.st ≠ 1 then 0x03
  else if !servesAlg x.alg alg then 0x0A
  else if !x.dirs.testBit (if enc then 0 else 1) || !x.admits polder then 0x04
  else 0

/-- An access to a slot finds an ECC error: a corrected one is counted; an uncorrectable one zeroises the slot (R260). -/
def Dev.slotEcc (d : Dev) (now : NetTime) (s : Nat) (ecc : Ecc) : Dev :=
  match ecc with
  | .good => d
  | .single => d.bump KEY.ECC_CE
  | .double => ((d.bump KEY.ECC_UE).zeroise s).raise now (ev 10 5) s

/-- The salt or IV bytes of a slot (R246). -/
def KeySlot.iv (x : KeySlot) : List Byte := leBytes 12 (x.key / 2 ^ (if x.alg % 2 = 0 ∧ x.alg ≠ 4 then 128 else 256))

/-! ## Job descriptors (R247 to R252) -/

/-- The fields of a job descriptor. -/
structure CDesc where
  alg     : Nat
  enc     : Bool
  aadPkt  : Bool
  tagMode : Nat
  nsrc    : Nat
  tagCode : Nat
  espt    : Bool
  fromScr : Bool
  start   : Nat
  dlen    : Nat
  aadOff  : Nat
  aadLen  : Nat
  rdst    : Nat
  ivpos   : Nat
  padTo   : Nat
  nextHdr : Nat
  nonce   : List Byte
  inline  : List Byte
  zeroOk  : Bool

/-- Read a descriptor (R247). -/
def readDesc (b : List Byte) : CDesc :=
  let b0 := leAt b 0 1
  let b1 := leAt b 1 1
  { alg := bitsOf b0 0 4
    enc := !b0.testBit 4
    aadPkt := b0.testBit 5
    tagMode := bitsOf b0 6 2
    nsrc := bitsOf b1 0 2
    tagCode := bitsOf b1 2 2
    espt := b1.testBit 4
    fromScr := b1.testBit 5
    start := leAt b 2 2
    dlen := leAt b 4 2
    aadOff := leAt b 6 2
    aadLen := leAt b 8 2
    rdst := leAt b 10 2
    ivpos := leAt b 12 2
    padTo := leAt b 14 1
    nextHdr := leAt b 15 1
    nonce := slice b 16 16
    inline := slice b 32 32
    zeroOk := decide (b1 < 64 ∧ (bitsOf b1 0 2 = 3 ∨ leAt b 28 4 = 0)) }

/-- The tag's length. -/
def CDesc.tagLen (q : CDesc) : Nat := if q.tagMode = 2 then 0 else [16, 12, 8].getD q.tagCode 0

/-- The ESP trailer that a seal appends to the data (R252). -/
def CDesc.trailer (q : CDesc) : List Byte :=
  if q.espt && q.enc then
    let n := (q.padTo - (q.dlen + 2) % max q.padTo 1) % max q.padTo 1
    (List.range n).map (fun i => BitVec.ofNat 8 (i + 1)) ++ [BitVec.ofNat 8 n, BitVec.ofNat 8 q.nextHdr]
  else []

/-- The length of a return job's output (R254). -/
def CDesc.outLen (q : CDesc) : Nat := q.dlen + q.trailer.length + (if q.enc then q.tagLen else 0)

/-- Whether a descriptor passes the checks of R246 to R248; `len` is the frame's length, `frame` whether there is one. -/
def CDesc.ok (q : CDesc) (onward frame : Bool) (len : Nat) : Bool :=
  let gmac := decide (q.alg = 2 ∨ q.alg = 3)
  let xts := decide (q.alg = 5)
  let a := q.aadLen
  let fits := fun (o n : Nat) => decide (o + n ≤ len)
  let after := q.dlen + q.trailer.length
  decide (q.alg ≤ 5) && q.zeroOk && decide (q.tagMode ≤ 2 ∧ q.tagCode ≤ 2)
    && (!gmac || decide (q.dlen = 0 ∧ q.trailer = [])) && decide (q.tagCode = 0 ∨ q.alg ≤ 1)
    && (if xts then decide (a = 0 ∧ after % 16 = 0 ∧ 16 ≤ after ∧ after ≤ 4096 ∧ q.tagMode = 2 ∧ q.nsrc = 3) else decide (q.nsrc ≠ 3))
    && decide (q.tagMode ≠ 2 ∨ (xts = true ∧ onward = false))
    && decide (a ≤ 9600 ∧ after ≤ 9600) && (q.aadPkt || decide (a ≤ 32))
    && (!q.espt || decide (4 ≤ q.padTo ∧ q.padTo ≤ 252 ∧ q.padTo % 4 = 0))
    && (!q.aadPkt || fits q.aadOff a)
    && (decide (q.nsrc ≠ 1) || (!onward && q.enc) || fits q.ivpos 8)
    && (if onward then
        frame && fits q.start q.dlen
          && (if q.tagMode = 0 then
              decide (q.start + q.dlen + (if q.enc then 0 else q.tagLen) = len)
                && decide (len + (if q.enc then q.trailer.length + q.tagLen else 0) ≤ 9600)
            else fits q.start (after + q.tagLen))
      else
        decide (q.dlen ≤ 512 ∧ a ≤ 512 ∧ q.rdst % 16 = 0 ∧ q.rdst + q.outLen ≤ 0x2000)
          && (let n := q.dlen + (if q.enc then 0 else q.tagLen)
              if q.fromScr then decide (q.start + n ≤ 0x2000) else fits q.start n))

/-! ## Issue (R245, R248, R255, R259) -/

/-- The jobs that wait in a queue: 0 return, 1 admitted onward, 2 ordinary onward. -/
def Dev.cipQueue (d : Dev) (q : Nat) : List Nat := look [] d.cip.queues q

/-- Replace a queue and show the depths. -/
def Dev.setCipQueue (d : Dev) (q : Nat) (l : List Nat) : Dev :=
  ({ d with cip := { d.cip with queues := put [] d.cip.queues q l } }).wr
    (if q = 0 then CIP.QDEPTH_RET else if q = 1 then CIP.QDEPTH_ADM else CIP.QDEPTH_ORD) 0 l.length

/-- A job. -/
def Dev.job (d : Dev) (n : Nat) : Option Job := look none d.cip.jobs n

/-- Replace a job. -/
def Dev.setJob (d : Dev) (n : Nat) (j : Option Job) : Dev := { d with cip := { d.cip with jobs := put none d.cip.jobs n j } }

/-- The status that refuses a job at issue, or 0 (R248, R251, R255, R258, R259); the order of the checks is the model's (log
entry 25). -/
def Dev.cisStatus (d : Dev) (q : CDesc) (x : KeySlot) (onward frame grown : Bool) (len polder queue : Nat) : Nat :=
  let full := [256, 4096, 8192].getD queue 0
  if d.rd CIP.STATUS_TAMPER = 1 then 0x08
  else if !q.ok onward frame len then 0x05
  else if onward && grown then 0x09
  else if x.refuses q.alg q.enc polder ≠ 0 then x.refuses q.alg q.enc polder
  else if full ≤ (d.cipQueue queue).length then 0x01
  else if q.enc && decide (q.nsrc = 1 ∧ (if x.ctrlim = 0 then 2 ^ 64 - 1 else x.ctrlim) < x.counter) then 0x07
  else 0

/-- What a refusal at issue leaves: CIP.REFUSED, and the events of R245 and R259. -/
def Dev.cisRefused (d : Dev) (now : NetTime) (status queue slot : Nat) : Dev :=
  let d1 := (d.bump CIP.REFUSED_COUNT).wr CIP.REFUSED_LAST 0 status
  if status = 0x01 then
    (if queue = 1 then (d1.bump CIP.QFULL_ADM).raiseSec now (ev 10 0) 0
     else if queue = 2 then (d1.bump CIP.QFULL_ORD).raiseSec now (ev 10 1) 0 else d1)
  else if status = 0x07 then
    (d1.setKey slot { d1.key slot with exh := true }).raise now (ev 10 4) slot (some (d1.key slot).owner)
  else d1

/-- The job that a descriptor makes of a context's packet and scratch: every input taken at issue (R249 to R252). Stored bytes
behind the header buffer do not change before the job reads them. -/
def Ctx.makeJob (c : Ctx) (x k slot queue : Nat) (q : CDesc) (key : KeySlot) : Job :=
  let frame := c.header ++ (match c.pkt with | some p => p.tail | none => [])
  let src := fun (o n : Nat) => if q.fromScr && decide (queue = 0) then c.scrBytes o n else slice frame o n
  let ivb := if q.enc then beBytes 8 key.counter else slice frame q.ivpos 8
  { queue := queue
    ctx := x
    tick := k
    slot := slot
    alg := q.alg
    enc := q.enc
    tagMode := q.tagMode
    tagLen := q.tagLen
    espt := q.espt
    nonce := if q.nsrc = 0 then q.nonce.take 12 else if q.nsrc = 1 then key.iv.take 4 ++ ivb
      else if q.nsrc = 2 then xorBytes key.iv (q.nonce.take 12) else q.nonce
    aad := if q.aadPkt then slice frame q.aadOff q.aadLen else q.inline.take q.aadLen
    data := src q.start q.dlen ++ q.trailer
    tag := if q.enc then [] else src (q.start + q.dlen) q.tagLen
    pos := if queue = 0 then q.rdst else c.s + q.start
    dlen := q.dlen
    iv := if q.enc && decide (q.nsrc = 1 ∧ queue ≠ 0) then some (c.s + q.ivpos, ivb) else none }

/-- Whether an onward job of a packet changes its length (R251). -/
def Dev.growsFrame (d : Dev) (p : Packet) : Bool :=
  p.onward.any (fun n => match d.job n with | some j => decide (j.tagMode = 0) | none => false)

/-- Whether a core is online. -/
def Dev.coreOnline (d : Dev) (c : Nat) : Bool := decide (d.rd CIP.CORESTAT_STATE c = 1)

/-- Whether any core is. -/
def Dev.coresOnline (d : Dev) : Bool := (List.range 32).any d.coreOnline

/-- A job is accepted under the next number: it enters its queue, or waits for room in it where the transport unit issued it. An onward
job of a program that no core is left for fails (R253). -/
def Dev.acceptJob (d : Dev) (j : Job) : Dev :=
  let n := d.cip.next
  let q := j.queue
  let full := [256, 4096, 8192].getD q 0
  let d1 : Dev := { d with cip := { d.cip with next := n + 1 } }
  if q ≠ 0 ∧ j.own = .program ∧ d.coresOnline = false then d1.setJob n (some { j with fail := some 0 })
  else
    let d2 := d1.setJob n (some j)
    if full ≤ (d2.cipQueue q).length then
      { d2 with cip := { d2.cip with later := put [] d2.cip.later q (look [] d2.cip.later q ++ [n]) } }
    else d2.setCipQueue q (d2.cipQueue q ++ [n])

/-- CIS: the descriptor is checked and the job enters its queue, or its status refuses it (R248, R255). -/
def Dev.cis (d : Dev) (now : NetTime) (x rd ra rb k : Nat) (onward : Bool) (ecc : Ecc) : Dev :=
  let c0 := d.ctx x
  let o := (c0.rg ra).toNat
  let q0 := readDesc (c0.scrBytes o 64)
  d.async x k { regs := [rd, ra, rb], header := true, scratch := (o, 64)
                scratch2 := if q0.fromScr && !onward then (q0.start, q0.dlen + q0.tagLen) else (0, 0)
                scratch3 := if onward then (0, 0) else (q0.rdst, q0.outLen) } (fun c =>
    if !scratchOk x o 64 || decide (o % 64 ≠ 0) then .error faultAddress
    else if c.pkt.isSome && decide (4 ≤ c.cis) then .error faultLimit
    else
      let slot := (c.rg rb).toNat % 131072
      let d0 := (d.setCtx x { c with cis := c.cis + 1 }).slotEcc now slot ecc
      let q := readDesc (c.scrBytes o 64)
      let key : KeySlot := if (c.rg rb).toNat < 131072 then d0.key slot else {}
      let len := c.e - c.s + (match c.pkt with | some p => p.tail.length | none => 0)
      let queue := if !onward then 0 else if (c.pkt.map (fun p => decide (p.contract ≠ 0))).getD false then 1 else 2
      let grown := (c.pkt.map d0.growsFrame).getD false
      let status := d0.cisStatus q key onward c.pkt.isSome grown len (d0.progPolder c) queue
      if status ≠ 0 then .ok (d0.cisRefused now status queue slot, { rd := rd, pend := .value (BitVec.ofNat 64 status) })
      else
        let n := d0.cip.next
        let d1 := if q.enc && decide (q.nsrc = 1) then d0.setKey slot { key with counter := key.counter + 1 } else d0
        let d3 := d1.acceptJob (c.makeJob x k slot queue q key)
        if onward then
          let y := d3.ctx x
          .ok ((d3.setCtx x { y with pkt := y.pkt.map (fun p => { p with onward := p.onward ++ [n] }) }).bump CIP.ONWARD_COUNT,
            { rd := rd, pend := .value 0 })
        else .ok (d3, { rd := rd, scratch := (q.rdst, q.outLen), pend := .atCipher n }))

/-- CIS, onward mode (03 R77, 10 R251). `ecc` is what the key store finds as the slot is checked (R260). -/
def execCisOnward (x : CtxId) (rd ra rb : Reg) (k : Tick) (ecc : Ecc) : State → Host.Outcome State Fault Refusal :=
  onDev (fun now d => d.cis now x rd ra rb k true ecc)

/-- CIS, return mode (03 R77, 10 R254). -/
def execCisReturn (x : CtxId) (rd ra rb : Reg) (k : Tick) : State → Host.Outcome State Fault Refusal :=
  onDev (fun now d => d.cis now x rd ra rb k false .good)

/-! ## Cores (R244, R270) -/

/-- A cipher core. -/
def Dev.core (d : Dev) (c : Nat) : CipCore := look {} d.cip.cores c

/-- Replace a cipher core. -/
def Dev.setCore (d : Dev) (c : Nat) (x : CipCore) : Dev := { d with cip := { d.cip with cores := put {} d.cip.cores c x } }

/-- The queue a job came from. -/
def Dev.queueOf (d : Dev) (n : Nat) : Nat := ((d.job n).map (fun j => j.queue)).getD 2

/-- The cores that run return jobs. -/
def Dev.returnCores (d : Dev) : Nat := (d.cip.cores.filter (fun e => decide (e.2.run.map d.queueOf = some 0))).length

/-- The job a core takes at a chunk boundary (R244): from the highest-ordered queue, its own suspended job of that queue before
the queue's head; a return job only while fewer than RCORES cores run one. A running job gives way to a higher queue. -/
def Dev.nextJob (d : Dev) (c : Nat) : Option Nat :=
  let x := d.core c
  let rcores := max 1 (d.rd CIP.CFG_RCORES)
  let of := fun (q : Nat) =>
    if q = 0 ∧ rcores ≤ d.returnCores then none
    else (x.susp.find? (fun n => decide (d.queueOf n = q))).or (d.cipQueue q).head?
  let limit := match x.run with
    | some n => d.queueOf n
    | none => 3
  ((List.range limit).findSome? of)

/-- A mask generator draws the mask of a job; it is seeded anew every 2^20 jobs, and goes on from its state while the entropy source
is stopped (R267). -/
def Dev.drawMask (d : Dev) (gen : Nat) : Dev × Nat :=
  let x : MaskGen := look {} d.cip.masks gen
  let x1 : MaskGen := if 2 ^ 20 ≤ x.jobs + 1 ∧ d.rd CIP.ENTSTAT_OK = 1 then { seeds := x.seeds + 1, jobs := 0 } else { x with jobs := x.jobs + 1 }
  ({ d with cip := { d.cip with masks := put {} d.cip.masks gen x1 } }, Config.mask gen x.seeds x.jobs % 2 ^ 512)

/-- Every mask generator is seeded from the entropy source (R267). -/
def Dev.seedMasks (d : Dev) : Dev :=
  { d with cip := { d.cip with masks := (List.range 33).foldl (fun t g => put {} t g { seeds := (look {} t g).seeds + 1, jobs := 0 }) d.cip.masks } }

/-- A core fetches the key of a job that starts, as two shares (R257, R267), unless an ECC error zeroises the slot (R260). -/
def Dev.keyFetch (d : Dev) (now : NetTime) (core n : Nat) (ecc : Ecc) : Dev :=
  match d.job n with
  | none => d
  | some j =>
    let d1 := d.slotEcc now j.slot ecc
    match d1.job n with
    | none => d1
    | some j1 =>
      if j1.fail.isSome then d1
      else
        let m := (d1.drawMask core).2
        (d1.drawMask core).1.setJob n (some { j1 with shares := ((d1.key j1.slot).key ^^^ m, m) })

/-- A job of the transport unit that waited for room in a queue enters it. -/
def Dev.roomInQueue (d : Dev) (q : Nat) : Dev :=
  match look [] d.cip.later q with
  | [] => d
  | n :: ns => ({ d with cip := { d.cip with later := put [] d.cip.later q ns } }).setCipQueue q (d.cipQueue q ++ [n])

/-- CHUNK_BOUNDARY: a core at a chunk boundary, or with nothing to do, takes the job that R244 gives it, and suspends its own if
that belongs to a lower queue. A job that starts has its key fetched; `ecc` is what the fetch finds. -/
def execChunkBoundary (core : Fin 32) (ecc : Ecc) : State → Host.Outcome State Fault Refusal :=
  onDev (fun now d =>
    if !d.coreOnline core then d
    else match d.nextJob core with
      | none => d
      | some n =>
        let x := d.core core
        let q := d.queueOf n
        let susp := (match x.run with | some m => [m] | none => []) ++ x.susp.filter (· ≠ n)
        let d1 := d.setCore core { run := some n, susp := susp }
        if x.susp.contains n then d1
        else ((d1.setCipQueue q ((d1.cipQueue q).filter (· ≠ n))).roomInQueue q).keyFetch now core n ecc)

/-- RETURN_LATE: the oldest return job that no core has started is answered LATE, and nothing is written to scratch (R245). -/
def execReturnLate : State → Host.Outcome State Fault Refusal :=
  onDev (fun now d =>
    match d.cipQueue 0 with
    | [] => d
    | n :: ns =>
      let d1 := d.setCipQueue 0 ns
      match d1.job n with
      | none => d1
      | some j =>
        let c := d1.ctx j.ctx
        let t := c.tk j.tick
        let d2 := if t.pend = .atCipher n then d1.setCtx j.ctx (c.setTk j.tick { t with pend := .value 2 }) else d1
        ((d2.setJob n none).bump CIP.LATE_COUNT).raiseSec now (ev 10 2) 0 (j.ctx / 128))

/-! ## Completion (R246, R251 to R254) -/

/-- The key that a job's shares stand for (R267). -/
def Job.keyOf (j : Job) : Nat := j.shares.1 ^^^ j.shares.2

/-- What a job makes of its data under a key. -/
def Job.output (j : Job) (key : Nat) : List Byte := cipherText j.alg j.enc key j.nonce j.data

/-- The tag a job computes. -/
def Job.tagOf (j : Job) (key : Nat) : List Byte :=
  (cipherTag j.alg key j.nonce j.aad (if j.enc then j.output key else j.data)).take j.tagLen

/-- Whether an open's tag verifies; a job without a tag has nothing to verify. -/
def Job.authentic (j : Job) (key : Nat) : Bool := j.enc || decide (j.tagOf key = j.tag)

/-- The bytes that an open with ESPT removes, and the next header (R252). -/
def Job.espOf (j : Job) (out : List Byte) : Nat × Nat :=
  if j.espt && !j.enc then (min (leAt out (out.length - 2) 1 + 2) out.length, leAt out (out.length - 1) 1) else (0, 0)

/-- A return job answers its ticket, if the context still holds it (R254). -/
def Dev.returnDone (d : Dev) (n : Nat) (j : Job) : Dev :=
  let key := j.keyOf
  let c := d.ctx j.ctx
  let t := c.tk j.tick
  let full := j.output key
  let out := full.take (full.length - (j.espOf full).1)
  let pend : Pend := match j.fail with
    | some s => .value (BitVec.ofNat 64 s)
    | none =>
      if j.authentic key then .toScratch 0 j.pos (out ++ (if j.enc then j.tagOf key else []))
      else .toScratch 6 j.pos (List.replicate full.length 0)
  let d1 := if t.pend = .atCipher n then d.setCtx j.ctx (c.setTk j.tick { t with pend := pend }) else d
  (d1.setJob n none).bump CIP.RETURN_COUNT

/-- Whether a packet still carries an onward job. -/
def Dev.jobWanted (d : Dev) (n : Nat) : Bool :=
  let has := fun (p : Packet) => p.onward.contains n
  d.eng.ctxs.any (fun e => (e.2.pkt.map has).getD false) || d.sch.queues.any (fun e => e.2.any has) || d.rng.rxWait.any (fun e => e.2.any has)
    || d.sto.segs.any (fun e => e.2.any has)

/-- A job as it stands when its core is done with it: its output, or the status it fails with; its key's shares are gone. -/
def Job.done (j : Job) : Job :=
  let key := j.keyOf
  let out := j.output key
  let e := j.espOf out
  if j.fail.isSome then j
  else if !j.authentic key then { j with fail := some 0x06, shares := (0, 0) }
  else { j with result := some (out, if j.enc then j.tagOf key else [], e.1, e.2), shares := (0, 0) }

/-- An onward job is done; the output of one whose packet ended otherwise is discarded (03 R84, 08 R209). -/
def Dev.onwardDone (d : Dev) (n : Nat) (j : Job) : Dev := d.setJob n (if d.jobWanted n then some j.done else none)

/-- The merge of a job's output into a frame (R251): over the positions captured at issue, then the change of length. Bytes the
program has stripped since are gone. -/
def Packet.merge (p : Packet) (j : Job) (out tag : List Byte) (esp next : Nat) : Packet :=
  let ovr := fun (bs : List Byte) (pos : Nat) (new : List Byte) => splice bs (pos - p.origin) (new.drop (p.origin - pos))
  let b0 := p.bytes
  let b1 := match j.iv with
    | some (pos, v) => ovr b0 pos v
    | none => b0
  let b2 := if j.tagMode = 0 then
      (let b := ovr b1 j.pos (out.take j.dlen)
       if j.enc then b ++ out.drop j.dlen ++ tag else b.take (b.length - j.tagLen - esp))
    else ovr b1 j.pos (out ++ tag)
  { p with
    hdr := b2.take p.hdr.length
    tail := b2.drop p.hdr.length
    len := p.len + b2.length - b0.length
    onward := p.onward.drop 1
    cipher := next * 256 }

/-- MERGE: a completed onward job whose packet is accepted merges into it, in issue order; a job that failed drops the packet
(R251, R253). -/
def execMerge (job : Nat) : State → Host.Outcome State Fault Refusal :=
  onDev (fun now d =>
    match d.job job with
    | none => d
    | some j =>
      let due := fun (p : Packet) => decide (p.onward.head? = some job)
      let waits := d.sch.queues.any (fun e => e.2.any due) || d.rng.rxWait.any (fun e => e.2.any due) || d.sto.segs.any (fun e => e.2.any due)
      if !waits || (j.result.isNone && (j.fail.isNone || d.cip.cores.any (fun e => decide (e.2.run = some job) || e.2.susp.contains job)
          || (d.cipQueue j.queue).contains job)) then d
      else
        let d0 := d.setJob job none
        let rings := (d0.rng.rxWait.filter (fun e => e.2.any due)).map (fun e => e.1)
        let d1 := match j.fail, j.result with
          | some st, _ =>
            let gone := (d0.sch.queues.flatMap (fun e => e.2.filter due))
            let lost := d0.rng.rxWait.flatMap (fun e => e.2.filter due) ++ d0.sto.segs.flatMap (fun e => e.2.filter due)
            let y : Dev := { d0 with
              sch := { d0.sch with queues := Tbl.mapKept [] (fun _ l => l.filter (fun p => !due p)) d0.sch.queues }
              rng := { d0.rng with rxWait := Tbl.mapKept [] (fun _ l => l.filter (fun p => !due p)) d0.rng.rxWait }
              sto := { d0.sto with segs := Tbl.mapKept [] (fun _ l => l.filter (fun p => !due p)) d0.sto.segs } }
            let z := lost.foldl Dev.freePacket (gone.foldl (fun (w : Dev) p => (w.freePacket p).freeEntry p) y)
            (z.bump (if st = 6 then CIP.ONFAIL_AUTH else CIP.ONFAIL_OTHER)).raiseSec now (ev 10 3) 0 st ((gone ++ lost).head?.map (fun p => p.polder))
          | none, some (out, tag, esp, next) =>
            let f := fun (p : Packet) => if due p then p.merge j out tag esp next else p
            { d0 with
              sch := { d0.sch with queues := Tbl.mapKept [] (fun _ l => l.map f) d0.sch.queues }
              rng := { d0.rng with rxWait := Tbl.mapKept [] (fun _ l => l.map f) d0.rng.rxWait }
              sto := { d0.sto with segs := Tbl.mapKept [] (fun _ l => l.map f) d0.sto.segs } }
          | none, none => d0
        rings.foldl (fun y r => y.rxServe now r (look [] y.rng.rxWait r).length) d1)

/-- RETIRING_DRAIN: the last accepted job of a RETIRING slot is done: its material is zeroed (R258). -/
def execRetiringDrain (slot : Fin 131072) : State → Host.Outcome State Fault Refusal :=
  onDev (fun _ d =>
    let open_ := d.cip.jobs.any (fun e => (e.2.map (fun j => decide (j.slot = slot.val) && j.result.isNone && j.fail.isNone)).getD false)
    if (d.key slot).st = 2 ∧ open_ = false then d.setKey slot {} else d)

/-- With no core left, the onward jobs of programs fail, and leave their queues (R253). -/
def Dev.failOnward (d : Dev) : Dev :=
  let mine := fun (j : Job) => decide (j.queue ≠ 0 ∧ j.own = .program)
  let stay := fun (l : List Nat) => l.filter (fun n => !((d.job n).map mine).getD false)
  let d1 : Dev := { d with cip := { d.cip with jobs := d.cip.jobs.map (fun e =>
    (e.1, e.2.map (fun j => if mine j && j.result.isNone && j.fail.isNone then { j with fail := some 0 } else j))) } }
  (d1.setCipQueue 1 (stay (d1.cipQueue 1))).setCipQueue 2 (stay (d1.cipQueue 2))

/-- A core in service fails its known-answer tests: it is withdrawn, and its jobs start again on another (R270). With the last core
gone, onward jobs fail (R253). -/
def Dev.katFail (d : Dev) (now : NetTime) (core : Nat) : Dev :=
  if !d.coreOnline core then d
  else
    let x := d.core core
    let again := (match x.run with | some n => [n] | none => []) ++ x.susp
    let d1 := again.foldl (fun (y : Dev) n => y.setCipQueue (y.queueOf n) (n :: y.cipQueue (y.queueOf n))) (d.setCore core {})
    let d2 := ((d1.wr CIP.CORESTAT_STATE core 2).wr CIP.CORESTAT_KATFAIL core 1).wrBit CIP.STATUS_CORES 0 core false
    let d3 := if d2.coresOnline then d2 else d2.failOnward
    (d3.revalidate 2).raise now (ev 10 6) core

/-- KAT_RUN: a core's known-answer tests pass or fail (R270). -/
def execKatRun (core : Fin 32) (pass : Bool) : State → Host.Outcome State Fault Refusal :=
  onDev (fun now d => if pass then d else d.katFail now core)

/-! ## Random numbers (R268, R269) -/

/-- Whether a DRBG instance is stopped: 0 to 11 the bays, 12 the key store, 13 the control cores. -/
def Dev.drbgStopped (d : Dev) (i : Nat) : Bool := d.rdBit CIP.DRBG_STOPPED 0 i

/-- A DRBG instance that is due to reseed: it does, or stops while the source is stopped (R269). -/
def Dev.drbgReseed (d : Dev) (now : NetTime) (i : Nat) : Dev :=
  if d.rd CIP.ENTSTAT_OK = 1 then { d with cip := { d.cip with drbg := put 0 d.cip.drbg i 0 } }
  else if d.drbgStopped i then d
  else (d.wrBit CIP.DRBG_STOPPED 0 i true).raise now (ev 10 8) i

/-- An instance serves a request; after 2^16 of them it is due to reseed (R269). -/
def Dev.drbgRequest (d : Dev) (now : NetTime) (i : Nat) : Dev :=
  let n := look 0 d.cip.drbg i + 1
  let d1 : Dev := { d with cip := { d.cip with drbg := put 0 d.cip.drbg i n } }
  if 2 ^ 16 ≤ n then d1.drbgReseed now i else d1

/-- RAND: 64 bits from the bay's instance, a free value; zero while it is stopped, which is counted. A control core is served
by its own instance. -/
def execRand (x : CtxId) (rd : Reg) (k : Tick) : State → Host.Outcome State Fault Refusal :=
  onDev (fun now d => d.async x k { regs := [rd.val] } (fun _ =>
    let i := if isCore x then 13 else x / 128
    if d.drbgStopped i then .ok (d.bump CIP.RANDZERO_COUNT, { rd := rd, pend := .value 0 })
    else .ok (d.drawn.drbgRequest now i, { rd := rd, pend := .value d.freeVal })))

/-- A read of CIP.RANDCC: fresh output of the control cores' instance, a free value; zero when it is stopped (R279). -/
def Dev.takeRandom (d : Dev) (now : NetTime) : Dev × Word :=
  if d.drbgStopped 13 then (d, 0) else ((d.drawn.wr CIP.RANDCC_VALUE 0 d.freeVal.toNat).drbgRequest now 13, d.freeVal)

/-- RANDCC_READ (R279). -/
def execRandccRead (pf : Pf) : State → Host.Outcome State Fault Refusal :=
  onDev (fun now d =>
    let f := 4096 * pf.val
    if !d.memAnswers f then d.urAnswer now f else (d.takeRandom now).1.send (.readData f (d.takeRandom now).2))

/-- DRBG_RESEED: 1 s passed since an instance last reseeded (R269). -/
def execDrbgReseed (inst : Fin 14) : State → Host.Outcome State Fault Refusal :=
  onDev (fun now d => d.drbgReseed now inst)

end Sys2Proof.Machine
end

