-- ==== Sys2Proof/Machine/Mailbox.lean ====
section
/-! DEFINITION. Mailboxes: channels, sending, pickup and withdrawal, the secure channels, the control service's pickup and
its answers and notices (17 R464 to R473). -/

namespace Sys2Proof.Machine

/-! ## Channels (R464, R465, R468) -/

abbrev idControl : Nat := 8192
abbrev idKeys : Nat := 8193
abbrev idManager : Nat := 8194
abbrev idCores : Nat := 8195

/-- The inbox of a receiver, oldest message first. -/
def Dev.inboxOf (d : Dev) (r : Nat) : List Msg := look [] d.mbx.inbox r

/-- Replace an inbox. -/
def Dev.setInbox (d : Dev) (r : Nat) (l : List Msg) : Dev := { d with mbx := { d.mbx with inbox := put [] d.mbx.inbox r l } }

/-- The number of a channel. -/
def chanKey (s r : Nat) : Nat := 16384 * s + r

/-- The messages pending on a channel. -/
def Dev.pendingOn (d : Dev) (s r : Nat) : Nat := ((d.inboxOf r).filter (fun m => decide (m.sender = s))).length

/-- PEER and PKIND of a sender, as the receiver sees them. -/
def peerBits (s : Nat) : Nat := if s < 8192 then s else if s = idControl then 2 ^ 13 else 2 * 2 ^ 13

/-- The envelope of a message as its receiver sees it (R465). -/
def Msg.envelope (m : Msg) (secure : Bool) : Nat :=
  peerBits m.sender + m.svc * 2 ^ 16 + m.seq * 2 ^ 24 + (if m.prior then 2 ^ 40 else 0) + (if secure then 2 ^ 41 else 0)

/-- Show the oldest message of a function's inbox in its registers (R468). -/
def Dev.showInbox (d : Dev) (f : Nat) : Dev :=
  let l := d.inboxOf f
  let m : Msg := l.headD { body := [], sender := 0, svc := 0, seq := 0 }
  let d1 := (List.range 8).foldl (fun y j => y.wr MBX.RXDATA_DATA (8 * f + j) (leAt m.body (8 * j) 8)) d
  ((d1.wr MBX.RXENV_ENV f (if l.isEmpty then 0 else m.envelope false)).wr MBX.RXENV_VALID f (if l.isEmpty then 0 else 1)).wr
    MBX.RXSTAT_COUNT f l.length

/-- Show the oldest message of the secure inbox of a PF (R472). -/
def Dev.showSecure (d : Dev) (pf : Nat) : Dev :=
  let l := d.inboxOf (8196 + pf)
  let m : Msg := l.headD { body := [], sender := 0, svc := 0, seq := 0 }
  let d1 := (List.range 8).foldl (fun y j => y.wr MBX.SRXDATA_DATA (8 * (4096 * pf) + j) (leAt m.body (8 * j) 8)) d
  (d1.wr MBX.SRXENV_ENV (4096 * pf) (if l.isEmpty then 0 else m.envelope true)).wr MBX.SRXENV_VALID (4096 * pf) (if l.isEmpty then 0 else 1)

/-- Show what a function has pending to the control service and, for a VF, to its PF (R477). -/
def Dev.showSent (d : Dev) (f : Nat) : Dev :=
  (d.wr MBX.TXSTAT_CSPEND f (d.pendingOn f idControl)).wr MBX.TXSTAT_PFPEND f
    (if f % 4096 = 0 then 0 else d.pendingOn f (4096 * linkOf f))

/-- Put a message at the end of a channel and count it; an arrival into an empty inbox of a function sends its vector while
EN is set (R468). -/
def Dev.post (d : Dev) (s r svc : Nat) (body : List Byte) (prior : Bool := false) : Dev :=
  let n := look 0 d.mbx.count (chanKey s r)
  let l := d.inboxOf r
  let m : Msg := { body := slice body 0 64, sender := s, svc := svc, seq := n % 65536, prior := prior }
  let d1 := { d with mbx := { d.mbx with count := put 0 d.mbx.count (chanKey s r) (n + 1)
                                         gone := d.mbx.gone.filter (fun g => decide (g ≠ (chanKey s r, n % 65536))) } }
  let d2 := d1.setInbox r (l ++ [m])
  if r < 8192 then
    let d3 := d2.showInbox r
    if l.isEmpty ∧ d3.rd MBX.IRQ_EN r = 1 then d3.vector r (d3.rd MBX.IRQ_VECTOR r) else d3
  else d2

/-! ## Sending (R466, R467, R472) -/

/-- Codes of R467. -/
abbrev mbxFull : Nat := 1
abbrev mbxNotPermitted : Nat := 2
abbrev mbxNoPeer : Nat := 3
abbrev mbxTaken : Nat := 4
abbrev mbxNoSuch : Nat := 5
abbrev mbxNoService : Nat := 6
abbrev mbxSecure : Nat := 7

/-- The services that a function may send to the control service (R466). -/
def serviceAllowed (f svc : Nat) : Bool := decide (svc = 2 ∨ svc = 3 ∨ svc = 7) || (decide (f % 4096 = 0) && decide (svc = 1 ∨ svc = 4))

/-- The receiver that a function's TXENV names, or the code that refuses it. -/
def Dev.txTarget (d : Dev) (f : Nat) : Except Nat Nat :=
  let kind := d.rd MBX.TXENV_PKIND f
  let peer := d.rd MBX.TXENV_PEER f
  let svc := d.rd MBX.TXENV_SERVICE f
  if 2 ≤ kind then .error mbxNotPermitted
  else if svc = 8 then .error mbxSecure
  else if kind = 1 then (if serviceAllowed f svc then .ok idControl else .error mbxNoService)
  else if linkOf peer ≠ linkOf f then .error mbxNoPeer
  else if peer = f ∨ (f % 4096 ≠ 0 ∧ peer % 4096 ≠ 0) then .error mbxNotPermitted
  else .ok peer

/-- Send the staged body of a function (R467). -/
def Dev.sendMsg (d : Dev) (f : Nat) : Dev :=
  match d.txTarget f with
  | .error code => d.wr MBX.TXSTAT_RESULT f code
  | .ok r =>
    if 16 ≤ d.pendingOn f r then d.wr MBX.TXSTAT_RESULT f mbxFull
    else
      let body := (List.range 8).flatMap (fun j => leBytes 8 (d.rd MBX.TXDATA_DATA (8 * f + j)))
      let d1 := (d.wr MBX.TXSTAT_RESULT f 0).wr MBX.TXSTAT_SEQ f (look 0 d.mbx.count (chanKey f r) % 65536)
      (d1.post f r (d.rd MBX.TXENV_SERVICE f) body).showSent f

/-! ## The control–management channels (R473) -/

/-- The other end of a private channel, 8194 or 8195. -/
def cmPeer (who : Nat) : Nat := if who = idCores then idManager else idCores

/-- Whether an end of a private channel acts: the control cores serve, or the management controller does (R471; 20 R522). -/
def Dev.cmActs (d : Dev) (who : Nat) : Bool :=
  if who = idCores then decide (d.rd VIR.STATUS_READY = 1 ∧ d.dkw.coresOut.length < 12) else !d.dkw.mgtDown && d.ready 37

/-- Tell an end of a private channel the result code and SEQ of its command. -/
def Dev.cmResult (d : Dev) (who : Nat) (r : Nat × Nat) : Dev :=
  { d with mbx := if who = idCores then { d.mbx with ccResult := r } else { d.mbx with mgtResult := r } }

/-- Show the occupancy of the private channels in MBX.CMSTAT of both physical functions. -/
def Dev.showCm (d : Dev) : Dev :=
  [0, 4096].foldl (fun (y : Dev) f => (y.wr MBX.CMSTAT_TOMGT f (d.inboxOf idManager).length).wr MBX.CMSTAT_TOCC f (d.inboxOf idCores).length) d

/-- An end of a private channel sends: 16 messages wait on it at most, and the secure service does not travel on it (R467, R473). -/
def Dev.cmSend (d : Dev) (who svc : Nat) (body : List Byte) : Dev :=
  if !d.cmActs who then d
  else if svc = 8 then d.cmResult who (mbxSecure, 0)
  else if 16 ≤ d.pendingOn who (cmPeer who) then d.cmResult who (mbxFull, 0)
  else ((d.cmResult who (0, look 0 d.mbx.count (chanKey who (cmPeer who)) % 65536)).post who (cmPeer who) svc body).showCm

/-- An end of a private channel picks up the oldest message to it (R468). -/
def Dev.cmPop (d : Dev) (who : Nat) : Dev :=
  if !d.cmActs who then d else (d.setInbox who (d.inboxOf who).tail).showCm

/-- SEND: a function writes SEND to MBX.TXCMD, or an end of a private channel sends on it. A function in reset does not answer (15
R409). -/
def execSend (who : MailSender) : State → Host.Outcome State Fault Refusal :=
  onDev (fun now d =>
    match who with
    | .fn f => if !d.memAnswers f then d.urAnswer now f else d.sendMsg f
    | .cores svc body => d.cmSend idCores svc.toNat body
    | .manager svc body => d.cmSend idManager svc.toNat body)

/-- Withdraw a message of a channel by its SEQ, with the result of R469. -/
def Dev.withdrawFrom (d : Dev) (s r seq : Nat) : Dev × Nat :=
  let l := d.inboxOf r
  let mine := fun (m : Msg) => decide (m.sender = s ∧ m.seq = seq)
  if l.any mine then
    let d1 := d.setInbox r (l.filter (fun m => !mine m))
    let d2 := { d1 with mbx := { d1.mbx with gone := (chanKey s r, seq) :: d1.mbx.gone } }
    (if r < 8192 then d2.showInbox r else d2, 0)
  else
    let n := look 0 d.mbx.count (chanKey s r)
    (d, if (seq < n ∨ 65536 ≤ n) ∧ (chanKey s r, seq) ∉ d.mbx.gone then mbxTaken else mbxNoSuch)

/-- A function withdraws a message from the channel that TXENV names (R469). -/
def Dev.withdrawMsg (d : Dev) (f seq : Nat) : Dev :=
  match d.txTarget f with
  | .error code => d.wr MBX.TXSTAT_RESULT f code
  | .ok r =>
    match d.withdrawFrom f r seq with
    | (d1, code) => (d1.wr MBX.TXSTAT_RESULT f code).showSent f

/-- An end of a private channel withdraws a message that the other has not picked up (R469, R473). -/
def Dev.cmWithdraw (d : Dev) (who seq : Nat) : Dev :=
  if !d.cmActs who then d
  else match d.withdrawFrom who (cmPeer who) seq with
    | (d1, code) => (d1.cmResult who (code, seq)).showCm

/-- WITHDRAW: a function withdraws a message, or an end of a private channel does. -/
def execWithdraw (who : MailParty) (wseq : BitVec 16) : State → Host.Outcome State Fault Refusal :=
  onDev (fun now d =>
    match who with
    | .fn f => if !d.memAnswers f then d.urAnswer now f else d.withdrawMsg f wseq.toNat
    | .cores => d.cmWithdraw idCores wseq.toNat
    | .manager => d.cmWithdraw idManager wseq.toNat)

/-! ## Pickup (R468, R470) -/

/-- Move messages of the control service from a function's overflow into its channel while there is room; the fuel is how
many wait. -/
def Dev.refill (d : Dev) (f : Nat) : Nat → Dev
  | 0 => d
  | fuel + 1 =>
    match look [] d.mbx.overflow f with
    | [] => d
    | m :: ms =>
      if 16 ≤ d.pendingOn idControl f then d
      else
        let d1 := { d with mbx := { d.mbx with overflow := put [] d.mbx.overflow f ms } }
        (d1.post idControl f m.svc m.body m.prior).refill f fuel

/-- The pickup of the oldest message of a function's inbox (R468). -/
def Dev.popMsg (d : Dev) (f : Nat) : Dev :=
  match d.inboxOf f with
  | [] => d
  | m :: ms =>
    let d1 := (d.setInbox f ms).showInbox f
    let d2 := if ms.isEmpty ∨ d1.rd MBX.IRQ_EN f = 0 then d1 else d1.vector f (d1.rd MBX.IRQ_VECTOR f)
    let d3 := if m.sender < 8192 then d2.showSent m.sender else d2
    d3.refill f (look [] d3.mbx.overflow f).length

/-- POP: a function picks up the oldest message of its inbox, or an end of a private channel the oldest to it. -/
def execPop (who : MailParty) : State → Host.Outcome State Fault Refusal :=
  onDev (fun now d =>
    match who with
    | .fn f => if !d.memAnswers f then d.urAnswer now f else d.popMsg f
    | .cores => d.cmPop idCores
    | .manager => d.cmPop idManager)

/-- What waits for a function from the control service, in its channel and its overflow. -/
def Dev.owed (d : Dev) (f : Nat) : Nat := d.pendingOn idControl f + (look [] d.mbx.overflow f).length

/-- The requests of a function that the control service has picked up and not answered. -/
def Dev.due (d : Dev) (f : Nat) : Nat := (d.mbx.work.filter (fun m => decide (m.sender = f))).length

/-- Whether the control service serves requests (R471, R476): it is ready and a core is in service. -/
def Dev.serving (d : Dev) : Bool := decide (d.rd VIR.STATUS_READY = 1 ∧ d.dkw.coresOut.length < 12)

/-- Whether a request of a function may be picked up: its answer has room in the channel and the overflow together, beside the answers
still due (R470). -/
def Dev.pickupRoom (d : Dev) (f : Nat) : Bool := decide (d.owed f + d.due f < 256)

/-- Whether the control service serves a request of a function now: it serves, and the answer has the room that its pickup found (R470,
R471). -/
def Dev.answerRoom (d : Dev) (f : Nat) : Bool := d.serving && decide (d.owed f + (d.due f - 1) < 256)

/-- Send a message of the control service to a function, through the overflow when its channel is full; none when `cap` messages wait
there (R470). -/
def Dev.toFn (d : Dev) (f svc : Nat) (body : List Byte) (cap : Nat) (prior : Bool := false) : Option Dev :=
  let o := look [] d.mbx.overflow f
  if o.isEmpty ∧ d.pendingOn idControl f < 16 then some (d.post idControl f svc body prior)
  else if o.length < cap then
    let m : Msg := { body := slice body 0 64, sender := idControl, svc := svc, seq := 0, prior := prior }
    some { d with mbx := { d.mbx with overflow := put [] d.mbx.overflow f (o ++ [m]) } }
  else none

/-- A notice to a function; dropped, counted and EVT 2.0 when the overflow is full (R470). -/
def Dev.notice (d : Dev) (now : NetTime) (f : Nat) (body : List Byte) : Dev :=
  match d.toFn f 5 body 240 with
  | some d1 => d1
  | none => (d.bump MBX.RXSTAT_LOST f).raiseSec now (ev 2 0) 0 0 (some f)

/-- Answer a request of a function (R466): the body with the SEQ of the oldest picked-up request of the service in bytes 60
and 61, and PRIOR set where an FLR of the function came between (R471). -/
def Dev.answer (d : Dev) (f svc : Nat) (body : List Byte) : Dev :=
  let mine := fun (m : Msg) => decide (m.sender = f ∧ m.svc = svc)
  let req := d.mbx.work.find? mine
  let seq := (req.map (fun m => m.seq)).getD 0
  let d1 := { d with mbx := { d.mbx with work := d.mbx.work.eraseP mine } }
  (d1.toFn f svc (splice (slice body 0 64) 60 (leBytes 2 seq)) 256 ((req.map (fun m => m.prior)).getD false)).getD d1

/-- CONTROL_SERVICE_PICKUP: the control service picks up the oldest request of the next function in rotating polder order
whose answer has room (R470). -/
def execControlServicePickup : State → Host.Outcome State Fault Refusal :=
  onDev (fun _ d =>
    let able := ((d.inboxOf idControl).map (fun m => m.sender)).filter (fun f => d.pickupRoom f)
    let next := fun (p : Nat → Bool) => (able.filter p).foldl (fun (b : Option Nat) f => some (match b with | some g => min f g | none => f)) none
    match (next (fun f => decide (d.mbx.rot ≤ f))).or (next (fun _ => true)) with
    | none => d
    | some f =>
      if !d.serving then d
      else match (d.inboxOf idControl).find? (fun m => decide (m.sender = f)) with
        | none => d
        | some m =>
          let d1 := d.setInbox idControl ((d.inboxOf idControl).eraseP (fun m => decide (m.sender = f)))
          { d1 with mbx := { d1.mbx with work := d1.mbx.work ++ [m], rot := f + 1 } }.showSent f)

/-! ## Secure channels (R472) -/

/-- SECURE_SEND: a PF sends its staged secure body to the key loader. -/
def execSecureSend (pf : Pf) : State → Host.Outcome State Fault Refusal :=
  onDev (fun now d =>
    let f := 4096 * pf.val
    if !d.memAnswers f then d.urAnswer now f
    else if d.rd MBX.STXENV_SERVICE f ≠ 8 then d.wr MBX.STXSTAT_RESULT f mbxSecure
    else if 16 ≤ d.pendingOn f idKeys then d.wr MBX.STXSTAT_RESULT f mbxFull
    else
      let body := (List.range 8).flatMap (fun j => leBytes 8 (d.rd MBX.STXDATA_DATA (8 * f + j)))
      ((d.wr MBX.STXSTAT_RESULT f 0).wr MBX.STXSTAT_SEQ f (look 0 d.mbx.count (chanKey f idKeys) % 65536)).post f idKeys 8 body)

/-- SECURE_WITHDRAW: a PF withdraws a secure message that the key loader has not picked up. -/
def execSecureWithdraw (pf : Pf) (wseq : BitVec 16) : State → Host.Outcome State Fault Refusal :=
  onDev (fun now d =>
    let f := 4096 * pf.val
    if !d.memAnswers f then d.urAnswer now f
    else match d.withdrawFrom f idKeys wseq.toNat with
      | (d1, code) => d1.wr MBX.STXSTAT_RESULT f code)

/-- SECURE_POP: a PF picks up the oldest secure answer. -/
def execSecurePop (pf : Pf) : State → Host.Outcome State Fault Refusal :=
  onDev (fun now d =>
    let f := 4096 * pf.val
    if !d.memAnswers f then d.urAnswer now f
    else match d.inboxOf (8196 + pf.val) with
      | [] => d
      | _ :: ms => (d.setInbox (8196 + pf.val) ms).showSecure pf)

/-- The key loader answers a PF: it picks up the PF's oldest secure request, and its SEQ stands in bytes 60 and 61. An answer
that finds the channel full waits in it all the same, for the key loader serves one request at a time (10 R261). -/
def Dev.answerKey (d : Dev) (pf : Nat) (body : List Byte) : Dev :=
  let f := 4096 * pf
  let mine := fun (m : Msg) => decide (m.sender = f)
  let seq := (((d.inboxOf idKeys).find? mine).map (fun m => m.seq)).getD 0
  ((d.setInbox idKeys ((d.inboxOf idKeys).eraseP mine)).post idKeys (8196 + pf) 8 (splice (slice body 0 64) 60 (leBytes 2 seq))).showSecure pf

end Sys2Proof.Machine
end

