-- ==== Sys2Proof/Machine/Transport.lean ====
section
/-! DEFINITION. What the transport unit sends: frames it builds, TCP segments, TLS records, NVMe/TCP PDUs, and RoCEv2 packets (09
R226 to R230). Formats of the RFCs, of the InfiniBand Architecture and of NVMe/TCP that the spec names without stating them are
PRESUMED (log entry 26). -/

namespace Sys2Proof.Machine

/-- Nanoseconds since the warm reset, which the timers of the transport unit count (log entry 26). -/
def Dev.uptime (d : Dev) : Nat := d.eng.tclks

/-! ## Frames that the transport unit builds -/

/-- `n` bytes that the spec leaves open, each a free value (log entry 5). -/
def Dev.freeBytes (d : Dev) (n : Nat) : Dev × List Byte :=
  ({ d with free := d.free + n }, (List.range n).map (fun i => (Config.freeWord (d.free + i)).setWidth 8))

/-- An IP header in front of `len` bytes of a protocol; `open_` holds the bytes that the spec leaves open. -/
def ipHeader (v6 : Bool) (laddr raddr : List Byte) (proto len : Nat) (open_ : List Byte) : List Byte :=
  let o := fun (i : Nat) => open_.getD i 0
  if v6 then [0x60, 0, 0, 0] ++ beBytes 2 len ++ [BitVec.ofNat 8 proto, o 3] ++ slice laddr 0 16 ++ slice raddr 0 16
  else
    insertIp4 ([0x45, o 0] ++ beBytes 2 (20 + len) ++ [o 1, o 2, 0, 0, o 3, BitVec.ofNat 8 proto, 0, 0] ++ slice laddr 0 4 ++
      slice raddr 0 4) 0

/-- The offset of the L4 header behind an IP header. -/
def ipLen (bs : List Byte) (ip : Nat) : Nat := if ipV6 bs ip then 40 else (bs.getD ip 0).toNat % 16 * 4

/-- The ICRC of a RoCEv2 packet from its IP header on (R229): a CRC-32 over eight bytes FFh and the packet, in which the fields that
change on the way read as ones. -/
def icrcOf (bs : List Byte) : List Byte :=
  let ones := fun (os : List Nat) (b : List Byte) => os.foldl (fun y o => splice y o [0xFF]) b
  let l4 := ipLen bs 0
  let ip := if ipV6 bs 0 then ones [1, 2, 3, 7] (splice bs 0 [0x6F]) else ones [1, 8, 10, 11] bs
  let m := ones [l4 + 6, l4 + 7, l4 + 12] ip
  leBytes 4 (crc32 0xFFFFFFFF#32 (List.replicate 8 0xFF ++ m) ^^^ 0xFFFFFFFF#32).toNat

/-- Build a frame around L4 bytes and hand it to an egress queue, padded to 60 bytes; a RoCEv2 packet ends in its ICRC. MAC addresses,
the type of service, the identification and the hop count are free values. -/
def Dev.sendBuilt (d : Dev) (now : NetTime) (polder queue : Nat) (v6 : Bool) (laddr raddr : List Byte) (proto : Nat)
    (l4 : List Byte) : Dev :=
  let d1 : Dev := (d.freeBytes 16).1
  let fb := (d.freeBytes 16).2
  let ip := ipHeader v6 laddr raddr proto (l4.length + (if proto = 17 then 4 else 0)) (fb.drop 12)
  let b0 := fb.take 12 ++ (if v6 then [0x86, 0xDD] else [0x08, 0x00]) ++ ip ++ l4
  let b1 := if proto = 6 then insertL4 b0 14 (14 + ip.length) 6 else b0 ++ icrcOf (ip ++ l4)
  let bytes := b1 ++ List.replicate (60 - b1.length) 0
  let p : Packet := {
    hdr := bytes.take 512
    tail := bytes.drop 512
    iport := 16 + linkOf polder
    len := bytes.length
    tsin := now.tsin.toNat
    cls := d.queueL3 queue % 8
    queue := queue
    polder := polder }
  d1.handOver now 0 queue p

/-! ## Cipher jobs of the transport unit (10 R244, R256) -/

/-- Whether the key store refuses a job of the transport unit: the slot's state, algorithm, direction or scope, or a zeroised
domain (10 R258, R259, R276). -/
def Dev.jobRefused (d : Dev) (slot : Nat) (algs : List Nat) (enc : Bool) (polder : Nat) : Bool :=
  let k := d.key slot
  decide (d.rd CIP.STATUS_TAMPER = 1 ∨ 131072 ≤ slot ∨ k.refuses k.alg enc polder ≠ 0) || !algs.contains k.alg

/-- The scheduler queue of a job for an egress queue: the admitted one where that carries a contract (10 R244). -/
def Dev.jobQueue (d : Dev) (egress : Nat) : Nat :=
  if d.adm.contracts.any (fun e => d.admitted e.1 && e.2.rcd.queues.contains egress) then 1 else 2

/-- Give the scheduler a job: it takes the next number. -/
def Dev.giveJob (d : Dev) (own : JobOwner) (egress slot : Nat) (enc : Bool) (nonce aad data tag : List Byte) : Dev :=
  let k := d.key slot
  d.acceptJob {
    own := own
    queue := d.jobQueue egress
    ctx := 0
    tick := 0
    slot := slot
    alg := k.alg
    enc := enc
    tagMode := 2
    tagLen := if k.alg = 5 then 0 else 16
    espt := false
    nonce := nonce
    aad := aad
    data := data
    tag := tag
    pos := 0
    dlen := data.length
    iv := none }

/-! ## Storage TCP connections (R226, R227) -/

/-- A storage TCP connection. -/
def Dev.conn (d : Dev) (c : Nat) : Conn := look {} d.sto.conns c

/-- Replace a connection. -/
def Dev.setConn (d : Dev) (c : Nat) (x : Conn) : Dev := { d with sto := { d.sto with conns := put {} d.sto.conns c x } }

/-- Whether the transport unit runs a connection. -/
def Dev.offloaded (d : Dev) (c : Nat) : Bool := decide (d.rd STO.TCONN_STATE c = 2)

/-- Bytes in flight on a connection. -/
def Conn.flight (x : Conn) : Nat := (x.sent.map (fun s => s.data.length)).sum

/-- The window in which a connection takes data: what it offers, 4 MiB at most (R227). -/
def Conn.window (x : Conn) : Nat := min x.p.rcvWnd 4194304

/-- `a` lies before `b` in the 32-bit sequence space. -/
def tcpBefore (a b : Nat) : Bool := decide (0 < (b + 2 ^ 32 - a % 2 ^ 32) % 2 ^ 32 ∧ (b + 2 ^ 32 - a % 2 ^ 32) % 2 ^ 32 < 2 ^ 31)

/-- Send a TCP segment of a connection; every segment acknowledges what was received. The timestamp sent is a free value. -/
def Dev.tcpOut (d : Dev) (now : NetTime) (c seq : Nat) (data : List Byte) : Dev :=
  let x := d.conn c
  let tsv := (d.freeBytes 4).2
  let opts : List Byte := match x.p.ts with
    | some t => [1, 1, 8, 10] ++ tsv ++ beBytes 4 t
    | none => []
  let l4 := beBytes 2 x.p.lport ++ beBytes 2 x.p.rport ++ beBytes 4 seq ++ beBytes 4 x.p.rcv
    ++ [BitVec.ofNat 8 ((20 + opts.length) / 4 * 16), if data.isEmpty then 0x10 else 0x18]
    ++ beBytes 2 (min (x.window / 2 ^ x.p.rscale) 65535) ++ [0, 0, 0, 0] ++ opts ++ data
  (((d.freeBytes 4).1.setConn c { x with full := 0, ackAt := none })).sendBuilt now (d.rd STO.TCONN_POLDER c) x.p.queue x.p.v6
    x.p.laddr x.p.raddr 6 l4

/-- Send an ACK. -/
def Dev.tcpAck (d : Dev) (now : NetTime) (c : Nat) : Dev := d.tcpOut now c (d.conn c).p.nxt []

/-- Send waiting bytes while the congestion window and the peer's window allow, and start the retransmission timer where it does not
run; the fuel is how many bytes wait. -/
def Dev.tcpPush (d : Dev) (now : NetTime) (c : Nat) : Nat → Dev
  | 0 => d
  | fuel + 1 =>
    let x := d.conn c
    let n := min (min x.p.mss x.toSend.length) (min x.p.cwnd x.p.sndWnd - x.flight)
    if n = 0 then d
    else
      let seg := x.toSend.take n
      let d1 := d.setConn c { x with
        toSend := x.toSend.drop n
        p := { x.p with nxt := (x.p.nxt + n) % 2 ^ 32 }
        timer := some (x.timer.getD d.uptime)
        sent := x.sent ++ [{ seq := x.p.nxt, data := seg, at_ := d.uptime }] }
      (d1.tcpOut now c x.p.nxt seg).tcpPush now c fuel

/-- Append bytes to what a connection sends, and send what the windows allow. -/
def Dev.tcpQueue (d : Dev) (now : NetTime) (c : Nat) (bytes : List Byte) : Dev :=
  let x := d.conn c
  (d.setConn c { x with toSend := x.toSend ++ bytes }).tcpPush now c (x.toSend.length + bytes.length)

/-- The algorithms of TLS 1.3 records (10 R256). -/
def tlsAlgs : List Nat := [0, 1, 4]

/-- The nonce of a TLS record: the slot's IV XOR the record sequence number. -/
def recordNonce (iv : List Byte) (seq : Nat) : List Byte := xorBytes iv (List.replicate 4 0 ++ beBytes 8 seq)

/-- The header of a TLS record around `n` bytes: application_data, which its AAD is. -/
def recordHeader (n : Nat) : List Byte := [0x17, 0x03, 0x03] ++ beBytes 2 n

/-- Give the scheduler the job that seals a TLS record of a connection, under the next record sequence number (R230; 10 R256). -/
def Dev.sealRecord (d : Dev) (c slot : Nat) (bytes : List Byte) : Dev :=
  let x := d.conn c
  let d1 := d.setConn c { x with txJobs := x.txJobs ++ [d.cip.next], p := { x.p with txSeq := x.p.txSeq + 1 } }
  d1.giveJob (.sealRecord c) x.p.queue slot true (recordNonce (d.key slot).iv x.p.txSeq) (recordHeader (bytes.length + 17))
    (bytes ++ [0x17]) []

/-- Whether a connection can send: it is offloaded, and where it runs TLS its key slot seals for its polder. -/
def Dev.canSend (d : Dev) (c : Nat) : Bool :=
  d.offloaded c && (match (d.conn c).p.tls with
    | some (tx, _) => !d.jobRefused tx tlsAlgs true (d.rd STO.TCONN_POLDER c)
    | none => true)

/-- Write bytes to the stream of a connection: sent as the windows allow, or sealed first, in records of at most 16 KiB, where the
connection runs TLS. -/
def Dev.tcpWrite (d : Dev) (now : NetTime) (c : Nat) (bytes : List Byte) : Dev :=
  match (d.conn c).p.tls with
  | some (tx, _) => (chunks 16384 bytes).foldl (fun y b => y.sealRecord c tx b) d
  | none => d.tcpQueue now c bytes

/-! ## NVMe/TCP PDUs (R230) -/

/-- A digest of NVMe/TCP. -/
def digestOf (bs : List Byte) : List Byte := leBytes 4 (crc32c 0xFFFFFFFF#32 bs ^^^ 0xFFFFFFFF#32).toNat

/-- A PDU: type, flags beside those of the digests, the type's header fields, and data. -/
def pdu (hd dd : Bool) (type flags : Nat) (fields data : List Byte) : List Byte :=
  let hlen := 8 + fields.length
  let hd' := if hd then 4 else 0
  let body := if data.isEmpty then [] else data ++ (if dd then digestOf data else [])
  let pdo := if data.isEmpty then 0 else hlen + hd'
  let f := flags + (if hd then 1 else 0) + (if dd ∧ !data.isEmpty then 2 else 0)
  let h := [BitVec.ofNat 8 type, BitVec.ofNat 8 f, BitVec.ofNat 8 hlen, BitVec.ofNat 8 pdo] ++ leBytes 4 (hlen + hd' + body.length) ++ fields
  h ++ (if hd then digestOf h else []) ++ body

/-- The in-capsule data of a command: all of it when it is at most 8,192 bytes. -/
def inCapsule (data : List Byte) : List Byte := if data.length ≤ 8192 then data else []

/-! ## Queue pairs (R229) -/

/-- A queue pair. -/
def Dev.qp (d : Dev) (q : Nat) : Qp := look {} d.sto.qps q

/-- Replace a queue pair. -/
def Dev.setQp (d : Dev) (q : Nat) (x : Qp) : Dev := { d with sto := { d.sto with qps := put {} d.sto.qps q x } }

/-- Whether a queue pair carries traffic. -/
def Qp.up (x : Qp) : Bool := x.used && !x.error

/-- The distance from sequence number `a` to `b`, modulo 2²⁴. -/
def psnDist (a b : Nat) : Nat := (b + 2 ^ 24 - a % 2 ^ 24) % 2 ^ 24

/-- Send a RoCEv2 packet of a queue pair: opcode, congestion bit, sequence number, what follows the base header, payload. The source
port and the partition key are free values. -/
def Dev.roceOut (d : Dev) (now : NetTime) (q opcode psn : Nat) (ext data : List Byte) : Dev :=
  let x := d.qp q
  let fb := (d.freeBytes 4).2
  let pad := (4 - data.length % 4) % 4
  let becn : Byte := if opcode = 0x81 then 0x40 else 0
  let bth : List Byte := [BitVec.ofNat 8 opcode, BitVec.ofNat 8 (pad * 16)] ++ fb.take 2 ++ [becn] ++ beBytes 3 x.p.dqpn ++ [0x80]
    ++ beBytes 3 psn
  let body := bth ++ ext ++ data ++ List.replicate pad 0
  let udp := fb.drop 2 ++ beBytes 2 4791 ++ beBytes 2 (8 + body.length + 4) ++ [0, 0] ++ body
  (d.freeBytes 4).1.sendBuilt now x.polder x.p.queue x.p.v6 x.p.laddr x.p.raddr 17 udp

/-- Packets a message of `len` bytes takes. -/
def packetsOf (mtu len : Nat) : Nat := max 1 ((len + mtu - 1) / max mtu 1)

/-- The opcode of packet `i` of the `n` of a SEND or RDMA WRITE. -/
def opcodeOf (opc i n : Nat) : Nat :=
  let imm := if opc = 1 ∨ opc = 3 then 1 else 0
  let base := if opc < 2 then 0 else 6
  if n = 1 then base + 4 + imm else if i = 0 then base else if i + 1 = n then base + 2 + imm else base + 1

/-- The extended header of RDMA: address, key, length. -/
def reth (vaddr rkey len : Nat) : List Byte := beBytes 8 vaddr ++ beBytes 4 rkey ++ beBytes 4 len

/-- Send packet `i` of a work request. -/
def Dev.wrPacket (d : Dev) (now : NetTime) (q : Nat) (w : Wr) (i : Nat) : Dev :=
  let mtu := (d.qp q).p.mtu
  let n := w.count
  let ext := (if 2 ≤ w.opc ∧ i = 0 then reth w.raddr w.rkey w.len else []) ++
    (if (w.opc = 1 ∨ w.opc = 3) ∧ i + 1 = n then beBytes 4 w.imm else [])
  d.roceOut now q (opcodeOf w.opc i n) ((w.first + i) % 2 ^ 24) ext ((w.data.drop (i * mtu)).take mtu)

/-- Send a work request from the packet with a sequence number on; a READ asks for what it has not received. -/
def Dev.wrSend (d : Dev) (now : NetTime) (q : Nat) (w : Wr) (from_ : Nat) : Dev :=
  if w.opc = 4 then
    d.roceOut now q 0x0C ((w.first + w.got / max (d.qp q).p.mtu 1) % 2 ^ 24) (reth (w.raddr + w.got) w.rkey (w.len - w.got)) []
  else ((List.range w.count).filter (fun i => decide (from_ ≤ i))).foldl (fun y i => y.wrPacket now q w i) d

/-- The ACK timer of a queue pair starts again (R229). -/
def Dev.qpTimer (d : Dev) (q : Nat) : Dev := d.setQp q { d.qp q with since := d.uptime }

/-- Go back to a sequence number: every packet from it on is sent again (R229). -/
def Dev.goBack (d : Dev) (now : NetTime) (q psn : Nat) : Dev :=
  (d.qp q).wrs.foldl (fun y w =>
    let k := psnDist w.first psn
    if k < 2 ^ 23 then (if k < w.count then y.wrSend now q w k else y) else y.wrSend now q w 0) (d.qpTimer q)

/-- The sequence number of the oldest packet that is not acknowledged. -/
def Qp.oldest (x : Qp) : Nat := match x.wrs with
  | w :: _ => (w.first + (if w.opc = 4 then w.got / max x.p.mtu 1 else w.acked)) % 2 ^ 24
  | [] => x.spsn

/-- Post a work request: it takes its sequence numbers and its packets go out; the ACK timer starts with the first that is
outstanding. -/
def Dev.wrPost (d : Dev) (now : NetTime) (q : Nat) (w : Wr) : Dev :=
  let x := d.qp q
  let w1 := { w with first := x.spsn, count := packetsOf x.p.mtu w.len }
  let d1 := if x.wrs.isEmpty then d.qpTimer q else d
  (d1.setQp q { d1.qp q with spsn := (x.spsn + w1.count) % 2 ^ 24, wrs := x.wrs ++ [w1] }).wrSend now q w1 0

end Sys2Proof.Machine
end

