-- ==== Sys2Proof/Machine/Storage.lean ====
section
/-! DEFINITION. NVMe commands at their targets: capsules, completions to rings and to controller personalities, and what follows
when a connection or a queue pair fails (09 R228 to R230, R233 to R237; 16 R438, R441, R442). -/

namespace Sys2Proof.Machine

/-! ## Completions of work requests (16 R441) -/

/-- A TYPE 4h completion. -/
def rdmaCpl (status ring headField imm wrid bytes qpn opc : Nat) : Completion :=
  { units := [cplUnit0 3 4 status ring headField imm, wrid + bytes * 2 ^ 64, qpn + opc * 2 ^ 16] }

/-- A work request completes: its entry is done, and a completion is written when it asked for one or failed (16 R438). A capsule
of the initiator has no entry. -/
def Dev.wrDone (d : Dev) (q : Nat) (w : Wr) (status : Nat) : Dev :=
  if w.job.isSome then d
  else
    let x := (d.ring kSub w.ring).finish w.pos
    let d1 := d.setRing kSub w.ring x
    if w.signal || decide (status ≠ 0) then
      d1.queueCpl x.cq (ringKey kSub w.ring) (rdmaCpl status w.ring (x.posField x.head) w.imm w.wrid (if status = 0 then w.len else 0) q w.opc)
    else d1

/-! ## Controllers (R231 to R237) -/

/-- A controller personality. -/
def Dev.ctl (d : Dev) (f : Nat) : NvCtl := look {} d.sto.ctls f

/-- Replace a controller. -/
def Dev.setCtl (d : Dev) (f : Nat) (x : NvCtl) : Dev := { d with sto := { d.sto with ctls := put {} d.sto.ctls f x } }

/-- A queue of a controller: `cq` names a completion queue. -/
def NvCtl.queue (x : NvCtl) (n : Nat) (cq : Bool) : NvQueue := look {} x.queues (2 * n + (if cq then 1 else 0))

/-- Replace a queue. -/
def NvCtl.setQueue (x : NvCtl) (n : Nat) (cq : Bool) (y : NvQueue) : NvCtl :=
  { x with queues := put {} x.queues (2 * n + (if cq then 1 else 0)) y }

/-- Write the entries that wait for a completion queue while it has room, and send its vector after each; the fuel is how many
wait. -/
def Dev.nvDrain (d : Dev) (f n : Nat) : Nat → Dev
  | 0 => d
  | fuel + 1 =>
    let y := (d.ctl f).queue n true
    match y.wait with
    | [] => d
    | e :: es =>
      if !y.used || decide ((y.tail + 1) % max y.size 1 = y.head) then d
      else
        let t := (y.tail + 1) % max y.size 1
        let y1 := { y with tail := t, wait := es, phase := if t = 0 then !y.phase else y.phase }
        let d1 := (d.hostWrite f (y.base + 16 * y.tail) (leBytes 16 (setBits e 112 1 (if y.phase then 1 else 0)))).setCtl f
          ((d.ctl f).setQueue n true y1)
        (if y.ien then d1.vector f y.vec else d1).nvDrain f n fuel

/-- Post a completion of a command of submission queue `sq`: words 0 and 1, and the 15-bit status field. -/
def Dev.nvPost (d : Dev) (f sq cid dw0 dw1 status : Nat) : Dev :=
  let x := d.ctl f
  let s := x.queue sq false
  let e := dw0 % 2 ^ 32 + dw1 % 2 ^ 32 * 2 ^ 32 + s.head * 2 ^ 64 + sq * 2 ^ 80 + cid * 2 ^ 96 + status % 2 ^ 15 * 2 ^ 113
  let y := x.queue s.cq true
  (d.setCtl f (x.setQueue s.cq true { y with wait := y.wait ++ [e] })).nvDrain f s.cq (y.wait.length + 1)

/-- Whether a function carries the personality (R231), and its entry. -/
def Dev.personaOf (d : Dev) (f : Nat) : Option Nat := (List.range 1024).find? (fun v => decide (d.rd STO.PVF_EN v = 1 ∧ d.rd STO.PVF_FUNC v = f))

/-- Replace a command that a controller runs. -/
def Dev.setCmd (d : Dev) (n : Nat) (c : Option NvCmd) : Dev := { d with sto := { d.sto with cmds := put none d.sto.cmds n c } }

/-- The egress queue of a connection or queue pair. -/
def Dev.connQueue (d : Dev) (c : Bool × Nat) : Nat := if c.1 then (d.qp c.2).p.queue else (d.conn c.2).p.queue

/-- Give the scheduler the jobs that put data under a namespace's AES-XTS-256 key, or take it from under it: the unit is the LBA, the
tweak its number (R234; 10 R246). The command waits for them. -/
def Dev.giveUnits (d : Dev) (n slot : Nat) (ns : NsReq) (c : NvCmd) (enc : Bool) (bytes : List Byte) : Dev :=
  let egress := ((ns.lanes.head?).map (fun l => d.connQueue l.conn)).getD 0
  let us := chunks (max ns.lba 1) bytes
  (us.zipIdx.foldl (fun y u => y.giveJob (.unit n) egress slot enc (leBytes 16 (c.slba + u.2)) [] u.1 []) d).setCmd n
    (some { c with units := (List.range us.length).map (fun i => d.cip.next + i) })

/-- The host writes that fill buffers with bytes. -/
def Dev.fillHost (d : Dev) (f : Nat) : List (Nat × Nat) → List Byte → Dev
  | [], _ => d
  | b :: bs, bytes =>
    if bytes.isEmpty then d else (d.hostWrite f b.1 (bytes.take b.2)).fillHost f bs (bytes.drop b.2)

/-- The lanes of a stripe back in one byte string: element `i` is that of lane `i` modulo W (R237). -/
def fromPlanes (e : Nat) (lanes : List (List Byte)) : List Byte :=
  let w := lanes.length
  let n := ((lanes.map List.length).sum) / max e 1
  ((List.range n).map (fun i => slice (lanes.getD (i % max w 1) []) (i / max w 1 * e) e)).flatten

/-- Status Internal Error of NVMe 2.0: a data unit's cipher job was refused or failed (log entry 27). -/
abbrev scInternal : Nat := 0x06

/-- A command ends with its data for the host and its completion; that of a command that ended with its controller is discarded
(R236). -/
def Dev.cmdDone (d : Dev) (n : Nat) (c : NvCmd) (bytes : List Byte) (word status : Nat) : Dev :=
  let d1 := d.setCmd n none
  if c.dead then d1 else (d1.fillHost c.vf c.bufs bytes).nvPost c.vf c.sq c.cid (word % 2 ^ 32) (word / 2 ^ 32) status

/-- A lane of a controller's command completes; with the last one the command does: the status is that of the lowest lane that
failed, or success, and a Read's data goes to the host, decrypted first where its namespace has a key (R233, R234, R237). -/
def Dev.laneDone (d : Dev) (n lane : Nat) (cqe : Nat) (data : List Byte) : Dev :=
  match look none d.sto.cmds n with
  | none => d
  | some c =>
    let status := bitsOf cqe 113 15
    let c1 := { c with left := c.left - 1, done := c.done ++ [(lane, status, cqe % 2 ^ 64, data)] }
    if 0 < c1.left then d.setCmd n (some c1)
    else
      let lanes := (List.range c1.done.length).filterMap (fun i => c1.done.find? (fun e => decide (e.1 = i)))
      let bad := lanes.find? (fun e => decide (e.2.1 ≠ 0))
      let st := (bad.map (fun e => e.2.1)).getD 0
      let word := ((bad.orElse (fun _ => lanes.head?)).map (fun e => e.2.2.1)).getD 0
      let ns := (look none (d.ctl c.vf).ns c.nsid).getD { nsid := c.nsid, lanes := [] }
      let bytes := if c.read && bad.isNone then fromPlanes ns.elem (lanes.map (fun e => e.2.2.2)) else []
      match ns.key with
      | some k =>
        if bytes.isEmpty || c.dead then d.cmdDone n c1 bytes word st
        else if d.jobRefused k [5] false c.vf then d.cmdDone n c1 [] 0 scInternal
        else d.giveUnits n k ns { c1 with word := word } false bytes
      | none => d.cmdDone n c1 bytes word st

/-- An outstanding command completes at its source: a TYPE 3h completion of its storage ring, with the data in the host's buffers
before it, or a lane of a controller's command. -/
def Dev.jobDone (d : Dev) (n : Nat) (j : NvJob) (cqe : Nat) (data : List Byte) : Dev :=
  let d1 : Dev := { d with sto := { d.sto with jobs := Tbl.erase d.sto.jobs n } }
  match j.src with
  | .ctl cmd lane => d1.laneDone cmd lane cqe data
  | .ring r pos =>
    let d2 := d1.fillHost j.polder j.bufs data
    let x := (d2.ring kSub r).finish pos
    let cid := bitsOf j.sqe 16 16
    let e := setBits cqe 96 16 cid
    (d2.setRing kSub r x).queueCpl x.cq (ringKey kSub r)
      { units := [cplUnit0 3 3 0 r (x.posField x.head) 0, e % 2 ^ 120, bitsOf e 120 8] }

/-! ## Capsules and failures (R228 to R230, R235) -/

/-- Whether a storage connection or queue pair is up: it can send. -/
def Dev.connUp (d : Dev) (c : Bool × Nat) : Bool := if c.1 then (d.qp c.2).up else d.canSend c.2

/-- The polder that owns a connection or queue pair. -/
def Dev.connPolder (d : Dev) (c : Bool × Nat) : Nat := if c.1 then (d.qp c.2).polder else d.rd STO.TCONN_POLDER c.2

/-- INFO of EVT 9.1 to 9.4 (18 R569). -/
def connInfo (c : Bool × Nat) : Nat := c.2 + (if c.1 then 2 ^ 16 else 0)

/-- The remote key of an outstanding command's data on a queue pair (log entry 27). -/
def jobKey (n : Nat) : Nat := 2 ^ 31 + n % 2 ^ 31

/-- The entry of a capsule on the wire (NVMe over Fabrics, log entry 26): the command identifier is the job's number, and one SGL
descriptor names the data in the capsule, or what the transport moves, in place of the host's data pointer. -/
def NvJob.capsule (j : NvJob) (n : Nat) : List Byte :=
  let desc : Nat :=
    if !(inCapsule j.data).isEmpty then j.data.length * 2 ^ 64 + 0x01 * 2 ^ 120
    else if j.conn.1 then j.len % 2 ^ 24 * 2 ^ 64 + (if j.len = 0 then 0 else jobKey n) * 2 ^ 88 + 0x40 * 2 ^ 120
    else j.len % 2 ^ 32 * 2 ^ 64 + 0x5A * 2 ^ 120
  leBytes 64 (setBits (setBits (setBits j.sqe 16 16 n) 14 2 1) 192 128 desc)

/-- Send the capsule of an outstanding command on its connection, with its in-capsule data (R230). -/
def Dev.sendCapsule (d : Dev) (now : NetTime) (n : Nat) (j : NvJob) : Dev :=
  let sqe := j.capsule n
  let data := inCapsule j.data
  if j.conn.1 then
    d.wrPost now j.conn.2 { ring := 0, pos := 0, opc := 0, signal := false, imm := 0, wrid := 0, laddr := 0,
                            len := 64 + data.length, raddr := 0, rkey := 0, data := sqe ++ data, job := some n }
  else
    let p := (d.conn j.conn.2).p
    d.tcpWrite now j.conn.2 (pdu p.hdgst p.ddgst 4 0 sqe data)

/-- The completion queue entry of Transient Transport Error, DNR clear (R235). -/
def tteEntry : Nat := 0x22 * 2 ^ 113

/-- A command whose connection failed: sent once on the secondary, if that is up, else completed with Transient Transport Error
(R235). -/
def Dev.rescue (d : Dev) (now : NetTime) (n : Nat) (j : NvJob) : Dev :=
  let info := connInfo j.conn
  let polder := some (d.connPolder j.conn)
  let tte := fun (y : Dev) => ((y.bump STO.TTE_COUNT).raise now (ev 9 4) info polder).jobDone n j tteEntry []
  match j.second with
  | some c =>
    if d.connUp c then
      let j1 := { j with conn := c, second := none, recv := [] }
      let d1 : Dev := { d with sto := { d.sto with jobs := Tbl.insert d.sto.jobs n (some j1) } }
      ((d1.bump STO.RESENT_COUNT).raise now (ev 9 3) info polder).sendCapsule now n j1
    else tte d
  | none => tte d

/-- A new outstanding command: it takes the next number, and its capsule is sent; a connection that is not up counts as failed. -/
def Dev.newJob (d : Dev) (now : NetTime) (j : NvJob) : Dev :=
  let n := d.sto.next
  let d1 : Dev := { d with sto := { d.sto with next := n + 1, jobs := Tbl.insert d.sto.jobs n (some j) } }
  if d1.connUp j.conn then d1.sendCapsule now n j else d1.rescue now n j

/-- Whether a target's completion of a command has arrived. -/
def Dev.hasArrived (d : Dev) (n : Nat) : Bool := d.sto.arrived.any (fun e => decide (e.1 = n))

/-- Every command outstanding on a connection is resent or completed; one whose completion arrived is left to it (R238). -/
def Dev.rescueAll (d : Dev) (now : NetTime) (c : Bool × Nat) : Dev :=
  d.sto.jobs.foldl (fun y e =>
    match look none y.sto.jobs e.1 with
    | some j => if j.conn = c ∧ y.hasArrived e.1 = false then y.rescue now e.1 j else y
    | none => y) d

/-- CONNECTION_FAIL: an offloaded connection fails (R228), and what is outstanding on it is handled under R235. -/
def Dev.failConn (d : Dev) (now : NetTime) (c : Nat) : Dev :=
  let p := d.rd STO.TCONN_POLDER c
  (((d.wr STO.TCONN_STATE c 4).setConn c { p := (d.conn c).p }).raise now (ev 9 1) c (some p)).rescueAll now (false, c)

/-- A queue pair goes to error (R229): the work request at its front completes with a status, those behind it FLUSHED, and its
commands are handled under R235. -/
def Dev.failQp (d : Dev) (now : NetTime) (q status : Nat) : Dev :=
  let x := d.qp q
  let d1 := d.setQp q { x with error := true, wrs := [], rnrWait := false }
  let d2 := x.wrs.zipIdx.foldl (fun y e => y.wrDone q e.1 (if e.2 = 0 then status else 7)) d1
  (d2.raise now (ev 9 2) (q + 2 ^ 16) (some x.polder)).rescueAll now (true, q)

/-! ## The initiator's commands -/

/-- The oldest entry of a submission ring that is fetched and not started. -/
def Ring.nextEntry (x : Ring) : Option SubEntry := x.subs.find? (fun e => !e.started)

/-- The NVMe command of a storage entry: 15 bytes of each of units 1 to 4, and bytes 60 to 63 from unit 5 (16 R438). -/
def entrySqe (us : List Nat) : Nat :=
  us.getD 1 0 % 2 ^ 120 + us.getD 2 0 % 2 ^ 120 * 2 ^ 120 + us.getD 3 0 % 2 ^ 120 * 2 ^ 240 + us.getD 4 0 % 2 ^ 120 * 2 ^ 360
    + us.getD 5 0 % 2 ^ 32 * 2 ^ 480

/-- STORAGE_COMMAND: the next entry of a storage ring is taken, and its capsule is sent on the entry's connection. One that names
a connection which is not the ring's polder's completes with Transient Transport Error (log entry 27). -/
def execStorageCommand (ring : Fin 262144) (bufs : List (Nat × Nat)) (data : List Byte) : State → Host.Outcome State Fault Refusal :=
  onDev (fun now d =>
    let x := d.ring kSub ring
    match x.nextEntry with
    | none => d
    | some e =>
      if x.mode ≠ 2 then d
      else
        let u := e.words.getD 0 0
        let c := (u.testBit 8, bitsOf u 32 16)
        let j : NvJob := { src := .ring ring e.pos, conn := c, sqe := entrySqe e.words, data := data, bufs := bufs, polder := x.polder,
                           len := max data.length ((bufs.map (fun b => b.2)).sum) }
        let d1 := d.setRing kSub ring (x.start e.pos)
        if d1.connPolder c = x.polder then d1.newJob now j
        else ((d1.bump STO.TTE_COUNT).raise now (ev 9 4) (connInfo c) (some x.polder)).jobDone 0 j tteEntry [])

/-- The outstanding command of a connection or queue pair that a command identifier on the wire names. -/
def Dev.jobOf (d : Dev) (conn : Bool × Nat) (cid : Nat) : Option Nat :=
  (d.sto.jobs.find? (fun e => decide (e.1 % 65536 = cid) && ((e.2.map (fun j => decide (j.conn = conn))).getD false))).map (fun e => e.1)

/-- A target's completion arrives, with the data that the target moved for the command. One that names no outstanding command of the
connection is dropped. -/
def Dev.cqeArrives (d : Dev) (conn : Bool × Nat) (cqe : Nat) : Dev :=
  match d.jobOf conn (bitsOf cqe 96 16) with
  | some n =>
    if d.hasArrived n then d
    else
      let data := ((look none d.sto.jobs n).map (fun j => j.recv)).getD []
      { d with sto := { d.sto with arrived := d.sto.arrived ++ [(n, cqe, data)] } }
  | none => d

/-- REMOTE_COMPLETION: the oldest completion that a target returned is posted; its status is returned unchanged (R233). -/
def execRemoteCompletion : State → Host.Outcome State Fault Refusal :=
  onDev (fun _ d =>
    match d.sto.arrived with
    | [] => d
    | e :: es =>
      let d1 : Dev := { d with sto := { d.sto with arrived := es } }
      match look none d1.sto.jobs e.1 with
      | some j => d1.jobDone e.1 j e.2.1 e.2.2
      | none => d1)

/-! ## Hand-over and creation (R226, R229) -/

/-- Answer a request of the STORAGE service: byte 0 is open, bytes 4 to 7 the connection or queue pair. -/
def Dev.storageAnswer (d : Dev) (f n : Nat) : Dev :=
  (d.freeBytes 1).1.answer f 7 ((d.freeBytes 1).2 ++ [0, 0, 0] ++ leBytes 4 n)

/-- The first free storage connection. -/
def Dev.freeConn (d : Dev) : Option Nat := (List.range 16384).find? (fun c => decide (d.rd STO.TCONN_STATE c = 0))

/-- RTO from the estimates of RFC 6298, in µs: STO.TCPCFG.RTOMIN at least, 60 s at most, in steps of 100 µs (R227). -/
def Dev.rtoOf (d : Dev) (srtt rttvar : Nat) : Nat :=
  let r := if srtt = 0 then 1000000 else srtt + max 100 (4 * rttvar)
  (min (max r (d.rd STO.TCPCFG_RTOMIN)) 60000000 + 99) / 100 * 100

/-- HAND_OVER: a connection comes to the transport unit with its state, under a free number, or under its own when the polder hands
it over again, with new key slots for instance. With no number free, EVT 9.5 (R226, R239). -/
def execHandOver (fn : Fn) (conn : Option (Fin 16384)) (state : TcpState) : State → Host.Outcome State Fault Refusal :=
  onDev (fun now d =>
    if !d.answerRoom fn then d
    else
      let mine := fun (c : Nat) => decide (d.rd STO.TCONN_STATE c ≠ 0 ∧ d.rd STO.TCONN_POLDER c = fn)
      let pick : Option Nat := match conn with
        | some c => if mine c then some c.val else none
        | none => d.freeConn
      let allowed := d.ownsRing fn kRx state.ring && decide (d.queuePolder state.queue = some fn.val)
      match pick with
      | some c =>
        if allowed then
          let x : Conn := if d.rd STO.TCONN_STATE c = 0 ∨ d.rd STO.TCONN_STATE c = 4 then { recover := (state.una + 2 ^ 32 - 1) % 2 ^ 32 } else d.conn c
          let d1 := ((d.wr STO.TCONN_STATE c 2).wr STO.TCONN_POLDER c fn).setConn c { x with p := state, rto := d.rtoOf state.srtt state.rttvar }
          (d1.wr STO.CONNSTAT_TCP 0 (d.rd STO.CONNSTAT_TCP + if d.rd STO.TCONN_STATE c = 0 then 1 else 0)).storageAnswer fn c
        else d.storageAnswer fn 0
      | none => (if conn.isNone then d.raise now (ev 9 5) 0 (some fn) else d).storageAnswer fn 0)

/-- QUEUE_PAIR_CREATE: a queue pair of a polder under the lowest free number, with its memory regions, of which the device holds
1,048,576 at most; with none free, EVT 9.5 (R229, R239). -/
def execQueuePairCreate (fn : Fn) (req : QpReq) : State → Host.Outcome State Fault Refusal :=
  onDev (fun now d =>
    if !d.answerRoom fn then d
    else
      let regions := (d.sto.qps.map (fun e => e.2.p.regions.length)).sum + req.regions.length
      let ok := decide (regions ≤ 1048576) && d.ownsRing fn kRx req.ring && d.ownsRing fn kCq req.cq && decide (d.queuePolder req.queue = some fn.val)
        && decide ((req.mtu = 1024 ∨ req.mtu = 2048 ∨ req.mtu = 4096) ∧ 1 ≤ req.t ∧ req.t ≤ 31 ∧ req.retry ≤ 7 ∧ req.rnr ≤ 7)
      match (List.range 65536).find? (fun q => !(d.qp q).used) with
      | some q =>
        if ok then
          ((d.setQp q { used := true, polder := fn, p := req, spsn := req.spsn % 2 ^ 24, epsn := req.epsn % 2 ^ 24,
                        retry := req.retry, rnr := req.rnr }).wr STO.CONNSTAT_RC 0 (d.rd STO.CONNSTAT_RC + 1)).storageAnswer fn q
        else d.storageAnswer fn 0
      | none => (d.raise now (ev 9 5) 1 (some fn)).storageAnswer fn 0)

end Sys2Proof.Machine
end

