-- ==== Sys2Proof/Machine/Nvme.lean ====
section
/-! DEFINITION. The NVMe controller personality: registers, queues, admin and I/O commands, enabling and shutdown, assignment (09
R231 to R237). The NVMe 2.0 formats and status codes that the spec names without stating them are PRESUMED (log entry 26). -/

namespace Sys2Proof.Machine

/-! ## Status codes of NVMe 2.0: code type in bits 10 to 8 -/

abbrev scOk : Nat := 0
abbrev scOpcode : Nat := 0x01
abbrev scField : Nat := 0x02
abbrev scNamespace : Nat := 0x0B
abbrev scSglType : Nat := 0x11
abbrev scCqInvalid : Nat := 0x100
abbrev scQueueId : Nat := 0x101
abbrev scQueueSize : Nat := 0x102
abbrev scVector : Nat := 0x108
abbrev scLogPage : Nat := 0x109
abbrev scQueueDeletion : Nat := 0x10C

/-! ## Controller registers (R231, R232) -/

/-- CAP: MQES 4,095, CQR 1, TO 2, DSTRD 0, NVM command set, 4 KiB pages. -/
def nvCap : Nat := 4095 + 2 ^ 16 + 2 * 2 ^ 24 + 2 ^ 37

/-- CC.EN and CC.SHN. -/
def NvCtl.en (x : NvCtl) : Bool := x.cc.testBit 0
def NvCtl.shn (x : NvCtl) : Nat := bitsOf x.cc 14 2

/-- The 64-bit word at an offset of the controller registers, a multiple of 8. -/
def NvCtl.reg (x : NvCtl) (off : Nat) : Nat :=
  if off = 0x00 then nvCap
  else if off = 0x08 then 0x00020000 + x.mask * 2 ^ 32
  else if off = 0x10 then x.mask + x.cc * 2 ^ 32
  else if off = 0x18 then ((if x.rdy then 1 else 0) + x.shst * 4) * 2 ^ 32
  else if off = 0x20 then x.aqa * 2 ^ 32
  else if off = 0x28 then x.asq
  else if off = 0x30 then x.acq
  else 0

/-- Enable a controller: its admin queues are set up from AQA, ASQ and ACQ, and it reports ready. -/
def NvCtl.enable (x : NvCtl) : NvCtl :=
  { x with
    cc := setBit x.cc 0 true
    rdy := true
    shst := 0
    aers := []
    queues := put {} (put {} [] 0 { used := true, base := x.asq / 4096 * 4096, size := bitsOf x.aqa 0 12 + 1 }) 1
      { used := true, base := x.acq / 4096 * 4096, size := bitsOf x.aqa 16 12 + 1, ien := true } }

/-- The commands of a controller outlive it, and their completions are discarded (R236). -/
def Dev.nvDiscard (d : Dev) (f : Nat) (only : Nat → Bool) : Dev :=
  { d with sto := { d.sto with cmds := d.sto.cmds.map (fun e =>
      (e.1, e.2.map (fun c => if c.vf = f ∧ only c.sq = true then { c with dead := true } else c))) } }

/-- CC.EN changes to 0: nothing more is fetched, queues end, and outstanding completions are discarded (R236). -/
def Dev.nvStop (d : Dev) (f : Nat) : Dev :=
  let x := d.ctl f
  if x.en then
    (d.nvDiscard f (fun _ => true)).setCtl f { x with cc := setBit x.cc 0 false, queues := [], aers := [], stopAt := d.uptime }
  else d

/-- CC.SHN takes a value at a time: a shutdown is in progress until SHUTDOWN_COMPLETE. -/
def NvCtl.shutdown (x : NvCtl) (shn t : Nat) : NvCtl :=
  let y := { x with cc := setBits x.cc 14 2 shn }
  if shn = 1 ∨ shn = 2 then { y with shst := 1, stopAt := t } else y

/-- A write of the host to the controller registers of a personality: offset, bytes, value (R231, R232, R236). -/
def Dev.nvRegWrite (d : Dev) (f off width v : Nat) : Dev :=
  let x := d.ctl f
  let low := v % 2 ^ 32
  if off = 0x0C then d.setCtl f { x with mask := x.mask ||| low }
  else if off = 0x10 then d.setCtl f { x with mask := x.mask &&& (2 ^ 32 - 1 - low) }
  else if off = 0x14 then
    let d1 := if x.en ∧ low.testBit 0 = false then d.nvStop f else d
    let y := d1.ctl f
    let z := { y with cc := setBits (setBits low 0 1 (bitsOf y.cc 0 1)) 14 2 (bitsOf y.cc 14 2) }
    let z1 := if !y.en && low.testBit 0 then z.enable else z
    d1.setCtl f (if bitsOf low 14 2 ≠ y.shn then z1.shutdown (bitsOf low 14 2) d.uptime else z1)
  else if off = 0x24 then d.setCtl f { x with aqa := low }
  else if off = 0x28 then d.setCtl f { x with asq := if width = 8 then v else setBits x.asq 0 32 low }
  else if off = 0x2C then d.setCtl f { x with asq := setBits x.asq 32 32 low }
  else if off = 0x30 then d.setCtl f { x with acq := if width = 8 then v else setBits x.acq 0 32 low }
  else if off = 0x34 then d.setCtl f { x with acq := setBits x.acq 32 32 low }
  else d

/-! ## Admin commands (R233) -/

/-- A field of a submission entry, by 32-bit word. -/
def dwordOf (sqe i : Nat) : Nat := bitsOf sqe (32 * i) 32

/-- Whether every descriptor of the data pointer is of a type the controller takes: PRP, or SGL Data Block, Segment and Last Segment in
the entry and in its segments (R232). -/
def sglOk (sqe : Nat) (segs : List (BitVec 128)) : Bool :=
  let taken := fun (t : Nat) => decide (t = 0 ∨ t = 2 ∨ t = 3)
  decide (bitsOf sqe 14 2 = 0) || (taken (bitsOf sqe 316 4) && segs.all (fun s => taken (bitsOf s.toNat 124 4)))

/-- Namespaces mapped to a controller, by number. -/
def NvCtl.nsList (x : NvCtl) : List Nat := (List.range 17).filter (fun n => (look none x.ns n).isSome)

/-- A data structure the controller returns: what the spec states, and free values elsewhere (log entry 5). -/
def Dev.nvData (d : Dev) (f n : Nat) (bufs : List (Nat × Nat)) (stated : List (Nat × List Byte)) : Dev :=
  let fb := (d.freeBytes n).2
  (d.freeBytes n).1.fillHost f bufs ((stated.foldl (fun b s => splice b s.1 s.2) fb).take n)

/-- Identify: CNS 0h to 3h. -/
def Dev.nvIdentify (d : Dev) (f : Nat) (r : NvRead) : Dev × Nat :=
  let sqe := r.sqe.toNat
  let cns := bitsOf (dwordOf sqe 10) 0 8
  let nsid := dwordOf sqe 1
  let x := d.ctl f
  match cns with
  | 0 =>
    (match look none x.ns nsid with
      | some ns => (d.nvData f 4096 r.bufs [(26, [0]), (130, [if ns.lba = 4096 then 12 else 9])], scOk)
      | none => if nsid = 0 ∨ 16 < nsid then (d, scNamespace) else (d.fillHost f r.bufs (List.replicate 4096 0), scOk))
  | 1 => (d.nvData f 4096 r.bufs [(77, [5]), (80, leBytes 4 0x00020000), (516, leBytes 4 16), (520, leBytes 2 0x0C), (522, [0, 0])], scOk)
  | 2 => (d.fillHost f r.bufs (slice ((x.nsList.filter (fun n => decide (nsid < n))).flatMap (leBytes 4)) 0 4096), scOk)
  | 3 => if (look none x.ns nsid).isSome then (d.nvData f 4096 r.bufs [], scOk) else (d, scNamespace)
  | _ => (d, scField)

/-- Create I/O Completion Queue and Create I/O Submission Queue: what the controller checks, and the queue. -/
def Dev.nvCreate (d : Dev) (f sqe : Nat) (cq : Bool) : Dev × Nat :=
  let x := d.ctl f
  let n := bitsOf (dwordOf sqe 10) 0 16
  let size := bitsOf (dwordOf sqe 10) 16 16 + 1
  let w := dwordOf sqe 11
  let hi := bitsOf w 16 16
  let q : NvQueue := { used := true, base := bitsOf sqe 192 64, size := size }
  if n = 0 ∨ 64 < n ∨ (x.queue n cq).used = true then (d, scQueueId)
  else if size < 2 ∨ 4096 < size then (d, scQueueSize)
  else if !w.testBit 0 then (d, scField)
  else if cq then
    if d.rd VIR.PVEC_VECTORS f ≤ hi then (d, scVector) else (d.setCtl f (x.setQueue n true { q with vec := hi, ien := w.testBit 1 }), scOk)
  else if hi = 0 ∨ (x.queue hi true).used = false then (d, scCqInvalid)
  else (d.setCtl f (x.setQueue n false { q with cq := hi }), scOk)

/-- Delete I/O Submission Queue and Delete I/O Completion Queue. -/
def Dev.nvDelete (d : Dev) (f sqe : Nat) (cq : Bool) : Dev × Nat :=
  let x := d.ctl f
  let n := bitsOf (dwordOf sqe 10) 0 16
  if n = 0 ∨ 64 < n ∨ (x.queue n cq).used = false then (d, scQueueId)
  else if cq ∧ (List.range 65).any (fun i => (x.queue i false).used && decide ((x.queue i false).cq = n)) = true then (d, scQueueDeletion)
  else
    let d1 := if cq then d else d.nvDiscard f (fun s => decide (s = n))
    (d1.setCtl f ((d1.ctl f).setQueue n cq {}), scOk)

/-- An admin command: the device, word 0 of the completion, the status; none when it completes later (Asynchronous Event
Request). -/
def Dev.nvAdmin (d : Dev) (f : Nat) (r : NvRead) : Dev × Option (Nat × Nat) :=
  let sqe := r.sqe.toNat
  let x := d.ctl f
  let plain := fun (e : Dev × Nat) => (e.1, some (0, e.2))
  let fid := bitsOf (dwordOf sqe 10) 0 8
  let known := decide (fid = 6 ∨ fid = 7 ∨ fid = 8 ∨ fid = 0xB)
  match bitsOf sqe 0 8 with
  | 0x00 => plain (d.nvDelete f sqe false)
  | 0x01 => plain (d.nvCreate f sqe false)
  | 0x02 =>
    let n := ((bitsOf (dwordOf sqe 10) 16 16 + bitsOf (dwordOf sqe 11) 0 16 * 2 ^ 16) + 1) * 4
    if 1 ≤ fid ∧ fid ≤ 3 then (d.nvData f (min n 131072) r.bufs [], some (0, scOk)) else (d, some (0, scLogPage))
  | 0x04 => plain (d.nvDelete f sqe true)
  | 0x05 => plain (d.nvCreate f sqe true)
  | 0x06 => plain (d.nvIdentify f r)
  | 0x08 => (d, some (1, scOk))
  | 0x09 =>
    if known then
      (d.setCtl f { x with feats := put 0 x.feats fid (if fid = 7 then 63 + 63 * 2 ^ 16 else dwordOf sqe 11) },
        some (if fid = 7 then 63 + 63 * 2 ^ 16 else 0, scOk))
    else (d, some (0, scField))
  | 0x0A => (d, some (if known then (if fid = 7 then 63 + 63 * 2 ^ 16 else look 0 x.feats fid, scOk) else (0, scField)))
  | 0x0C => (d.setCtl f { x with aers := x.aers ++ [bitsOf sqe 16 16] }, none)
  | 0x18 => (d, some (0, scOk))
  | _ => (d, some (0, scOpcode))

/-! ## I/O commands (R233, R234, R237) -/

/-- Whether an opcode names a range by SLBA and block count in the entry. -/
def hasRange (op : Nat) : Bool := decide (op = 1 ∨ op = 2 ∨ op = 8)

/-- The ranges of a Dataset Management command: attributes, length, SLBA. -/
def dsmRanges (n : Nat) (data : List Byte) : List (Nat × Nat × Nat) :=
  (List.range n).map (fun i => (leAt data (16 * i) 4, leAt data (16 * i + 4) 4, leAt data (16 * i + 8) 8))

/-- What is wrong with an I/O command, or nothing. -/
def nvIoCheck (sqe : Nat) (ns : Option NsReq) (data : List Byte) (segs : List (BitVec 128)) : Nat :=
  let op := bitsOf sqe 0 8
  let nlb := bitsOf (dwordOf sqe 12) 0 16 + 1
  let slba := bitsOf sqe 320 64
  if !(hasRange op || decide (op = 0 ∨ op = 9)) then scOpcode
  else
    match ns with
    | none => scNamespace
    | some s =>
      let w := s.lanes.length
      if bitsOf sqe 8 2 ≠ 0 then scField
      else if (op = 1 ∨ op = 2 ∨ op = 9) ∧ sglOk sqe segs = false then scSglType
      else if (op = 1 ∨ op = 2) ∧ 131072 < nlb * s.lba then scField
      else if hasRange op ∧ (slba % w ≠ 0 ∨ nlb % w ≠ 0) then scField
      else if op = 9 ∧ (dsmRanges (bitsOf (dwordOf sqe 10) 0 8 + 1) data).any (fun e => decide (e.2.1 % w ≠ 0 ∨ e.2.2 % w ≠ 0)) = true then scField
      else scOk

/-- The entry a lane receives: its NSID, and for a stripe of W lanes SLBA / W and block count / W. -/
def laneSqe (sqe w : Nat) (l : LaneReq) : Nat :=
  let e := setBits sqe 32 32 l.nsid
  if hasRange (bitsOf sqe 0 8) then
    setBits (setBits e 320 64 (bitsOf sqe 320 64 / w)) 384 16 ((bitsOf (dwordOf sqe 12) 0 16 + 1) / w - 1)
  else e

/-- The data lane `j` of a command receives: its plane of a Write's data, or the ranges divided by W. -/
def laneData (op w e : Nat) (j : Nat) (data : List Byte) (ranges : List (Nat × Nat × Nat)) : List Byte :=
  if op = 1 then (if w = 1 then data else (((toPlanes w e data).drop (j * (data.length / w))).take (data.length / w)))
  else if op = 9 then ranges.flatMap (fun r => leBytes 4 r.1 ++ leBytes 4 (r.2.1 / w) ++ leBytes 8 (r.2.2 / w))
  else []

/-- Every lane of a command's namespace receives its part, of data that is encrypted where the namespace has a key (R234, R237). A
lane whose connection is not up fails as under R235. -/
def Dev.sendLanes (d : Dev) (now : NetTime) (n : Nat) (c : NvCmd) (ns : NsReq) (data : List Byte) : Dev :=
  let op := bitsOf c.sqe 0 8
  let w := ns.lanes.length
  let nlb := bitsOf (dwordOf c.sqe 12) 0 16 + 1
  let ranges := dsmRanges (bitsOf (dwordOf c.sqe 10) 0 8 + 1) data
  let len := if op = 1 ∨ op = 2 then nlb * ns.lba / max w 1 else if op = 9 then 16 * ranges.length else 0
  ns.lanes.zipIdx.foldl (fun y l =>
    let j : NvJob := { src := .ctl n l.2, conn := l.1.conn, second := l.1.secondary, sqe := laneSqe c.sqe w l.1,
                       data := laneData op w ns.elem l.2 data ranges, polder := c.vf, len := len }
    y.newJob now j) (d.setCmd n (some { c with units := [] }))

/-- An I/O command of a controller: its lanes receive it, or first the data of a Write is encrypted, where its namespace has a key
(R233, R234, R237). A slot that refuses the jobs ends the command with Internal Error (log entry 27). -/
def Dev.nvIo (d : Dev) (now : NetTime) (f sq : Nat) (r : NvRead) : Dev :=
  let sqe := r.sqe.toNat
  let op := bitsOf sqe 0 8
  let nsid := dwordOf sqe 1
  let cid := bitsOf sqe 16 16
  let ns := look none (d.ctl f).ns nsid
  let bad := nvIoCheck sqe ns r.data r.segs
  match ns with
  | none => d.nvPost f sq cid 0 0 bad
  | some s =>
    if bad ≠ 0 then d.nvPost f sq cid 0 0 bad
    else
      let n := d.sto.next
      let c : NvCmd := { vf := f, sq := sq, cid := cid, nsid := nsid, slba := bitsOf sqe 320 64, read := decide (op = 2),
                         left := s.lanes.length, bufs := r.bufs, sqe := sqe }
      let d1 : Dev := { d with sto := { d.sto with next := n + 1 } }
      let data := if op = 1 then slice r.data 0 ((bitsOf (dwordOf sqe 12) 0 16 + 1) * s.lba) else r.data
      match s.key with
      | some k =>
        if op ≠ 1 then d1.sendLanes now n c s data
        else if d.jobRefused k [5] true f then d.nvPost f sq cid 0 0 scInternal
        else d1.giveUnits n k s c true data
      | none => d1.sendLanes now n c s data

/-- The cipher jobs of a command's data units are done: an encrypted Write goes to its lanes, a decrypted Read to the host; one whose
job failed ends with Internal Error (R234; log entry 27). While a job runs the command waits. -/
def Dev.unitsDone (d : Dev) (now : NetTime) (n : Nat) : Dev :=
  match look none d.sto.cmds n with
  | none => d
  | some c =>
    let js := c.units.filterMap d.job
    if c.units.isEmpty || js.any (fun j => j.result.isNone && j.fail.isNone) then d
    else
      let d1 := c.units.foldl (fun (y : Dev) u => y.setJob u none) d
      let bytes := js.flatMap (fun j => (j.result.map (fun r => r.1)).getD [])
      match look none (d.ctl c.vf).ns c.nsid with
      | none => d1.cmdDone n c [] 0 scInternal
      | some ns =>
        if js.any (fun j => j.fail.isSome) then d1.cmdDone n c [] 0 scInternal
        else if c.read then d1.cmdDone n c bytes c.word 0
        else d1.sendLanes now n c ns bytes

/-- A controller executes a command that it took from a submission queue. -/
def Dev.nvExec (d : Dev) (now : NetTime) (f sq : Nat) (r : NvRead) : Dev :=
  let x := d.ctl f
  let s := x.queue sq false
  let d1 := d.setCtl f (x.setQueue sq false { s with head := (s.head + 1) % max s.size 1 })
  if sq = 0 then
    match d1.nvAdmin f r with
    | (d2, some (dw0, status)) => d2.nvPost f 0 (bitsOf r.sqe.toNat 16 16) dw0 0 status
    | (d2, none) => d2
  else d1.nvIo now f sq r

/-! ## Commands -/

/-- NVME_QUEUE_DOORBELL: doorbell `index` (even: submission tail, odd: completion head) takes a value; the controller fetches and
executes the commands that `cmds` holds as the host returns them. Ignored while CC.EN is 0 (R231, R233, R238). -/
def execNvmeQueueDoorbell (fn : Fn) (index : Fin 256) (value : BitVec 32) (cmds : List NvRead) : State → Host.Outcome State Fault Refusal :=
  onDev (fun now d =>
    let n := index.val / 2
    let cq := decide (index.val % 2 = 1)
    let x := d.ctl fn
    let q := x.queue n cq
    let v := bitsOf value.toNat 0 16
    if !d.memAnswers fn then d.urAnswer now fn
    else if (d.personaOf fn).isNone || !x.en || !q.used || decide (q.size ≤ v) then d
    else if cq then (d.setCtl fn (x.setQueue n true { q with head := v })).nvDrain fn n q.wait.length
    else
      let waiting := (v + q.size - q.head) % q.size
      (cmds.take waiting).foldl (fun y r => y.nvExec now fn n r) (d.setCtl fn (x.setQueue n false { q with tail := v })))

/-- CC_EN_CLEAR (R236). -/
def execCcEnClear (fn : Fn) : State → Host.Outcome State Fault Refusal :=
  onDev (fun now d => if !d.memAnswers fn then d.urAnswer now fn else d.nvStop fn)

/-- CC_SHN: the host writes CC.SHN (R236). -/
def execCcShn (fn : Fn) (shn : Fin 4) : State → Host.Outcome State Fault Refusal :=
  onDev (fun now d =>
    if !d.memAnswers fn then d.urAnswer now fn
    else if (d.personaOf fn).isNone then d
    else d.setCtl fn ((d.ctl fn).shutdown shn d.uptime))

/-- SHUTDOWN_COMPLETE: no command of the controller is outstanding, or 500 ms passed since it was asked to stop: CSTS.RDY reads 0 once
CC.EN is 0, and a shutdown in progress is complete (R236). -/
def execShutdownComplete (fn : Fn) : State → Host.Outcome State Fault Refusal :=
  onDev (fun _ d =>
    let x := d.ctl fn
    let busy := d.sto.cmds.any (fun e => (e.2.map (fun c => decide (c.vf = fn.val))).getD false)
    if (d.personaOf fn).isNone || (busy && decide (d.uptime < x.stopAt + 500000000)) then d
    else d.setCtl fn { x with rdy := x.rdy && x.en, shst := if x.shst = 1 then 2 else x.shst })

/-- CONTROLLER_ENABLE: the host sets CC.EN, and the controller serves its admin queue and reports CSTS.RDY (R231). -/
def execControllerEnable (fn : Fn) : State → Host.Outcome State Fault Refusal :=
  onDev (fun now d =>
    if !d.memAnswers fn then d.urAnswer now fn
    else if (d.personaOf fn).isNone || (d.ctl fn).en then d
    else d.setCtl fn (d.ctl fn).enable)

/-- Whether a namespace mapping obeys R232, R234 and R237: NSID 1 to 16, one lane or 2 to 16, the element and LBA sizes, and
connections of polders of the physical function. -/
def Dev.nsOk (d : Dev) (pf : Nat) (s : NsReq) : Bool :=
  let mine := fun (c : Bool × Nat) => decide (pfOf (d.connPolder c) = pf)
  decide (1 ≤ s.nsid ∧ s.nsid ≤ 16 ∧ 1 ≤ s.lanes.length ∧ s.lanes.length ≤ 16 ∧ 1 ≤ s.elem ∧ s.elem ≤ 64 ∧ (s.lba = 512 ∨ s.lba = 4096)
    ∧ s.lba % s.elem = 0) && (s.key.map (fun k => decide (k < 131072))).getD true && s.lanes.all (fun l => mine l.conn && (l.secondary.map mine).getD true)

/-- PERSONALITY_ASSIGN: a PF gives a virtual function of its own, before it enables it, the personality, and maps namespaces; a
function that has the personality takes the new mapping (R231, R234). At most 1,024 functions carry it. -/
def execPersonalityAssign (pf : Pf) (vf : Fn) (namespaces : List NsReq) : State → Host.Outcome State Fault Refusal :=
  onDev (fun _ d =>
    let f := 4096 * pf.val
    if !d.answerRoom f then d
    else
      let have_ := d.personaOf vf
      let slot := match have_ with
        | some v => some v
        | none => if d.fnExists vf then none else (List.range 1024).find? (fun v => decide (d.rd STO.PVF_EN v = 0))
      let ok := decide (pfOf vf = pf ∧ vf.val % 4096 ≠ 0) && namespaces.all (d.nsOk pf) && decide ((namespaces.map (fun s => s.nsid)).Nodup)
      match slot with
      | some v =>
        if ok then
          let d1 := ((d.wr STO.PVF_FUNC v vf).wr STO.PVF_EN v 1).wr STO.PVF_NSCOUNT v namespaces.length
          let d2 := if have_.isNone then d1.wr STO.PERSONA_COUNT 0 (d1.rd STO.PERSONA_COUNT + 1) else d1
          (d2.setCtl vf { d2.ctl vf with ns := namespaces.foldl (fun t s => Tbl.insert t s.nsid (some s)) [] }).storageAnswer f v
        else d.storageAnswer f 0
      | none => d.storageAnswer f 0)

end Sys2Proof.Machine
end

