-- ==== Sys2Proof/Machine/Tcp.lean ====
section
/-! DEFINITION. Offloaded storage TCP connections: segments received, delayed ACKs, retransmission (09 R226 to R228). The rules of
RFC 793, 5681, 6298, 6582 and 7323 that R227 names are PRESUMED (log entry 26). -/

namespace Sys2Proof.Machine

/-- A received segment: sequence and acknowledgement numbers, flags, window, timestamp option, payload. -/
structure Segment where
  seq   : Nat
  ack   : Nat
  flags : Nat
  wnd   : Nat
  ts    : Option Nat
  data  : List Byte

/-- The timestamp value in the options of a TCP header; the fuel is their length. -/
def tsOption : Nat → List Byte → Option Nat
  | 0, _ => none
  | fuel + 1, os =>
    match os with
    | [] => none
    | k :: rest =>
      if k = 0 then none
      else if k = 1 then tsOption fuel rest
      else
        let n := max 2 (rest.headD 2).toNat
        if k = 8 ∧ n = 10 then some (beAt os 2 4) else tsOption fuel (os.drop n)

/-- The offset of the IP header of a frame, a VLAN tag passed over. -/
def ipAt (bs : List Byte) : Nat := if beAt bs 12 2 = 0x8100 then 18 else 14

/-- Whether the TCP checksum of a frame is right (RFC 793). -/
def tcpSound (bs : List Byte) : Bool := decide (l4Sum bs (ipAt bs) (ipAt bs + ipLen bs (ipAt bs)) 6 = 65535)

/-- The segment that a frame carries behind its IPv4 or IPv6 header. -/
def readSegment (bs : List Byte) : Segment :=
  let l3 := ipAt bs
  let l4 := l3 + ipLen bs l3
  let h := (bs.getD (l4 + 12) 0).toNat / 16 * 4
  let stop := ipEnd bs l3
  { seq := beAt bs (l4 + 4) 4
    ack := beAt bs (l4 + 8) 4
    flags := (bs.getD (l4 + 13) 0).toNat
    wnd := beAt bs (l4 + 14) 2
    ts := tsOption 40 (slice bs (l4 + 20) (h - 20))
    data := slice bs (l4 + h) (stop - (l4 + h)) }

/-! ## Acknowledgements -/

/-- The distance from `a` to `b` in the sequence space. -/
def tcpDist (a b : Nat) : Nat := (b + 2 ^ 32 - a % 2 ^ 32) % 2 ^ 32

/-- The estimates after a round trip of `r` µs (RFC 6298): SRTT and RTTVAR. -/
def rttAfter (srtt rttvar r : Nat) : Nat × Nat :=
  if srtt = 0 then (r, r / 2)
  else ((7 * srtt + r) / 8, (3 * rttvar + (if srtt < r then r - srtt else srtt - r)) / 4)

/-- Send the oldest segment in flight again, and start its timer again: it counts in STO.TCPRETX. -/
def Dev.tcpResend (d : Dev) (now : NetTime) (c : Nat) : Dev :=
  let x := d.conn c
  match x.sent with
  | [] => d
  | s :: ss =>
    ((d.setConn c { x with timer := some d.uptime, sent := { s with retx := s.retx + 1, at_ := d.uptime } :: ss }).bump STO.TCPRETX_COUNT).tcpOut now c s.seq s.data

/-- An ACK of new data: the segments it covers leave, a round trip is measured on one that was not resent, and the window opens by
slow start or congestion avoidance (RFC 5681), or recovery goes on or ends (RFC 6582). Without a measurement the timeout stays as it
is (RFC 6298). -/
def Dev.ackNew (d : Dev) (now : NetTime) (c ack : Nat) : Dev :=
  let x := d.conn c
  let n := tcpDist x.p.una ack
  let covered := x.sent.filter (fun s => decide (tcpDist x.p.una (s.seq + s.data.length) ≤ n))
  let kept := x.sent.filter (fun s => decide (n < tcpDist x.p.una (s.seq + s.data.length)))
  let kept1 := match kept with
    | s :: ss =>
      let cut := n - min n (tcpDist x.p.una s.seq)
      { s with seq := (s.seq + cut) % 2 ^ 32, data := s.data.drop cut } :: ss
    | [] => []
  let sample := (covered.find? (fun s => decide (s.retx = 0))).map (fun s => rttAfter x.p.srtt x.p.rttvar ((d.uptime - s.at_) / 1000))
  let est := sample.getD (x.p.srtt, x.p.rttvar)
  let m := x.p.mss
  let partAck := x.fast && tcpBefore ack x.recover
  let cw := if partAck then x.p.cwnd - n + (if m ≤ n then m else 0)
    else if x.fast then min x.p.ssthresh (max (x.flight - n) m + m)
    else if x.p.cwnd < x.p.ssthresh then x.p.cwnd + min n m
    else x.p.cwnd + max 1 (m * m / max x.p.cwnd 1)
  let d1 := d.setConn c { x with
    sent := kept1
    p := { x.p with una := ack, srtt := est.1, rttvar := est.2, cwnd := cw }
    dups := 0
    fast := partAck
    timer := if kept1.isEmpty then none else some d.uptime
    rto := if sample.isSome then d.rtoOf est.1 est.2 else x.rto }
  if partAck then d1.tcpResend now c else d1

/-- A duplicate ACK: the third starts fast retransmit and fast recovery, further ones inflate the window (RFC 5681, 6582). -/
def Dev.ackDup (d : Dev) (now : NetTime) (c : Nat) : Dev :=
  let x := d.conn c
  if x.fast then d.setConn c { x with dups := x.dups + 1, p := { x.p with cwnd := x.p.cwnd + x.p.mss } }
  else if x.dups = 2 ∧ tcpBefore x.recover x.p.una = true then
    let half := max (x.flight / 2) (2 * x.p.mss)
    (d.setConn c { x with dups := 3, fast := true, recover := x.p.nxt, p := { x.p with ssthresh := half, cwnd := half + 3 * x.p.mss } }).tcpResend now c
  else d.setConn c { x with dups := x.dups + 1 }

/-- The acknowledgement and window of a segment. -/
def Dev.tcpAcked (d : Dev) (now : NetTime) (c : Nat) (g : Segment) : Dev :=
  let x := d.conn c
  let wnd := g.wnd * 2 ^ x.p.scale
  let isNew := tcpBefore x.p.una g.ack && decide (tcpDist x.p.una g.ack ≤ tcpDist x.p.una x.p.nxt)
  let isDup := decide (g.ack = x.p.una) && g.data.isEmpty && decide (wnd = x.p.sndWnd) && !x.sent.isEmpty && decide (g.flags % 4 = 0)
  let d1 := if isNew then d.ackNew now c g.ack else if isDup then d.ackDup now c else d
  let y := d1.conn c
  let d2 := d1.setConn c { y with p := { y.p with sndWnd := wnd } }
  d2.tcpPush now c y.toSend.length

/-! ## Ranges of the sequence space -/

/-- Ranges that touch or overlap become one, in the order of their distance from the byte expected next. -/
def joinRanges (rcv : Nat) : List (Nat × List Byte) → List (Nat × List Byte)
  | [] => []
  | r :: rest =>
    match joinRanges rcv rest with
    | [] => [r]
    | s :: ss =>
      let a := tcpDist rcv r.1
      let b := tcpDist rcv s.1
      if b ≤ a + r.2.length then (r.1, r.2 ++ s.2.drop (a + r.2.length - b)) :: ss else r :: s :: ss

/-- Put a range among the others by its distance. -/
def insertRange (rcv : Nat) (r : Nat × List Byte) : List (Nat × List Byte) → List (Nat × List Byte)
  | [] => [r]
  | s :: ss => if tcpDist rcv r.1 ≤ tcpDist rcv s.1 then r :: s :: ss else s :: insertRange rcv r ss

/-! ## What the stream holds (R228, R230) -/

/-- The part of the data that a range of an R2T asks for, as H2CData PDU. -/
def h2cData (p : TcpState) (cid ttag off : Nat) (data : List Byte) : List Byte :=
  pdu p.hdgst p.ddgst 6 4 (leBytes 2 cid ++ leBytes 2 ttag ++ leBytes 4 off ++ leBytes 4 data.length ++ leBytes 4 0) data

/-- The connection ends over a PDU: counted in STO.DIGESTERR, and announced by H2CTermReq with a fatal error status where the
connection can still send in clear (R230; log entry 26). -/
def Dev.pduError (d : Dev) (now : NetTime) (c fes : Nat) (bad : List Byte) : Dev :=
  let term := pdu false false 2 0 (leBytes 2 fes ++ List.replicate 14 0) (bad.take 24)
  let d1 := if (d.conn c).p.tls.isNone then d.tcpWrite now c term else d
  (d1.bump STO.DIGESTERR_COUNT).failConn now c

/-- A C2HData PDU: its bytes go to the command's data; with SUCCESS in the last one the command completes (R230). -/
def Dev.c2hData (d : Dev) (now : NetTime) (c n : Nat) (j : NvJob) (flags off : Nat) (data b : List Byte) : Dev :=
  if j.len < off + data.length then d.pduError now c 4 b
  else
    let recv := splice (j.recv ++ List.replicate (off + data.length - j.recv.length) 0) off data
    let d1 : Dev := { d with sto := { d.sto with jobs := put none d.sto.jobs n (some { j with recv := recv }) } }
    if flags.testBit 2 ∧ flags.testBit 3 then d1.cqeArrives (false, c) (n % 65536 * 2 ^ 96) else d1

/-- A whole PDU of the target: CapsuleResp, C2HData, R2T or C2HTermReq. Its digests are checked; a failed one, a TermReq and a PDU
that the connection does not take end the connection (R230). -/
def Dev.pduTake (d : Dev) (now : NetTime) (c : Nat) (b : List Byte) : Dev :=
  let p := (d.conn c).p
  let type := leAt b 0 1
  let flags := leAt b 1 1
  let off := leAt b 12 4
  let len := leAt b 16 4
  let pdo := leAt b 3 1
  let data := slice b pdo len
  let job := (d.jobOf (false, c) (leAt b 8 2)).bind (fun n => (look none d.sto.jobs n).map (fun j => (n, j)))
  if type = 3 then (d.bump STO.DIGESTERR_COUNT).failConn now c
  else if (type ≠ 5 ∧ type ≠ 7 ∧ type ≠ 9) ∨ leAt b 2 1 ≠ 24 then d.pduError now c 1 b
  else if p.hdgst ∧ slice b 24 4 ≠ digestOf (b.take 24) then d.pduError now c 3 b
  else if type = 5 then d.cqeArrives (false, c) (leAt b 8 16)
  else
    match job with
    | none => d.pduError now c 1 b
    | some (n, j) =>
      if type = 9 then
        if j.data.length < off + len then d.pduError now c 4 b
        else if !d.canSend c then d.failConn now c
        else d.tcpWrite now c (h2cData p (n % 65536) (leAt b 10 2) off (slice j.data off len))
      else if p.ddgst ∧ slice b (pdo + len) 4 ≠ digestOf data then (d.bump STO.DIGESTERR_COUNT).failConn now c
      else d.c2hData now c n j flags off data b

/-- Take the whole PDUs of the application bytes received, until the connection ends; the fuel is how many bytes there are. -/
def Dev.pduRun (d : Dev) (now : NetTime) (c : Nat) : Nat → Dev
  | 0 => d
  | fuel + 1 =>
    let x := d.conn c
    let n := leAt x.pduBuf 4 4
    if d.offloaded c = false ∨ x.pduBuf.length < 8 then d
    else if n < 24 then d.pduError now c 1 x.pduBuf
    else if x.pduBuf.length < n then d
    else ((d.setConn c { x with pduBuf := x.pduBuf.drop n }).pduTake now c (x.pduBuf.take n)).pduRun now c fuel

/-- Application bytes of a connection: delivered to the host in order, and read for PDUs of the target (R227, R230). -/
def Dev.appBytes (d : Dev) (now : NetTime) (c : Nat) (bytes : List Byte) : Dev :=
  let x := d.conn c
  ((d.send (.message 10 (c :: bytes.map BitVec.toNat))).setConn c { x with pduBuf := x.pduBuf ++ bytes }).pduRun now c
    (x.pduBuf.length + bytes.length)

/-- One whole TLS record, its header and its content: application_data is given to the scheduler to be opened with the receive slot
under the next record sequence number; an alert fails the connection; a record of another type goes to host software (R228; 10
R256). -/
def Dev.recordTake (d : Dev) (now : NetTime) (c rx : Nat) (rec : List Byte) : Dev :=
  let x := d.conn c
  let type := leAt rec 0 1
  let body := rec.drop 5
  if type = 0x15 then d.failConn now c
  else if type ≠ 0x17 then d.send (.reply (d.rd STO.TCONN_POLDER c) rec)
  else if body.length < 17 ∨ 16640 < body.length ∨ d.jobRefused rx tlsAlgs false (d.rd STO.TCONN_POLDER c) = true then d.failConn now c
  else
    let n := body.length - 16
    (d.setConn c { x with rxJobs := x.rxJobs ++ [d.cip.next], p := { x.p with rxSeq := x.p.rxSeq + 1 } }).giveJob (.openRecord c) x.p.queue rx
      false (recordNonce (d.key rx).iv x.p.rxSeq) (rec.take 5) (body.take n) (body.drop n)

/-- Take the whole TLS records of the stream bytes received, until the connection ends; the fuel is how many bytes there are. -/
def Dev.recordRun (d : Dev) (now : NetTime) (c rx : Nat) : Nat → Dev
  | 0 => d
  | fuel + 1 =>
    let x := d.conn c
    let n := 5 + beAt x.rxBuf 3 2
    if d.offloaded c = false ∨ x.rxBuf.length < 5 ∨ x.rxBuf.length < n then d
    else ((d.setConn c { x with rxBuf := x.rxBuf.drop n }).recordTake now c rx (x.rxBuf.take n)).recordRun now c rx fuel

/-- Stream bytes that are in sequence. -/
def Dev.streamBytes (d : Dev) (now : NetTime) (c : Nat) (bytes : List Byte) : Dev :=
  let x := d.conn c
  match x.p.tls with
  | none => d.appBytes now c bytes
  | some (_, rx) => (d.setConn c { x with rxBuf := x.rxBuf ++ bytes }).recordRun now c rx (x.rxBuf.length + bytes.length)

/-- The content of an opened record: padding and the content type at its end are taken off (RFC 8446). -/
def innerOf (out : List Byte) : List Byte × Nat :=
  match out.reverse.dropWhile (fun b => decide (b = 0)) with
  | [] => ([], 0)
  | t :: rest => (rest.reverse, t.toNat)

/-- A record was opened: application_data goes on to the host; an alert, and a record without a type, fail the connection; another
type is delivered to host software (R228). -/
def Dev.recordOpened (d : Dev) (now : NetTime) (c : Nat) (out : List Byte) : Dev :=
  let i := innerOf out
  if i.2 = 0x17 then d.appBytes now c i.1
  else if i.2 = 0x15 ∨ i.2 = 0 then d.failConn now c
  else d.send (.reply (d.rd STO.TCONN_POLDER c) i.1)

/-- Records of a connection whose jobs are done leave in order: sealed ones to the stream, opened ones to their content; one that
failed fails the connection (R228). The fuel is how many wait. -/
def Dev.recordsDone (d : Dev) (now : NetTime) (c : Nat) (sealed : Bool) : Nat → Dev
  | 0 => d
  | fuel + 1 =>
    let x := d.conn c
    match if sealed then x.txJobs else x.rxJobs with
    | [] => d
    | n :: ns =>
      match d.job n with
      | none => d
      | some j =>
        let d1 := (d.setConn c (if sealed then { x with txJobs := ns } else { x with rxJobs := ns })).setJob n none
        if d.offloaded c = false then d
        else if j.fail.isSome then d1.failConn now c
        else
          match j.result with
          | none => d
          | some (out, tag, _, _) =>
            let d2 := if sealed then d1.tcpQueue now c (j.aad ++ out ++ tag) else d1.recordOpened now c out
            d2.recordsDone now c sealed fuel

/-! ## Payload in sequence order (R227) -/

/-- The ranges that wait once a segment's payload in the window is among them. -/
def Conn.rangesWith (x : Conn) (g : Segment) : List (Nat × List Byte) :=
  let old := if tcpBefore g.seq x.p.rcv then tcpDist g.seq x.p.rcv else 0
  let seq := (g.seq + min old g.data.length) % 2 ^ 32
  let data := (g.data.drop old).take (x.window - tcpDist x.p.rcv seq)
  if data.isEmpty then x.ranges else joinRanges x.p.rcv (insertRange x.p.rcv (seq, data) x.ranges)

/-- Whether a segment would open a ninth range. -/
def Conn.ninth (x : Conn) (g : Segment) : Bool :=
  let all := x.rangesWith g
  decide (8 < all.length) && !decide (all.head?.map (fun r => r.1) = some x.p.rcv)

/-- Take a segment's payload: what is in sequence goes to the host in order, what is not waits in HBM; one that would open a ninth
range is dropped and counted. Every second full segment is acknowledged at once, another 200 µs after the first. -/
def Dev.tcpData (d : Dev) (now : NetTime) (c : Nat) (g : Segment) : Dev :=
  let x := d.conn c
  let all := x.rangesWith g
  if g.data.isEmpty then d
  else if all = x.ranges then d.tcpAck now c
  else if x.ninth g then (d.bump STO.OOODROP_COUNT).tcpAck now c
  else
    match all.head?.filter (fun r => decide (r.1 = x.p.rcv)) with
    | some r =>
      let d1 := d.setConn c { x with ranges := all.drop 1, p := { x.p with rcv := (x.p.rcv + r.2.length) % 2 ^ 32 } }
      let full := x.full + (if x.p.mss ≤ g.data.length then 1 else 0)
      let d2 := if full = 2 ∨ !x.ranges.isEmpty then d1.tcpAck now c
        else d1.setConn c { d1.conn c with full := full, ackAt := some (x.ackAt.getD d.uptime) }
      d2.streamBytes now c r.2
    | none => (d.setConn c { x with ranges := all }).tcpAck now c

/-- Whether a segment lies in the receive window. -/
def Conn.inWindow (x : Conn) (g : Segment) : Bool :=
  decide (tcpDist x.p.rcv g.seq < max x.window 1) || (decide (g.data ≠ []) && decide (tcpDist x.p.rcv (g.seq + g.data.length - 1) < x.window))

/-- A FIN in sequence: the connection returns to host software, which finishes the close (R228). -/
def Dev.tcpFin (d : Dev) (now : NetTime) (c : Nat) (g : Segment) : Dev :=
  let x := d.conn c
  if g.flags.testBit 0 ∧ (g.seq + g.data.length) % 2 ^ 32 = x.p.rcv ∧ d.offloaded c = true then
    ((d.setConn c { x with p := { x.p with rcv := (x.p.rcv + 1) % 2 ^ 32 } }).tcpAck now c).wr STO.TCONN_STATE c 3
  else d

/-- The transport unit processes a segment of an offloaded connection. -/
def Dev.tcpSegment (d : Dev) (now : NetTime) (c : Nat) (g : Segment) : Dev :=
  let x := d.conn c
  if g.flags.testBit 2 then (if decide (tcpDist x.p.rcv g.seq < max x.window 1) then d.failConn now c else d)
  else
    let stale := match x.p.ts, g.ts with
      | some last, some t => tcpBefore t last
      | _, _ => false
    if stale || g.flags.testBit 1 || !x.inWindow g then d.tcpAck now c
    else
      let d0 := match x.p.ts, g.ts with
        | some _, some t => if tcpBefore x.p.rcv g.seq then d else d.setConn c { x with p := { x.p with ts := some t } }
        | _, _ => d
      let d1 := if g.flags.testBit 4 then d0.tcpAcked now c g else d0
      (d1.tcpData now c g).tcpFin now c g

/-- The segment that a connection takes next, and those that stay: the oldest, but where it would open a ninth range and the one
behind it fills a hole, that one (R238). -/
def Conn.nextSegment (x : Conn) : List Packet → Option (Packet × List Packet)
  | [] => none
  | [p] => some (p, [])
  | p :: q :: ps =>
    let g := readSegment q.bytes
    let fills := decide (g.data ≠ []) && !x.ninth g && decide ((x.rangesWith g).length ≤ x.ranges.length)
    if x.ninth (readSegment p.bytes) && fills && decide (q.onward = []) then some (q, p :: ps) else some (p, q :: ps)

/-- TCP_SEGMENT_RECEIVE: the transport unit processes the next segment that reached the ring of an offloaded connection; one whose
cipher jobs are not merged waits (R227; 10 R251). A segment with a wrong checksum is dropped, and what reached the ring of a
connection that has ended meanwhile goes to host software. -/
def execTcpSegmentReceive (conn : Fin 16384) : State → Host.Outcome State Fault Refusal :=
  onDev (fun now d =>
    match (d.conn conn).nextSegment (look [] d.sto.segs conn) with
    | none => d
    | some (p, ps) =>
      let d1 : Dev := { d with sto := { d.sto with segs := put [] d.sto.segs conn ps } }
      if p.onward ≠ [] then d
      else if !d.offloaded conn then d1.rxDeliver now (d.conn conn).p.ring p
      else
        let d2 := d1.leave p true none
        if tcpSound p.bytes then d2.tcpSegment now conn (readSegment p.bytes) else d2)

/-- DELAYED_ACK: 200 µs after the first segment that was not acknowledged, an ACK is sent (R227). -/
def execDelayedAck (conn : Fin 16384) : State → Host.Outcome State Fault Refusal :=
  onDev (fun now d =>
    match (d.conn conn).ackAt with
    | some t => if d.offloaded conn && decide (t + 200000 ≤ d.uptime) then d.tcpAck now conn else d
    | none => d)

/-- Whether a segment that waits acknowledges the oldest segment in flight of a connection (R238). -/
def Dev.ackWaits (d : Dev) (c : Nat) (s : SentSeg) : Bool :=
  let x := d.conn c
  (look [] d.sto.segs c).any (fun p =>
    let g := readSegment p.bytes
    g.flags.testBit 4 && decide (tcpDist x.p.una (s.seq + s.data.length) ≤ tcpDist x.p.una g.ack)
      && decide (tcpDist x.p.una g.ack ≤ tcpDist x.p.una x.p.nxt))

/-- RETRANSMIT_TIMER: the timeout passed since the timer started: the oldest segment in flight is sent again, the timeout doubles up to
60 s, and the window shrinks to one segment; after STO.TCPCFG.MAXRETX resends without acknowledgement the connection fails
(R227, R228). An ACK that covers the segment wins, and nothing is sent (R238). -/
def execRetransmitTimer (conn : Fin 16384) : State → Host.Outcome State Fault Refusal :=
  onDev (fun now d =>
    let x := d.conn conn
    let due := match x.timer with
      | some t => decide (t + 1000 * x.rto ≤ d.uptime)
      | none => false
    match x.sent with
    | [] => d
    | s :: _ =>
      if !d.offloaded conn || !due || d.ackWaits conn s then d
      else if d.rd STO.TCPCFG_MAXRETX ≤ s.retx then d.failConn now conn
      else
        let half := max (x.flight / 2) (2 * x.p.mss)
        (d.setConn conn { x with
          rto := min (2 * x.rto) 60000000
          fast := false
          dups := 0
          recover := x.p.nxt
          p := { x.p with ssthresh := half, cwnd := x.p.mss } }).tcpResend now conn)

end Sys2Proof.Machine
end

