-- ==== Sys2Proof/Machine/CipherJobs.lean ====
section
/-! DEFINITION. A cipher job that its core finishes: jobs of programs (10 R254), and those of the transport unit (10 R256; 09 R228,
R230, R234). -/

namespace Sys2Proof.Machine

/-- A job is done: a return job answers its ticket, an onward job waits for its merge, a TLS record goes on in its connection, and the
data units of a command go on with it. The job of a record or a command that ended meanwhile is discarded. -/
def Dev.jobFinished (d : Dev) (now : NetTime) (n : Nat) (j : Job) : Dev :=
  match j.own with
  | .program => if j.queue = 0 then d.returnDone n j else d.onwardDone n j
  | .sealRecord c =>
    if (d.conn c).txJobs.contains n then (d.setJob n (some j.done)).recordsDone now c true (d.conn c).txJobs.length else d.setJob n none
  | .openRecord c =>
    if (d.conn c).rxJobs.contains n then (d.setJob n (some j.done)).recordsDone now c false (d.conn c).rxJobs.length else d.setJob n none
  | .unit m =>
    if ((look none d.sto.cmds m).map (fun c => c.units.contains n)).getD false then (d.setJob n (some j.done)).unitsDone now m
    else d.setJob n none

/-- JOB_COMPLETE: the job that a core runs is done, and the core is free for the next (10 R243). -/
def execJobComplete (core : Fin 32) : State → Host.Outcome State Fault Refusal :=
  onDev (fun now d =>
    match (d.core core).run with
    | none => d
    | some n =>
      let d1 := d.setCore core { d.core core with run := none }
      match d1.job n with
      | none => d1
      | some j => d1.jobFinished now n j)

end Sys2Proof.Machine
end

