-- ==== Sys2Proof/Machine/Keys.lean ====
section
/-! DEFINITION. The key loader's requests, and the battery domain: root key, real-time clock, tamper log and alarms (10 R261 to
R276). A request is the command as the key loader serves it (log entry 24); the order of its checks is the model's (log
entry 25). -/

namespace Sys2Proof.Machine

/-! ## Answers (R265) -/

/-- Codes of R265. -/
abbrev keyNotPermitted : Nat := 0x01
abbrev keyNoSession : Nat := 0x02
abbrev keyUnwrapFails : Nat := 0x03
abbrev keyBadAttr : Nat := 0x04
abbrev keySlotBusy : Nat := 0x05
abbrev keyNoRoot : Nat := 0x06
abbrev keyTampered : Nat := 0x07
abbrev keyNoExport : Nat := 0x08
abbrev keyEntropy : Nat := 0x09
abbrev keyBadSlot : Nat := 0x0A
abbrev keyState : Nat := 0x0B
abbrev keyWeak : Nat := 0x0C

/-- The key loader answers a request; a refusal is counted and raises EVT 10.9. -/
def Dev.keyAnswer (d : Dev) (now : NetTime) (pf req code : Nat) : Dev :=
  let d1 := d.wr KEY.REFUSED_LAST 0 code
  let d2 := if code = 0 then d1 else (d1.bump KEY.REFUSED_COUNT).raise now (ev 10 9) (code + req * 256) (some (4096 * pf))
  d2.answerKey pf (leBytes 1 code)

/-- Write a reply buffer of a PF. -/
def Dev.keyReply (d : Dev) (pf : Nat) (addr : Word) (bytes : List Byte) : Dev := d.hostWrite (4096 * pf) addr.toNat bytes

/-- `n` words drawn from a DRBG instance, each a free value. -/
def Dev.drawWords (d : Dev) : Nat → Dev × Nat
  | 0 => (d, 0)
  | n + 1 => match d.drawn.drawWords n with
    | (d1, v) => (d1, d.freeVal.toNat + 2 ^ 64 * v)

/-- Whether the key loader may serve a PF's request now: it takes the requests of the two PFs in turn (R261). -/
def Dev.keyTurn (d : Dev) (pf : Nat) : Bool :=
  decide (d.cip.keyRot = pf) || !(d.inboxOf idKeys).any (fun m => decide (m.sender = 4096 * (1 - pf)))

/-- The key loader serves a request of a PF, in its turn; the other PF is next. A request out of turn waits. -/
def keyServes (pf : Pf) (f : NetTime → Dev → Dev) : State → Host.Outcome State Fault Refusal :=
  onDev (fun now d => if d.keyTurn pf then f now { d with cip := { d.cip with keyRot := 1 - pf.val, keyMet := 0 } } else d)

/-- A request that an alarm meets aborts with TAMPERED, and GENERATE with ENTROPY where an entropy failure meets it; neither returns
anything (R277). What met it came between its message and its answer. -/
def keyServesMet (pf : Pf) (req : Nat) (f : NetTime → Dev → Dev) : State → Host.Outcome State Fault Refusal :=
  onDev (fun now d =>
    let d1 : Dev := { d with cip := { d.cip with keyRot := 1 - pf.val, keyMet := 0 } }
    if !d.keyTurn pf then d
    else if d.cip.keyMet = keyTampered ∨ (d.cip.keyMet = keyEntropy ∧ req = 3) then d1.keyAnswer now pf req d.cip.keyMet
    else f now d1)

/-- Something meets the request that the key loader serves, if it serves one: an alarm goes before an entropy failure. -/
def Dev.meetKey (d : Dev) (code : Nat) : Dev :=
  if (d.inboxOf idKeys).isEmpty || decide (d.cip.keyMet = keyTampered) then d else { d with cip := { d.cip with keyMet := code } }

/-! ## Slots (R261, R263, R264) -/

/-- Whether a slot lies in the key range of a polder of a PF's family (R261). -/
def Dev.keyInRange (d : Dev) (pf owner s : Nat) : Bool :=
  decide (owner < 8192 ∧ pfOf owner = pf ∧ d.rd VIR.PKEY_BASE owner ≤ s ∧ s < d.rd VIR.PKEY_BASE owner + d.rd VIR.PKEY_COUNT owner)

/-- A PF may name a loaded slot of one of its polders, in that polder's range. -/
def Dev.mayNameKey (d : Dev) (pf s : Nat) : Bool := decide ((d.key s).st = 1) && d.keyInRange pf (d.key s).owner s

/-- The attribute block as a slot, without material (R263). -/
def readAttrs (a : List Byte) : KeySlot :=
  { st := 1
    alg := leAt a 0 1
    dirs := leAt a 1 1 % 4
    exp := (leAt a 1 1).testBit 2
    scope := leAt a 2 1
    owner := leAt a 4 2
    ctrlim := leAt a 8 8
    counter := 1 }

/-- Whether an attribute block keeps to R246 and R259. -/
def attrsOk (a : List Byte) : Bool :=
  decide (leAt a 0 1 ≤ 5 ∧ leAt a 1 1 < 8 ∧ leAt a 1 1 % 4 ≠ 0 ∧ leAt a 2 1 ≤ 2 ∧ leAt a 3 1 = 0 ∧ leAt a 4 2 < 8192 ∧ leAt a 6 2 = 0
    ∧ leAt a 16 16 = 0)

/-- The bits of material that an algorithm names (R246). -/
def keyBits (alg : Nat) : Nat := if alg = 5 then 512 else if alg = 0 ∨ alg = 2 then 224 else 352

/-- An XTS key whose halves are equal (R263). -/
def weakKey (alg key : Nat) : Bool := decide (alg = 5 ∧ key % 2 ^ 256 = key / 2 ^ 256)

/-- The plaintext of a slot: attribute block and material (R263). -/
def KeySlot.plain (x : KeySlot) : List Byte :=
  leBytes 1 x.alg ++ leBytes 1 (x.dirs + (if x.exp then 4 else 0)) ++ leBytes 2 x.scope ++ leBytes 4 x.owner ++ leBytes 8 x.ctrlim
    ++ leBytes 16 0 ++ leBytes 64 x.key

/-- Put a plaintext into an EMPTY slot, or answer why not. -/
def Dev.loadKey (d : Dev) (pf s : Nat) (plain : List Byte) : Dev × Nat :=
  let x := readAttrs plain
  let key := leAt plain 32 64
  if !attrsOk plain || decide (2 ^ keyBits x.alg ≤ key) then (d, keyBadAttr)
  else if !d.keyInRange pf x.owner s then (d, keyBadSlot)
  else if (d.key s).st ≠ 0 then (d, keySlotBusy)
  else if weakKey x.alg key then (d, keyWeak)
  else (d.setKey s { x with key := key }, 0)

/-- Whether the battery domain is TAMPERED, or ARMED (R272). -/
def Dev.tampered (d : Dev) : Bool := decide (d.rd BAT.STATE_ST = 2)
def Dev.armed (d : Dev) : Bool := decide (d.rd BAT.STATE_ST = 1)

/-- End the session of a PF (R262). -/
def Dev.endSession (d : Dev) (pf : Nat) : Dev :=
  ({ d with cip := { d.cip with sess := put none d.cip.sess pf none } }).wr (if pf = 0 then KEY.STATUS_SESS0 else KEY.STATUS_SESS1) 0 0

/-- The FixedInfo of a session's KDF (R262). -/
def sessionInfo (pf session : Nat) : List Byte := [0x48, 0x51, 0x4B, 0x54, BitVec.ofNat 8 pf] ++ beBytes 4 session

/-- A session from the device's random bits: the transport key, the device's public key and its signature (R262). The bits give the
ephemeral key, the number of the signature, and what stands for the shared secret where the host's key is no point of the curve
(log entry 25). -/
def sessionOf (v pf session : Nat) (hostKey : List Byte) : Nat × List Byte × List Byte :=
  let own := scalarOf (v % 2 ^ 384)
  let pub := pointBytes (mulPoint 384 own g384)
  let z := (ecdh own hostKey).getD (beBytes 48 (v / 2 ^ 768))
  (leNat (oneStepKdf z (sessionInfo pf session)), pub,
    ecdsaSign (scalarOf Config.identityKey) (scalarOf (v / 2 ^ 384 % 2 ^ 384)) (hostKey ++ pub ++ beBytes 4 session))

/-- SESSION: a new transport session, which ends the PF's previous one (R262). Reply: device key, session number, signature. -/
def execSession (pf : Pf) (hostKey : List Byte) (reply : Word) : State → Host.Outcome State Fault Refusal :=
  keyServesMet pf 1 (fun now d =>
    if d.drbgStopped 12 then d.keyAnswer now pf 1 keyEntropy
    else
      let n := look 0 d.cip.sessNo pf + 1
      let x := sessionOf (d.drawWords 18).2 pf n (slice hostKey 0 96)
      let d0 := (((d.drawWords 18).1).drawMask 32).1.drbgRequest now 12
      let d1 : Dev := { d0 with cip := { d0.cip with
        sess := put none d0.cip.sess pf (some (n, x.1))
        sessNo := put 0 d0.cip.sessNo pf n } }
      ((d1.wr (if pf.val = 0 then KEY.STATUS_SESS0 else KEY.STATUS_SESS1) 0 1).keyReply pf reply
        (x.2.1 ++ leBytes 4 n ++ x.2.2)).keyAnswer now pf 1 0)

/-- LOAD: a blob is unwrapped under the session key into an EMPTY slot (R263). -/
def execKeyLoad (pf : Pf) (slot : Fin 131072) (blob : List Byte) : State → Host.Outcome State Fault Refusal :=
  keyServesMet pf 2 (fun now d =>
    if d.tampered then d.keyAnswer now pf 2 keyTampered
    else match look none d.cip.sess pf with
      | none => d.keyAnswer now pf 2 keyNoSession
      | some (_, kt) =>
        match keyUnwrap (leBytes 32 kt) (slice blob 0 104) with
        | none => d.keyAnswer now pf 2 keyUnwrapFails
        | some plain => match d.loadKey pf slot plain with
          | (d1, code) => d1.keyAnswer now pf 2 code)

/-- ENTROPY_TEST_FAIL: the source stops (R268); a GENERATE being served ends with ENTROPY (R277). -/
def execEntropyTestFail : State → Host.Outcome State Fault Refusal :=
  onDev (fun now d => if d.rd CIP.ENTSTAT_OK = 0 then d else ((d.wr CIP.ENTSTAT_OK 0 0).raise now (ev 10 7)).meetKey keyEntropy)

/-- GENERATE: an EMPTY slot is filled with DRBG output under the attributes given (R261, R263). -/
def execGenerate (pf : Pf) (slot : Fin 131072) (attrs : List Byte) : State → Host.Outcome State Fault Refusal :=
  keyServesMet pf 3 (fun now d =>
    if d.tampered then d.keyAnswer now pf 3 keyTampered
    else if d.drbgStopped 12 then d.keyAnswer now pf 3 keyEntropy
    else
      let a := slice attrs 0 32
      match d.drawWords 8 with
      | (d1, v) => match (d1.drbgRequest now 12).loadKey pf slot (a ++ leBytes 64 (v % 2 ^ keyBits (leAt a 0 1))) with
        | (d2, code) => d2.keyAnswer now pf 3 code)

/-- The header of an exported blob, and its AAD (R264). -/
def exportHeader : List Byte := [0x48, 0x51, 0x31, 0x36] ++ leBytes 2 1 ++ leBytes 10 0

/-- The key material that holds the root wrapping key as AES-256-GCM takes a slot's (R246, R264). -/
abbrev algGcm256 : Nat := 1

/-- EXPORT: the slot's plaintext sealed under the root key (R264). `ecc` is what the read of the slot finds (R260). -/
def execExport (pf : Pf) (slot : Fin 131072) (reply : Word) (ecc : Ecc) : State → Host.Outcome State Fault Refusal :=
  keyServesMet pf 4 (fun now d0 =>
    let d := d0.slotEcc now slot ecc
    let x := d.key slot
    if !d.mayNameKey pf slot then d.keyAnswer now pf 4 keyBadSlot
    else if !d.armed then d.keyAnswer now pf 4 keyNoRoot
    else if !x.exp || decide (x.dirs % 2 = 1 ∧ x.alg ≠ 5) then d.keyAnswer now pf 4 keyNoExport
    else if d.drbgStopped 12 then d.keyAnswer now pf 4 keyEntropy
    else match d.drawWords 2 with
      | (d1, v) =>
        let nonce := leBytes 12 v
        let k := d.bat.rootKey
        let ct := cipherText algGcm256 true k nonce x.plain
        let tag := cipherTag algGcm256 k nonce exportHeader ct
        ((d1.drbgRequest now 12).keyReply pf reply (exportHeader ++ nonce ++ ct ++ tag)).keyAnswer now pf 4 0)

/-- IMPORT: an exported blob is loaded into an EMPTY slot (R264). -/
def execImport (pf : Pf) (slot : Fin 131072) (blob : List Byte) : State → Host.Outcome State Fault Refusal :=
  keyServesMet pf 5 (fun now d =>
    let k := d.bat.rootKey
    let nonce := slice blob 16 12
    let ct := slice blob 28 96
    let tag := cipherTag algGcm256 k nonce exportHeader ct
    if d.tampered then d.keyAnswer now pf 5 keyTampered
    else if !d.armed then d.keyAnswer now pf 5 keyNoRoot
    else if slice blob 0 16 ≠ exportHeader ∨ slice blob 124 16 ≠ tag then d.keyAnswer now pf 5 keyUnwrapFails
    else match d.loadKey pf slot (cipherText algGcm256 false k nonce ct) with
      | (d1, code) => d1.keyAnswer now pf 5 code)

/-- RETIRE: ACTIVE to RETIRING (R258). -/
def execRetire (pf : Pf) (slot : Fin 131072) : State → Host.Outcome State Fault Refusal :=
  keyServes pf (fun now d =>
    if !d.mayNameKey pf slot then d.keyAnswer now pf 6 keyBadSlot
    else (d.setKey slot { d.key slot with st := 2 }).keyAnswer now pf 6 0)

/-- QUERY: attributes, state and counter (R261), in the model's layout of the reply (log entry 24): the attribute block of
R263, then 8 bytes state and 8 bytes counter. -/
def execKeyQuery (pf : Pf) (slot : Fin 131072) (reply : Word) : State → Host.Outcome State Fault Refusal :=
  keyServes pf (fun now d =>
    let x := d.key slot
    let mine := if x.st = 0 then (List.range 4096).any (fun i => d.keyInRange pf (4096 * pf.val + i) slot) else d.keyInRange pf x.owner slot
    if !mine then d.keyAnswer now pf 7 keyBadSlot
    else (d.keyReply pf reply (x.plain.take 32 ++ leBytes 8 x.st ++ leBytes 8 x.counter)).keyAnswer now pf 7 0)

/-- CERT: the device identity certificate (R262). -/
def execCert (pf : Pf) (reply : Word) : State → Host.Outcome State Fault Refusal :=
  keyServes pf (fun now d => (d.keyReply pf reply Config.certificate).keyAnswer now pf 8 0)

/-! ## The battery domain (R271 to R276) -/

/-- ROOTGEN: UNINIT to ARMED with a fresh root key. -/
def execRootgen (pf : Pf) : State → Host.Outcome State Fault Refusal :=
  keyServes pf (fun now d =>
    if pf.val ≠ 0 then d.keyAnswer now pf 9 keyNotPermitted
    else if d.rd BAT.STATE_ST ≠ 0 then d.keyAnswer now pf 9 keyState
    else match d.drawWords 4 with
      | (d1, v) => (({ d1 with bat := { d1.bat with rootKey := v } }).wr BAT.STATE_ST 0 1).keyAnswer now pf 9 0)

/-- TAMPER_ACK: TAMPERED to UNINIT; CIS answers by the slots again (R276). -/
def execTamperAck (pf : Pf) : State → Host.Outcome State Fault Refusal :=
  keyServes pf (fun now d =>
    if pf.val ≠ 0 then d.keyAnswer now pf 10 keyNotPermitted
    else if !d.tampered then d.keyAnswer now pf 10 keyState
    else ((({ d with bat := { d.bat with seq := 0 } }).wr BAT.STATE_ST 0 0).wr CIP.STATUS_TAMPER 0 0).keyAnswer now pf 10 0)

/-- TAMPER_CFG: BAT.TCFG is written, unless its LOCK bit is set. -/
def execTamperCfg (pf : Pf) (tcfg : BitVec 16) : State → Host.Outcome State Fault Refusal :=
  keyServes pf (fun now d =>
    let v := tcfg.toNat
    if pf.val ≠ 0 then d.keyAnswer now pf 11 keyNotPermitted
    else if d.rd BAT.TCFG_LOCK = 1 then d.keyAnswer now pf 11 keyState
    else (((((d.wr BAT.TCFG_EN 0 (bitsOf v 0 4)).wr BAT.TCFG_POL 0 (bitsOf v 4 4)).wr BAT.TCFG_MESHEN 0 (bitsOf v 8 1)).wr BAT.TCFG_ACLKMON 0
      (bitsOf v 9 1)).wr BAT.TCFG_LOCK 0 (bitsOf v 15 1)).keyAnswer now pf 11 0)

/-- SET_RTC: the clock is set and valid. -/
def execSetRtc (pf : Pf) (rtc : BitVec 47) : State → Host.Outcome State Fault Refusal :=
  keyServes pf (fun now d =>
    if pf.val ≠ 0 then d.keyAnswer now pf 12 keyNotPermitted
    else
      let d1 : Dev := { d with bat := { d.bat with part := 0 } }
      (((d1.wr BAT.RTC_SUB 0 (rtc.toNat % 2 ^ 15)).wr BAT.RTC_SEC 0 (rtc.toNat / 2 ^ 15)).wr BAT.STATE_RTCVALID 0 1).keyAnswer now pf 12 0)

/-- The log entry of an alarm (R275); VBAT's reading is a free value. -/
def Dev.logAlarm (d : Dev) (src : Nat) : Dev :=
  let i := d.rd BAT.LOGSTAT_NEXT
  let d0 : Dev := { d.drawn with bat := { d.bat with seq := d.bat.seq + 1 } }
  let d1 := ((((d0.wr BAT.LOG_TIME i (d.rd BAT.RTC_SUB + d.rd BAT.RTC_SEC * 2 ^ 15)).wr BAT.LOG_SRC i src).wr BAT.LOG_MAIN i
    (if d.bat.main then 1 else 0)).wr BAT.LOG_VBAT i d.freeVal.toNat).wr BAT.LOG_SEQ i d0.bat.seq
  let d2 := d1.wr BAT.LOGSTAT_NEXT 0 ((i + 1) % 16)
  if d.rd BAT.LOGSTAT_COUNT < 16 then d2.wr BAT.LOGSTAT_COUNT 0 (d.rd BAT.LOGSTAT_COUNT + 1) else d2.bump BAT.LOGSTAT_OVERFLOW

/-- Zeroise every slot that holds a key. -/
def Dev.zeroiseAll (d : Dev) : Dev := (d.cip.slots.map (fun e => e.1)).foldl Dev.zeroise d

/-- A recognised alarm (R274): the root key, ST and the log; with the main supplies present, every slot, the sessions, the tamper
status and EVT 10.10. -/
def Dev.alarm (d : Dev) (now : NetTime) (src : Nat) : Dev :=
  let d1 := (({ d with bat := { d.bat with rootKey := 0 } }).wr BAT.STATE_ST 0 2).logAlarm src
  if d.bat.main then
    (((((d1.zeroiseAll.endSession 0).endSession 1).wr CIP.STATUS_TAMPER 0 1)).raise now (ev 10 10) src).meetKey keyTampered
  else d1

/-- Whether the battery domain has a supply (R271). -/
def Dev.batRuns (d : Dev) : Bool := d.bat.main || d.bat.vbat

/-- ZEROISE_ALL: every slot and the root key, as a commanded alarm (R261, R273). -/
def execZeroiseAll (pf : Pf) : State → Host.Outcome State Fault Refusal :=
  keyServes pf (fun now d =>
    let d1 := d.alarm now 64
    ({ d1 with cip := { d1.cip with keyMet := 0 } }).keyAnswer now pf 13 0)

/-- TAMPER_INPUT: tamper inputs that hold their active level; those that TCFG enables are recognised, together (R273, R275). -/
def execTamperInput (inputs : BitVec 4) : State → Host.Outcome State Fault Refusal :=
  onDev (fun now d =>
    let src := inputs.toNat &&& d.rd BAT.TCFG_EN
    if src = 0 || !d.batRuns then d else d.alarm now src)

/-- MESH_MISMATCH: the mesh is open or shorted (R273). -/
def execMeshMismatch : State → Host.Outcome State Fault Refusal :=
  onDev (fun now d => if d.rd BAT.TCFG_MESHEN = 1 && d.batRuns then d.alarm now 16 else d)

/-- ACLK_STOP: ACLK stopped for 1 ms (R273). -/
def execAclkStop : State → Host.Outcome State Fault Refusal :=
  onDev (fun now d => if d.rd BAT.TCFG_ACLKMON = 1 && d.batRuns then d.alarm now 32 else d)

/-- The battery domain as it reads after it was lost, or first supplied: UNINIT, no root key, an empty log, no configuration. -/
def Dev.batStart (d : Dev) (loss : Bool) : Dev :=
  let d1 := ([BAT.STATE_ST, BAT.STATE_RTCVALID, BAT.STATE_BATLOW, BAT.RTC_SUB, BAT.RTC_SEC, BAT.TCFG_EN, BAT.TCFG_POL, BAT.TCFG_MESHEN,
    BAT.TCFG_ACLKMON, BAT.TCFG_LOCK, BAT.LOGSTAT_COUNT, BAT.LOGSTAT_NEXT, BAT.LOGSTAT_OVERFLOW] : List Fld).foldl (fun (y : Dev) f => y.wr f 0 0) d
  let d2 := (List.range 16).foldl (fun (y : Dev) i => ((((y.wr BAT.LOG_TIME i 0).wr BAT.LOG_SRC i 0).wr BAT.LOG_MAIN i 0).wr BAT.LOG_VBAT i 0).wr
    BAT.LOG_SEQ i 0) d1
  { d2.wr BAT.STATE_BATLOSS 0 (if loss then 1 else 0) with bat := { d.bat with rootKey := 0, seq := 0, part := 0, lost := loss || d.bat.lost } }

/-- BATTERY_LOSS: VBAT falls below 2.0 V while the main supplies are absent: the domain is lost (R272). -/
def execBatteryLoss : State → Host.Outcome State Fault Refusal :=
  onDev (fun _ d => if d.bat.main then d else { d.batStart true with bat := { (d.batStart true).bat with vbat := false } })

/-- With the main supplies present, BATLOW shows whether VBAT is below 2.2 V, with EVT 10.12 at most once per hour (R272). -/
def Dev.showBatlow (d : Dev) (now : NetTime) : Dev :=
  let low := d.bat.main && d.bat.low
  let d1 := d.wr BAT.STATE_BATLOW 0 (bitNat low)
  if low then d1.raiseHour now (ev 10 12) 0 else d1

/-- BATLOW: VBAT falls below 2.2 V, or rises above it. -/
def execBatlow (low : Bool) : State → Host.Outcome State Fault Refusal :=
  onDev (fun now d => ({ d with bat := { d.bat with low := low } }).showBatlow now)

/-- VBAT_APPLICATION: VBAT is applied to a domain that has none: it starts in UNINIT, with its clock and its monitors (R272). A
loss that no power-up has reported yet stays to be reported. -/
def execVbatApplication : State → Host.Outcome State Fault Refusal :=
  onDev (fun _ d =>
    if d.bat.vbat then d
    else
      let d1 := if d.bat.main then d else d.batStart d.bat.lost
      { d1 with bat := { d1.bat with vbat := true } })

/-- The real-time clock after `n` nanoseconds (R271). -/
def Dev.rtcRun (d : Dev) (n : Nat) : Dev :=
  let p := d.bat.part + 32768 * n
  let t := d.rd BAT.RTC_SUB + d.rd BAT.RTC_SEC * 2 ^ 15 + p / 1000000000
  if !d.bat.main && !d.bat.vbat then d
  else
    let d1 : Dev := { d with bat := { d.bat with part := p % 1000000000 } }
    if p < 1000000000 then d1 else (d1.wr BAT.RTC_SUB 0 (t % 2 ^ 15)).wr BAT.RTC_SEC 0 (t / 2 ^ 15)

end Sys2Proof.Machine
end

