-- ==== Sys2Proof/Machine/Verify.lean ====
section
/-! DEFINITION. The loader's verifier (04 R88 to R101): the image's format, the decoding of the packet profile, the structure
rules, the tickets, the roles and limits, the bound and the issue count. A check answers the words that fail it; the
lowest is reported. -/

namespace Sys2Proof.Machine

/-! ## The image (R88 to R90) -/

/-- The words of a byte string, least significant byte first; the count says how many. -/
def leWords : Nat → List Byte → List Nat
  | 0, _ => []
  | n + 1, bs => leAt bs 0 4 :: leWords n (bs.drop 4)

/-- Whether a byte range lies outside bytes 128 to LENGTH − 193. -/
def outside (len s e : Nat) : Bool := decide (s < 128 ∨ len < e + 192)

/-- Follow `n` jump tables from a byte offset on: the tables as (offset, entries), where they end, and the word of a length
that is out of range. -/
def jtabWalk (img : List Byte) : Nat → Nat → List (Nat × List Nat) × Nat × Option Nat
  | 0, pos => ([], pos, none)
  | n + 1, pos =>
    let w := leAt img pos 4
    if w = 0 ∨ 256 < w then ([], pos + 4, some (pos / 4))
    else match jtabWalk img n (pos + 4 + 4 * w) with
      | (l, e, b) => ((pos, leWords w (img.drop (pos + 4))) :: l, e, b)

/-- The function table's entries: START and END words with all their bits. -/
def ftabRaw (img : List Byte) : List (Nat × Nat) :=
  (List.range (leAt img 28 2)).map (fun i => (leAt img (leAt img 24 4 + 8 * i) 4, leAt img (leAt img 24 4 + 8 * i + 4) 4))

/-- The header fields, by image word, that break R89 whatever the sections hold. DESIGN CHOICE (log entry 23): a section that lies outside
the image fails at its offset word, and of two sections that overlap the one whose offset word is lower is reported. -/
def headerFails (img : List Byte) (len : Nat) : List Nat :=
  let f := fun (w : Nat) (bad : Bool) => if bad then [w] else []
  let u := fun (o n : Nat) => leAt img o n
  let jt := jtabWalk img (u 30 2) (u 32 4)
  let code := (3, u 12 4, u 12 4 + 4 * u 16 4)
  let secs := [code] ++ (if u 28 2 = 0 then [] else [(6, u 24 4, u 24 4 + 8 * u 28 2)])
    ++ (if u 30 2 = 0 then [] else [(8, u 32 4, jt.2.1)]) ++ (if u 40 2 = 0 then [] else [(9, u 36 4, u 36 4 + 4 * u 40 2)])
  let ovr := secs.flatMap (fun a => (secs.filter (fun b => decide (a.1 < b.1 ∧ a.2.1 < b.2.2 ∧ b.2.1 < a.2.2))).map (fun _ => a.1))
  f 0 (decide (u 0 4 ≠ 0x56574950)) ++ f 1 (decide (u 4 2 ≠ 1 ∨ 1 < u 6 1 ∨ 3 < u 7 1))
    ++ f 2 (decide (u 8 4 ≠ len ∨ u 8 4 % 4 ≠ 0 ∨ u 8 4 < 512 ∨ 0x80000 < u 8 4))
    ++ f 3 (decide (u 12 4 % 4 ≠ 0)) ++ f 4 (decide (u 16 4 = 0 ∨ 65536 < u 16 4)) ++ f 5 (decide (u 16 4 ≤ u 20 4))
    ++ f 6 (decide (u 24 4 % 8 ≠ 0 ∨ (u 28 2 = 0 ∧ u 24 4 ≠ 0))) ++ f 7 (decide (256 < u 28 2 ∨ 32 < u 30 2))
    ++ f 8 (decide (u 32 4 % 4 ≠ 0 ∨ (u 30 2 = 0 ∧ u 32 4 ≠ 0))) ++ f 9 (decide (u 36 4 % 4 ≠ 0 ∨ (u 40 2 = 0 ∧ u 36 4 ≠ 0)))
    ++ f 10 (decide (256 < u 40 2 ∨ u 42 2 ≠ 0)) ++ f 11 (decide (1048576 < u 44 4))
    ++ (secs.filter (fun s => outside (u 8 4) s.2.1 s.2.2)).map (fun s => s.1) ++ ovr

/-- The words of the tables that break R90, and ENTRY inside a function region. A table is read where none of its own header words is
among those that fail. -/
def tableFails (img : List Byte) (hdr : List Nat) : List Nat :=
  let u := fun (o n : Nat) => leAt img o n
  let cw := u 16 4
  let sound := fun (off count : Nat) => !hdr.contains off && !hdr.contains count
  let fs := (if sound 6 7 then ftabRaw img else []).zipIdx.map (fun e => (e.1.1, e.1.2, (u 24 4 + 8 * e.2) / 4))
  let inF := fun (w : Nat) => fs.any (fun e => decide (e.1 ≤ w ∧ w < e.2.1))
  let jt := if sound 8 7 then jtabWalk img (u 30 2) (u 32 4) else ([], 0, none)
  let ts := (List.range (if sound 9 10 then u 40 2 else 0)).map (fun i => (u (u 36 4 + 4 * i) 4, u 36 4 / 4 + i))
  (if inF (u 20 4) then [5] else [])
    ++ (fs.filter (fun e => decide (2 ^ 18 ≤ e.1 ∨ e.2.1 ≤ e.1))).map (fun e => e.2.2)
    ++ (fs.filter (fun e => decide (2 ^ 18 ≤ e.2.1 ∨ cw < e.2.1))).map (fun e => e.2.2 + 1)
    ++ fs.flatMap (fun a => (fs.filter (fun b => decide (a.2.2 < b.2.2 ∧ a.1 < b.2.1 ∧ b.1 < a.2.1))).map (fun _ => a.2.2))
    ++ jt.2.2.toList
    ++ jt.1.flatMap (fun t => (t.2.zipIdx.filter (fun x => decide (2 ^ 18 ≤ x.1 ∨ cw ≤ x.1))).map (fun x => t.1 / 4 + 1 + x.2))
    ++ (ts.filter (fun t => decide (2 ^ 18 ≤ t.1 ∨ cw ≤ t.1) || inF t.1)).map (fun t => t.2)

/-- The lowest of some words. -/
def lowest (ws : List Nat) : Option Nat := ws.foldl (fun b w => some (match b with | some x => min x w | none => w)) none

/-- FORMAT (R89, R90, R94): the image word reported when the image breaks it. -/
def formatFail (img : List Byte) (len : Nat) : Option Nat :=
  if 0x80000 < len then some 2
  else lowest (headerFails img len ++ tableFails img (headerFails img len))

/-! ## The program as the verifier walks it -/

/-- An image's code and tables. -/
structure VProg where
  ins   : List VIns
  entry : Nat
  ftab  : List (Nat × Nat)
  jtabs : List (List Nat)
  ttab  : List Nat
  deriving DecidableEq, Repr

/-- The instruction at a word. -/
def VProg.at (v : VProg) (i : Nat) : VIns := v.ins.getD i {}

/-- The region of a word: 0 the main region, else the function's index plus one (R90). -/
def VProg.region (v : VProg) (i : Nat) : Nat := ((v.ftab.findIdx? (fun e => decide (e.1 ≤ i ∧ i < e.2))).map (· + 1)).getD 0

/-- Whether a branch is always, or never, taken (R100). -/
def alwaysTaken (p : Nat) (n : Bool) : Bool := decide (p = 0) && !n
def neverTaken (p : Nat) (n : Bool) : Bool := decide (p = 0) && n

/-- The bodies, first and last word, of those LOOPs that stand among some words. -/
def VProg.bodiesOf (v : VProg) (ws : List Nat) : List (Nat × Nat) :=
  ws.filterMap (fun i => match (v.at i).kind with | .loop _ l => if l = 0 then none else some (i + 1, i + l) | _ => none)

/-- The innermost body that contains a word. -/
def innermost (bodies : List (Nat × Nat)) (i : Nat) : Option (Nat × Nat) :=
  (bodies.filter (fun b => decide (b.1 ≤ i ∧ i ≤ b.2))).foldl (fun x b => match x with
    | some y => if b.2 - b.1 < y.2 - y.1 then some b else x
    | none => some b) none

/-- Whether the next word can follow an instruction: after itself, or after the return from a call. DESIGN CHOICE (log entry 23): the word
after a CALL counts as reachable even where the called function never returns. -/
def VIns.falls (x : VIns) : Bool :=
  match x.kind with
  | .term | .ret | .jt _ => false
  | .br p n _ | .brk p n => !alwaysTaken p n
  | _ => true

/-- The words that an instruction's encoded targets name, taken or not (R97); a branch before word 0 names a word behind
the code. -/
def VProg.targets (v : VProg) (bodies : List (Nat × Nat)) (i : Nat) : List Nat :=
  match (v.at i).kind with
  | .br _ _ off => [if (i : Int) + off < 0 then v.ins.length else ((i : Int) + off).toNat]
  | .brk _ _ => ((innermost bodies i).map (fun b => b.2 + 1)).toList
  | .jt t => v.jtabs.getD t []
  | _ => []

/-- The words that can follow a word. -/
def VProg.next (v : VProg) (bodies : List (Nat × Nat)) (i : Nat) : List Nat :=
  let x := v.at i
  (match x.kind with
    | .br p n _ | .brk p n => if neverTaken p n then [] else v.targets bodies i
    | .jt _ => v.targets bodies i
    | .call f => ((v.ftab[f]?).map (fun e => e.1)).toList
    | _ => []) ++ (if x.falls then [i + 1] else [])

/-- The words that can be reached from some words, in as many rounds as the fuel says. -/
def VProg.closure (v : VProg) (bodies : List (Nat × Nat)) : Nat → List Nat → List Nat → List Nat
  | 0, _, seen => seen
  | fuel + 1, front, seen =>
    let new := ((front.flatMap (v.next bodies)).filter (fun t => decide (t < v.ins.length) && !seen.contains t)).eraseDups
    if new.isEmpty then seen else v.closure bodies fuel new (seen ++ new)

/-- Where execution starts: ENTRY and every task entry. -/
def VProg.entries (v : VProg) : List Nat := (v.entry :: v.ttab).eraseDups

/-- What is reachable from some words. -/
def VProg.reachFrom (v : VProg) (bodies : List (Nat × Nat)) (from_ : List Nat) : List Nat :=
  v.closure bodies v.ins.length from_ from_

/-- The bodies of the reachable LOOPs: those that are reached when every LOOP of the code counts as a body, and then once
more with the bodies so found (log entry 23). -/
def VProg.bodies (v : VProg) : List (Nat × Nat) :=
  let b0 := v.bodiesOf (List.range v.ins.length)
  let b1 := v.bodiesOf (v.reachFrom b0 v.entries)
  v.bodiesOf (v.reachFrom b1 v.entries)

/-- How many bodies contain a word. -/
def depthAt (bodies : List (Nat × Nat)) (i : Nat) : Nat := (bodies.filter (fun b => decide (b.1 ≤ i ∧ i ≤ b.2))).length

/-- The calls among some words: word, calling region, called region. -/
def VProg.calls (v : VProg) (ws : List Nat) : List (Nat × Nat × Nat) :=
  ws.filterMap (fun i => match (v.at i).kind with | .call f => some (i, v.region i, f + 1) | _ => none)

/-- What each region carries from the chains of calls that lead to it: `pick` chooses among chains, `step` is what a call
adds; the rounds are bounded. A region no chain reaches carries nothing. -/
def carried (calls : List (Nat × Nat × Nat)) (pick : Nat → Nat → Nat) (step : Nat → Nat) (cap : Nat) : Nat → Tbl (Option Nat) →
    Tbl (Option Nat)
  | 0, t => t
  | n + 1, t => carried calls pick step cap n (calls.foldl (fun x c => match look none x c.2.1 with
      | none => x
      | some a =>
        let b := min cap (a + step c.1)
        put none x c.2.2 (some (match look none x c.2.2 with | some o => pick o b | none => b))) t)

/-! ## The structure checks (R97) -/

/-- REGION. -/
def VProg.regionFails (v : VProg) (bodies : List (Nat × Nat)) (ws : List Nat) : List Nat :=
  let same := fun (i t : Nat) => decide (t < v.ins.length) && decide (v.region t = v.region i)
  ws.filter (fun i =>
    let x := v.at i
    (decide (x.kind = .ret) && decide (v.region i = 0)) || (v.targets bodies i).any (fun t => !same i t) || (x.falls && !same i (i + 1)))

/-- BACKWARD. -/
def VProg.backwardFails (v : VProg) (ws : List Nat) : List Nat :=
  ws.filter (fun i => match (v.at i).kind with
    | .br _ _ off => decide (off ≤ 0)
    | .jt t => (v.jtabs.getD t []).any (fun e => decide (e ≤ i))
    | _ => false)

/-- LOOP. -/
def VProg.loopFails (v : VProg) (bodies : List (Nat × Nat)) (ws : List Nat) : List Nat :=
  let calls := v.calls ws
  let rounds := 3 * v.ftab.length + 3
  let most := carried calls max (depthAt bodies) 3 rounds [(0, some 0)]
  let least := carried calls min (depthAt bodies) 3 rounds [(0, some 0)]
  (ws.filter (fun i => match (v.at i).kind with
    | .loop cnt l =>
      decide (cnt = 0 ∨ l = 0 ∨ v.ins.length ≤ i + l) || (List.range l).any (fun j => decide (v.region (i + 1 + j) ≠ v.region i))
        || decide (2 < depthAt bodies i + 1 + (look none most (v.region i)).getD 0)
    | .brk _ _ => (innermost bodies i).isNone
    | .br _ _ _ | .jt _ => (v.targets bodies i).any (fun t => decide (innermost bodies t ≠ innermost bodies i))
    | .lidx => decide (depthAt bodies i + (look none least (v.region i)).getD 0 = 0)
    | _ => false))
  ++ bodies.flatMap (fun a => (bodies.filter (fun b => decide (a.1 < b.1 ∧ b.1 ≤ a.2 ∧ a.2 < b.2))).map (fun b => b.1 - 1))

/-- CALL. -/
def VProg.callFails (v : VProg) (ws : List Nat) : List Nat :=
  let calls := v.calls ws
  let nest := carried calls max (fun _ => 1) 5 (5 * v.ftab.length + 5) [(0, some 0)]
  let onCycle := fun (c : Nat × Nat × Nat) =>
    (look none (carried calls max (fun _ => 0) 0 (v.ftab.length + 1) [(c.2.2, some 0)]) c.2.1).isSome
  (calls.filter (fun c => decide (v.ftab.length < c.2.2) || onCycle c || decide (4 < (look none nest c.2.1).getD 0 + 1))).map (fun c => c.1)

/-- TABLE. -/
def VProg.tableUse (v : VProg) (ws : List Nat) : List Nat :=
  ws.filter (fun i => match (v.at i).kind with
    | .jt t => decide (v.jtabs.length ≤ t)
    | .tarm t => decide (v.ttab.length ≤ t)
    | _ => false)

/-! ## Tickets (R98) -/

/-- What a ticket can be at a word: none for free, or the W, rd and lock of the operation that took it. -/
abbrev TSet := List (Option (Nat × Nat × Nat))

/-- The eight tickets. -/
abbrev TAll := List TSet

/-- Every ticket free. -/
def allFree : TAll := List.replicate 8 [none]

/-- The union of the states of two paths. -/
def joinT (a b : TAll) : TAll := (a.zip b).map (fun e => (e.1 ++ e.2).eraseDups)

/-- Whether a ticket can be busy. -/
def canBusy (s : TAll) (k : Nat) : Bool := (s.getD k []).any (fun e => e.isSome)

/-- What the walk has found: the states at each word, the words that fail with TICKET and TICKET_AT_END, and the charge of
each AWAIT (R100). -/
structure TWalk where
  st    : Tbl TAll := []
  bad   : List Nat := []
  atEnd : List Nat := []
  wait  : Tbl Nat := []

/-- Unite a state into a word's. -/
def TWalk.flow (t : TWalk) (i : Nat) (s : TAll) : TWalk :=
  let o := look [] t.st i
  { t with st := Tbl.insert t.st i (if o.isEmpty then s else joinT o s) }

/-- Whether an instruction breaks a rule of R98 against the operations that can be outstanding: it names a busy ticket, or
touches a busy ticket's destination or locked state. -/
def VIns.clashes (x : VIns) (s : TAll) : Bool :=
  (x.ticket.map (canBusy s)).getD false || s.any (fun t => t.any (fun e => match e with
    | none => false
    | some (_, rd, lock) => (decide (rd ≠ 0) && x.regs.contains rd) || (decide (lock = 1) && x.hdr) || (decide (lock = 2) && x.scr)))

/-- The ticket an instruction names. -/
def VIns.names (x : VIns) : Option Nat := match x.kind with | .await k => some k | _ => x.ticket

/-- One word of the walk: its own checks, and its states on to the words that follow it in its region. Every path runs
forward, each body and each function starts with the same states in every pass, so one pass suffices (R98). Words that nothing
reaches are not judged (R97). -/
def VProg.ticketStep (v : VProg) (bodies : List (Nat × Nat)) (ws : List Nat) (t : TWalk) (i : Nat) : TWalk :=
  match look [] t.st i with
  | [] => t
  | s0 :: ss =>
    let s : TAll := s0 :: ss
    let x := v.at i
    let busy := (List.range 8).any (canBusy s)
    let took := fun (b : Nat × Nat) => ((List.range (b.2 + 1 - b.1)).filter (fun j => ws.contains (b.1 + j))).filterMap (fun j => (v.at (b.1 + j)).ticket)
    let bad1 := if x.clashes s || (busy && (match x.kind with | .call _ | .ret => true | _ => false)) then [i] else []
    let bad2 := match x.kind with
      | .loop _ l => ((List.range l).find? (fun j => ws.contains (i + 1 + j) && ((v.at (i + 1 + j)).names.map (canBusy s)).getD false)).map (fun j => i + 1 + j)
      | _ => none
    let out : TAll := match x.ticket, x.kind with
      | some k, _ => s.set k [some (x.w, x.rd, x.lock)]
      | none, .await k => s.set k [none]
      | none, .call _ => allFree
      | none, _ => s
    let leaves := match x.kind with
      | .brk p n => if neverTaken p n then [] else match innermost bodies i with
          | some b => bodies.filter (fun y => decide (y.2 = b.2 ∧ y.1 ≤ b.1))
          | none => []
      | _ => []
    let ends := if x.falls then bodies.filter (fun b => decide (b.2 = i)) else []
    let bad3 := if (leaves ++ ends).any (fun b => (took b).any (canBusy out)) then [i] else []
    let go := (match x.kind with
      | .br p n _ | .brk p n => if neverTaken p n then [] else v.targets bodies i
      | .jt _ => v.targets bodies i
      | _ => []) ++ (if x.falls then [i + 1] else [])
    let t1 : TWalk := { t with bad := bad1 ++ bad2.toList ++ bad3 ++ t.bad
                               atEnd := (if decide (x.kind = .term) && busy then [i] else []) ++ t.atEnd
                               wait := match x.kind with
                                 | .await k => put 0 t.wait i (((s.getD k []).map (fun e => (e.map (fun y => y.1)).getD 1)).foldl max 1)
                                 | _ => t.wait }
    go.foldl (fun y j => y.flow j out) t1

/-- The walk over the reachable words, in rising order. -/
def VProg.tickets (v : VProg) (bodies : List (Nat × Nat)) (ws : List Nat) : TWalk :=
  let t0 := (v.entries ++ v.ftab.map (fun e => e.1)).foldl (fun (t : TWalk) i => t.flow i allFree) {}
  ((List.range v.ins.length).filter (fun i => ws.contains i)).foldl (v.ticketStep bodies ws) t0

/-! ## Longest paths (R99, R100) -/

/-- One past the last word of the main region (R90): the limit of its runs (R100; log entry 23). -/
def VProg.mainEnd (v : VProg) : Nat := (((List.range v.ins.length).filter (fun i => decide (v.region i = 0))).map (· + 1)).foldl max 0

/-- The limits that runs can have (R100): the end of the main region, those of the functions, and the words behind the bodies. -/
def VProg.limits (v : VProg) : List Nat :=
  (v.mainEnd :: v.ftab.map (fun (e : Nat × Nat) => e.2) ++ (v.bodiesOf (List.range v.ins.length)).map (fun (b : Nat × Nat) => b.2 + 1)).eraseDups

/-- The longest path from each word to the end of its run, by the pseudocode of R100: one row for each word, one figure in it
for each limit. `term` is a word's own charge and `callee` that of a function. -/
def VProg.costPass (v : VProg) (bodies : List (Nat × Nat)) (lims : List Nat) (term : Nat → VIns → Nat) (callee : Nat → Nat) : List (List Nat) :=
  v.ins.zipIdx.foldr (fun e rows =>
    let x := e.1
    let i := e.2
    let cost := fun (t lim : Nat) => if t = lim then 0 else (rows.getD (t - i - 1) []).getD (lims.idxOf lim) 0
    let here := term i x
    lims.map (fun lim =>
      match x.kind with
      | .term | .ret => here
      | .loop cnt l => here + cnt * cost (i + 1) (i + 1 + l) + cost (i + 1 + l) lim
      | .brk p n => here + (if alwaysTaken p n then 0 else cost (i + 1) lim)
      | .br p n _ =>
        let go := ((v.targets bodies i).map (fun t => cost t lim)).headD 0
        here + (if alwaysTaken p n then go else if neverTaken p n then cost (i + 1) lim else max (cost (i + 1) lim) go)
      | .jt _ => here + ((v.targets bodies i).map (fun t => cost t lim)).foldl max 0
      | .call f => here + callee f + cost (i + 1) lim
      | _ => here + cost (i + 1) lim) :: rows) []

/-- The longest paths of every word, with calls nested as deep as the fuel says. -/
def VProg.costs (v : VProg) (bodies : List (Nat × Nat)) (lims : List Nat) (term : Nat → VIns → Nat) : Nat → List (List Nat)
  | 0 => v.costPass bodies lims term (fun _ => 0)
  | n + 1 =>
    let rows := v.costs bodies lims term n
    v.costPass bodies lims term (fun f =>
      let r := v.ftab.getD f (0, 0)
      (rows.getD r.1 []).getD (lims.idxOf r.2) 0)

/-- The rows of a program with the limits they stand for. -/
abbrev CostRows := List Nat × List (List Nat)

/-- The longest path from a word to a limit. -/
def CostRows.cost (r : CostRows) (i lim : Nat) : Nat := (r.2.getD i []).getD (r.1.idxOf lim) 0

/-- The rows for a charge of each word. -/
def VProg.rows (v : VProg) (bodies : List (Nat × Nat)) (term : Nat → VIns → Nat) : CostRows :=
  let lims := v.limits
  (lims, v.costs bodies lims term 4)

/-- The largest figure among ENTRY and the task entries. -/
def VProg.figure (v : VProg) (bodies : List (Nat × Nat)) (term : Nat → VIns → Nat) : Nat :=
  let r := v.rows bodies term
  (v.entries.map (fun e => r.cost e v.mainEnd)).foldl max 0

/-- ROLE (R99). -/
def VProg.roleFails (v : VProg) (bodies : List (Nat × Nat)) : List Nat :=
  (v.reachFrom bodies [v.entry]).filter (fun i => decide ((v.at i).op = 0x38))
    ++ (v.reachFrom bodies v.ttab).filter (fun i => decide (0x31 ≤ (v.at i).op ∧ (v.at i).op ≤ 0x34))

/-! ## How often a kind of instruction can have issued (R99) -/

/-- A set of counts, rising; 5 stands for 5 and more. -/
abbrev Counts := List Nat

/-- The counts in either set. -/
def Counts.or (a b : Counts) : Counts := (List.range 6).filter (fun n => a.contains n || b.contains n)

/-- The sums of a count of each set. -/
def Counts.add (a b : Counts) : Counts :=
  (List.range 6).filter (fun n => a.any (fun x => b.any (fun y => decide (min 5 (x + y) = n))))

/-- The counts of `k` passes; from the fifth on they do not change. -/
def Counts.times (a : Counts) : Nat → Counts
  | 0 => [0]
  | k + 1 => (a.times k).add a

/-- The counts before the passes of a LOOP with count `cnt`: after none, one, and so on to all but the last. -/
def Counts.passes (a : Counts) (cnt : Nat) : Counts := (List.range (min cnt 7)).foldl (fun s j => s.or (a.times (min j 6))) []

/-- What can have issued on the paths from a word on: on those that fall off the end of the innermost body, that leave it by a BREAK,
and that return from the function. Paths that terminate are over. -/
structure Runs where
  fall : Counts := []
  brk  : Counts := []
  ret  : Counts := []
  deriving DecidableEq, Repr

/-- Paths of either kind. -/
def Runs.or (a b : Runs) : Runs := ⟨a.fall.or b.fall, a.brk.or b.brk, a.ret.or b.ret⟩

/-- Paths behind some counts. -/
def Runs.after (s : Counts) (a : Runs) : Runs := ⟨s.add a.fall, s.add a.brk, s.add a.ret⟩

/-- The counts of a whole LOOP whose body runs so: all its passes, or fewer and a BREAK. -/
def Runs.whole (a : Runs) (cnt : Nat) : Counts := (a.fall.times (min cnt 6)).or ((a.fall.passes cnt).add a.brk)

/-- The paths from each word to each limit, as R100 walks them; `callee` is what a function returns with. -/
def VProg.runsPass (v : VProg) (bodies : List (Nat × Nat)) (lims : List Nat) (op : Nat) (callee : Nat → Counts) : List (List Runs) :=
  v.ins.zipIdx.foldr (fun e rows =>
    let x := e.1
    let i := e.2
    let run := fun (t lim : Nat) => if t = lim then ({ fall := [0] } : Runs) else (rows.getD (t - i - 1) []).getD (lims.idxOf lim) {}
    let to_ := fun (lim : Nat) => (v.targets bodies i).foldl (fun r t => r.or (run t lim)) ({} : Runs)
    lims.map (fun lim =>
      match x.kind with
      | .term => {}
      | .ret => { ret := [0] }
      | .loop cnt l =>
        let r := run (i + 1) (i + 1 + l)
        (Runs.after (r.whole cnt) (run (i + 1 + l) lim)).or ({ ret := Counts.add (Counts.passes r.fall cnt) r.ret } : Runs)
      | .brk p n => (if neverTaken p n then ({} : Runs) else { brk := [0] }).or (if alwaysTaken p n then {} else run (i + 1) lim)
      | .br p n _ => (if neverTaken p n then ({} : Runs) else to_ lim).or (if alwaysTaken p n then {} else run (i + 1) lim)
      | .jt _ => to_ lim
      | .call f => Runs.after (callee f) (run (i + 1) lim)
      | _ => Runs.after [if x.op = op then 1 else 0] (run (i + 1) lim)) :: rows) []

/-- The paths of every word, with calls nested as deep as the fuel says. -/
def VProg.runs (v : VProg) (bodies : List (Nat × Nat)) (lims : List Nat) (op : Nat) : Nat → List (List Runs)
  | 0 => v.runsPass bodies lims op (fun _ => [])
  | n + 1 =>
    let rows := v.runs bodies lims op n
    v.runsPass bodies lims op (fun f => ((rows.getD (v.ftab.getD f (0, 0)).1 []).getD (lims.idxOf (v.ftab.getD f (0, 0)).2) {}).ret)

/-- One pass over the words of how many instructions of one kind can have issued before each: every entry starts with none. A path that
falls off the end of a body, or leaves it by a BREAK, goes on behind its LOOP. -/
def VProg.beforePass (v : VProg) (bodies : List (Nat × Nat)) (op : Nat) (lims : List Nat) (rows : List (List Runs)) (t0 : Tbl Counts) :
    Tbl Counts :=
  (List.range v.ins.length).foldl (fun t i =>
    let b := look [] t i
    let x := v.at i
    let stop := (innermost bodies i).map (fun e => e.2 + 1)
    let up := fun (y : Tbl Counts) (j : Nat) (s : Counts) => if stop = some j then y else put [] y j (Counts.or (look [] y j) s)
    let run := fun (t lim : Nat) => (rows.getD t []).getD (lims.idxOf lim) ({} : Runs)
    if b.isEmpty then t
    else
      match x.kind with
      | .loop cnt l =>
        let r := run (i + 1) (i + 1 + l)
        up (put [] t (i + 1) (Counts.or (look [] t (i + 1)) (Counts.add b (Counts.passes r.fall cnt)))) (i + 1 + l) (Counts.add b (r.whole cnt))
      | .call f =>
        let r := v.ftab.getD f (0, 0)
        up (put [] t r.1 (Counts.or (look [] t r.1) b)) (i + 1) (Counts.add b (run r.1 r.2).ret)
      | .brk p n => if alwaysTaken p n then t else up t (i + 1) b
      | _ => (v.next bodies i).foldl (fun y j => up y j (Counts.add b [if x.op = op then 1 else 0])) t) t0

/-- LIMIT (R99): the words of a kind that can issue as the fifth on some path. A call may lie behind its function, so a pass for every
level of calls. -/
def VProg.limitFails (v : VProg) (bodies : List (Nat × Nat)) (op : Nat) : List Nat :=
  let lims := v.limits
  let pass := v.beforePass bodies op lims (v.runs bodies lims op 4)
  let t := pass (pass (pass (pass (pass (v.entries.foldl (fun y e => put [] y e [0]) [])))))
  (List.range v.ins.length).filter (fun i => decide ((v.at i).op = op) && (look [] t i).contains 4)

/-! ## The whole of it (R94, R96, R101) -/

/-- What the verifier answers: the first check that fails with its word (0 for none), the bound and issue count it computed
(zero where R94 has them zero), and the program. -/
structure Judgement where
  code  : Nat := 0
  word  : Nat := 0
  bound : Nat := 0
  issue : Nat := 0
  prog  : VProg := ⟨[], 0, [], [], []⟩
  deriving DecidableEq, Repr

/-- The code and tables of an image that has passed FORMAT, with the words that do not decode. -/
def readProg (img : List Byte) : VProg × List Nat :=
  let ws := leWords (leAt img 16 4) (img.drop (leAt img 12 4))
  ({ ins := ws.map (fun w => (decodeV w).getD {})
     entry := leAt img 20 4
     ftab := ftabRaw img
     jtabs := (jtabWalk img (leAt img 30 2) (leAt img 32 4)).1.map (fun t => t.2)
     ttab := leWords (leAt img 40 2) (img.drop (leAt img 36 4)) },
   (ws.zipIdx.filter (fun e => (decodeV e.1).isNone)).map (fun e => e.2))

/-- The checks from 05h on, in the order of their codes (R96). -/
def verifyProg (v : VProg) (undecoded : List Nat) (bound issue : Nat) : Judgement :=
  let bodies := v.bodies
  let ws := v.reachFrom bodies v.entries
  let no := fun (code w : Nat) => ({ code := code, word := w, prog := v } : Judgement)
  let t := v.tickets bodies ws
  match lowest undecoded with
  | some w => no 0x05 w
  | none => match lowest (v.regionFails bodies ws) with
  | some w => no 0x06 w
  | none => match lowest (v.backwardFails ws) with
  | some w => no 0x07 w
  | none => match lowest (v.loopFails bodies ws) with
  | some w => no 0x08 w
  | none => match lowest (v.callFails ws) with
  | some w => no 0x09 w
  | none => match lowest (v.tableUse ws) with
  | some w => no 0x0A w
  | none => match lowest t.bad with
  | some w => no 0x0B w
  | none => match lowest t.atEnd with
  | some w => no 0x0C w
  | none => match lowest (v.roleFails bodies) with
  | some w => no 0x0D w
  | none => match lowest (v.limitFails bodies 0x25 ++ v.limitFails bodies 0x31) with
  | some w => no 0x0E w
  | none =>
    let b := v.figure bodies (fun i x => match x.kind with | .await _ => max 1 (look 0 t.wait i) | _ => x.charge)
    let n := v.figure bodies (fun _ _ => 1)
    { code := if 65536 < b then 0x0F else if b ≠ bound then 0x10 else if n ≠ issue then 0x11 else 0
      bound := b
      issue := n
      prog := v }

/-- The checks 01h to 11h of a LOAD. `key` answers the hash enrolled at an index that is not revoked; the signature is ECDSA P-384 over
the SHA-384 digest of everything before it (R91; log entry 8). -/
def verifyImage (img : List Byte) (len : Nat) (key : Nat → Option Nat) : Judgement :=
  match formatFail img len with
  | some w => { code := 0x01, word := w }
  | none =>
    let pub := slice img (len - 192) 96
    if key (leAt img 7 1) ≠ some (beNat (sha384 pub)) then { code := 0x02 }
    else if !ecdsaVerify pub (slice img (len - 96) 96) (img.take (len - 96)) then { code := 0x03 }
    else if leAt img 6 1 ≠ 0 then { code := 0x04 }
    else match readProg img with
      | (v, bad) => verifyProg v bad (leAt img 48 4) (leAt img 52 4)

end Sys2Proof.Machine
end

