-- ==== Sys2Proof/Machine/Loader.lean ====
section
/-! DEFINITION. The loader: its requests, slots, images, signing keys, and the reading of program counters (04 R92 to R95,
R102 to R110, R571). A loader command is the request as the loader serves it (log entry 24). -/

namespace Sys2Proof.Machine

/-! ## Images and the store (R105, R107) -/

abbrev storeWords : Nat := 65536

/-- The image of a handle. -/
def Dev.image (d : Dev) (h : Nat) : Image := look {} d.prog.images h

/-- The words that resident images take, as (base, words). -/
def Dev.runs (d : Dev) : List (Nat × Nat) := d.prog.images.map (fun e => (e.2.base, e.2.words))

/-- Where a free run can begin: word 0 and the end of every image. -/
def Dev.runStarts (d : Dev) : List Nat := 0 :: d.runs.map (fun r => r.1 + r.2)

/-- Whether `n` words from `b` on are free. -/
def Dev.runFree (d : Dev) (b n : Nat) : Bool := decide (b + n ≤ storeWords) && d.runs.all (fun r => decide (b + n ≤ r.1 ∨ r.1 + r.2 ≤ b))

/-- The free words from `b` on. -/
def Dev.runFrom (d : Dev) (b : Nat) : Nat :=
  if d.runs.any (fun r => decide (r.1 ≤ b ∧ b < r.1 + r.2)) then 0
  else ((d.runs.filter (fun r => decide (b ≤ r.1))).map (fun r => r.1)).foldl min storeWords - b

/-- Show an image and the store in PGM.IMGA, PGM.IMGB and PGM.STATUS. -/
def Dev.showImage (d : Dev) (h : Nat) : Dev :=
  let x := d.image h
  let d1 := (((((d.wr PGM.IMGA_STATE h (match x.st with | .free => 0 | .resident => 1 | .draining => 2)).wr PGM.IMGA_WORDS h x.words).wr
    PGM.IMGA_BASE h x.base).wr PGM.IMGB_BOUND h x.bound).wr PGM.IMGB_ISSUE h x.issue).wr PGM.IMGB_KEYIDX h x.keyidx
  (d1.wr PGM.STATUS_FREE 0 (storeWords - (d1.runs.map (fun r => r.2)).sum)).wr PGM.STATUS_LARGEST 0 ((d1.runStarts.map d1.runFrom).foldl max 0)

/-- Replace an image. -/
def Dev.setImage (d : Dev) (h : Nat) (x : Image) : Dev :=
  ({ d with prog := { d.prog with images := put {} d.prog.images h x } }).showImage h

/-- The slot of a pipeline. -/
def slotKey (pipe slot : Nat) : Nat := 64 * pipe + slot

/-- The physical function that owns a slot (R95). -/
def Dev.slotOwner (d : Dev) (k : Nat) : Option Nat := if look 0 d.prog.slotPf k = 0 then none else some (look 0 d.prog.slotPf k - 1)

/-- Give a slot to a physical function, or to none. -/
def Dev.ownSlot (d : Dev) (k : Nat) (pf : Option Nat) : Dev :=
  { d with prog := { d.prog with slotPf := put 0 d.prog.slotPf k (match pf with | some p => p + 1 | none => 0) } }.wr PGM.SLOT_OWNER k (pf.getD 0)

/-- Set a slot, and show it. -/
def Dev.setSlot (d : Dev) (k : Nat) (b : Slot) : Dev :=
  let d1 : Dev := { d with prog := { d.prog with slots := put {} d.prog.slots k b } }
  ((((d1.wr PGM.SLOT_VALID k (if b.handle = 0 then 0 else 1)).wr PGM.SLOT_FAULT k b.fault).wr PGM.SLOT_SCOPE k b.scope).wr PGM.SLOT_HANDLE k
    b.handle).wr PGM.SLOT_EPOCH k b.epoch

/-- Whether a slot, or a staged binding, names an image. -/
def Dev.imageBound (d : Dev) (h : Nat) : Bool := d.prog.slots.any (fun e => decide (e.2.handle = h))

/-- The bindings that a physical function has staged. -/
def Dev.staged (d : Dev) (pf : Nat) : List Staged := if pf = 0 then d.prog.staged0 else d.prog.staged1

/-- Replace them. -/
def Dev.setStaged (d : Dev) (pf : Nat) (l : List Staged) : Dev :=
  if pf = 0 then { d with prog := { d.prog with staged0 := l } } else { d with prog := { d.prog with staged1 := l } }

/-! ## Requests and answers (R94, R109, R110) -/

/-- Whether the loader serves a request of a physical function: it accepts requests, the answer has room, no LOAD is still to
complete, and it is the function's turn, or the other function has no request (R95). -/
def Dev.loaderServes (d : Dev) (pf : Nat) : Bool :=
  decide (d.rd PGM.STATUS_READY = 1) && d.answerRoom (4096 * pf) && d.prog.loading.isNone
    && (decide (d.prog.rot = pf) || !d.mbx.work.any (fun m => decide (m.sender = 4096 * (1 - pf) ∧ m.svc = 1)))

/-- The loader answers (R94, R109, R110). The response's bytes: 0 code, 1 handle, 4 bound, 8 issue count, 12 word, 16 on what a
QUERY returns (DESIGN CHOICE, log entry 24). -/
def Dev.loaderAnswer (d : Dev) (now : NetTime) (pf req code handle : Nat) (bound issue word : Nat := 0) (more : List Byte := []) : Dev :=
  let d1 := ((d.wr PGM.LAST_CODE 0 code).wr PGM.LAST_WORD 0 word).wr PGM.LAST_HANDLE 0 handle
  let d2 := if code = 0 then d1 else
    (d1.bump PGM.REFUSED_COUNT).raise now (ev 4 0) (code + req * 2 ^ 8 + handle % 256 * 2 ^ 16) (some (4096 * pf))
  { d2 with prog := { d2.prog with rot := 1 - pf } }.answer (4096 * pf) 1 (leBytes 1 code ++ leBytes 3 handle ++ leBytes 4 bound ++ leBytes 4 issue ++ leBytes 4 word ++ more)

/-- The hash of a signing key that is enrolled and not revoked (R91, R92). -/
def Dev.keyHashOf (d : Dev) (i : Nat) : Option Nat :=
  if d.rdBit PGM.KEYSTAT_REVOKED 0 i then none
  else if i = 0 then some Config.factoryKeyHash
  else if d.rdBit PGM.KEYSTAT_ENROLLED 0 i then some ((look none d.prog.keyHash i).getD (Config.otp PGM.KEYSTAT_ENROLLED.id i))
  else none

/-- Whether a bay's store is being reloaded (02 R47). -/
def Dev.reloading (d : Dev) : Bool := (List.range 12).any (fun b => decide (d.rd ENG.BSTAT_RELOAD b = 1))

/-- A LOAD completes: every bay holds the image (R107). -/
def Dev.loaded (d : Dev) (now : NetTime) (l : Loading) : Dev :=
  (d.setImage l.handle l.image).loaderAnswer now l.pf 1 0 l.handle l.image.bound l.image.issue

/-- STORE_RELOAD_DONE: the reload of a bay's store completes and the bay returns: its engines failed by ECC are ONLINE
again (02 R47). A LOAD that waited for the reload completes with the last one (R108). -/
def execStoreReloadDone (bay : Fin 12) : State → Host.Outcome State Fault Refusal :=
  onDev (fun now d =>
    if d.rd ENG.BSTAT_RELOAD bay = 1 then
      let d1 := (d.wr ENG.BSTAT_RELOAD bay 0).wr ENG.BSTAT_STORE_OK bay 1
      let d2 := (List.range 16).foldl (fun (x : Dev) i =>
        let n := 16 * bay.val + i
        if x.rd ENG.ESTAT_STATE n = engFailed ∧ x.rd ENG.ESTAT_CAUSE n = 3 then (x.setEngine n engOnline 0).revalidate 1 else x) d1
      match d2.prog.loading with
      | some l => if d2.reloading then d2 else { d2 with prog := { d2.prog with loading := none } }.loaded now l
      | none => d2
    else d)

/-- LOADER_LOAD: the image is verified, placed at the lowest free run and copied under the lowest free handle (R96, R107); while
a bay's store is being reloaded the LOAD does not complete (R108). -/
def execLoaderLoad (pf : Pf) (len : Nat) (image : List Byte) : State → Host.Outcome State Fault Refusal :=
  onDev (fun now d =>
    if !d.loaderServes pf then d
    else
      let img := slice image 0 (min len 0x80000)
      let v := verifyImage img len d.keyHashOf
      let n := v.prog.ins.length
      let base := (d.runStarts.filter (fun b => d.runFree b n)).foldl (fun (x : Option Nat) b => some (match x with | some y => min y b | none => b)) none
      let h := (List.range 255).find? (fun i => decide ((d.image (i + 1)).st = .free))
      if v.code ≠ 0 then d.loaderAnswer now pf 1 v.code 0 v.bound v.issue v.word
      else match base, h with
        | none, _ => d.loaderAnswer now pf 1 0x12 0 v.bound v.issue
        | some _, none => d.loaderAnswer now pf 1 0x13 0 v.bound v.issue
        | some b, some i =>
          let x : Image := {
            st := .resident
            words := n
            base := b
            bound := v.bound
            issue := v.issue
            keyidx := leAt img 7 1
            entry := v.prog.entry
            code := leWords n (img.drop (leAt img 12 4))
            ftab := v.prog.ftab
            jtabs := v.prog.jtabs
            ttab := v.prog.ttab
            cntN := leAt img 44 4 }
          let l : Loading := ⟨pf, i + 1, x⟩
          if d.reloading then { d with prog := { d.prog with loading := some l } } else d.loaded now l)

/-- The checks of a BIND or UNBIND (R95): FIELD, NO_IMAGE for a BIND, SLOT_OWNED. -/
def Dev.bindFails (d : Dev) (pf mask slot scope fault : Nat) (zeroOk : Bool) (handle : Option Nat) : Nat :=
  let other := (List.range 4).any (fun p => mask.testBit p && decide (d.slotOwner (slotKey p slot) = some (1 - pf)))
  if 63 < slot ∨ mask = 0 ∨ 15 < mask ∨ 3 ≤ scope ∨ 3 < fault ∨ zeroOk = false then 0x28
  else if (handle.map (fun h => decide ((d.image h).st ≠ .resident))).getD false then 0x21
  else if other then 0x20
  else 0

/-- Stage a binding, or its removal, in the named pipelines; it replaces what was staged for the same slot. -/
def Dev.stage (d : Dev) (pf mask slot : Nat) (b : Option Slot) : Dev :=
  (List.range 4).foldl (fun y p =>
    let k := slotKey p slot
    if !mask.testBit p || (b.isNone && (y.slotOwner k).isNone) then y
    else
      let l := (y.staged pf).filter (fun x => decide (x.pipe ≠ p ∨ x.slot ≠ slot))
      (y.setStaged pf (l ++ [⟨p, slot, b⟩])).ownSlot k (some pf)) d

/-- LOADER_BIND: stages a binding for every named pipeline (R94, R95). -/
def execLoaderBind (pf : Pf) (b : BindReq) : State → Host.Outcome State Fault Refusal :=
  onDev (fun now d =>
    if !d.loaderServes pf then d
    else
      let code := d.bindFails pf b.mask b.slot b.scope b.fault b.zeroOk (some b.handle)
      if code ≠ 0 then d.loaderAnswer now pf 2 code b.handle
      else
        let s : Slot := {
          handle := b.handle
          fault := b.fault
          fallback := b.fallback.toNat
          scope := b.scope
          owner := pf
          cntBase := b.cntBase
          cntCount := b.cntCount }
        (d.stage pf b.mask b.slot (some s)).loaderAnswer now pf 2 0 b.handle)

/-- LOADER_UNBIND: stages the removal of a binding; of a slot that no physical function owns it is answered OK and stages
nothing (R95). -/
def execLoaderUnbind (pf : Pf) (mask slot : Nat) (zeroOk : Bool) : State → Host.Outcome State Fault Refusal :=
  onDev (fun now d =>
    if !d.loaderServes pf then d
    else
      let code := d.bindFails pf mask slot 0 0 zeroOk none
      if code ≠ 0 then d.loaderAnswer now pf 3 code 0 else (d.stage pf mask slot none).loaderAnswer now pf 3 0 0)

/-- The first refusal of a COMMIT (R106): NOTHING_STAGED, COUNTERS, ADM_BOUND, EPOCH_EXHAUSTED. -/
def Dev.commitFails (d : Dev) (l : List Staged) : Nat :=
  let short := fun (b : Slot) => decide (b.cntCount < (d.image b.handle).cntN ∨ 1048576 < b.cntBase + b.cntCount)
  let named := fun (x : Staged) (b : Slot) => d.adm.contracts.any (fun c =>
    d.rd ADM.CSTAT_STATE c.1 != 0 && c.2.pipes.contains x.pipe && decide (c.2.rcd.slot = x.slot ∧ c.2.rcd.direct = false) && decide (c.2.bound < (d.image b.handle).bound))
  if l.isEmpty then 0x26
  else if l.any (fun x => (x.bind.map short).getD false) then 0x22
  else if l.any (fun x => (x.bind.map (named x)).getD false) then 0x23
  else if d.rd PGM.EPOCH_EPOCH = 2 ^ 32 - 1 then 0x25
  else 0

/-- LOADER_COMMIT: every binding this physical function has staged takes effect together under the next version epoch, or
none does (R103 to R106). -/
def execLoaderCommit (pf : Pf) : State → Host.Outcome State Fault Refusal :=
  onDev (fun now d =>
    if !d.loaderServes pf then d
    else
      let l := d.staged pf
      let code := d.commitFails l
      if code ≠ 0 then d.loaderAnswer now pf 4 code 0
      else
        let e := d.rd PGM.EPOCH_EPOCH + 1
        let d1 := l.foldl (fun (y : Dev) x =>
          let k := slotKey x.pipe x.slot
          match x.bind with
          | some b => y.setSlot k { b with epoch := e }
          | none => (y.setSlot k { epoch := e }).ownSlot k none) (d.setStaged pf [])
        ((d1.wr PGM.EPOCH_EPOCH 0 e).raise now (ev 4 1) e (some (4096 * pf.val))).loaderAnswer now pf 4 0 0)

/-- LOADER_UNLOAD: the image drains; refused while a slot binds it or a staged BIND names it (R105). -/
def execLoaderUnload (pf : Pf) (handle : Byte) : State → Host.Outcome State Fault Refusal :=
  onDev (fun now d =>
    let h := handle.toNat
    if !d.loaderServes pf then d
    else if (d.image h).st = .free then d.loaderAnswer now pf 5 0x21 h
    else if d.imageBound h || (d.staged 0 ++ d.staged 1).any (fun x => decide ((x.bind.map (fun b => b.handle)) = some h)) then
      d.loaderAnswer now pf 5 0x24 h
    else (d.setImage h { d.image h with st := .draining }).loaderAnswer now pf 5 0 h)

/-- LOADER_QUERY: the state of an image with its bound and issue count, or of a slot (R94). -/
def execLoaderQuery (pf : Pf) (what : QueryOf) : State → Host.Outcome State Fault Refusal :=
  onDev (fun now d =>
    if !d.loaderServes pf then d
    else match what with
      | .image handle =>
        let h := handle.toNat
        let x := d.image h
        if x.st = .free then d.loaderAnswer now pf 6 0x21 h
        else d.loaderAnswer now pf 6 0 h x.bound x.issue 0
          (leBytes 4 (d.rd PGM.IMGA_STATE h) ++ leBytes 4 x.words ++ leBytes 4 x.base ++ leBytes 4 x.keyidx)
      | .slot p s =>
        let k := slotKey p s
        let b : Slot := look {} d.prog.slots k
        d.loaderAnswer now pf 6 0 b.handle 0 0 0 (leBytes 4 (d.rd PGM.SLOT_VALID k) ++ leBytes 4 b.fault ++ leBytes 4 b.scope
          ++ leBytes 4 (d.rd PGM.SLOT_OWNER k) ++ leBytes 4 b.epoch))

/-- Whether anything still uses a draining image (R105): a slot, an unretired packet dispatched under it, a task entry. -/
def Dev.imageUsed (d : Dev) (h : Nat) : Bool :=
  d.imageBound h || d.eng.ctxs.any (fun e => decide (e.2.st ≠ .idle ∧ e.2.image = h))
    || d.dsp.againQ.any (fun e => e.2.any (fun p => decide (p.bind.map (fun b => b.handle) = some h)))
    || d.eng.tasks.any (fun e => decide (e.2.st ≠ .free ∧ e.2.image = h))

/-- IMAGE_FREED: a draining image that nothing uses is freed, and its handle with it (R105). -/
def execImageFreed (handle : Byte) : State → Host.Outcome State Fault Refusal :=
  onDev (fun _ d =>
    let h := handle.toNat
    if (d.image h).st = .draining ∧ d.imageUsed h = false then d.setImage h {} else d)

/-! ## Signing keys (R92) -/

/-- ENROL: a key hash is programmed into OTP at index 1 to 3, one time each. The answer's result is a free value: the spec
gives this request no result codes (log entry 24). -/
def execEnrol (pf : Pf) (idx : Fin 4) (hash : BitVec 384) : State → Host.Outcome State Fault Refusal :=
  onDev (fun _ d =>
    let d1 : Dev := if idx.val = 0 ∨ d.rdBit PGM.KEYSTAT_ENROLLED 0 idx = true then d
      else { d with prog := { d.prog with keyHash := put none d.prog.keyHash idx (some hash.toNat) } }.wrBit PGM.KEYSTAT_ENROLLED 0 idx true
    d1.drawn.answerKey pf (leBytes 1 d1.freeVal.toNat))

/-- REVOKE: an index is revoked for good; images already resident keep running. -/
def execRevoke (pf : Pf) (idx : Fin 4) : State → Host.Outcome State Fault Refusal :=
  onDev (fun _ d =>
    let d1 := d.wrBit PGM.KEYSTAT_REVOKED 0 idx true
    d1.drawn.answerKey pf (leBytes 1 d1.freeVal.toNat))

/-! ## Reading counts (R571) -/

/-- What a selection names for a physical function: 0 a program counter, 1 a drop count; none for any other. -/
def Dev.selected (d : Dev) (pf kind i : Nat) : Option Nat :=
  let owned := fun (k : Nat) => decide (d.slotOwner k = some pf)
  if kind = 0 then
    (if d.prog.slots.any (fun e => owned e.1 && decide (e.2.handle ≠ 0 ∧ e.2.cntBase ≤ i ∧ i < e.2.cntBase + e.2.cntCount)) then some 0 else none)
  else if kind = 1 then (if i < 65536 ∧ owned (i / 256) = true then some 1 else none)
  else none

/-- A selection is stored and its count latched; a selection of another's count latches zero (R571). -/
def Dev.selectCount (d : Dev) (pf kind i : Nat) : Dev :=
  let ab : Nat × Nat := match d.selected pf kind i with
    | some 0 => (look 0 d.eng.cntPkts i, look 0 d.eng.cntBytes i)
    | some _ => (look 0 d.eng.drops i, 0)
    | none => (0, 0)
  ((((d.wr PGM.CNTSEL_KIND pf kind).wr PGM.CNTSEL_INDEX pf i).wr PGM.CNTSEL_VALID pf 1).wr PGM.CNTA_VALUE pf ab.1).wr PGM.CNTB_VALUE pf ab.2

/-- CNTSEL_WRITE (R571). -/
def execCntselWrite (pf : Pf) (kind : Fin 4) (index : BitVec 20) : State → Host.Outcome State Fault Refusal :=
  onDev (fun _ d => d.selectCount pf kind index.toNat)

/-- CNTCLR: the selected count is cleared. -/
def execCntclr (pf : Pf) : State → Host.Outcome State Fault Refusal :=
  onDev (fun _ d =>
    let i := d.rd PGM.CNTSEL_INDEX pf
    match d.selected pf (d.rd PGM.CNTSEL_KIND pf) i with
    | some 0 => { d with eng := { d.eng with cntPkts := put 0 d.eng.cntPkts i 0, cntBytes := put 0 d.eng.cntBytes i 0 } }
    | some _ => { d with eng := { d.eng with drops := put 0 d.eng.drops i 0 } }
    | none => d)

end Sys2Proof.Machine
end

