-- ==== Sys2Proof/Machine/Resources.lean ====
section
/-! DEFINITION. The RESOURCES service: grants, limits and queries of polder records, and the default grants (17 R457 to R463,
R474, R475). A request is the command as the control service serves it (log entry 24). -/

namespace Sys2Proof.Machine

/-! ## Polder records (R457 to R459) -/

/-- A range of a kind: submission rings, receive rings, completion rings, L2 nodes, key slots. Its fields and the size of a
family's half. -/
def rangeKinds : List (Fld × Fld × Nat) :=
  [(VIR.PSQ_BASE, VIR.PSQ_COUNT, 131072), (VIR.PRQ_BASE, VIR.PRQ_COUNT, 131072), (VIR.PCQ_BASE, VIR.PCQ_COUNT, 65536),
   (VIR.PVEC_L2BASE, VIR.PVEC_L2CNT, 4096), (VIR.PKEY_BASE, VIR.PKEY_COUNT, 65536)]

/-- A grant as a request asks for it (R460): the five ranges, vectors, task quota, PASID, MAC, and TASKCQ. -/
structure GrantReq where
  target : Nat
  ranges : List (Nat × Nat)
  vecs   : Nat
  tasks  : Nat
  pasid  : Nat
  mac    : Nat
  taskcq : Option Nat

/-- Read a GRANT body. -/
def readGrant (b : List Byte) : GrantReq :=
  let u := fun (o n : Nat) => leAt b o n
  { target := u 2 2
    ranges := [(u 4 4, u 8 4), (u 12 4, u 16 4), (u 20 4, u 24 4), (u 32 2, u 34 2), (u 36 4, u 40 4)]
    vecs := u 28 2
    tasks := u 30 2
    pasid := u 44 3
    mac := beAt b 48 6
    taskcq := if (u 56 4).testBit 31 then some (u 56 4 % 2 ^ 17) else none }

/-- Whether every byte of a body that a request does not list is zero (R460). -/
def zeroBut (b : List Byte) (listed : List Nat) : Bool := (List.range 64).all (fun i => listed.contains i || decide (b.getD i 0 = 0))

/-- The bytes that each request lists. -/
def grantBytes : List Nat := [0, 2, 3] ++ (List.range 43).map (· + 4) ++ (List.range 6).map (· + 48) ++ (List.range 4).map (· + 56)
def limitsBytes : List Nat := [0, 2, 3] ++ (List.range 10).map (· + 8) ++ (List.range 10).map (· + 24)
def queryBytes : List Nat := [0, 2, 3] ++ (List.range 8).map (· + 8)

/-- Codes of R461. -/
abbrev resNotPermitted : Nat := 1
abbrev resRange : Nat := 2
abbrev resBusy : Nat := 3
abbrev resLimit : Nat := 4
abbrev resFormat : Nat := 5
abbrev resNoPolder : Nat := 6

/-- The other polders of a family that hold a range of a kind or a count: those with a grant. -/
def Dev.granted (d : Dev) (p : Nat) : List Nat :=
  (List.range 4096).filterMap (fun i => let q := 4096 * pfOf p + i; if q ≠ p ∧ d.rd VIR.PCTL_EN q = 1 then some q else none)

/-- Whether a range of a kind lies in its family's pool and overlaps no other polder's (R459). -/
def Dev.rangeOk (d : Dev) (p : Nat) (kind : Fld × Fld × Nat) (r : Nat × Nat) : Bool :=
  let lo := kind.2.2 * pfOf p
  decide (r.2 = 0 ∨ (lo ≤ r.1 ∧ r.1 + r.2 ≤ lo + kind.2.2))
    && (d.granted p).all (fun q => decide (r.2 = 0 ∨ r.1 + r.2 ≤ d.rd kind.1 q ∨ d.rd kind.1 q + d.rd kind.2.1 q ≤ r.1))

/-- The sum of a field over the other polders of a family with a grant. -/
def Dev.familySum (d : Dev) (p : Nat) (f : Fld) : Nat := ((d.granted p).map (fun q => d.rd f q)).sum

/-- RANGE (R457, R459, R461). -/
def Dev.grantRange (d : Dev) (g : GrantReq) : Bool :=
  let p := g.target
  let vf := decide (p % 4096 ≠ 0)
  let cq := g.ranges.getD 2 (0, 0)
  (rangeKinds.zip g.ranges).all (fun e => d.rangeOk p e.1 e.2)
    && (!vf || (g.ranges.take 3).all (fun r => decide (r.2 ≤ 8192)))
    && decide (1 ≤ g.vecs ∧ g.vecs ≤ (if vf then 64 else 2048))
    && decide (d.familySum p VIR.PVEC_VECTORS + g.vecs ≤ 65536 ∧ d.familySum p VIR.PID_TASKQ + g.tasks ≤ 24576)
    && (match g.taskcq with | some r => decide (cq.1 ≤ r ∧ r < cq.1 + cq.2) | none => true)

/-- Whether a resource of a kind is in use: a ring that is not DISABLED, an L2 node that is enabled, a key slot that is not
EMPTY. -/
def Dev.inUse (d : Dev) (kind i : Nat) : Bool :=
  if kind < 3 then decide ((d.ring kind i).st ≠ .disabled)
  else if kind = 3 then (d.node 2 i).wrote.en
  else decide ((d.key i).st ≠ 0)

/-- BUSY (R459, R461): a range leaves out a resource in use, or a vector count changes while it may not. -/
def Dev.grantBusy (d : Dev) (g : GrantReq) : Bool :=
  let p := g.target
  let left := (rangeKinds.zip g.ranges).zipIdx.any (fun e =>
    let lo := d.rd e.1.1.1 p
    (List.range (d.rd e.1.1.2.1 p)).any (fun i => d.inUse e.2 (lo + i) && !decide (e.1.2.1 ≤ lo + i ∧ lo + i < e.1.2.1 + e.1.2.2)))
  let pf := d.fn (4096 * pfOf p)
  left || (decide (g.vecs ≠ d.rd VIR.PVEC_VECTORS p) && (if p % 4096 = 0 then pf.msixEnable else pf.vfEnable))

/-- Write a grant into the polder's record. -/
def Dev.writeGrant (d : Dev) (g : GrantReq) : Dev :=
  let p := g.target
  let d1 := (rangeKinds.zip g.ranges).foldl (fun (y : Dev) e => (y.wr e.1.1 p e.2.1).wr e.1.2.1 p e.2.2) d
  (((((((d1.wr VIR.PVEC_VECTORS p g.vecs).wr VIR.PID_TASKQ p g.tasks).wr VIR.PID_PASID p g.pasid).wr VIR.PMAC_MAC p g.mac).wr VIR.PTCQ_RING p
    (g.taskcq.getD 0)).wr VIR.PTCQ_EN p (if g.taskcq.isSome then 1 else 0)).wr VIR.PCTL_EN p 1)

/-! ## Requests (R460, R461) -/

/-- The checks that every request shares: its code and its zero bytes, that the sender may name the target, and that the target
can be. -/
def Dev.resTarget (d : Dev) (fn : Nat) (b : List Byte) (code target : Nat) (listed : List Nat) : Nat :=
  if leAt b 0 1 ≠ code ∨ zeroBut b listed = false then resFormat
  else if fn % 4096 ≠ 0 ∧ (code ≠ 3 ∨ target ≠ fn) then resNotPermitted
  else if 8192 ≤ target ∨ d.linkPresent (linkOf target) = false then resNoPolder
  else if pfOf target ≠ pfOf fn then resNotPermitted
  else 0

/-- The control service answers a RESOURCES request: EVT 2.1 for a commit of a record, EVT 2.2 and VIR.REFUSED for a refusal. -/
def Dev.resAnswer (d : Dev) (now : NetTime) (fn code target res : Nat) : Dev :=
  let d1 := if res = 0 then (if code = 3 then d else (d.commit [(3, target)]).raise now (ev 2 1) (code * 256) (some target))
    else ((d.bump VIR.REFUSED_COUNT).wr VIR.REFUSED_LAST 0 res).raise now (ev 2 2) (res + code * 256) (some fn)
  d1.answer fn 3 (leBytes 1 res)

/-- GRANT: a polder's ranges, counts and names are committed, or refused (R459, R461); the order of the checks is the model's
(log entry 25). -/
def execGrant (fn : Fn) (body : List Byte) : State → Host.Outcome State Fault Refusal :=
  onDev (fun now d =>
    let g := readGrant body
    let res := d.resTarget fn body 1 g.target grantBytes
    let tcq := leAt body 56 4
    if !d.answerRoom fn then d
    else if res ≠ 0 then d.resAnswer now fn 1 g.target res
    else if 2 ^ 20 ≤ g.pasid ∨ tcq % 2 ^ 31 / 2 ^ 17 ≠ 0 then d.resAnswer now fn 1 g.target resFormat
    else if !d.grantRange g then d.resAnswer now fn 1 g.target resRange
    else if d.grantBusy g then d.resAnswer now fn 1 g.target resBusy
    else (d.writeGrant g).resAnswer now fn 1 g.target 0)

/-- INC of a rate in bit/s (11 R287); 0 for none. -/
def incOf (rate : Nat) : Nat := (rate * 131072 + 1350000000 - 1) / 1350000000

/-- The L2 nodes of a polder. -/
def Dev.l2Nodes (d : Dev) (p : Nat) : List Nat := (List.range (d.rd VIR.PVEC_L2CNT p)).map (fun i => d.rd VIR.PVEC_L2BASE p + i)

/-- Write the peak rate and WEIGHT of every L2 node of a polder (R462). -/
def Dev.writeL2 (d : Dev) (p peak weight : Nat) : Dev :=
  (d.l2Nodes p).foldl (fun y n =>
    let x := y.node 2 n
    y.setNode 2 n { x with wrote := { x.wrote with w0 := setBits x.wrote.w0 32 32 (min (incOf peak) (2 ^ 32 - 1)), w1 := setBits x.wrote.w1 48 12 weight } }) d

/-- LIMITS: the peak rate and weight of the polder's L2 nodes, and its contract limits (R460, R462). -/
def execLimits (fn : Fn) (body : List Byte) : State → Host.Outcome State Fault Refusal :=
  onDev (fun now d =>
    let p := leAt body 2 2
    let peak := leAt body 8 8
    let weight := leAt body 16 2
    let cr := leAt body 24 8
    let cn := leAt body 32 2
    let res := d.resTarget fn body 2 p limitsBytes
    if !d.answerRoom fn then d
    else if res ≠ 0 then d.resAnswer now fn 2 p res
    else if weight = 0 ∨ 4095 < weight then d.resAnswer now fn 2 p resFormat
    else if (cr ≠ 0 ∧ cr < d.rd VIR.PCRUSE_RATE p) ∨ (cn ≠ 0 ∧ cn < d.rd VIR.PUSE_CONTRACTS p) then d.resAnswer now fn 2 p resLimit
    else (((((d.wr VIR.PPEAK_RATE p peak).wr VIR.PCTL_WEIGHT p weight).wr VIR.PCRLIM_RATE p cr).wr VIR.PCTL_CNLIM p cn).writeL2 p peak
      weight).resAnswer now fn 2 p 0)

/-- Words 0 to 12 of a polder's record (R476). -/
def Dev.polderWords (d : Dev) (p : Nat) : List Nat :=
  let w := fun (fs : List (Fld × Nat)) => (fs.map (fun f => d.rd f.1 p * 2 ^ f.2)).sum
  [w [(VIR.PSQ_BASE, 0), (VIR.PSQ_COUNT, 32)], w [(VIR.PRQ_BASE, 0), (VIR.PRQ_COUNT, 32)], w [(VIR.PCQ_BASE, 0), (VIR.PCQ_COUNT, 32)],
   w [(VIR.PVEC_VECTORS, 0), (VIR.PVEC_L2BASE, 16), (VIR.PVEC_L2CNT, 32)], w [(VIR.PKEY_BASE, 0), (VIR.PKEY_COUNT, 32)],
   w [(VIR.PID_PASID, 0), (VIR.PID_TASKQ, 32)], w [(VIR.PMAC_MAC, 0)],
   w [(VIR.PCTL_WEIGHT, 0), (VIR.PCTL_CNLIM, 16), (VIR.PCTL_EN, 32), (VIR.PCTL_EXISTS, 33)], w [(VIR.PPEAK_RATE, 0)], w [(VIR.PCRLIM_RATE, 0)],
   w [(VIR.PCRUSE_RATE, 0)], w [(VIR.PUSE_CONTRACTS, 0), (VIR.PUSE_TASKS, 32), (VIR.PUSE_TASKFULL, 48)], w [(VIR.PTCQ_RING, 0), (VIR.PTCQ_EN, 31)]]

/-- RESOURCES_QUERY: words 0 to 12 of a polder's record go to the reply buffer (R460). -/
def execResourcesQuery (fn : Fn) (body : List Byte) : State → Host.Outcome State Fault Refusal :=
  onDev (fun now d =>
    let p := leAt body 2 2
    let res := d.resTarget fn body 3 p queryBytes
    if !d.answerRoom fn then d
    else if res ≠ 0 then d.resAnswer now fn 3 p res
    else (d.hostWrite fn (leAt body 8 8) ((d.polderWords p).flatMap (leBytes 8))).resAnswer now fn 3 p 0)

/-! ## Default grants (R458) -/

/-- The default grant of an existing PF, as the control cores write it after every reset. -/
def Dev.defaultGrant (d : Dev) (l : Nat) : Dev :=
  if !d.linkPresent l then d
  else
    let p := 4096 * l
    let d1 := d.writeGrant {
      target := p
      ranges := [(131072 * l, 1024), (131072 * l, 1024), (65536 * l, 512), (4096 * l, 16), (65536 * l, 4096)]
      vecs := 2048
      tasks := 4096
      pasid := 0
      mac := d.rd VIR.MACBASE_MAC + p
      taskcq := none }
    (d1.wr VIR.PCTL_WEIGHT p 64).commit [(3, p)]

end Sys2Proof.Machine
end

