-- ==== Sys2Proof/Machine/Admission.lean ====
section
/-! DEFINITION. The bounds of the admission compiler: stage bounds, the terms they are made of, and the capacity conditions (13
R341 to R344). Rates are in Gb/s and times in nanoseconds, as exact rationals. -/

namespace Sys2Proof

/-! ## Contract records (R338) -/

/-- The source is a submission ring. -/
def CRec.ring (r : CRec) : Bool := r.flags.testBit 0

/-- The network ports of a contract's source. -/
def CRec.portList (r : CRec) : List Nat := (List.range 16).filter (fun p => r.ports.testBit p)

/-- Whether a contract's frames run a program. -/
def CRec.runs (r : CRec) : Bool := !r.direct

/-- P of a contract's cipher jobs in KCLK (10 R243). -/
def CRec.jobCost (r : CRec) : Nat := 2 * (Machine.ceilDiv r.calen 16 + Machine.ceilDiv r.cdlen 16 + 1)

/-- The action of a contract's rule. -/
def CRec.action (r : CRec) (num : Nat) : Nat :=
  r.target + r.tclass * 2 ^ 18 + 3 * 2 ^ 21 + r.slot * 2 ^ 23 + (if r.toHost then 2 ^ 29 else 0) + num * 2 ^ 32

/-- A contract record in the layout of R338. -/
def CRec.encode (r : CRec) : List Byte :=
  Machine.leBytes 4 r.number ++ Machine.leBytes 1 r.op ++ Machine.leBytes 1 r.cclass ++ Machine.leBytes 1 r.flags ++ Machine.leBytes 1 r.tclass ++ Machine.leBytes 2 r.polder ++ Machine.leBytes 2 r.ports
    ++ Machine.leBytes 4 r.srcring ++ Machine.leBytes 4 r.target ++ Machine.leBytes 1 (r.slot + (if r.direct then 64 else 0)) ++ Machine.leBytes 1 r.profile ++ Machine.leBytes 1 r.njobs
    ++ Machine.leBytes 1 0 ++ Machine.leBytes 8 r.rate ++ Machine.leBytes 4 r.burst ++ Machine.leBytes 2 r.lmax ++ Machine.leBytes 2 r.lmin ++ Machine.leBytes 4 r.deadline ++ Machine.leBytes 4 r.margin
    ++ Machine.leBytes 2 r.cdlen ++ Machine.leBytes 2 r.calen ++ Machine.leBytes 4 r.twin ++ Machine.leBytes 8 0 ++ Machine.leBytes 80 r.value ++ Machine.leBytes 80 r.mask ++ Machine.leBytes 32 0

end Sys2Proof

namespace Sys2Proof.Machine

/-- A contract as the compiler counts it: its number, its record, and its committed rate in bit/s. -/
structure Plan where
  num  : Nat
  r    : CRec
  rate : Nat

/-- A rational rounded up to a whole number, 0 at least. -/
def upNat (q : Rat) : Nat := q.ceil.toNat

/-- A number of halves, percent and so on as a rational. -/
def ratio (a b : Nat) : Rat := (a : Rat) / (b : Rat)

/-- The period of a clock in nanoseconds: 0 ECLK, 1 KCLK, 2 PCLK; throttled frequencies while throttling is in force (R359). -/
def Dev.period (d : Dev) (clk : Nat) : Rat :=
  match throttledClocks.find? (fun c => decide (c.1 = clk)) with
  | some c => ratio 1000000 (if d.dkw.throttled then c.2.2 else c.2.1)
  | none => 0

/-- The pipelines a contract's frames enter. -/
def Dev.pipesOf (d : Dev) (r : CRec) : List Nat :=
  if r.ring then [(d.ring kSub r.srcring).pipe] else (List.range 4).filter (fun k => r.portList.any (fun p => decide (p / 4 = k)))

/-- The host link of a contract's ring or receive ring. -/
def Dev.planLink (d : Dev) (r : CRec) : Nat :=
  linkOf (if r.ring then (d.ring kSub r.srcring).polder else (d.ring kRx r.target).polder)

/-! ## Programs (R342, R343) -/

/-- The image a slot of a pipeline binds. -/
def Dev.slotImage (d : Dev) (pipe slot : Nat) : Image := look {} d.prog.images (look ({} : Slot) d.prog.slots (slotKey pipe slot)).handle

/-- B of a contract: the verified bound of its slot's image, the largest over its pipelines. -/
def Dev.boundB (d : Dev) (r : CRec) : Nat := ((d.pipesOf r).map (fun k => (d.slotImage k r.slot).bound)).foldl max 0

/-- The largest verified bound and issue count of the images bound in the pipelines that share a bay with a contract's: BMAX and
ISS. -/
def Dev.boundMax (d : Dev) (r : CRec) : Nat × Nat :=
  let mine := (d.pipesOf r).foldl (fun m k => m ||| d.rd DSP.BAYMASK_MASK k) 0
  d.prog.slots.foldl (fun m e =>
    if e.2.handle ≠ 0 ∧ d.rd DSP.BAYMASK_MASK (e.1 / 64) &&& mine ≠ 0 then
      let x := look ({} : Image) d.prog.images e.2.handle
      (max m.1 x.bound, max m.2 x.issue)
    else m) (0, 0)

/-- Whether a contract's packets are ordered: those of a ring are, and those of a port unless its mode gives no flow (08 R202). -/
def Dev.ordered (d : Dev) (r : CRec) : Bool :=
  r.ring || r.portList.any (fun p => decide (bitsOf (d.rd DSP.FMODE_MODE) (2 * p) 2 ≠ 0))

/-- N: packets of one burst of every contract that enters a pipeline. -/
def Dev.burstPackets (d : Dev) (ps : List Plan) (pipe : Nat) : Nat :=
  ((ps.filter (fun k => k.r.runs && (d.pipesOf k.r).contains pipe)).map (fun k => ceilDiv k.r.burst (max k.r.lmin 1))).sum

/-- m: cipher cores for onward jobs. -/
def Dev.onwardCores (d : Dev) : Nat :=
  32 - d.rd CIP.CFG_RCORES - 1 - ((List.range 32).filter (fun c => decide (d.rd CIP.CORESTAT_STATE c = 2))).length

/-! ## The scheduler's tree with the contracts in force (R343, R345) -/

/-- Write the committed rate and burst of a queue. -/
def Dev.commitQueue (d : Dev) (q inc burst : Nat) : Dev :=
  let x := d.node 4 q
  d.setNode 4 q { x with wrote := { x.wrote with w0 := setBits x.wrote.w0 0 32 inc, w1 := setBits x.wrote.w1 0 24 burst } }

/-- Raise the committed INC of a node to the sum of its children's; an L0 node only where it has one. -/
def Dev.raiseNode (d : Dev) (lvl n : Nat) : Dev :=
  let x := d.node lvl n
  let s := d.csum lvl n
  if x.wrote.cinc < s ∧ (lvl ≠ 0 ∨ x.wrote.cinc ≠ 0) then d.setNode lvl n { x with wrote := { x.wrote with w0 := setBits x.wrote.w0 0 32 s } } else d

/-- The L3, L2, L1 nodes and the port of a queue as its record is written. -/
def Dev.pathOfQueue (d : Dev) (q : Nat) : Nat × Nat × Nat × Nat :=
  let l3 := (d.node 4 q).wrote.parent
  let l1 := (d.node 2 (l3 / 8)).wrote.parent
  (l3, l3 / 8, l1, l1 / 2)

/-- Raise the parents of a queue as R295 requires. -/
def Dev.raisePath (d : Dev) (q : Nat) : Dev :=
  match d.pathOfQueue q with
  | (l3, l2, l1, p) => (((d.raiseNode 3 l3).raiseNode 2 l2).raiseNode 1 l1).raiseNode 0 p

/-- The tree with the committed rates of plans in force. -/
def Dev.withRates (d : Dev) (ps : List Plan) : Dev :=
  let qs := ps.flatMap (fun k => k.r.queues.map (fun q => (q, k)))
  let d1 := qs.foldl (fun y e => y.commitQueue e.1 (incOf e.2.rate) e.2.r.burst) d
  qs.foldl (fun y e => y.raisePath e.1) d1

/-- The class of a queue's L3 node. -/
def Dev.queueClass (d : Dev) (q : Nat) : Nat := (d.pathOfQueue q).1 % 8

/-- The enabled queues of a class under a node. -/
def Dev.queuesUnder (d : Dev) (lvl n c : Nat) : List Nat :=
  ((d.nodesAt 4).filter (fun e => e.2.wrote.en && decide (e.2.wrote.parent % 8 = c) &&
    (let w := d.pathOfQueue e.1
     match lvl with
     | 0 => decide (w.2.2.2 = n)
     | 1 => decide (w.2.2.1 = n)
     | 2 => decide (w.2.1 = n)
     | 3 => decide (w.1 = n)
     | _ => decide (e.1 = n)))).map (fun e => e.1)

/-- The plan that a queue carries. -/
def planAt (ps : List Plan) (q : Nat) : Option Plan := ps.find? (fun k => k.r.queues.contains q)

/-- θ of a node on a path, in bit times (R343): the frames that its other committed children can put in front. -/
def Dev.theta (d : Dev) (ps : List Plan) (lvl n child c p : Nat) : Nat :=
  let kids := ((d.nodesAt (lvl + 1)).filter (fun e => decide (parentOf (lvl + 1) e.1 e.2.wrote = n ∧ e.2.wrote.cinc ≠ 0 ∧ e.1 ≠ child))).map (fun e => e.1)
  let held := (kids.map (fun k => d.queuesUnder (lvl + 1) k c)).filter (fun l => !l.isEmpty)
  let longest := (held.flatten.map (fun q => ((planAt ps q).map (fun k => k.r.lmax)).getD (d.cmax p c))).foldl max 0
  held.length * (longest + d.ovh p) * 8

/-- h: the nodes at L1 to L4 on a path that have a committed rate. -/
def Dev.committedNodes (d : Dev) (q : Nat) : Nat :=
  match d.pathOfQueue q with
  | (l3, l2, l1, _) => ([(4, q), (3, l3), (2, l2), (1, l1)].filter (fun e => decide ((d.node e.1 e.2).wrote.cinc ≠ 0))).length

/-- The effective rate of an INC in Gb/s (11 R287). -/
def incRate (inc : Nat) : Rat := ratio (inc * 135) (131072 * 100)

/-! ## Timelines of a port (R340, R343) -/

/-- The gates of a list over one cycle: ells and gates of each stretch; the last entry holds to the cycle's end. -/
def gateRuns : List Nat → Nat → List (Nat × Nat)
  | [], _ => []
  | [e], room => [(room, entryGates e)]
  | e :: es, room => (min (entryLen e) room, entryGates e) :: gateRuns es (room - min (entryLen e) room)

/-- The stretches of a list that run. -/
def GateList.runs (l : GateList) : List (Nat × Nat) := (gateRuns l.entries l.cycle).filter (fun e => decide (e.1 ≠ 0))

/-- Adjacent stretches of one state become one. -/
def joinRuns : List (Nat × Bool) → List (Nat × Bool)
  | [] => []
  | x :: xs =>
    match joinRuns xs with
    | [] => [x]
    | y :: ys => if x.2 = y.2 then (x.1 + y.1, x.2) :: ys else x :: y :: ys

/-- The stretches of a class. -/
def ofClass (c : Nat) (l : List (Nat × Nat)) : List (Nat × Bool) := l.map (fun e => (e.1, e.2.testBit c))

/-- The longest interval, in ells, in which no frame of a class can start, over joined stretches: the closings count their berm. -/
def longestGap (berm : Nat) (l : List (Nat × Bool)) : Nat :=
  let r := l.foldl (fun (a : Nat × Nat) e =>
    if e.2 then (if berm < e.1 then (max a.1 a.2, berm) else (a.1, a.2 + e.1)) else (a.1, a.2 + e.1)) (0, 0)
  max r.1 r.2

/-- The stretches of a cycle from its first closing on, with those before it behind them. -/
def fromClosing (l : List (Nat × Bool)) : List (Nat × Bool) := l.dropWhile (fun e => e.2) ++ l.takeWhile (fun e => e.2)

/-- U: the openings of a class in one cycle, less one berm each. -/
def usable (berm : Nat) (l : List (Nat × Bool)) : Nat := ((joinRuns (fromClosing l)).map (fun e => if e.2 then e.1 - berm else 0)).sum

/-- The lists a port runs from the commit on: the one in force with its LENAWARE, and the one that a pending change brings. -/
def Dev.portLists (d : Dev) (p : Nat) : List (Option GateList × Bool) :=
  let cur := (d.running p, (d.sluice p).lena)
  match (d.sluice p).next with
  | none => [cur]
  | some n =>
    let new : Option GateList := if n.mode = 1 then some (d.compactList p) else if n.mode = 2 then some (d.adminList n.fset) else none
    [cur, (new, n.lena)]

/-- The stretches around the take-over of a pending change (12 R329): two cycles before T₀, with the old cycle run on where EXT says
so, and two cycles of the new list. -/
def Dev.transition (d : Dev) (p : Nat) : List (Nat × Nat) :=
  match (d.sluice p).next with
  | none => []
  | some n =>
    let allOpen : List (Nat × Nat) := [(125000000, 0xFF)]
    let before := match d.running p with
      | none => allOpen
      | some l =>
        let start := l.cycleStart (n.t0 - 1)
        let ext := if n.mode = 2 then d.rd SLU.FAEXT_EXT n.fset else 0
        let part := (n.t0 - start) / 8
        if ext ≠ 0 ∧ n.t0 < start + ext * 8 ∧ start ≠ n.t0 then l.runs ++ [(part, ((l.runs.getLast?).map (fun e => e.2)).getD 0xFF)]
        else l.runs ++ l.runs ++ gateRuns l.entries part
    let after := match (d.portLists p).getLast? with
      | some (some l, _) => l.runs ++ l.runs
      | _ => allOpen
    before ++ after

/-- The timeline of a class of a port: G in ells, and usable and whole ells of a cycle for each list; none while its gate is always
open. -/
def Dev.classGate (d : Dev) (p c : Nat) : Option (Nat × List (Nat × Nat)) :=
  let berm := d.berm p c
  let ls := (d.portLists p).filterMap (fun e => e.1)
  let cyc := ls.map (fun l => (ofClass c l.runs, l.cycle))
  if cyc.all (fun e => e.1.all (fun x => x.2)) then none
  else
    let gaps := cyc.map (fun e => longestGap berm (joinRuns (e.1 ++ e.1)))
    let edge := longestGap berm (joinRuns (ofClass c (d.transition p)))
    some ((edge :: gaps).foldl max 0, cyc.map (fun e => if e.1.all (fun x => x.2) then (e.2, e.2) else (usable berm e.1, e.2)))

/-- Whether two classes of a port share an instant in which both are open. -/
def Dev.shareOpen (d : Dev) (p a b : Nat) : Bool :=
  (d.portLists p).any (fun e => match e.1 with
    | none => true
    | some l => l.runs.any (fun x => x.2.testBit a && x.2.testBit b))

/-- H(c): the classes above, and every express class when the class is preemptable (R343). -/
def Dev.classesAbove (d : Dev) (p c : Nat) : List Nat :=
  (List.range 8).filter (fun x => decide (c < x) || (decide (x ≠ c) && d.bermPreemptable p c && !d.bermPreemptable p x))

/-- Burst, largest frame and rate that a class of H(c) counts with: its class shaper's when enabled, else its contracts'. -/
def Dev.classLoad (d : Dev) (ps : List Plan) (p x : Nat) : List (Nat × Nat × Rat) :=
  let s := (d.node lvlClass (8 * p + x)).inForce
  if s.en then [(s.cburst, d.cmax p x, incRate s.cinc)]
  else
    (ps.filter (fun k => k.r.queues.any (fun q => decide ((d.pathOfQueue q).2.2.2 = p ∧ d.queueClass q = x)))).map
      (fun k => (k.r.burst, k.r.lmax, ratio k.rate 1000000000))

/-- Whether a class of H(c) is bounded: its shaper is enabled, or every enabled queue of it carries a contract. -/
def Dev.classBounded (d : Dev) (ps : List Plan) (p x : Nat) : Bool :=
  (d.node lvlClass (8 * p + x)).inForce.en || (d.queuesUnder 0 p x).all (fun q => (planAt ps q).isSome)

/-- BLK in nanoseconds. -/
def Dev.blocking (d : Dev) (p c : Nat) : Rat :=
  ((List.range c).filter (fun x => d.shareOpen p x c)).foldl (fun (m : Rat) x =>
    let b := if d.bermPreemptable p x && !d.bermPreemptable p c then 143 + 64 * d.rd PRT.PREEMPT_ADDFRAG p else d.cmax p x + 20
    max m (ratio (b * 8) (max (d.portRate p) 1))) 0

/-! ## Stage bounds (R342) -/

/-- X_in and X_out of a port rate in Gb/s, in nanoseconds. -/
def macIn (rate : Nat) : Nat := if rate ≤ 100 then 64 else if rate ≤ 200 then 48 else if rate ≤ 400 then 40 else 36
def macOut (rate : Nat) : Nat := if rate ≤ 100 then 24 else if rate ≤ 200 then 20 else if rate ≤ 400 then 16 else 14

/-- A bound that nothing meets: what a term without a limit counts as. -/
def noBound : Rat := (2 ^ 32 - 1 : Nat)

/-- Burst and largest frame, in nanoseconds of a host link at its figure (15 R394), of the contracts that cross it in one direction; a
link without a figure has no bound. -/
def Dev.linkLoad (d : Dev) (ps : List Plan) (l : Nat) (toHost : Bool) : Rat :=
  if d.rd HIF.LSTAT_FIGURE l = 0 then noBound else ratio ((((ps.filter (fun k => (if toHost then k.r.toHost else k.r.ring) &&
      decide (linkOf (if toHost then (d.ring kRx k.r.target).polder else (d.ring kSub k.r.srcring).polder) = l))).map
    (fun k => k.r.burst + k.r.lmax)).sum) * 8) (d.rd HIF.LSTAT_FIGURE l)

/-- Stages 1 to 6 of a contract. -/
def Dev.frontStages (d : Dev) (ps : List Plan) (k : Plan) : List Rat :=
  let r := k.r
  let e := d.period 0
  let kc := d.period 1
  let pc := d.period 2
  let rate := (r.portList.map (fun p => max (d.portRate p) 1)).foldl min 800
  let b : Rat := d.boundB r
  let bm : Rat := (d.boundMax r).1
  let is7 : Rat := 7 * (d.boundMax r).2
  let n := ((d.pipesOf r).map (d.burstPackets ps)).foldl max 0
  let fair := d.rd DSP.CFG_OFAIR
  let wq : Rat := ceilDiv (n * (fair + 1)) (max fair 1)
  let s1 : Rat := if r.ring then 2400 + 50 * (ceilDiv r.lmax 512 : Nat) + d.linkLoad ps (linkOf (d.ring kSub r.srcring).polder) false
    else macIn rate
  let s2 : Rat := if r.ring then 36 * pc + 680 else max (36 * pc + 680) (ratio ((r.lmax + 8) * 8) rate)
  let jobs := ((ps.filter (fun x => x.r.runs)).map (fun x => ceilDiv x.r.burst (max x.r.lmin 1) * x.r.njobs * x.r.jobCost)).sum
  if r.direct then [s1, s2, 0, 0, 0, 0]
  else
    [s1, s2,
      (40 + b) * e + wq * pc + (bm + is7) * e + is7 * e + (max (2 * b) bm + 4040 + is7) * e + 8 * pc,
      if d.ordered r then (2 * bm + is7) * e else 0,
      96 * pc,
      if r.njobs = 0 then 0 else (r.njobs * (r.jobCost + 24) + 32 + ceilDiv jobs (max d.onwardCores 1) : Nat) * kc]

/-- Stages 7 to 9 of a contract for one of its queues. -/
def Dev.egressStages (d : Dev) (ps : List Plan) (k : Plan) (q : Nat) : List Rat :=
  let c := d.queueClass q
  match d.pathOfQueue q with
  | (l3, l2, l1, p) =>
    let rate : Nat := max (d.portRate p) 1
    let ovh := d.ovh p
    let rho := incRate (d.node 4 q).wrote.cinc
    let thetas := d.theta ps 3 l3 q c p + d.theta ps 2 l2 l3 c p + d.theta ps 1 l1 l2 c p + d.theta ps 0 p l1 c p
    let s7 : Rat := if rho = 0 then noBound else
      24 * d.period 2 + ratio ((k.r.burst + k.r.lmax + ovh) * 8) 1 / rho + d.committedNodes q * (256 * d.period 2) + ratio thetas rate
        + ratio (2 * (d.cmax p c + ovh) * 8) rate
    let mates := ps.filter (fun x => x.r.queues.any (fun y => decide ((d.pathOfQueue y).2.2.2 = p ∧ d.queueClass y = c)))
    let bits := ((mates.map (fun x => x.r.burst + x.r.lmax + ovh)).sum) * 8
    let s8 : Rat := match d.classGate p c with
      | none => 0
      | some (g, us) =>
        if us.any (fun u => decide (u.1 = 0)) then noBound
        else (8 * g : Nat) + (us.map (fun u => ratio (bits * u.2) (rate * u.1))).foldl max 0
    let above := (d.classesAbove p c).flatMap (d.classLoad ps p)
    let left : Rat := rate - (above.map (fun x => x.2.2)).sum
    let load := ((above.map (fun x => x.1 + x.2.1 + ovh)).sum) * 8
    let s9 : Rat := if left ≤ 0 then noBound else macOut rate + d.blocking p c + ratio load 1 / left
    [s7, s8, s9]

/-- The ten stage bounds of a contract for one of its queues (or its receive ring), each rounded up to a nanosecond. -/
def Dev.stagesFor (d : Dev) (ps : List Plan) (k : Plan) (q : Option Nat) : List Nat :=
  let tail : List Rat := match q with
    | some x => d.egressStages ps k x ++ [0]
    | none => [0, 0, 0, 1100 + 50 * (ceilDiv k.r.lmax 512 : Nat) + d.linkLoad ps (linkOf (d.ring kRx k.r.target).polder) true]
  (d.frontStages ps k ++ tail).map upNat

/-- The stage bounds of a contract: those of the queue with the larger total (R343). -/
def Dev.stages (d : Dev) (ps : List Plan) (k : Plan) : List Nat :=
  if k.r.toHost then d.stagesFor ps k none
  else
    let a := d.stagesFor ps k (some k.r.target)
    if k.r.dup then (let b := d.stagesFor ps k (some k.r.twin); if a.sum < b.sum then b else a) else a

/-- The effective margin (R341). -/
def Dev.margin (d : Dev) (r : CRec) : Nat := max r.margin (d.rd ADM.CFG_MINMARGIN)

/-- How far a contract misses its deadline, 0 when it meets it; `d` holds the rates of the plans (`withRates`). -/
def Dev.misses (d : Dev) (ps : List Plan) (k : Plan) : Nat := (d.stages ps k).sum + d.margin k.r - k.r.deadline

/-- The binding stage: the one with the largest bound (R352). -/
def bindingStage (bs : List Nat) : Nat := (bs.zipIdx.foldl (fun (m : Nat × Nat) e => if m.1 < e.1 then (e.1, e.2 + 1) else m) (0, 0)).2

/-! ## Capacity conditions (R344) -/

/-- Packets per second of a contract. -/
def Plan.pps (k : Plan) : Rat := ratio k.rate (8 * max k.r.lmin 1)

/-- Bytes of the express buffer a contract counts with: burst, what arrives within its deadline, and one frame. -/
def Plan.bytes (k : Plan) : Rat := (k.r.burst : Rat) + ratio (k.rate * k.r.deadline) 8000000000 + k.r.lmax

/-- Engines in service. -/
def Dev.enginesUp (d : Dev) : Nat := ((List.range 192).filter (fun n => d.engineServes n)).length

/-- The port and class pairs that contracts use. -/
def Dev.portClasses (d : Dev) (ps : List Plan) : List (Nat × Nat) :=
  (ps.flatMap (fun k => k.r.queues.map (fun q => ((d.pathOfQueue q).2.2.2, d.queueClass q)))).eraseDups

/-- The first capacity condition that the plans break: stage, unit (1 bit/s, 2 bytes, 3 packets, 4 entries), shortfall; `d` holds
their rates. -/
def Dev.capacity (d : Dev) (ps : List Plan) : Option (Nat × Nat × Nat) :=
  let ovr := fun (stage unit : Nat) (lhs rhs : Rat) => if lhs ≤ rhs then none else some (stage, unit, upNat (lhs - rhs))
  let run := ps.filter (fun k => k.r.runs)
  let engines := ovr 3 1 ((run.map (fun k => k.pps * ((d.boundB k.r + 7 * (d.boundMax k.r).2 : Nat) : Rat))).sum)
    (ratio (d.rd ADM.CFG_ESHARE) 100 * ((d.enginesUp - 1 : Nat) : Rat) * (1000000000 / d.period 0))
  let contexts := ((List.range 4).map (fun k =>
    let bays := ((List.range 12).filter (fun b => d.rdBit DSP.BAYMASK_MASK k b)).length
    if d.burstPackets ps k = 0 then none else ovr 3 3 (d.burstPackets ps k : Nat) ((128 * bays - 8 : Nat) : Rat))).filterMap id
  let cipher := ovr 6 1 ((run.map (fun k => k.pps * ((k.r.njobs * k.r.jobCost : Nat) : Rat))).sum)
    (ratio (d.rd ADM.CFG_CSHARE) 100 * (d.onwardCores : Nat) * (1000000000 / d.period 1))
  let rates := ((List.range 16).map (fun p =>
    let s := d.csum 0 p
    let own := (d.node 0 p).wrote.cinc
    let lim := if own = 0 then d.rd SCH.PORT_LINEINC p else min own (d.rd SCH.PORT_LINEINC p)
    if (d.portClasses ps).any (fun e => decide (e.1 = p)) then ovr 7 1 (incRate s * 1000000000) (incRate lim * 1000000000) else none)).filterMap id
  let sluice := ((d.portClasses ps).map (fun e =>
    let sum := ((ps.filter (fun k => k.r.queues.any (fun q => decide ((d.pathOfQueue q).2.2.2 = e.1 ∧ d.queueClass q = e.2)))).map
      (fun k => k.rate)).sum
    let r : Rat := (d.portRate e.1 * 1000000000 : Nat)
    match d.classGate e.1 e.2 with
    | none => ovr 8 1 (sum : Nat) r
    | some (_, us) => (us.map (fun u => ovr 8 1 (sum : Nat) (r * ratio u.1 (max u.2 1)))).findSome? id)).filterMap id
  let link := ([(0, false), (0, true), (1, false), (1, true)].map (fun e =>
    let sum := ((ps.filter (fun k => (if e.2 then k.r.toHost else k.r.ring) &&
      decide (linkOf (if e.2 then (d.ring kRx k.r.target).polder else (d.ring kSub k.r.srcring).polder) = e.1))).map (fun k => k.rate)).sum
    ovr (if e.2 then 10 else 1) 1 (sum : Nat) (ratio (d.rd ADM.CFG_HSHARE * (d.rd HIF.LSTAT_FIGURE e.1 * 1000000000)) 100))).filterMap id
  let express := ovr 0 2 ((ps.map Plan.bytes).sum) (d.rd ADM.EXPRES_BYTES : Nat)
  let pool := ovr 0 4 (((ps.map (fun k => upNat (k.bytes / (max k.r.lmin 1 : Nat)))).sum : Nat) : Rat) 8388608
  ([engines] ++ contexts.map some ++ [cipher] ++ rates.map some ++ sluice.map some ++ link.map some ++ [express, pool]).findSome? id

/-- Bytes by which a contract's frames miss the frames condition of R344 at a queue's port: LMAX against PRT.MAXLEN and CMAX, and the
openings under R326. None when it holds. -/
def Dev.frameMiss (d : Dev) (r : CRec) : Option Nat :=
  let inPorts := (if r.ring then [] else r.portList).findSome? (fun p => if d.rd PRT.MAXLEN_LEN p < r.lmax then some (r.lmax - d.rd PRT.MAXLEN_LEN p) else none)
  let outPorts := r.queues.findSome? (fun q =>
    let p := (d.pathOfQueue q).2.2.2
    let c := d.queueClass q
    if d.rd PRT.MAXLEN_LEN p < r.lmax then some (r.lmax - d.rd PRT.MAXLEN_LEN p)
    else if d.cmax p c < r.lmax then some (r.lmax - d.cmax p c)
    else if d.bermPreemptable p c then none
    else (d.portLists p).findSome? (fun e => match e.1 with
      | none => none
      | some l => match l.maxOpen c with
        | none => none
        | some m =>
          if e.2 then
            if m * 8 * d.portRate p < (r.lmax + 8) * 8 then some (r.lmax + 8 - m * d.portRate p) else none
          else if m ≤ d.berm p c then some 0 else none))
  match inPorts with
  | some x => some x
  | none => outPorts

/-- Whether every class above a contract's, where both are open at once, is bounded (R343, R344; 21 R547). -/
def Dev.priorityOk (d : Dev) (ps : List Plan) (r : CRec) : Bool :=
  r.queues.all (fun q =>
    let p := (d.pathOfQueue q).2.2.2
    let c := d.queueClass q
    (d.classesAbove p c).all (fun x => !d.shareOpen p x c || d.classBounded ps p x))

end Sys2Proof.Machine
end

