-- ==== Sys2Proof/Machine/Setup.lean ====
section
/-! DEFINITION. Set-ups: the checks of a record, the commit and its activation, and the queries (13 R336 to R341, R345 to R353,
R361, R364; 17 R462; 21 R547). -/

namespace Sys2Proof.Machine

/-! ## Result codes (R351) -/

abbrev admFormat : Nat := 0x01
abbrev admPermitted : Nat := 0x02
abbrev admNumber : Nat := 0x03
abbrev admDeadline : Nat := 0x04
abbrev admCapacity : Nat := 0x05
abbrev admFrame : Nat := 0x06
abbrev admPriority : Nat := 0x07
abbrev admSlot : Nat := 0x08
abbrev admClassifier : Nat := 0x09
abbrev admResource : Nat := 0x0A
abbrev admDisplaces : Nat := 0x0B
abbrev admDegraded : Nat := 0x0C
abbrev admList : Nat := 0x0D
abbrev admEpoch : Nat := 0x0E
abbrev admWithdrawn : Nat := 0x0F
abbrev admQueueFull : Nat := 0x10

/-- Why a set-up is refused: code, stage, unit, record, contract, shortfall (R350). -/
structure AdmVerdict where
  code    : Nat
  stage   : Nat := 0
  unit    : Nat := 0
  idx     : Nat := 0
  num     : Nat := 0
  short   : Nat := 0

/-! ## Reading a set-up (R338, R339) -/

/-- A contract record of 256 bytes. -/
def readRec (b : List Byte) : CRec := {
  number := leAt b 0 4
  op := leAt b 4 1
  cclass := leAt b 5 1
  flags := leAt b 6 1
  tclass := leAt b 7 1
  polder := leAt b 8 2
  ports := leAt b 10 2
  srcring := leAt b 12 4
  target := leAt b 16 4
  slot := leAt b 20 1 % 64
  direct := decide (leAt b 20 1 / 64 % 2 = 1)
  profile := leAt b 21 1
  njobs := leAt b 22 1
  rate := leAt b 24 8
  burst := leAt b 32 4
  lmax := leAt b 36 2
  lmin := leAt b 38 2
  deadline := leAt b 40 4
  margin := leAt b 44 4
  cdlen := leAt b 48 2
  calen := leAt b 50 2
  twin := leAt b 52 4
  value := leAt b 64 80
  mask := leAt b 144 80
  zeroOk := decide (leAt b 20 1 < 128 ∧ leAt b 23 1 = 0 ∧ leAt b 56 8 = 0 ∧ leAt b 224 32 = 0) }

/-- A list record of 32 bytes, with the entries read from the address it gives. -/
def readList (b : List Byte) (entries : List Nat) : LRec := {
  port := leAt b 0 1
  mode := leAt b 1 1
  lena := leAt b 2 1
  fset := leAt b 3 1
  sec := leAt b 4 6
  ns := leAt b 10 4
  cycle := leAt b 14 4
  len := leAt b 18 2
  entries := entries
  zeroOk := decide (leAt b 28 4 = 0) }

/-- A set-up buffer: the header, COUNT contract records, NLISTS list records. -/
def readSetup (fn : Nat) (reply : Word) (b : List Byte) (entries : List (List Nat)) : SetupReq :=
  let count := leAt b 0 2
  let n := leAt b 2 1
  { fn := fn
    reply := reply
    ok := decide (1 ≤ count ∧ count ≤ 256 ∧ n ≤ 16 ∧ leAt b 3 61 = 0)
    records := (List.range (min count 256)).map (fun i => readRec (slice b (64 + 256 * i) 256))
    lists := (List.range (min n 16)).map (fun i => readList (slice b (64 + 256 * count + 32 * i) 32) (entries.getD i [])) }

/-! ## Contracts in force -/

/-- A contract. -/
def Dev.contract (d : Dev) (n : Nat) : Contract := look {} d.adm.contracts n

/-- Whether a number names a contract. -/
def Dev.isContract (d : Dev) (n : Nat) : Bool := decide (d.rd ADM.CSTAT_STATE n ≠ 0)

/-- The contracts that count: all but suspended ones, at the rate in force. -/
def Dev.plansInForce (d : Dev) : List Plan :=
  (d.adm.contracts.filter (fun e => decide (d.rd ADM.CSTAT_STATE e.1 ≠ 0 ∧ d.rd ADM.CSTAT_STATE e.1 ≠ 4))).map
    (fun e => { num := e.1, r := e.2.rcd, rate := e.2.rate })

/-- The numbers that the records of a set-up get: an ADD the lowest free one, 0 when there is none. -/
def Dev.assignNumbers (d : Dev) (rs : List CRec) : List Nat :=
  (rs.foldl (fun (a : List Nat) r =>
    if r.op = 1 then
      a ++ [(((List.range (min 65536 (d.adm.contracts.length + rs.length + 2))).drop 1).find? (fun n => !d.isContract n && !a.contains n)).getD 0]
    else a ++ [r.number]) [])

/-- The plans with the first `i` additions and modifications in force and every removed contract gone. -/
def Dev.plansWith (d : Dev) (rs : List CRec) (nums : List Nat) (i : Nat) : List Plan :=
  let gone := (rs.filter (fun r => decide (r.op = 3))).map (fun r => r.number)
  let done := (rs.zip nums).take i
  let changed := (done.filter (fun e => decide (e.1.op = 2))).map (fun e => e.2)
  (d.plansInForce.filter (fun k => !gone.contains k.num && !changed.contains k.num))
    ++ (done.filter (fun e => decide (e.1.op ≠ 3))).map (fun e => { num := e.2, r := e.1, rate := e.1.rate })

/-- The tree without the rates of contracts that a set-up removes. -/
def Dev.withoutRemoved (d : Dev) (rs : List CRec) : Dev :=
  (rs.filter (fun r => decide (r.op = 3))).foldl (fun y r => (d.contract r.number).rcd.queues.foldl (fun z q => z.commitQueue q 0 0) y) d

/-! ## Permissions and format (R337, R339; 17 R462) -/

/-- Whether a function owns a polder as R337 has it. -/
def ownsPolder (fn polder : Nat) : Bool := if fn % 4096 = 0 then decide (polder / 4096 = fn / 4096) else decide (polder = fn)

/-- Whether a record's fields obey R338 and R339. -/
def Dev.recFormat (d : Dev) (r : CRec) : Bool :=
  let old := (d.contract r.number).rcd
  if !r.zeroOk then false
  else if r.op = 3 then decide (r.number < 2 ^ 20)
  else
    decide (1 ≤ r.op ∧ r.op ≤ 3 ∧ 1 ≤ r.cclass ∧ r.cclass ≤ 3 ∧ r.flags < 16 ∧ r.tclass < 8 ∧ r.polder < 8192 ∧ r.slot < 64 ∧ r.profile < 32
      ∧ r.njobs ≤ 4 ∧ 64 ≤ r.lmin ∧ r.lmin ≤ r.lmax ∧ r.lmax ≤ 9600 ∧ 1000 ≤ r.deadline ∧ r.deadline ≤ 1000000000
      ∧ r.target < 2 ^ 18 ∧ r.twin < 2 ^ 18 ∧ r.srcring < 2 ^ 18 ∧ r.number < 2 ^ 20 ∧ (r.op = 1 → r.number = 0))
    && (r.ring || (decide (0 < r.ports ∧ r.ports < 2 ^ 16) &&
          (d.pipesOf r).all (fun k =>
            let bits := 160 * fmtUnits (d.profile k r.profile).fmt
            decide (r.value < 2 ^ bits ∧ r.mask < 2 ^ bits))))
    && !(r.direct && !r.ring) && !(r.direct && decide (r.njobs ≠ 0)) && !(r.dup && r.toHost)
    && !(decide (r.op = 2) && d.isContract r.number &&
          decide (r.flags % 4 ≠ old.flags % 4 ∨ r.polder ≠ old.polder ∨ r.target ≠ old.target))

/-- Whether the rings and queues that a record names belong to its polder. -/
def Dev.namesOwn (d : Dev) (r : CRec) : Bool :=
  (!r.ring || decide (d.ringPolder kSub r.srcring = some r.polder))
    && (if r.toHost then decide (d.ringPolder kRx r.target = some r.polder)
        else r.queues.all (fun q => decide (d.l2Owner (d.pathOfQueue q).2.1 = some r.polder)))

/-- Whether a polder's contracts keep within its limits; a limit of 0 is none (17 R462). -/
def Dev.withinLimits (d : Dev) (ps : List Plan) (polder : Nat) : Bool :=
  let mine := ps.filter (fun k => decide (k.r.polder = polder))
  let cr := d.rd VIR.PCRLIM_RATE polder
  let cn := d.rd VIR.PCTL_CNLIM polder
  decide ((cr = 0 ∨ (mine.map (fun k => k.r.rate)).sum ≤ cr) ∧ (cn = 0 ∨ mine.length ≤ cn))

/-- Whether a function may submit a record. -/
def Dev.recPermitted (d : Dev) (fn : Nat) (ps : List Plan) (r : CRec) : Bool :=
  let old := !(decide (r.op ≠ 1) && d.isContract r.number) || ownsPolder fn (d.contract r.number).rcd.polder
  if r.op = 3 then old
  else
    old && ownsPolder fn r.polder && d.namesOwn r && (decide (fn % 4096 = 0) || decide (r.cclass ≤ 2)) && d.withinLimits ps r.polder

/-! ## Resources (R345, R346; 21 R547) -/

/-- The positions of a record's rules, one for each of its pipelines, each the lowest free index of the first bank of its profile that
the control cores own; none where there is none, or where an entry that is searched earlier can match a key of the rule.
`taken` holds the rules of earlier records: pipeline, bank, index, value, mask; `own` the positions that the contract or removed
ones give up. -/
def Dev.placeRules (d : Dev) (taken : List (Nat × Nat × Nat × Nat × Nat)) (own : List (Nat × Nat × Nat)) (r : CRec) :
    Option (List (Nat × Nat × Nat)) :=
  if r.ring then some []
  else
    (d.pipesOf r).mapM (fun k =>
      let q := d.profile k r.profile
      match q.en, q.banks.find? (fun b => d.ownsBank .control k b) with
      | true, some b =>
        let isFree := fun (i : Nat) =>
          (!(d.acsEntry k b i).valid || own.contains (k, b, i)) && !taken.any (fun t => decide (t.1 = k ∧ t.2.1 = b ∧ t.2.2.1 = i))
        match (List.range (d.bankEntries k b)).find? isFree with
        | none => none
        | some i =>
          let place := fun (bank idx : Nat) => 2048 * (q.banks.findIdx (fun x => decide (x = bank))) + idx
          let clash := fun (v m : Nat) => decide ((v ^^^ r.value) &&& m &&& r.mask = 0)
          let early := q.banks.any (fun bk => (List.range (d.bankEntries k bk)).any (fun j =>
            let e := d.acsEntry k bk j
            e.valid && !own.contains (k, bk, j) && decide (place bk j < place b i) && clash e.val e.mask))
          let early2 := taken.any (fun t => decide (t.1 = k) && q.banks.contains t.2.1 && decide (place t.2.1 t.2.2.1 < place b i)
            && clash t.2.2.2.1 t.2.2.2.2)
          if early || early2 then none else some (k, b, i)
      | _, _ => none)

/-- The lowest policer that is neither enabled nor allocated. -/
def Dev.freePolicer (d : Dev) (taken : List Nat) : Option Nat :=
  ((List.range (min 131072 (d.adm.contracts.length + (d.nodesAt 5).length + taken.length + 2))).drop 1).find? (fun n =>
    !(d.node 5 n).wrote.polEn && !taken.contains n && !d.adm.contracts.any (fun e => decide (e.2.policer = n)))

/-- Whether the queues of a record can carry a contract: enabled, of the class it names, no other contract's, and a twin under the
duplicated node of the pair's other port. -/
def Dev.queuesFit (d : Dev) (ps : List Plan) (num : Nat) (r : CRec) : Bool :=
  let plain := r.queues.all (fun q =>
    (d.node 4 q).wrote.en && decide (d.queueClass q = r.tclass) && !ps.any (fun k => decide (k.num ≠ num) && k.r.queues.contains q))
  let ring := !r.toHost || !ps.any (fun k => decide (k.num ≠ num) && k.r.toHost && decide (k.r.target = r.target))
  let twin := !r.dup || (decide ((d.pathOfQueue r.target).2.2.1 % 2 = 0 ∧ (d.pathOfQueue r.twin).2.2.1 % 2 = 0) && decide (r.twin ≠ r.target)
    && d.arePair (d.pathOfQueue r.target).2.2.2 (d.pathOfQueue r.twin).2.2.2)
  plain && ring && twin

/-- What a set-up reserves for its records, in order: the policer and the rules of each. -/
def Dev.reserve (d : Dev) (rs : List CRec) (nums : List Nat) : List (Option Nat × Option (List (Nat × Nat × Nat))) :=
  let given := (rs.filter (fun r => decide (r.op = 3))).flatMap (fun r => (d.contract r.number).rules)
  ((rs.zip nums).foldl (fun (a : List (Option Nat × Option (List (Nat × Nat × Nat))) × List Nat × List (Nat × Nat × Nat × Nat × Nat)) e =>
    if e.1.op = 3 then (a.1 ++ [(none, some [])], a.2)
    else
      let own := if e.1.op = 2 then (d.contract e.2).rules else []
      let pol := if e.1.op = 2 ∧ (d.contract e.2).policer ≠ 0 then some (d.contract e.2).policer else d.freePolicer a.2.1
      let rules := d.placeRules a.2.2 (own ++ given) e.1
      (a.1 ++ [(pol, rules)], a.2.1 ++ pol.toList, a.2.2 ++ (rules.getD []).map (fun x => (x.1, x.2.1, x.2.2, e.1.value, e.1.mask))))
    (([], [], []) : List (Option Nat × Option (List (Nat × Nat × Nat))) × List Nat × List (Nat × Nat × Nat × Nat × Nat))).1

/-! ## Sluice lists (R340) -/

/-- Write a list record into the port's registers and issue its CHANGE. -/
def Dev.applyList (d : Dev) (now : NetTime) (l : LRec) : Dev :=
  let p := l.port
  let s := l.fset
  let d1 := if l.mode = 1 then
      l.entries.zipIdx.foldl (fun y e => if e.2 < 64 then y.wr SLU.CENT_ENTRY (64 * p + e.2) e.1 else y)
        ((((d.wr SLU.CBASELO_NS p l.ns).wr SLU.CBASEHI_SEC p l.sec).wr SLU.CCYCLE_CYCLE p l.cycle).wr SLU.CCYCLE_LEN p l.len)
    else
      l.entries.zipIdx.foldl (fun y e => if e.2 < 4096 then y.wr SLU.FAENT_ENTRY (4096 * s + e.2) e.1 else y)
        ((((d.wr SLU.FABASELO_NS s l.ns).wr SLU.FABASEHI_SEC s l.sec).wr SLU.FACYCLE_CYCLE s l.cycle).wr SLU.FACYCLE_LEN s l.len)
  (((d1.wr SLU.PCTL_MODE p l.mode).wr SLU.PCTL_FSET p s).wr SLU.PCTL_LENAWARE p l.lena).sluiceChange now p

/-- The code that refuses a list record. -/
def Dev.listCode (d : Dev) (now : NetTime) (fn : Nat) (l : LRec) : Nat :=
  if !l.zeroOk || decide (16 ≤ l.port ∨ l.mode = 0 ∨ 2 < l.mode ∨ 1 < l.lena ∨ 3 < l.fset) then admFormat
  else if fn % 4096 ≠ 0 then admPermitted
  else if (d.applyList now l).rd SLU.PSTAT_RESULT l.port ≠ 0 then admList
  else 0

/-! ## Judging a set-up (R344, R353) -/

/-- Whether a contract is degraded (R361). -/
def Dev.degraded (d : Dev) : Bool := decide (d.rd ADM.STATUS_DEGRADED = 1)

/-- Whether a record adds a contract or raises RATE or BURST. -/
def Dev.recRaises (d : Dev) (r : CRec) : Bool :=
  decide (r.op = 1) || (decide (r.op = 2) && decide ((d.contract r.number).rcd.rate < r.rate ∨ (d.contract r.number).rcd.burst < r.burst))

/-- Existing contracts that would miss their deadline under plans. -/
def Dev.displaced (d : Dev) (nums : List Nat) (ps : List Plan) : Option Nat :=
  let t := d.withRates ps
  (ps.find? (fun k => !nums.contains k.num && decide (t.misses ps k ≠ 0))).map (fun k => k.num)

/-- The first check that a record fails (R353). `d` runs the set-up's lists and holds no removed contract's rate. -/
def Dev.judgeRec (d : Dev) (fn : Nat) (rs : List CRec) (nums : List Nat) (res : List (Option Nat × Option (List (Nat × Nat × Nat)))) (i : Nat)
    (r : CRec) : Option AdmVerdict :=
  let num := nums.getD i 0
  let fail := fun (code : Nat) => some ({ code := code, idx := i, num := num } : AdmVerdict)
  let all := d.plansWith rs nums rs.length
  let upTo := d.plansWith rs nums (i + 1)
  if !d.recFormat r then fail admFormat
  else if !d.recPermitted fn upTo r then fail admPermitted
  else if num = 0 || (decide (r.op ≠ 1) && !d.isContract r.number) then fail admNumber
  else if r.op = 3 then none
  else if d.degraded && d.recRaises r then fail admDegraded
  else if (r.runs && (d.pipesOf r).any (fun k => decide ((look ({} : Slot) d.prog.slots (slotKey k r.slot)).handle = 0)))
      || (r.direct && decide ((d.ring kSub r.srcring).mode ≠ 0)) then fail admSlot
  else if (res.getD i (none, none)).1.isNone || !d.queuesFit upTo num r then fail admResource
  else if (res.getD i (none, none)).2.isNone then fail admClassifier
  else
    match d.frameMiss r with
    | some short => some { code := admFrame, stage := 9, unit := 2, idx := i, num := num, short := short }
    | none =>
      let t := d.withRates all
      let k : Plan := { num := num, r := r, rate := r.rate }
      if !t.priorityOk all r then some { code := admPriority, stage := 9, idx := i, num := num }
      else if t.misses all k ≠ 0 then
        some { code := admDeadline, stage := bindingStage (t.stages all k), idx := i, num := num, short := t.misses all k }
      else
        let before := d.plansWith rs nums i
        match (d.withRates upTo).capacity upTo, (d.withRates before).capacity before with
        | some (stage, unit, short), none => some { code := admCapacity, stage := stage, unit := unit, idx := i, num := num, short := short }
        | _, _ =>
          match d.displaced nums upTo, d.displaced nums before with
          | some n, none => some { code := admDisplaces, idx := i, num := n }
          | _, _ => none

/-- The device on which a set-up is compiled: its lists issued and its removed contracts' rates gone (R340, R344). -/
def Dev.compileOn (d : Dev) (now : NetTime) (rs : List CRec) (ls : List LRec) : Dev :=
  (ls.foldl (fun y l => if l.port < 16 then y.applyList now l else y) d).withoutRemoved rs

/-- Why a set-up is refused; none when it passes. Contract records come before list records. `late` is the code that what happened
while it was compiled gives it; that, and EPOCH for one that meets a reaction line before its commit point, are decided after every
record has passed (R347, R353, R364). -/
def Dev.judge (d : Dev) (now : NetTime) (fn : Nat) (headerOk : Bool) (rs : List CRec) (ls : List LRec) (late : Option Nat) :
    Option AdmVerdict :=
  let nums := d.assignNumbers rs
  let res := d.reserve rs nums
  let t := d.compileOn now rs ls
  if !headerOk || decide (rs.length = 0 ∨ 256 < rs.length ∨ 16 < ls.length) then some { code := admFormat }
  else
    match rs.zipIdx.findSome? (fun e => t.judgeRec fn rs nums res e.2 e.1) with
    | some v => some v
    | none =>
      let bad := ls.zipIdx.findSome? (fun e =>
        let y := (ls.take e.2).foldl (fun z l => z.applyList now l) d
        if y.listCode now fn e.1 = 0 then none else some ({ code := y.listCode now fn e.1, idx := rs.length + e.2 } : AdmVerdict))
      match bad with
      | some v => some v
      | none => (late.or (if d.devSafe then some admEpoch else none)).map (fun c => { code := c })

/-! ## The commit and the activation (R345 to R348) -/

/-- The committed state of a contract with its stage bounds. -/
def Dev.putContract (d : Dev) (n : Nat) (c : Contract) : Dev :=
  { d with adm := { d.adm with contracts := if c = {} then Tbl.erase d.adm.contracts n else Tbl.insert d.adm.contracts n c } }

/-- Write the queue records of a contract: committed rate and burst, depths, class, DUP and TWIN (R345). -/
def Dev.writeQueues (d : Dev) (r : CRec) (rate : Nat) : Dev :=
  let depth := ceilDiv (upNat ({ num := 0, r := r, rate := r.rate : Plan }).bytes) 256
  r.queues.foldl (fun y q =>
    let x := (y.commitQueue q (incOf rate) r.burst).node 4 q
    let dup := r.dup && decide (q = r.target)
    let w2 := setBits (setBits (setBits x.wrote.w2 25 1 (if dup then 1 else 0)) 26 2 r.cclass) 32 18 (if dup then r.twin else 0)
    (y.setNode 4 q { x with wrote := { x.wrote with w2 := w2, w3 := depth % 2 ^ 20 } }).raisePath q) d

/-- Write a contract's policer: CIR and PIR at RATE, CBS at BURST, PBS at BURST + LMAX, RED clear (R345). -/
def Dev.writePolicer (d : Dev) (n : Nat) (r : CRec) : Dev :=
  let inc := incOf r.rate
  let port := if r.toHost then (r.portList.headD 0) else (d.pathOfQueue r.target).2.2.2
  d.setNode 5 n { d.node 5 n with wrote := {
    w0 := inc + inc * 2 ^ 32
    w1 := min r.burst (2 ^ 24 - 1) + min (r.burst + r.lmax) (2 ^ 24 - 1) * 2 ^ 24 + d.ovh port % 64 * 2 ^ 48 + 2 ^ 57 } }

/-- Mark the ring of a contract as carrying one, or not (16 R432). -/
def Dev.markRing (d : Dev) (r : CRec) (on : Bool) : Dev :=
  let set := fun (y : Dev) (kind n : Nat) =>
    let x := y.ring kind n
    y.setRing kind n { x with w1 := setBits x.w1 16 1 (if on then 1 else 0) }
  let d1 := if r.ring then set d kSub r.srcring else d
  if r.toHost then set d1 kRx r.target else d1

/-- Take a contract out: its rules are invalidated, its queues lose their rates and class, its policer is freed. -/
def Dev.removeContract (d : Dev) (n : Nat) : Dev :=
  let c := d.contract n
  let d1 := c.rules.foldl (fun y x => y.acsInvalid x.1 x.2.1 x.2.2) d
  let d2 := c.rcd.queues.foldl (fun y q =>
    let x := (y.commitQueue q 0 0).node 4 q
    y.setNode 4 q { x with wrote := { x.wrote with w2 := setBits (setBits (setBits x.wrote.w2 25 1 0) 26 2 0) 32 18 0 } }) d1
  let d3 := if c.policer = 0 then d2 else d2.setNode 5 c.policer { d2.node 5 c.policer with wrote := {} }
  ((((((d3.markRing c.rcd false).putContract n {}).wr ADM.CSTAT_STATE n 0).wr ADM.CSTAT_CCLASS n 0).wr ADM.CSTAT_POLDER n 0).wr ADM.CSTAT_EPOCH n 0)

/-- Make the rules of a contract valid, with a contract number in their actions. -/
def Dev.writeRules (d : Dev) (c : Contract) (num : Nat) : Dev :=
  c.rules.foldl (fun y x =>
    (y.setAcsEntry x.1 x.2.1 x.2.2 { valid := true, val := c.rcd.value, mask := c.rcd.mask, act := c.rcd.action num, actx := c.policer }).acsTouched
      x.1 x.2.1) d

/-- Show the contract counts, what is reserved, and what each polder uses (R366; 17 R476; 11 R299). -/
def Dev.showContracts (d : Dev) : Dev :=
  let cs : List (Nat × Contract) := d.adm.contracts.filter (fun e => d.isContract e.1)
  let plan := fun (e : Nat × Contract) => ({ num := e.1, r := e.2.rcd, rate := e.2.rcd.rate } : Plan)
  let n := fun (k : Nat) => (cs.filter (fun (e : Nat × Contract) => decide (e.2.rcd.cclass = k))).length
  let pool := (cs.map (fun e => upNat ((plan e).bytes / (max e.2.rcd.lmin 1 : Nat)))).sum
  let d1 := (((d.wr ADM.COUNT_CR 0 (n 1)).wr ADM.COUNT_TG 0 (n 2)).wr ADM.COUNT_SAF 0 (n 3)).wr ADM.RESV_EXPUSED 0
    ((cs.map (fun e => e.2.express)).sum)
  let d2 := ((d1.wr ADM.RESV_POOLUSED 0 pool).wr SCH.POOL_ADMRES 0 pool).wr ADM.STATUS_DEGRADED 0
    (if cs.any (fun e => decide (3 ≤ d.rd ADM.CSTAT_STATE e.1)) then 1 else 0)
  let polders : List Nat := ((d.regs.filter (fun (e : Nat × Nat) => decide (e.1 % 1024 = VIR.PUSE_CONTRACTS.id))).map (fun (e : Nat × Nat) => e.1 / 1024)
    ++ cs.map (fun (e : Nat × Contract) => e.2.rcd.polder)).eraseDups
  polders.foldl (fun y p =>
    let mine := cs.filter (fun (e : Nat × Contract) => decide (e.2.rcd.polder = p))
    (y.wr VIR.PCRUSE_RATE p ((mine.map (fun (e : Nat × Contract) => e.2.rcd.rate)).sum)).wr VIR.PUSE_CONTRACTS p mine.length) d2

/-- Commit one record: a contract removed, or added or modified in state 1, pending activation. -/
def Dev.commitRec (d : Dev) (epoch at_ : Nat) (r : CRec) (num : Nat) (res : Option Nat × Option (List (Nat × Nat × Nat))) (bs : List Nat) : Dev :=
  if r.op = 3 then d.removeContract num
  else
    let old := d.contract num
    let d0 := old.rules.foldl (fun y x => y.acsInvalid x.1 x.2.1 x.2.2) d
    let c : Contract := {
      rcd := { r with number := num }
      bounds := bs
      total := bs.sum
      policer := res.1.getD 0
      rules := res.2.getD []
      rate := r.rate
      pipes := d.pipesOf r
      bound := if r.runs then d.boundB r else 0
      express := upNat ({ num := num, r := r, rate := r.rate : Plan }).bytes
      used := old.used
      overrun := old.overrun }
    let d1 := (((d0.writeQueues r r.rate).writePolicer (res.1.getD 0) r).markRing r true).putContract num c
    let d2 := (((d1.wr ADM.CSTAT_STATE num 1).wr ADM.CSTAT_CCLASS num r.cclass).wr ADM.CSTAT_POLDER num r.polder).wr ADM.CSTAT_EPOCH num epoch
    ({ d2 with adm := { d2.adm with waiting := d2.adm.waiting.filter (fun (w : Nat × Nat) => decide (w.1 ≠ num)) ++ [(num, at_)] } }).writeRules c num

/-- The reply buffer (R350): the header, and an entry for each record. -/
def replyBytes (v : AdmVerdict) (epoch at_ : Nat) (entries : List (Nat × List Nat)) : List Byte :=
  slice (leBytes 1 v.code ++ leBytes 1 v.stage ++ leBytes 1 v.unit ++ leBytes 1 v.idx ++ leBytes 4 v.num ++ leBytes 8 v.short ++ leBytes 4 epoch
      ++ leBytes 6 (at_ / 1000000000) ++ leBytes 4 (at_ % 1000000000)) 0 64
    ++ entries.flatMap (fun e => slice (leBytes 4 e.1 ++ e.2.flatMap (leBytes 4) ++ leBytes 4 e.2.sum) 0 64)

/-- Set ADM.LAST and ADM.SHORT, and answer the request; a function in FLR gets no reply buffer (15 R409). -/
def Dev.admResult (d : Dev) (fn : Nat) (reply : Word) (v : AdmVerdict) (epoch at_ : Nat) (entries : List (Nat × List Nat)) : Dev :=
  let d1 := (((((d.wr ADM.LAST_RESULT 0 v.code).wr ADM.LAST_STAGE 0 v.stage).wr ADM.LAST_UNIT 0 v.unit).wr ADM.LAST_FAILIDX 0 v.idx).wr
    ADM.LAST_FAILNUM 0 v.num).wr ADM.SHORT_SHORTFALL 0 v.short
  (if (d.fn fn).inFlr then d1 else d1.hostWrite fn reply.toNat (replyBytes v epoch at_ entries)).answer fn 2 (leBytes 1 v.code)

/-- The stage bounds of the contracts of a set-up, each with its number (R350). -/
def Dev.setupBounds (d : Dev) (now : NetTime) (records : List CRec) (lists : List LRec) : List (Nat × List Nat) :=
  let nums := d.assignNumbers records
  let t := d.compileOn now records lists
  let all := t.plansWith records nums records.length
  let rated := t.withRates all
  (records.zip nums).map (fun e =>
    if e.1.op = 3 ∨ t.recFormat e.1 = false then (e.2, []) else (e.2, rated.stages all { num := e.2, r := e.1, rate := e.1.rate }))

/-- A set-up that passes is in force under the next epoch: contracts are removed, lists changed, contracts added and modified, all
with one activation time (R347 to R349). -/
def Dev.commitSetup (d : Dev) (now : NetTime) (fn : Nat) (reply : Word) (records : List CRec) (lists : List LRec) : Dev :=
  let nums := d.assignNumbers records
  let bounds := d.setupBounds now records lists
  let epoch := d.rd ADM.EPOCH_EPOCH + 1
  let res := d.reserve records nums
  let d1 := (d.wr ADM.EPOCH_EPOCH 0 epoch).commit [(1, 0)]
  let gone := (records.filter (fun r => decide (r.op = 3))).foldl (fun y r => y.removeContract r.number) d1
  let listed := lists.foldl (fun y l => y.applyList now l) gone
  let at_ := (lists.map (fun l => ((listed.sluice l.port).next.map (fun n => n.t0)).getD now.toNs)).foldl max now.toNs
  let d2 := (records.zip nums).zipIdx.foldl (fun y e =>
    if e.1.1.op = 3 then y
    else y.commitRec epoch at_ e.1.1 e.1.2 (res.getD e.2 (none, none)) ((bounds.getD e.2 (0, [])).2)) listed
  (((((d2.wr ADM.ACT_NS 0 (at_ % 1000000000)).wr ADM.ACT_SEC 0 (at_ / 1000000000)).showContracts).raise now (ev 13 0) epoch
    (some fn))).admResult fn reply { code := 0 } epoch at_ bounds

/-- A set-up is refused: counted, EVT 13.1, and answered. -/
def Dev.refuseSetup (d : Dev) (now : NetTime) (q : SetupReq) (v : AdmVerdict) (entries : List (Nat × List Nat)) : Dev :=
  ((d.bump ADM.REFUSED_COUNT).raise now (ev 13 1) (v.code + v.idx % 256 * 256) (some q.fn)).admResult q.fn q.reply v (d.rd ADM.EPOCH_EPOCH)
    (d.rd ADM.ACT_SEC * 1000000000 + d.rd ADM.ACT_NS) entries

/-- Show whether a set-up is compiled, and how many wait (R366). -/
def Dev.showQueue (d : Dev) : Dev :=
  (d.wr ADM.STATUS_COMPILING 0 (bitNat d.adm.compiling.isSome)).wr ADM.STATUS_QUEUED 0 d.adm.queue.length

/-- What a compile rests on, as it stands (R347 step 1). -/
def Dev.setupBasis (d : Dev) : SetupBasis := {
  contracts := (d.adm.contracts.filter (fun (e : Nat × Contract) => d.isContract e.1)).map (fun (e : Nat × Contract) => (e.1, e.2.rcd, e.2.rate))
  programs := d.prog.slots.map (fun (e : Nat × Slot) => (e.1, (look ({} : Image) d.prog.images e.2.handle).bound,
    (look ({} : Image) d.prog.images e.2.handle).issue))
  states := (List.range 4).map (d.rd DSP.BAYMASK_MASK) ++ (List.range 192).map (d.rd ENG.ESTAT_STATE)
    ++ (List.range 32).map (d.rd CIP.CORESTAT_STATE) }

/-- The compiler takes the oldest waiting set-up, when it works on none (R349). -/
def Dev.admStart (d : Dev) : Dev :=
  match d.adm.compiling, d.adm.queue with
  | none, q :: qs => ({ d with adm := { d.adm with compiling := some { req := q, basis := d.setupBasis }, queue := qs } } : Dev).showQueue
  | _, _ => d

/-- A set-up comes to its commit point: it is committed, or refused whole (R347). -/
def Dev.admFinish (d : Dev) (now : NetTime) (q : SetupReq) (late : Option Nat) : Dev :=
  match d.judge now q.fn q.ok q.records q.lists late with
  | some v => d.refuseSetup now q v (d.setupBounds now q.records q.lists)
  | none => d.commitSetup now q.fn q.reply q.records q.lists

/-- The compiler goes on (R347, R364): revalidations that are due run first; a set-up whose basis changed is compiled again, and one
that returned three times gets EPOCH; one whose function was reset gets WITHDRAWN. -/
def Dev.admTick (d : Dev) (now : NetTime) : Dev :=
  match d.adm.compiling with
  | none => d
  | some c =>
    let idle : Dev := { d with adm := { d.adm with compiling := none } }
    if c.req.gone then ((idle.admFinish now c.req (some admWithdrawn)).showQueue).admStart
    else if !d.adm.revalidate.isEmpty then d
    else if c.basis = d.setupBasis then ((idle.admFinish now c.req none).showQueue).admStart
    else if 3 ≤ c.returns then ((idle.admFinish now c.req (some admEpoch)).showQueue).admStart
    else { d with adm := { d.adm with compiling := some { c with basis := d.setupBasis, returns := c.returns + 1 } } }

/-- An FLR of a function withdraws its set-ups that have not reached their commit point (R364). -/
def Dev.withdrawSetups (d : Dev) (f : Nat) : Dev :=
  let mark := fun (q : SetupReq) => if q.fn = f then { q with gone := true } else q
  { d with adm := { d.adm with
    compiling := d.adm.compiling.map (fun c => { c with req := mark c.req })
    queue := d.adm.queue.map mark } }

/-- SETUP: the compiler takes a set-up, as `buffer` and the entries of its lists were read from the host (R338). It works on one at a
time, up to 16 wait, and a set-up that finds the queue full gets QUEUE_FULL, with EVT 13.6 (R349). The set-up is committed or refused
whole at its commit point, at an idle TCLK (`Dev.admTick`, R347; log entry 28). -/
def execSetup (fn : Fn) (reply : Word) (buffer : List Byte) (entries : List (List Nat)) : State → Host.Outcome State Fault Refusal :=
  onDev (fun now d =>
    let q := readSetup fn reply buffer entries
    if !d.answerRoom fn || decide (d.rd ADM.STATUS_READY = 0) then d
    else if 16 ≤ d.adm.queue.length then (d.raise now (ev 13 6) 0 (some fn.val)).refuseSetup now q { code := admQueueFull } []
    else (({ d with adm := { d.adm with queue := d.adm.queue ++ [q] } } : Dev).showQueue).admStart)

/-- ACTIVATION_COMPLETE: the contracts whose activation time has come are ACTIVE (R348). -/
def execActivationComplete : State → Host.Outcome State Fault Refusal :=
  onDev (fun now d =>
    let due := d.adm.waiting.filter (fun w => decide (w.2 ≤ now.toNs))
    let d1 : Dev := { d with adm := { d.adm with waiting := d.adm.waiting.filter (fun w => decide (now.toNs < w.2)) } }
    due.foldl (fun y w => if y.rd ADM.CSTAT_STATE w.1 = 1 then y.wr ADM.CSTAT_STATE w.1 2 else y) d1)

/-! ## Queries (R336) -/

/-- ADM_QUERY: the contract's record as committed and its last stage bounds go to the reply buffer. -/
def execAdmQuery (fn : Fn) (contract : Fin 1048576) (reply : Word) : State → Host.Outcome State Fault Refusal :=
  onDev (fun _ d =>
    let n := contract.val
    let c := d.contract n
    if !d.answerRoom fn || decide (d.rd ADM.STATUS_READY = 0) then d
    else if n = 0 ∨ 65535 < n ∨ d.isContract n = false then d.answer fn 2 (leBytes 1 admNumber)
    else if !ownsPolder fn c.rcd.polder then d.answer fn 2 (leBytes 1 admPermitted)
    else
      (d.hostWrite fn reply.toNat (c.rcd.encode ++ slice (leBytes 4 n ++ c.bounds.flatMap (leBytes 4) ++ leBytes 4 c.total) 0 64)).answer
        fn 2 (leBytes 1 0))

/-- EPOCHQ: the admission epoch in force and its activation time; the answer's layout behind the code is the model's (log entry
28). -/
def execEpochq (fn : Fn) : State → Host.Outcome State Fault Refusal :=
  onDev (fun _ d =>
    if !d.answerRoom fn || decide (d.rd ADM.STATUS_READY = 0) then d
    else d.answer fn 2 (leBytes 4 0 ++ leBytes 4 (d.rd ADM.EPOCH_EPOCH) ++ leBytes 4 (d.rd ADM.ACT_NS) ++ leBytes 4 (d.rd ADM.ACT_SEC)))

end Sys2Proof.Machine
end

