-- ==== Sys2Proof/Machine/Clock.lean ====
section
/-! DEFINITION. How network time runs, and what its second boundary does (12 R311, R314; 14 R382, R384; 18 R568). -/

namespace Sys2Proof.Machine

/-- A second of network time begins: the limits of R568, PPS_OUT, the path error counts and the return from quarantine. -/
def State.newSecond (s : State) (sec : Nat) : State :=
  let e := s.dev.evt
  let d1 : Dev := { s.dev with evt := { e with secondMarks := [], hourMarks := if sec % 3600 = 0 then [] else e.hourMarks } }
  let d2 : Dev := if d1.rd SLU.TCTL_PPSEN = 1 && !d1.slu.pps then ({ d1 with slu := { d1.slu with pps := true } } : Dev).send (.pin 0 true) else d1
  let now : NetTime := { sec := sec, ns := 0, frac := 0 }
  let d3 := (List.range 4).foldl (fun y i => if y.pairOn (i / 2) then y.quarantineExit now sec i else y) d2
  { s with dev := d3.rollErrors }

/-- The fraction, in units of 2⁻⁴⁰ ns, that one TCLK adds to network time (R311). -/
def Dev.tclkStep (d : Dev) : Nat := ((2 ^ 40 : Int) + signedOf (d.rd SLU.TRATE_RATE) 32).toNat

/-- One TCLK of network time (R311); the contexts of the engines count it (02 R34), the search arrays and the scheduler
go on with their commands (06 R160, 11 R309), the ring engines with theirs (16 R433), the admission compiler with its set-up (13 R347), a host link with nothing to carry may go to L1 (15 R395), and the battery domain's clock runs beside it, in the nominal ratio (log entry 3). -/
def State.tick (s0 : State) : State :=
  let d0 := s0.dev.rtcRun 1
  let s : State := { s0 with dev := ((d0.countCycles.acsTick s0.time).nodeTick s0.time |>.ctxTick s0.time |>.rxTick s0.time |>.admTick s0.time).linkPower }
  let f := s.time.frac + s.dev.tclkStep
  let ns := s.time.ns + f / 2 ^ 40
  if ns < 1000000000 then { s with time := { s.time with ns := ns, frac := f % 2 ^ 40 } }
  else
    let sec := (s.time.sec + 1) % 2 ^ 48
    { s.newSecond sec with time := { sec := sec, ns := ns - 1000000000, frac := f % 2 ^ 40 } }

/-- SECOND_BOUNDARY: the nanoseconds of network time pass zero: the machine is at the next second (R568). -/
def execSecondBoundary (s : State) : Host.Outcome State Fault Refusal :=
  let sec := (s.time.sec + 1) % 2 ^ 48
  .next { s.newSecond sec with time := { sec := sec, ns := 0, frac := 0 } }

end Sys2Proof.Machine
end

