-- ==== Sys2Proof/Machine/Terminate.lean ====
section
/-! DEFINITION. Ends of a program and the posted instructions of packets: EMIT, COPY, DROP, PUNT, TDONE, CNT, TIME, and a
termination that waited for tickets (03 R78 to R82; 08 R206). -/

namespace Sys2Proof.Machine

/-- The packet as a context holds it now: its header from S to E before the stored bytes. -/
def Ctx.packet (c : Ctx) : Option Packet :=
  c.pkt.map (fun p => { p with hdr := c.header, origin := c.s, egress := p.egress.rebase c.s })

/-! ## Retirement (08 R206) -/

/-- The verified bound of the image that a context runs. -/
def Dev.boundOf (d : Dev) (c : Ctx) : Nat := (look {} d.prog.images c.image).bound

/-- A context retires with a result: by its context cycles the engine is marked, or fails at more than twice the bound, and the result
is then discarded. -/
def Dev.retireWith (d : Dev) (now : NetTime) (x : Nat) (r : Retire) : Dev :=
  let c := d.ctx x
  let b := d.boundOf c
  let d1 := d.slowMark now (x / 8) c.cycles b
  if 2 * b < c.cycles then d1.failEngine now (x / 8) 1 (some (ev 3 0)) else d1.hold x c r

/-- A terminating instruction takes effect once every ticket is free (03 R82). -/
def Dev.terminate (d : Dev) (now : NetTime) (x : Nat) (r : Retire) : Dev :=
  let c := d.ctx x
  if c.ticketsFree then d.retireWith now x r else d.setCtx x { c with st := .wait, waitOn := .terminate r }

/-- DEFERRED_TERMINATION: the last ticket of a waiting termination is free (R82). -/
def execDeferredTermination (x : CtxId) : State → Host.Outcome State Fault Refusal :=
  onDev (fun now d =>
    let c := d.ctx x
    match c.st, c.waitOn with
    | .wait, .terminate r => if c.ticketsFree then d.retireWith now x r else d
    | _, _ => d)

/-- EMIT (R78): flag 0 is the two-step timestamp, flag 1 the one-step correction. -/
def execEmit (x : CtxId) (ra : Reg) (twoStep oneStep : Bool) : State → Host.Outcome State Fault Refusal :=
  onDev (fun now d => d.issuePacket x { regs := [ra] } (fun c =>
    let v := (c.rg ra).toNat
    match c.pkt with
    | none => d.fault x faultTask
    | some p =>
      if d.targetOk c.bind p.polder v then d.terminate now x (.emit v (bitNat twoStep + 2 * bitNat oneStep))
      else d.fault x faultEmit))

/-- DROP (R78). -/
def execDrop (x : CtxId) (reason : Byte) : State → Host.Outcome State Fault Refusal :=
  onDev (fun now d => d.issuePacket x {} (fun c =>
    if c.pkt.isNone then d.fault x faultTask else d.terminate now x (.drop reason.toNat)))

/-- PUNT (R78). -/
def execPunt (x : CtxId) (code : Byte) : State → Host.Outcome State Fault Refusal :=
  onDev (fun now d => d.issuePacket x {} (fun c =>
    if c.pkt.isNone then d.fault x faultTask else d.terminate now x (.punt code.toNat)))

/-- TDONE (R81). -/
def execTdone (x : CtxId) (ra : Reg) : State → Host.Outcome State Fault Refusal :=
  onDev (fun now d => d.issuePacket x { regs := [ra] } (fun c =>
    if c.task.isNone then d.fault x faultTask else d.terminate now x (.done (c.rg ra))))

/-- COPY (R79): a copy as the packet stands is handed over at once; one to a bad target is dropped and counted, one that an
abandoned run already made is suppressed (08 R209). DESIGN CHOICE (log entry 39): the copy takes nothing of the contract's express
reservation, which returns with the original. -/
def execCopy (x : CtxId) (ra : Reg) : State → Host.Outcome State Fault Refusal :=
  onDev (fun now d => d.issuePacket x { regs := [ra], header := true } (fun c =>
    let v := (c.rg ra).toNat
    match c.packet with
    | none => d.fault x faultTask
    | some p =>
      if 4 ≤ c.copies then d.fault x faultLimit
      else
        let q := { p with txring := none, resv := 0, share := none, onward := [], twoStep := false, oneStep := false }
        let done := { c with copies := c.copies + 1 }
        if c.copies < p.skipCopies then d.setCtx x done.next
        else if d.targetOk c.bind p.polder v then
          (d.handOver now (tgtKind v) (tgtNumber v) q).setCtx x { done with sent := c.sent + 1 }.next
        else (d.bump PGM.COPYDROP_COUNT).setCtx x done.next))

/-- CNT (R80): the packet and byte counts of a counter of the slot's range, both saturating. -/
def execCnt (x : CtxId) (ra rb : Reg) : State → Host.Outcome State Fault Refusal :=
  onDev (fun _ d => d.issue x { regs := [ra, rb] } (fun c =>
    let i := (c.rg ra).toNat
    if c.bind.cntCount ≤ i then d.fault x faultAddress
    else
      let k := c.bind.cntBase + i
      let sat := fun (n : Nat) => min n (2 ^ 64 - 1)
      let e := { d.eng with
        cntPkts := put 0 d.eng.cntPkts k (sat (look 0 d.eng.cntPkts k + 1))
        cntBytes := put 0 d.eng.cntBytes k (sat (look 0 d.eng.cntBytes k + (c.rg rb).toNat)) }
      { d with eng := e }.setCtx x c.next))

/-- TIME (R80): network time in the format of TSIN, as a read from another domain gives it (19 R510). -/
def execTime (x : CtxId) (rd : Reg) : State → Host.Outcome State Fault Refusal :=
  onDev (fun now d => d.drawn.compute x rd [] (fun _ => (d.readTime now).tsin))

end Sys2Proof.Machine
end

