-- ==== Sys2Proof/Machine/Collector.lean ====
section
/-! DEFINITION. Dispatch to engine contexts, order restoration, and the completion collector (08 R198 to R212; 03 R58; 04
R102, R104; 14 R373, R374). -/

namespace Sys2Proof.Machine

/-! ## Dispatch (R198 to R203) -/

/-- Whether no engine in a pipeline's bay mask is ONLINE or SLOW (R200). -/
def Dev.noEngine (d : Dev) (k : Nat) : Bool :=
  !(List.range 192).any (fun n => d.rdBit DSP.BAYMASK_MASK k (n / 16) && d.engineServes n)

/-- The context as a packet finds it at dispatch (03 R58; 06 R145). -/
def startCtx (p : Packet) (b : Slot) (entry : Nat) : Ctx :=
  let bs := p.bytes.take 512
  let c : Ctx := { hdr := putBytes [] 128 bs, e := 128 + bs.length, pkt := some p, image := b.handle, pipe := p.pipe, slot := p.slot
                   epoch := b.epoch, bind := b, pc := entry }
  (c.scrPuts 0 p.desc).scrPuts 64 p.key

/-- A packet that has left its queue starts in a context of an engine: flow and sequence number on its first dispatch, and
the in-flight store (R201 to R203). -/
def Dev.startPacket (d : Dev) (n : Nat) (p : Packet) (b : Slot) : Dev :=
  match d.idleCtx n with
  | none => d
  | some x =>
    let first := p.bind.isNone
    let seq := look 0 d.dsp.seq p.pipe
    let cut := { p with hdr := p.bytes.take 512, tail := p.bytes.drop 512 }
    let p1 := if first then
        { cut with bind := some b, epoch := b.epoch, flow := d.flowOf p, seq := seq
                   ordmode := if p.txring.isSome ∨ bitsOf (d.rd DSP.FMODE_MODE) (2 * p.iport) 2 ≠ 0 then 1 else 0 }
      else cut
    let img := look {} d.prog.images b.handle
    let d1 := { d with dsp := { d.dsp with
      inflight := put none d.dsp.inflight x (some p1)
      seq := if first then put 0 d.dsp.seq p.pipe ((seq + 1) % 8192) else d.dsp.seq
      rot := put 0 d.dsp.rot p.pipe ((n + 1) % 192) } }
    let d2 := (d1.bump DSP.DISPATCHED_COUNT p.pipe).wr DSP.INFLIGHT_COUNT p.pipe (d1.rd DSP.INFLIGHT_COUNT p.pipe + 1)
    d2.runCtx x (startCtx p1 b img.entry)

/-- Take the head of a pipeline's dispatch order from where it waits; the ordinary queue has then been served (R198). -/
def Dev.takeNext (d : Dev) (k : Nat) (q : DispatchQueue) : Dev :=
  let rest := fun (t : Tbl (List Packet)) => put [] t k ((look [] t k).drop 1)
  match q with
  | .again => { d with dsp := { d.dsp with againQ := rest d.dsp.againQ } }
  | .express => ({ d with dsp := { d.dsp with exprQ := rest d.dsp.exprQ } }).showQueues k
  | .ordinary => ({ d with dsp := { d.dsp with ordQ := rest d.dsp.ordQ, ordWait := put 0 d.dsp.ordWait k 0 } }).showQueues k

/-- The ordinary queue of a pipeline waits a PCLK while it holds a packet (R198). -/
def Dev.ordinaryWaits (d : Dev) (k : Nat) : Dev :=
  { d with dsp := { d.dsp with ordWait := put 0 d.dsp.ordWait k (if (look [] d.dsp.ordQ k).isEmpty then 0 else look 0 d.dsp.ordWait k + 1) } }

/-- A packet of a pipeline's order is dispatched to the engine it chose. A packet whose slot holds no image is dropped (04 R102); one with
no eligible engine waits at the head (R200). -/
def Dev.dispatchTo (d : Dev) (now : NetTime) (k : Nat) (q : DispatchQueue) (p : Packet) (n : Option Nat) : Dev :=
  let b := d.slotOf k p
  let waits := d.ordinaryWaits k
  if b.handle = 0 then
    (((waits.takeNext k q).bump PGM.NOSLOT_COUNT).raise now (ev 4 2) (p.slot + k * 256) (some p.polder)).freePacket p
  else
    match n with
    | none => if d.noEngine k then waits.raise now (ev 8 6) k else waits
    | some n => (waits.takeNext k q).startPacket n p b

/-- A PCLK of one pipeline, with the engine that it chose. -/
def Dev.pipeDispatch (d : Dev) (now : NetTime) (k : Nat) (n : Option Nat) : Dev :=
  match d.dispatchNext k with
  | some (q, p) => d.dispatchTo now k q p n
  | none => d.ordinaryWaits k

/-- DISPATCH: a PCLK of dispatch. Each pipeline dispatches at most one packet (R198); they choose one after another, and the next PCLK
begins above the one that chose first (R200). -/
def execDispatch : State → Host.Outcome State Fault Refusal :=
  onDev (fun now d =>
    let cs := d.choices d.pipeOrder []
    let engine := fun (k : Nat) => (cs.find? (fun e => decide (e.1 = k))).map (fun e => e.2)
    let d1 := d.pipeOrder.foldl (fun y k => y.pipeDispatch now k (engine k)) d
    { d1 with dsp := { d1.dsp with first := ((cs.head?).map (fun e => (e.1 + 1) % 4)).getD d.dsp.first } })

/-- REDISPATCH: a PCLK in which a pipeline dispatches a packet of a failed engine again, from its in-flight store (R207, R209). -/
def execRedispatch (pipe : Fin 4) : State → Host.Outcome State Fault Refusal :=
  onDev (fun now d =>
    match d.dispatchNext pipe with
    | some (.again, p) => d.dispatchTo now pipe .again p (d.chooseEngine pipe)
    | _ => d)

/-! ## Order restoration (R203) -/

/-- Whether one order sequence number is before another of the same pipeline: 12 bits with a wrap bit. -/
def seqBefore (a b : Nat) : Bool := let n := (b + 8192 - a % 8192) % 8192; decide (0 < n ∧ n < 4096)

/-- Whether a packet of the same lane with a smaller sequence number is still to be accepted. -/
def Dev.laneBlocked (d : Dev) (p : Packet) : Bool :=
  let ahead := fun (q : Packet) => decide (q.pipe = p.pipe ∧ q.ordmode = 1 ∧ q.flow % 4096 = p.flow % 4096) && seqBefore q.seq p.seq
  d.dsp.inflight.any (fun e => match e.2 with
    | some q => ahead q
    | none => false) || (look [] d.dsp.againQ p.pipe).any (fun q => q.bind.isSome && ahead q)

/-- Whether the retirement of a context in HOLD is eligible (R203). -/
def Dev.retEligible (d : Dev) (x : Nat) : Bool :=
  let c := d.ctx x
  let ordered := match c.ret, c.pkt with
    | some (.emit _ _), some p => decide (p.ordmode = 1)
    | some (.fault _), some p => decide (p.ordmode = 1 ∧ c.bind.fault = 2)
    | _, _ => false
  decide (c.st = .hold) && c.ret.isSome
    && (!ordered || (match look none d.dsp.inflight x with
      | some p => !d.laneBlocked p
      | none => true))

/-! ## The completion collector (R210, R211) -/

/-- Insert a context into a list by order of entry into HOLD. -/
def Dev.insertOld (d : Dev) (x : Nat) : List Nat → List Nat
  | [] => [x]
  | y :: ys => if (d.ctx x).holdAge ≤ (d.ctx y).holdAge then x :: y :: ys else y :: d.insertOld x ys

/-- The eligible retirements of the engine contexts, oldest first. -/
def Dev.eligibleRets (d : Dev) : List Nat :=
  ((d.eng.ctxs.filter (fun e => decide (e.1 < 1536) && d.retEligible e.1)).map (fun e => e.1)).foldr d.insertOld []

/-- The bay of a context. -/
def bayOf (x : Nat) : Nat := x / 128

/-- Each bay input's retirement: the oldest of its bay; bays in order. -/
def bayInputs (xs : List Nat) : List Nat := (List.range 12).filterMap (fun b => xs.find? (fun x => decide (bayOf x = b)))

/-- The retirements that `n` shared inputs take, one after another: from the bay with the most left, ties to the lowest at or
above the rotation pointer, and its oldest. -/
def sharedInputs (rot : Nat) : Nat → List Nat → List Nat
  | 0, _ => []
  | n + 1, xs =>
    let count := fun (b : Nat) => (xs.filter (fun x => decide (bayOf x = b))).length
    let bays := rotated rot (List.range 12)
    let most := (bays.map count).foldl max 0
    match (bays.find? (fun b => decide (count b = most))).bind (fun b => xs.find? (fun x => decide (bayOf x = b))) with
    | some x => x :: sharedInputs rot n (xs.filter (· ≠ x))
    | none => []

/-- Count a packet that a program dropped: per pipeline, slot and reason (04 R571). -/
def Dev.countDrop (d : Dev) (pipe slot reason : Nat) : Dev :=
  let i := 16384 * pipe + 256 * slot + reason % 256
  { d with eng := { d.eng with drops := put 0 d.eng.drops i (min (look 0 d.eng.drops i + 1) (2 ^ 32 - 1)) } }

/-- What an accepted packet retirement does (R210; 03 R78, R83; 04 R102). The fault action "drop and count" counts under the
fault code. A fallback target was judged at the time of the fault. -/
def Dev.acceptPacket (d : Dev) (now : NetTime) (c : Ctx) (p : Packet) (r : Retire) : Dev :=
  let hand := fun (y : Dev) (v : Nat) (q : Packet) => y.handOver now (tgtKind v) (tgtNumber v) q
  match r with
  | .emit v flags => hand d v { p with twoStep := flags.testBit 0, oneStep := flags.testBit 1 }
  | .drop reason => (d.countDrop p.pipe p.slot reason).freePacket p
  | .punt code => d.exception now p 1 code
  | .fault code =>
    if c.bind.fault = 1 then d.exception now p 2 code
    else if c.bind.fault = 2 then
      if c.fallOk then hand d c.bind.fallback { p with twoStep := false, oneStep := false }
      else (d.bump PGM.FBDROP_COUNT).freePacket p
    else (d.countDrop p.pipe p.slot code).freePacket p
  | .done _ => d

/-- Packets of a pipeline whose lane is free in `d` and was not before: how long they waited for it since HOLD, in ECLK (R205). -/
def Dev.noteWaits (d before : Dev) (k : Nat) : Dev :=
  (d.eng.ctxs.filter (fun e => decide (e.2.pipe = k ∧ e.2.pkt.isSome = true) && d.retEligible e.1 && !before.retEligible e.1)).foldl
    (fun y e => y.peak DSP.ORDHOLD_PEAK k (2 * (d.eng.tclks - e.2.heldAt))) d

/-- Accept the retirement of a context; `keep` is the discard unit's decision (14 R374). The context is IDLE again. -/
def Dev.acceptCtx (d : Dev) (now : NetTime) (x : Nat) (keep : Bool) : Dev :=
  let c := d.ctx x
  let d0 := { (d.setCtx x {}).bump DSP.ACCEPTED_COUNT with
    dsp := { (d.setCtx x {}).dsp with inflight := put none d.dsp.inflight x none } }
  match c.ret, c.task, c.packet with
  | some r, some key, _ =>
    let v := match r with
      | .done v => v
      | .fault code => BitVec.ofNat 64 code
      | _ => 0
    (d0.taskCpl now key 9 v).freeTask key
  | some r, none, some p =>
    let d1 := (d0.wr DSP.INFLIGHT_COUNT p.pipe (d0.rd DSP.INFLIGHT_COUNT p.pipe - 1)).noteWaits d p.pipe
    if keep then d1.acceptPacket now c p r else d1.freePacket p
  | _, _, _ => d0

/-- The discard unit judges the accepted packets, path 1 first (14 R374, R389): the contexts whose packets it discards. -/
def Dev.judgeAll (d : Dev) (xs : List Nat) : Dev × List Nat :=
  let tagged := xs.filterMap (fun x => ((d.ctx x).packet).bind (fun p => if p.tag.isSome then some (x, p) else none))
  let first := tagged.filter (fun e => decide ((d.pathOf e.2.iport).getD 0 % 2 = 0))
  let second := tagged.filter (fun e => decide ((d.pathOf e.2.iport).getD 0 % 2 ≠ 0))
  (first ++ second).foldl (fun acc e =>
    let y := if e.2.late then acc.1.bump DUP.LATEFETCH_COUNT else acc.1
    match y.discard e.2 with
    | (z, true) => (z, acc.2)
    | (z, false) => (z, e.1 :: acc.2)) (d, [])

/-- A control core hands a frame to the collector: an exception re-injected, or a control-plane transmission (R211). A core
holds at most one. -/
def Dev.takeInjection (d : Dev) (now : NetTime) (j : Injection) : Dev :=
  if (look none d.dsp.coreRet j.core).isSome ∨ j.bytes = [] then d
  else
    let v := j.target.toNat
    let owner := d.targetPolder (tgtKind v) (tgtNumber v)
    let p : Packet := { hdr := j.bytes.take 512, tail := j.bytes.drop 512, len := j.bytes.length, cls := j.cls
                        polder := owner.getD (d.freeVal.toNat % 8192), queue := tgtNumber v, qkind := tgtKind v
                        tsin := now.tsin.toNat, tsfrac := now.frac / 2 ^ 24, iport := j.iport }
    { (if owner.isSome then d else d.drawn) with dsp := { d.dsp with coreRet := put none d.dsp.coreRet j.core (some (p, v, 0)) } }

/-- Accept the retirement that a control core holds. -/
def Dev.acceptCore (d : Dev) (now : NetTime) (core : Nat) : Dev :=
  match look none d.dsp.coreRet core with
  | none => d
  | some (p, v, waited) =>
    let d1 := ({ d with dsp := { d.dsp with coreRet := put none d.dsp.coreRet core none, coreRot := (core + 1) % 12 } }.bump
      DSP.ACCEPTED_COUNT).peak DSP.CCWAIT_PEAK 0 waited
    d1.handOver now (tgtKind v) (tgtNumber v) p

/-- The sequence checker of a pipeline disagrees: the safe state of every port of its lane group (18 R480, SM 15). -/
def Dev.seqFault (d : Dev) (now : NetTime) (p : Nat) : Dev :=
  (List.range 4).foldl (fun y i => y.safePort now (15, p) (4 * p + i)) (d.raise now (ev 0 9) p)

/-- Whether two contexts hold packets of one order lane, the first with the smaller sequence number. -/
def Dev.laneMate (d : Dev) (x y : Nat) : Bool :=
  match look none d.dsp.inflight x, look none d.dsp.inflight y with
  | some p, some q => decide (p.pipe = q.pipe ∧ p.ordmode = 1 ∧ q.ordmode = 1 ∧ p.flow % 4096 = q.flow % 4096) && seqBefore p.seq q.seq
  | _, _ => false

/-- Put a context among those accepted in a PCLK: before the first packet behind it in its lane (R203). -/
def Dev.inLane (d : Dev) (x : Nat) : List Nat → List Nat
  | [] => [x]
  | y :: ys => if d.laneMate x y then x :: y :: ys else y :: d.inLane x ys

/-- The engine judges the context cycles of a fault retirement (R206): more than twice the bound, and the engine fails and the packet
is dispatched again with the others. An engine that has failed since judges nothing. -/
def Dev.judgeFault (d : Dev) (now : NetTime) (x : Nat) : Dev :=
  let c := d.ctx x
  let b := d.boundOf c
  let d1 := d.setCtx x { c with owes := false }
  if !d.engineServes (x / 8) then d1
  else
    let d2 := d1.slowMark now (x / 8) c.cycles b
    if 2 * b < c.cycles then (d2.setCtx x { c with st := .run, ret := none, owes := false }).failEngine now (x / 8) 1 (some (ev 3 0)) else d2

/-- Every fault retirement that is not judged yet. -/
def Dev.judgeFaults (d : Dev) (now : NetTime) : Dev :=
  (d.eng.ctxs.filter (fun e => decide (e.2.st = .hold) && e.2.owes)).foldl (fun y e => y.judgeFault now e.1) d

/-- COLLECTOR_ACCEPT: a PCLK of the collector (R210): 12 bay inputs, 4 shared inputs, then control cores with what is left.
The retirements eligible at the start of the PCLK take part, those of one lane in sequence order (R203). `seq`: the pipeline whose sequence checker finds in this PCLK
that the numbers accepted are not those dispatched (18 R480, SM 15). -/
def execCollectorAccept (inject : Option Injection) (seq : Option (Fin 4)) : State → Host.Outcome State Fault Refusal :=
  onDev (fun now d =>
    let e := match seq with
      | some p => d.seqFault now p
      | none => d
    let d0 := match inject with
      | some j => e.takeInjection now j
      | none => e
    let dj := d0.judgeFaults now
    let xs := dj.eligibleRets
    let bays := bayInputs xs
    let shared := sharedInputs dj.dsp.colRot 4 (xs.filter (fun x => !bays.contains x))
    let ins := (bays ++ shared).foldl (fun l x => dj.inLane x l) []
    let cores := (rotated dj.dsp.coreRot (List.range 12)).filter (fun j => (look none dj.dsp.coreRet j).isSome)
    let now4 := cores.take (4 - shared.length)
    let d1 := { dj.peak DSP.BACKLOG_PEAK 0 xs.length with dsp := { dj.dsp with colRot := (dj.dsp.colRot + 1) % 12 } }
    match d1.judgeAll ins with
    | (d2, gone) =>
      let d3 := ins.foldl (fun y x => y.acceptCtx now x (!gone.contains x)) d2
      let d4 := now4.foldl (fun y j => y.acceptCore now j) d3
      (cores.drop now4.length).foldl (fun y j => match look none y.dsp.coreRet j with
        | some (p, v, w) =>
          { y with dsp := { y.dsp with coreRet := put none y.dsp.coreRet j (some (p, v, w + 1)) } }.peak DSP.CCWAIT_PEAK 0 (w + 1)
        | none => y) d4)

end Sys2Proof.Machine
end

