-- ==== Sys2Proof/Machine/Events.lean ====
section
/-! DEFINITION. The event unit's masks and records, fault injection, and the end of a restart of the management controller (18
R495, R496, R499; 20 R522). -/

namespace Sys2Proof.Machine

/-- The masks of a group take a value in a PF's view; a vector is sent when a bit of PEND AND MASK rises (R495, R497). -/
def Dev.setMask (d : Dev) (pf group v : Nat) : Dev :=
  let i := 16 * pf + group
  let before := d.rd EVT.PEND_BITS i &&& d.rd EVT.MASK_BITS i
  let d1 := d.wr EVT.MASK_BITS i v
  let after := d1.rd EVT.PEND_BITS i &&& d1.rd EVT.MASK_BITS i
  if before ||| after = before then d1 else d1.vector (4096 * pf) (d1.rd EVT.VEC_VECTOR i)

/-- MASK_WRITE: a PF sets the masks of a group in its view (R495, R497). -/
def execMaskWrite (pf : Pf) (group : Fin 16) (value : BitVec 32) : State → Host.Outcome State Fault Refusal :=
  onDev (fun _ d => d.setMask pf group value.toNat)

/-- EVT.RECA as a record shows in it (R496, R498). -/
def EvRecord.reca (r : EvRecord) : Nat :=
  r.src + (match r.polder with | some p => p * 2 ^ 12 + 2 ^ 25 | none => 0) + r.info % 2 ^ 32 * 2 ^ 32

/-- A read of EVT.RECA removes the oldest record of a PF's view and places its time in EVT.RECB; with the FIFO empty every bit
reads one (R496). -/
def Dev.takeRecord (d : Dev) (pf : Nat) : Dev × Word :=
  match if pf = 0 then d.evt.recs0 else d.evt.recs1 with
  | [] => (d, BitVec.allOnes 64)
  | r :: rest =>
    let e := if pf = 0 then { d.evt with recs0 := rest } else { d.evt with recs1 := rest }
    ((({ d with evt := e }).wr EVT.RECB_NS pf (r.time.toNat % 2 ^ 32)).wr EVT.RECB_SEC pf (r.time.toNat / 2 ^ 32),
      BitVec.ofNat 64 r.reca)

/-- RECA_READ (R496). -/
def execRecaRead (pf : Pf) : State → Host.Outcome State Fault Refusal :=
  onDev (fun _ d => (d.takeRecord pf).1.send (.readData (4096 * pf.val) (d.takeRecord pf).2))

/-- An uncorrectable memory error for SM 6: a bay's program store for instances 0 to 11, else a slot of the key store (02 R47;
10 R260). -/
def Dev.memoryError (d : Dev) (now : NetTime) (inst : Nat) : Dev :=
  if inst < 12 then d.storeError now inst
  else
    let slot := (inst - 12) % 131072
    ((d.bump KEY.ECC_UE).zeroise slot).raise now (ev 10 5) slot

/-- The detection and reaction of mechanism `sm` at an instance (18 R480). -/
def Dev.testFault (d : Dev) (now : NetTime) (sm inst : Nat) : Dev :=
  match sm with
  | 1 => d.isolateCore now (inst % 12) (ev 0 0)
  | 2 => d.mgtFails now
  | 3 => d.pairStops now (if inst % 2 = 0 then DKW.STATUS_PAIRA else DKW.STATUS_PAIRB)
  | 4 => d.reactionDeadline now
  | 5 => if d.engineServes (inst % 192) then d.failEngine now (inst % 192) 0 (some (ev 3 0)) else d
  | 6 => d.memoryError now inst
  | 7 => d.payloadFailure now (some (inst % 16))
  | 8 => d.gateFault now (inst % 16)
  | 9 => d.katFail now (inst % 32)
  | 10 => ((d.bump DKW.TSTAT_HWFIX).raise now (ev 0 13) (objInfo 0 (inst % 16)) none).hwRewritten now 0 (inst % 16)
  | 11 => d.isolateCore now (inst % 12) (ev 0 5)
  | 12 => d.clockFault now (inst % 14)
  | 13 => (d.raise now (ev 0 7) (inst % 9)).safeDevice now (13, inst % 9)
  | 14 => (d.raise now (ev 0 8) (inst % 16)).safeDevice now (14, inst % 16)
  | 15 => d.seqFault now (inst % 4)
  | _ => d

/-- INJECT: with DKW.SMSTAT.INJEN set, a write of a mechanism's number puts a test fault into it, at the instance that the part
takes; detection and reaction run as for a real fault, with EVT 0.27. Other values do nothing (R499). -/
def execInject (_pf : Pf) (sm : Fin 32) (inst : Nat) : State → Host.Outcome State Fault Refusal :=
  onDev (fun now d =>
    if d.rd DKW.SMSTAT_INJEN = 1 ∧ 1 ≤ sm.val ∧ sm.val ≤ 15 then (d.raise now (ev 0 27) sm).testFault now sm inst else d)

/-- MGT_RESTART_DONE: the management controller serves again: its reset group leaves reset, its ready bit sets, and RESTARTS
counts (19 R500; 20 R522). -/
def execMgtRestartDone : State → Host.Outcome State Fault Refusal :=
  onDev (fun now d =>
    if !d.dkw.mgtDown then d
    else
      let d1 : Dev := ({ d with dkw := { d.dkw with mgtDown := false } }.repaired 2 0).wrBit CLK.RGSTAT_INRESET 0 4 false
      (((d1.bump MGT.STATUS_RESTARTS).wr MGT.STATUS_READY 0 1).wrBit TOP.READY_BITS 0 37 true).raise now (ev 1 0) 37)

end Sys2Proof.Machine
end

