-- ==== Sys2Proof/Machine/Receive.lean ====
section
/-! DEFINITION. What reaches a port, and what a host submits: the MAC's receive side, wake, heartbeats and the sideband's
filters, then descriptors and the packets their reads complete (01 R28, R29; 05 R116 to R122, R130 to R133; 14 R372, R377;
16 R435, R436, R448; 20 R524). -/

namespace Sys2Proof.Machine

/-! ## Timestamps (05 R130, R131) -/

/-- Network time less the effective receive latency of a port, in units of 2⁻¹⁶ ns. -/
def Dev.rxTime (d : Dev) (now : NetTime) (n : Nat) : Nat :=
  (((now.toNs * 65536 + now.frac16 : Nat) : Int) - signedOf (d.rd PRT.TSLAT_RXEFF n) 32).toNat

/-! ## Wake (R132, R133) -/

/-- Whether pattern `i` of a PF's wake table matches a frame (R133). The four bytes of its FCS are none of the bytes that a mask may
select or the magic search reads (DESIGN CHOICE, log entry 32). -/
def Dev.wakeMatches (d : Dev) (f i : Nat) (bs : List Byte) : Bool :=
  let mask := d.rd PRT.WAKEPAT_MASKLO (32 * f + i) + d.rd PRT.WAKEPAT_MASKHI (32 * f + i) * 2 ^ 64
  let picked := (List.range 128).filter (fun b => mask.testBit b)
  d.rdBit PRT.WAKECTL_PATEN f i && decide (mask ≠ 0) && picked.all (fun b => decide (b < bs.length))
    && decide ((crc16 0xFFFF (picked.map (fun b => bs.getD b 0))).toNat = d.rd PRT.WAKEPAT_CRC (32 * f + i))

/-- Whether bytes 0 to 511 of a frame hold the magic sequence of a MAC address (R132). -/
def magicIn (bs : List Byte) (mac : Nat) : Bool :=
  let want := List.replicate 6 0xFF ++ (List.replicate 16 (beBytes 6 mac)).flatten
  (List.range (min bs.length 512 + 1 - min want.length (min bs.length 512 + 1))).any (fun o =>
    decide ((bs.drop o).take want.length = want))

/-- The causes with which a frame at a port wakes a PF, as CAUSE has them: 0 for none (R132). -/
def Dev.wakeCause (d : Dev) (n f : Nat) (bs : List Byte) : Nat :=
  let x := d.fn (4096 * f)
  if !x.d3hot || !x.pmeEnable || !d.rdBit PRT.WAKECTL_PORTS f n then 0
  else
    let magic := decide (d.rd PRT.WAKECTL_MAGIC f = 1) && magicIn bs (d.rd VIR.PMAC_MAC (4096 * f))
    let pattern := (List.range 32).any (fun i => d.wakeMatches f i bs)
    let multi := decide ((bs.getD 0 0).toNat % 2 = 1)
    let fallback := decide (d.rd PRT.WAKECTL_PROMISC f = 1) || (decide (d.rd PRT.WAKECTL_ALLMULTI f = 1) && multi)
    bitNat magic + bitNat pattern * 2 + bitNat fallback * 4

/-- A frame wakes a PF: cause, lowest pattern, count, EVT 5.21 and PME (R132; 15 R407). -/
def Dev.wakePf (d : Dev) (now : NetTime) (n f cause : Nat) (bs : List Byte) : Dev :=
  let d1 := d.wr PRT.WAKESTAT_CAUSE f (d.rd PRT.WAKESTAT_CAUSE f ||| cause)
  let d2 := match (List.range 32).find? (fun i => d.wakeMatches f i bs) with
    | some i => d1.wr PRT.WAKESTAT_PATTERN f i
    | none => d1
  ((d2.bump PRT.WAKESTAT_COUNT f).raise now (ev 5 21) (n + f * 2 ^ 8) (some (4096 * f))).send (.pme (4096 * f))

/-! ## The sideband's filters (20 R524) -/

/-- The NC-SI channel of a port. -/
def Dev.ncsi (d : Dev) (n : Nat) : NcsiCh := look {} d.mgt.ncsi n

/-- Whether a frame goes to the sideband, and whether it also goes to the pipeline. -/
def Dev.sideband (d : Dev) (n : Nat) (bs : List Byte) : Bool × Bool :=
  let c := d.ncsi n
  let dst := beAt bs 0 6
  if !c.enCh then (false, true)
  else if c.macs.any (fun e => decide (e.2 = some dst)) then (true, false)
  else if c.bcast && decide (dst = 2 ^ 48 - 1) then (true, true)
  else (false, true)

/-! ## A good frame (01 R28) -/

/-- A frame passes from the MAC of a port to its pipeline: its timestamp `t`, its PRP trailer where the port is a path (14
R372), and the ingress stages. -/
def Dev.toPipeline (d : Dev) (now : NetTime) (n t : Nat) (bs : List Byte) (f1 f2 : AcsFind) (ecc : FrameEcc) : Dev :=
  let trailer := if (d.pathOf n).isSome then trailerOf bs else none
  let wrong := match trailer, d.pathOf n with
    | some (_, lan), some i => decide (lan ≠ i % 2 + 1)
    | _, _ => false
  let d1 := if wrong then ((d.bump DUP.PWRONGLAN_COUNT n).pathError now n).raiseSec now (ev 14 12) n n else d
  d1.intake now { hdr := bs.take 512, tail := bs.drop 512, iport := n, len := bs.length, tsin := tsinOf t, tsfrac := t % 65536
                  pipe := n / 4, trailer := trailer.isSome } trailer f1 f2 ecc

/-- A frame whose FCS is right: counted, and consumed as a heartbeat, a wake or a frame for the sideband, or passed on. A
port in its safe state drops it (18 R481). -/
def Dev.goodFrame (d : Dev) (now : NetTime) (n t : Nat) (bs : List Byte) (f1 f2 : AcsFind) (ecc : FrameEcc) : Dev :=
  let d1 := (d.bump PRT.RXFRAMES_COUNT n).bump PRT.RXOCTETS_COUNT n (bs.length + 4)
  if d.portSafe n then d1
  else match (if d.isHeartbeat bs then d.pathOf n else none) with
    | some i => d1.hearHeartbeat now i bs
    | none =>
      let woken := (List.range 2).filter (fun f => decide (d1.wakeCause n f bs ≠ 0))
      if !woken.isEmpty then woken.foldl (fun y f => y.wakePf now n f (d1.wakeCause n f bs) bs) d1
      else
        let (side, on) := d1.sideband n bs
        let d2 := if side then d1.send (.message 9 (n :: bs.map BitVec.toNat)) else d1
        if on then d2.toPipeline now n t bs f1 f2 ecc else d2

/-- The MAC judges a frame that is complete, whose timestamp is `t`: runt, oversize, FCS (R118, R120, R121). -/
def Dev.judgeFrame (d : Dev) (now : NetTime) (port t : Nat) (bs : List Byte) (fcsOk : Bool) (f1 f2 : AcsFind) (ecc : FrameEcc) : Dev :=
  if bs.length + 4 < 64 then d.bump PRT.RXRUNT_COUNT port
  else if d.rd PRT.MAXLEN_LEN port < bs.length + 4 then d.bump PRT.RXOVERSIZE_COUNT port
  else if !fcsOk then (d.bump PRT.RXFCS_COUNT port).pathError now port
  else d.goodFrame now port t bs f1 f2 ecc

/-! ## Reassembly (R122) -/

/-- The preempted frame that a port is receiving, none, or its next fragment. -/
def Dev.setOpen (d : Dev) (port : Nat) (x : Option RxOpen) : Dev := d.setPort port { d.port port with rxOpen := x }

/-- A frame or a fragment is discarded by the reassembly: RXREASM and EVT 5.20. -/
def Dev.reassemblyError (d : Dev) (now : NetTime) (port : Nat) : Dev :=
  ((d.bump PRT.RXREASM_COUNT port).raiseSec now (ev 5 20) port port).pathError now port

/-- A start fragment: a frame that is open is discarded, and this one is complete, or fails its mCRC, or is open. -/
def Dev.startFragment (d : Dev) (now : NetTime) (port num : Nat) (bs : List Byte) (more ok : Bool) (f1 f2 : AcsFind) (ecc : FrameEcc) : Dev :=
  let d1 := if (d.port port).rxOpen.isSome then (d.setOpen port none).reassemblyError now port else d
  let t := d.rxTime now port
  if !more then d1.judgeFrame now port t bs ok f1 f2 ecc
  else if !ok then d1.reassemblyError now port
  else d1.setOpen port (some { num := num, bytes := bs, ts := t })

/-- A continuation fragment: it belongs to the open frame in its turn, or the frame is discarded. -/
def Dev.contFragment (d : Dev) (now : NetTime) (port num count : Nat) (bs : List Byte) (more ok : Bool) (f1 f2 : AcsFind) (ecc : FrameEcc) : Dev :=
  match (d.port port).rxOpen with
  | none => d.reassemblyError now port
  | some x =>
    let d1 := d.setOpen port none
    if num ≠ x.num ∨ count ≠ x.next then d1.reassemblyError now port
    else if !more then d1.judgeFrame now port x.ts (x.bytes ++ bs) ok f1 f2 ecc
    else if !ok then d1.reassemblyError now port
    else d1.setOpen port (some { x with next := (x.next + 1) % 4, bytes := x.bytes ++ bs })

/-! ## What arrives -/

/-- The lanes send back what they receive while far-end PMA loopback is set (R137; DESIGN CHOICE, log entry 32). -/
def Dev.echo (d : Dev) (port : Nat) (a : Arrival) : Dev :=
  if d.rd PRT.CTL_LOOP port ≠ 2 then d
  else match a with
    | .frame bs ok => d.send (.frame port bs ok)
    | .start _ bs _ _ => d.send (.fragment port bs.length)
    | .cont _ _ bs _ _ => d.send (.fragment port bs.length)
    | .verify => d.send (.verify port false)
    | .verifyResponse => d.send (.verify port true)
    | _ => d

/-- What a port whose link is up receives (R116, R118 to R122, R126, R135). -/
def Dev.arrives (d : Dev) (now : NetTime) (port : Nat) (a : Arrival) (f1 f2 : AcsFind) (ecc : FrameEcc) : Dev :=
  match a with
  | .overrun => (d.bump PRT.RXOVERRUN_COUNT port).raiseSec now (ev 5 23) port port
  | .cutOff => ((d.setOpen port none).bump PRT.RXFCS_COUNT port).pathError now port
  | .codewords good bad symbols =>
    let d1 := ((d.bump PRT.FECCW_COUNT port good).bump PRT.FECSYM_COUNT port symbols).bump PRT.FECUNC_COUNT port bad
    let d2 := d1.setPort port { d1.port port with symbols := (d1.port port).symbols + symbols }
    (List.range bad).foldl (fun y _ => y.pathError now port) d2
  | .verify => d.toLine port (.verify port true) .verifyResponse
  | .verifyResponse => if d.rd PRT.STATUS_PVERIFY port = 1 then d.wr PRT.STATUS_PVERIFY port 2 else d
  | .frame bs fcsOk => d.judgeFrame now port (d.rxTime now port) bs fcsOk f1 f2 ecc
  | .start num bs more ok => d.startFragment now port num bs more ok f1 f2 ecc
  | .cont num count bs more ok => d.contFragment now port num count bs more ok f1 f2 ecc

/-- FRAME_RECEIVE: what arrives at a port whose link is up. While near-end PCS loopback is set the port receives what it has sent
itself, the oldest first, and nothing from the lanes (R137; DESIGN CHOICE, log entry 32). -/
def execFrameReceive (port : Fin 16) (a : Arrival) (f1 f2 : AcsFind) (ecc : FrameEcc) : State → Host.Outcome State Fault Refusal :=
  onDev (fun now d =>
    if !d.portExists port || !d.linkUp port then d
    else if d.rd PRT.CTL_LOOP port = 1 then
      (match (d.port port).looped with
      | [] => d
      | b :: l => (d.setPort port { d.port port with looped := l }).arrives now port b f1 f2 ecc)
    else (d.echo port a).arrives now port a f1 f2 ecc)

/-! ## Host transmit (01 R29; 16 R435, R436, R448) -/

/-- The admitted contract whose source is a submission ring (13 R338); 0 for none. -/
def Dev.ringContract (d : Dev) (r : Nat) : Nat :=
  ((d.adm.contracts.find? (fun c => d.admitted c.1 && c.2.rcd.flags.testBit 0 && decide (c.2.rcd.srcring = r))).map (fun c => c.1)).getD 0

/-- Place the payload of a submitted packet: in the express buffer for a ring with ADM set, under the reservation of its
contract (R432; 01 R24, R29). -/
def Dev.placeHost (d : Dev) (adm : Bool) (p : Packet) : Dev × Packet :=
  if !adm then (d, p) else if p.contract = 0 then (d, { p with place := .express }) else d.place p

/-- The gather elements of a packet entry: address and length. -/
def gatherOf (words : List Nat) : List (Nat × Nat) := (words.drop 1).map (fun g => (bitsOf g 0 64, bitsOf g 64 16))

/-- The length of the frame of a packet entry. -/
def gatherLen (words : List Nat) : Nat := ((gatherOf words).map (fun e => e.2)).sum

/-- The entry of a submission ring at a position. -/
def Dev.subEntry (d : Dev) (r pos : Nat) : Option SubEntry := (d.ring kSub r).subs.find? (fun e => decide (e.pos = pos))

/-- A packet entry's payload is read whole: the packet of a direct ring goes to its queue, that of a program ring enters its
pipeline (R436; 01 R29; 11 R283). -/
def Dev.submit (d : Dev) (now : NetTime) (r pos : Nat) (payload : List Byte) (f1 f2 : AcsFind) (ecc : FrameEcc) : Dev :=
  let x := d.ring kSub r
  let u0 := ((d.subEntry r pos).map (fun e => e.words.getD 0 0)).getD 0
  let bs := payload ++ List.replicate (60 - payload.length) 0
  let t := now.toNs * 65536 + now.frac16
  let c := d.ringContract r
  let p : Packet := { hdr := bs.take 512, tail := bs.drop 512, iport := 16 + linkOf x.polder, len := bs.length, tsin := tsinOf t
                      tsfrac := t % 65536, mark := bitsOf u0 32 32, polder := x.polder, contract := c, txring := some (r, pos) }
  let (d1, p1) := d.placeHost x.adm p
  if x.mode = 0 then
    let q := x.queue
    let p2 := { p1 with cls := d1.queueL3 q % 8, source := some x.txsrc, twoStep := u0.testBit 8, outq := q }
    if (d1.node 4 q).inForce.dup then
      match d1.drawSeq now p2 with
      | (d2, p3) => d2.enqueue now q p3
    else d1.enqueue now q p2
  else d1.intake now { p1 with pipe := x.pipe, slot := x.slot } none f1 f2 ecc

/-- The longest frame a submission ring may send: that of its queue's port, or of a program ring (R436). -/
def Dev.submitLimit (d : Dev) (x : Ring) : Nat := if x.mode = 0 then d.rd PRT.MAXLEN_LEN (d.queuePort x.queue) - 4 else 262144

/-- The waiting descriptor of a group that a channel takes: of the highest priority, among equals the oldest (R448). -/
def Dev.nextDesc (d : Dev) (g : Nat) : Option Desc :=
  let mine := d.rng.waiting.filter (fun q => decide (q.group = g))
  let top := (mine.map (fun q => q.prio)).foldl max 0
  mine.find? (fun q => decide (q.prio = top))

/-- Remove the first descriptor of a list that serves a ring entry. -/
def dropDesc (q : Desc) (l : List Desc) : List Desc := l.eraseP (fun y => decide (y = q))

/-- A channel takes a descriptor (R448): for a packet entry the reads of its gather elements, whose bytes in host memory are
`payload`; a frame that is too long is not read and completes with TOOLONG (R436). -/
def Dev.startDesc (d : Dev) (g c : Nat) (q : Desc) (payload : List Byte) : Dev :=
  let busy := fun (y : Dev) (q' : Desc) => (y.setChan g c { y.chan g c with desc := some q' }).wr DMA.GSTAT_BUSY g (y.rd DMA.GSTAT_BUSY g + 1)
  if g % 2 = 1 ∨ !q.reqs.isEmpty then busy d q
  else
    let r := q.ring % 2 ^ 18
    let x := d.ring kSub r
    let words := ((d.subEntry r q.pos).map (fun e => e.words)).getD []
    let d1 := d.setRing kSub r (x.start q.pos)
    let n := gatherLen words
    if d.submitLimit x < n then
      { d1 with rng := { d1.rng with left := d1.rng.left ++
        [{ ring := r, pos := q.pos, status := 2, mark := bitsOf (words.getD 0 0) 32 32, len := min n (2 ^ 19 - 1), ts := none }] } }
    else
      let mrrs := 128 * 2 ^ (d.fn q.fn).readReq
      busy d1 { q with reqs := (gatherOf words).flatMap (fun e => splitRead mrrs e.2 e.1 e.2), data := slice payload 0 n }

/-- DESCRIPTOR_START: a free channel of a group takes the waiting descriptor that is next; the lowest free channel in service
takes it. -/
def execDescriptorStart (g : Fin 4) (payload : List Byte) : State → Host.Outcome State Fault Refusal :=
  onDev (fun _ d =>
    match d.nextDesc g, (List.range 32).find? (fun c => (d.chan g c).desc.isNone && !(d.chan g c).stop) with
    | some q, some c => ({ d with rng := { d.rng with waiting := dropDesc q d.rng.waiting } }).startDesc g c q payload
    | _, _ => d)

/-- The last read of a descriptor has completed: its channel is free, and the packet of a packet entry enters the device. -/
def Dev.readsDone (d : Dev) (now : NetTime) (g c : Nat) (f1 f2 : AcsFind) (ecc : FrameEcc) : Dev :=
  match (d.chan g c).desc with
  | none => d
  | some q =>
    let d1 := d.chanEnd g c
    if q.ring / 2 ^ 18 = kSub ∧ (d1.ring kSub (q.ring % 2 ^ 18)).mode < 2 then d1.submit now (q.ring % 2 ^ 18) q.pos q.data f1 f2 ecc
    else d1

/-- What AER logs for a completion that fails its read, and, where a memory of the host interface had an uncorrectable error, EVT 15.6
and a Dikewarden report (15 R405). -/
def Dev.readError (d : Dev) (now : NetTime) (l f : Nat) (status : CplStatus) : Dev :=
  match status with
  | .poisoned => d.aerLog f .poisoned
  | .ecrc => d.aerLog f .ecrc
  | .internal => ((d.aerLog f .internal).raise now (ev 15 6) l).detected now 6 (ev 15 6) l
  | _ => d.aerLog f .refused

/-- COMPLETION_ARRIVAL: the completion of an outstanding read arrives (15 R400, R401, R405, R409). One with no read is an
Unexpected Completion and is discarded; one of a function in FLR is discarded. -/
def execCompletionArrival (l : Fin 2) (tag : Fin 16384) (status : CplStatus) (f1 f2 : AcsFind) (ecc : FrameEcc) :
    State → Host.Outcome State Fault Refusal :=
  onDev (fun now d =>
    match d.readOf l tag with
    | none => if status = .malformed then (d.aerLog (4096 * l.val) .malformed).raise now (ev 15 6) l else d.aerLog (4096 * l.val) .unexpected
    | some r =>
      let d1 := d.dropRead l tag
      if status = .malformed then (d.aerLog r.fn .malformed).raise now (ev 15 6) l
      else if (d.fn r.fn).inFlr || r.dead then d1
      else if status = .ok then
        let d2 := d1.bump DMA.BYTES_COUNT r.group r.len
        if d2.chanDone r.group r.chan then d2.readsDone now r.group r.chan f1 f2 ecc else d2
      else (((d1.bump HIF.CTO_CPLERR l).raiseSec now (ev 15 4) l l (some r.fn)).readError now l r.fn status).payloadFails now r.group r.chan r.ring r.pos)

end Sys2Proof.Machine
end

