-- ==== Sys2Proof/Machine/Regs.lean ====
section
/-! DEFINITION. The register windows: the blocks of BAR0, the fields of a register, what a field shows, and which blocks answer
(23 R564 to R567; 15 R402; 19 R502). -/

namespace Sys2Proof.Machine

/-! ## Blocks (R564) -/

/-- The blocks of a physical function's BAR0: base, size, fields. -/
def blocks : List (Nat × Nat × List Fld) :=
  [(0x0, 0x10000, fieldsTOP), (0x100000, 0x10000, fieldsCAL), (0x200000, 0x10000, fieldsCLK), (0x300000, 0x10000, fieldsEVT),
   (0x400000, 0x10000, fieldsDKW), (0x1000000, 0x100000, fieldsPRT), (0x2000000, 0x10000, fieldsPAR),
   (0x2400000, 0x400000, fieldsACS), (0x2800000, 0x10000, fieldsFWD), (0x2C00000, 0x10000, fieldsLRN),
   (0x3000000, 0x10000, fieldsDSP), (0x3400000, 0x10000, fieldsENG), (0x3800000, 0x10000, fieldsPGM),
   (0x4000000, 0x400000, fieldsTUN), (0x4400000, 0x40000, fieldsSTO), (0x4800000, 0x10000, fieldsCIP),
   (0x4C00000, 0x200000, fieldsKEY), (0x4E00000, 0x10000, fieldsBAT), (0x5000000, 0x10000, fieldsSCH),
   (0x5800000, 0x100000, fieldsSLU), (0x5C00000, 0x200000, fieldsADM), (0x6000000, 0x10000, fieldsDUP),
   (0x7000000, 0x10000, fieldsHIF), (0x8000000, 0xA00000, fieldsRNG), (0x9000000, 0x10000, fieldsDMA),
   (0xA000000, 0x200000, fieldsVIR), (0xB000000, 0x1000, fieldsMBX), (0xC000000, 0x40000, fieldsMGT),
   (0xC800000, 0x10000, fieldsMBS)]

/-- The block that an offset of BAR0 lies in: its base and fields. -/
def blockAt (off : Nat) : Option (Nat × List Fld) :=
  (blocks.find? (fun b => decide (b.1 ≤ off ∧ off < b.1 + b.2.1))).map (fun b => (b.1, b.2.2))

/-- The fields of the register at an aligned offset, each with its index in the array. -/
def fieldsAt (off : Nat) : List (Fld × Nat) :=
  match blockAt off with
  | some (_, fs) => fs.filterMap (fun f => (f.indexAt off).map (fun i => (f, i)))
  | none => []

/-- The instance of a field that a function, or (none) the control cores reach (R565). Of the registers with one set per writer the
control cores have their own set of the staging and command registers of ACS, SCH and RNG, and none of the others. -/
def Fld.instanceOf (f : Fld) (who : Option Nat) (i : Nat) : Option Nat :=
  match f.view, who with
  | .shared, _ => some i
  | .perPf, some fn => some (fn / 4096 * f.count + i)
  | .perFn, some fn => some (fn * f.count + i)
  | .perPf, none =>
    if (blockAt f.off).any (fun b => decide (b.1 = 0x2400000 ∨ b.1 = 0x5000000 ∨ b.1 = 0x8000000)) then some (2 * f.count + i) else none
  | .perFn, none => none

/-- Doorbells of a physical function lie at 0880_0000h to 089F_FFFFh (R564, 16 R428). -/
def isDoorbell (off : Nat) : Bool := decide (0x8800000 ≤ off ∧ off < 0x8A00000)

/-- Whether an offset lies in the window of the committed templates, 128 bytes each (09 R240). -/
def isTemplate (off : Nat) : Bool := decide (0x4200000 ≤ off ∧ off < 0x4400000)

/-- Snapshot sets lie at 0C01_0000h to 0C02_FFFFh (20 R541). -/
def isSnapshot (off : Nat) : Bool := decide (0xC010000 ≤ off ∧ off < 0xC030000)

/-! ## What a field shows -/

/-- The busy contexts of an engine, one bit each; `task` names those that run a task (02 R56). -/
def Dev.busyBits (d : Dev) (n : Nat) (task : Bool) : Nat :=
  ((List.range 8).map (fun c =>
    let x := d.ctx (8 * n + c)
    if x.st ≠ .idle ∧ (task = false ∨ x.task.isSome) then 2 ^ c else 0)).sum

/-- The task entries of a bay that are not FREE. -/
def Dev.bayTasks (d : Dev) (b : Nat) : Nat :=
  (d.eng.tasks.filter (fun e => decide (e.1 / 4096 = b ∧ e.2.st ≠ .free))).length

/-- The lines of a slice that are poisoned (02 R47, R56). -/
def Dev.poisonedLines (d : Dev) (sl : Nat) : Nat :=
  min (d.eng.coh.dir.filter (fun e => decide (homeSlice e.1 = sl) && e.2.poison)).length 65535

/-- The state of a DMA channel (16 R455): 0 idle, 1 busy, 2 stopping, 3 stopped. -/
def Chan.state (x : Chan) : Nat := if x.stop then (if x.desc.isSome then 2 else 3) else if x.desc.isSome then 1 else 0

/-- What instance `j` of a field shows: the fields that other state determines, else what the field holds. -/
def Dev.shown (d : Dev) (now : NetTime) (f : Fld) (j : Nat) : Nat :=
  if f.acc = .wo then 0
  else if f.id = ENG.ESTAT_CTXBUSY.id then d.busyBits j false
  else if f.id = ENG.ESTAT_TASKCTX.id then d.busyBits j true
  else if f.id = ENG.BSTAT_TASKS.id then d.bayTasks j
  else if f.id = ENG.L2ERR_POISONED.id then d.poisonedLines j
  else if f.id = FWD.CONNSTAT_VALID.id then d.validConns
  else if f.id = FWD.TCOUNT_VALID.id then d.validIn (j / 16) (j % 16)
  else if f.id = SLU.TNOWLO_NS.id then now.ns
  else if f.id = SLU.TNOWLO_FRAC.id then now.frac / 2 ^ 24
  else if f.id = SLU.BERM_BERM.id then ((List.range 8).map (fun c => min (d.berm j c) 255 * 2 ^ (8 * c))).sum
  else if f.id = DMA.CHSTAT_STATE.id then (d.chan (j / 32) (j % 32)).state
  else if f.id = DMA.CHSTAT_PRIO.id then ((d.chan (j / 32) (j % 32)).desc.map (fun q => q.prio)).getD 0
  else if f.id = DMA.CHSTAT_RING.id then ((d.chan (j / 32) (j % 32)).desc.map (fun q => q.ring % 2 ^ 18)).getD 0
  else if f.id = EVT.RECSTAT_COUNT.id then (if j = 0 then d.evt.recs0.length else d.evt.recs1.length)
  else d.rd f j

/-- The sum of the fields of a register, each at its place. -/
def wordOf (who : Option Nat) (show_ : Fld → Nat → Nat) (off : Nat) : Nat :=
  ((fieldsAt off).map (fun e => match e.1.instanceOf who e.2 with
    | some j => show_ e.1 j * 2 ^ e.1.lo
    | none => 0)).sum

/-- Whether an offset is that of a VIR record of the other family than the reading function's. -/
def otherFamily (who : Option Nat) (off : Nat) : Bool :=
  decide (0xA100000 ≤ off ∧ off < 0xA200000) && who.any (fun fn => decide ((off - 0xA100000) / 0x80 / 4096 ≠ fn / 4096))

/-- The register that a function, or (none) the control cores read at an aligned offset of BAR0, as its fields show it. A PF
reads the VIR records of the other family as zero (17 R476). -/
def Dev.wordAt (d : Dev) (now : NetTime) (who : Option Nat) (off : Nat) : Nat :=
  if isDoorbell off then 0
  else if isSnapshot off then look 0 d.mgt.snaps ((off - 0xC010000) / 8)
  else if isTemplate off then
    (let n := (off - 0x4200000) / 128
     leAt (look {} d.tmpl n).bytes ((off - 0x4200000) % 128) 8)
  else if otherFamily who off then 0
  else wordOf who (d.shown now) off

/-! ## Blocks that are not ready (19 R501, R502) -/

/-- The number of a unit whose registers start at `base` of a block, `stride` bytes each. -/
def unitAt (rel base stride count : Nat) : Option Nat :=
  if base ≤ rel ∧ (rel - base) / stride < count then some ((rel - base) / stride) else none

/-- Whether the pipeline of a unit, or any where none is named, is ready. -/
def Dev.pipeReady (d : Dev) (p : Option Nat) : Bool :=
  match p with
  | some k => d.ready (16 + k)
  | none => (List.range 4).any (fun k => d.ready (16 + k))

/-- Whether the bay of a unit, or any where none is named, is ready. -/
def Dev.bayReady (d : Dev) (b : Option Nat) : Bool :=
  match b with
  | some k => d.ready (20 + k)
  | none => (List.range 12).any (fun k => d.ready (20 + k))

/-- Whether the function that makes a register usable is ready. PRT.MODE of a group's lowest port always answers (05 R112); a port that the lane mode does not create answers with the
pipeline of its group (log entry 29). In recovery only TOP, EVT and DKW answer (18 R491). -/
def Dev.blockReady (d : Dev) (off : Nat) : Bool :=
  match blockAt off with
  | none => false
  | some (base, _) =>
    let rel := off - base
    if d.rd MGT.STATUS_RECOVERY = 1 then decide (base = 0 ∨ base = 0x300000 ∨ base = 0x400000)
    else if base = 0x1000000 then
      (let n := rel / 0x10000; if n % 4 = 0 ∧ rel % 0x10000 / 8 = 1 then true else if d.portExists n then d.ready n else d.ready (16 + n / 4))
    else if base = 0x2000000 ∨ base = 0x2C00000 ∨ base = 0x3000000 then d.pipeReady (unitAt rel 0x1000 0x100 4)
    else if base = 0x2800000 then d.pipeReady (unitAt rel 0x1000 0x1000 4)
    else if base = 0x2400000 then d.pipeReady (some (rel / 0x100000))
    else if base = 0x4000000 ∨ base = 0x4400000 then d.pipeReady none
    else if base = 0x3400000 then
      d.bayReady (((unitAt rel 0x100 128 12).orElse (fun _ => unitAt rel 0x800 128 12)).orElse (fun _ => unitAt rel 0x1000 8 12))
    else if base = 0x4800000 then d.ready 33
    else if base = 0x4C00000 ∨ base = 0x4E00000 then d.ready 34
    else if base = 0x5800000 then d.ready 35
    else if base = 0x6000000 then (List.range 16).any (fun n => d.ready n)
    else if base = 0xC000000 ∨ base = 0xC800000 then d.ready 37
    else true

/-- The reset value of a field in the column of the last reset; a field that a warm reset keeps shows its value. -/
def Dev.resetShown (d : Dev) (now : NetTime) (f : Fld) (j : Nat) : Nat :=
  if d.rd TOP.RSTCAUSE_COLD = 1 then f.coldValue j
  else match f.warm with
    | .val n => n
    | .keep => d.shown now f j
    | .bat => d.shown now f j
    | _ => f.coldValue j

/-- The register at an offset whose block is not ready: the reset values of its fields (R502). -/
def Dev.resetWord (d : Dev) (now : NetTime) (who : Option Nat) (off : Nat) : Nat :=
  wordOf who (fun f j => if f.acc = .wo then 0 else d.resetShown now f j) off

end Sys2Proof.Machine
end

