-- ==== Sys2Proof/Machine/Manage.lean ====
section
/-! DEFINITION. The management controller: the sideband, telemetry snapshots, control-core shares, flash updates and the user
OTP (20 R522 to R531, R537 to R541). What the standards behind the sideband give a request or a response is PRESUMED (log
entry 30). -/

namespace Sys2Proof.Machine

/-! ## Service and refusal (R522, R523) -/

/-- The controller serves: it is not restarting, and it is ready (R522; 19 R501). -/
def Dev.mgtServes (d : Dev) : Bool := !d.dkw.mgtDown && d.ready 37

/-- The boot ROM runs, and serves a firmware update alone (18 R491). -/
def Dev.inRecovery (d : Dev) : Bool := decide (d.rd MGT.STATUS_RECOVERY = 1)

/-- Whether a message over a path reaches the controller: a VDM needs its host link (15 R402). -/
def Dev.viaUp (d : Dev) (via : Nat) : Bool :=
  decide (via = 0) || (d.linkPresent (via - 1) && d.ready (37 + via))

/-- A request is refused: counted, EVT 1.21 at most once per second (R523). -/
def Dev.mgtRefuse (d : Dev) (now : NetTime) : Dev := (d.bump MGT.REFUSED_COUNT).raiseSec now (ev 1 21) 0

/-- Serve a request that arrived over MCTP: no answer while the controller restarts or is not ready, a refusal in recovery. -/
def Dev.overMctp (d : Dev) (now : NetTime) (via : Nat) (f : Dev → Dev) : Dev :=
  if d.dkw.mgtDown || !d.viaUp via then d
  else if d.inRecovery then d.mgtRefuse now
  else if d.ready 37 then f d else d

/-- The device's 7-bit SMBus address: a setting of 0h selects 32h (R523, R539). -/
def Dev.smbAddress (d : Dev) : Nat := if d.rd MGT.SIDEBAND_SMBADDR = 0 then 0x32 else d.rd MGT.SIDEBAND_SMBADDR

/-- Answer over MCTP: the path, with the SMBus address on that path, the message type, then what the standard's response carries. -/
def Dev.mctpReply (d : Dev) (via type : Nat) (words : List Nat) : Dev :=
  d.send (.message 12 (via :: (if via = 0 then d.smbAddress else 0) :: type :: words))

/-! ## NC-SI (R523, R524) -/

/-- The command number of DSP0222. -/
def ncsiCode : NcsiReq → Nat
  | .clearInitial => 0x00
  | .selectPackage => 0x01
  | .deselectPackage => 0x02
  | .enableChannel => 0x03
  | .disableChannel => 0x04
  | .resetChannel => 0x05
  | .enableTx => 0x06
  | .disableTx => 0x07
  | .aenEnable _ => 0x08
  | .getLink => 0x0A
  | .setMac _ _ _ => 0x0E
  | .enableBroadcast => 0x10
  | .disableBroadcast => 0x11
  | .info i => 0x15 + i.val
  | .other c => c.toNat

/-- Replace an NC-SI channel. -/
def Dev.setNcsi (d : Dev) (n : Nat) (c : NcsiCh) : Dev := { d with mgt := { d.mgt with ncsi := put {} d.mgt.ncsi n c } }

/-- An NC-SI response: command plus 80h, channel, response code, reason code, and its content. -/
def Dev.ncsiReply (d : Dev) (n : Nat) (r : NcsiReq) (code reason : Nat) (words : List Nat := []) : Dev :=
  d.send (.message 11 ([ncsiCode r + 0x80, n, code, reason] ++ words))

/-- What Get Version ID to Get NC-SI Pass-through Statistics report of a channel: its port's identity, filters or counters. -/
def Dev.ncsiInfo (d : Dev) (n i : Nat) : List Nat :=
  match i with
  | 0 => [d.rd TOP.IDENT_PART, d.rd TOP.IDENT_STEP]
  | 1 => [16, 2]
  | 2 => [bitNat (d.ncsi n).enCh, bitNat (d.ncsi n).enTx, bitNat (d.ncsi n).bcast, (d.ncsi n).aen]
      ++ (d.ncsi n).macs.map (fun e => e.2.getD 0)
  | 3 => [d.rd PRT.RXFRAMES_COUNT n, d.rd PRT.RXOCTETS_COUNT n, d.rd PRT.TXFRAMES_COUNT n, d.rd PRT.TXOCTETS_COUNT n]
  | 4 => [d.rd MGT.REFUSED_COUNT]
  | _ => [d.rd PRT.TXDISCARD_COUNT n]

/-- The effect of a command on its channel, once the channel is initialised; none where its parameter is invalid. -/
def ncsiEffect (c : NcsiCh) : NcsiReq → Option NcsiCh
  | .enableChannel => some { c with enCh := true }
  | .disableChannel => some { c with enCh := false }
  | .enableTx => some { c with enTx := true }
  | .disableTx => some { c with enTx := false }
  | .aenEnable m => some { c with aen := m.toNat }
  | .setMac slot mac en =>
    if 1 ≤ slot ∧ slot ≤ 2 ∧ mac ≠ 0 then some { c with macs := put none c.macs slot (if en then some mac.toNat else none) }
    else none
  | .enableBroadcast => some { c with bcast := true }
  | .disableBroadcast => some { c with bcast := false }
  | _ => some c

/-- NCSI_COMMAND: a command of R523's list is served, any other refused. A command other than Clear Initial State, Select Package
and Deselect Package on a channel that is not initialised is answered so. -/
def execNcsiCommand (channel : Fin 32) (req : NcsiReq) : State → Host.Outcome State Fault Refusal :=
  onDev (fun now d =>
    let n := channel.val
    let c := d.ncsi n
    if !d.mgtServes then d
    else match req with
      | .other _ => (d.mgtRefuse now).ncsiReply n req 3 0x7FFF
      | .selectPackage => ({ d with mgt := { d.mgt with pkgSel := true } }).ncsiReply n req 0 0
      | .deselectPackage => ({ d with mgt := { d.mgt with pkgSel := false } }).ncsiReply n req 0 0
      | _ =>
        if 16 ≤ n then d
        else
          let d1 : Dev := { d with mgt := { d.mgt with pkgSel := true } }
          match req with
          | .clearInitial => (d1.setNcsi n { c with init := true }).ncsiReply n req 0 0
          | .resetChannel => if c.init then (d1.setNcsi n {}).ncsiReply n req 0 0 else d1.ncsiReply n req 1 1
          | .getLink =>
            if c.init then d1.ncsiReply n req 0 0 [d.rd PRT.STATUS_LINK n, d.rd PRT.STATUS_SPEED n] else d1.ncsiReply n req 1 1
          | .info i => if c.init then d1.ncsiReply n req 0 0 (d.ncsiInfo n i) else d1.ncsiReply n req 1 1
          | _ =>
            if !c.init then d1.ncsiReply n req 1 1
            else match ncsiEffect c req with
              | some c1 => (d1.setNcsi n c1).ncsiReply n req 0 0
              | none => (d1.mgtRefuse now).ncsiReply n req 1 2)

/-- NCSI_PASSTHROUGH: a frame of the board's controller enters the queue of its channel as best effort; it is dropped and counted
while NCSIQ.EN, or transmission of the channel, is off (R524). -/
def execNcsiPassthrough (channel : Fin 16) (frame : List Byte) : State → Host.Outcome State Fault Refusal :=
  onDev (fun now d =>
    let n := channel.val
    if !d.mgtServes || frame.isEmpty then d
    else if d.rd MGT.NCSIQ_EN n = 0 ∨ (d.ncsi n).enTx = false then d.bump PRT.TXDISCARD_COUNT n
    else
      let q := d.rd MGT.NCSIQ_QUEUE n
      let owner := d.queuePolder q
      let p : Packet := { hdr := frame.take 512, tail := frame.drop 512, len := frame.length, tsin := now.tsin.toNat
                          tsfrac := now.frac / 2 ^ 24, polder := owner.getD (d.freeVal.toNat % 8192), queue := q }
      (if owner.isSome then d else d.drawn).handOver now 0 q p)

/-- SIDEBAND_LOST: the RBT reference clock stopped for 1 ms, or SMB_SCL was held low for 25 ms (R524). -/
def execSidebandLost : State → Host.Outcome State Fault Refusal :=
  onDev (fun now d => (d.bump MGT.SIDEBAND_LOST).raise now (ev 1 20))

/-! ## MCTP and PLDM (R523) -/

/-- MCTP_MESSAGE: a control message is served; another type, or one above the MTU, is refused. An endpoint ID of 00h to 07h or
FFh is no ID (DSP0236). -/
def execMctpMessage (via : Via) (req : MctpReq) : State → Host.Outcome State Fault Refusal :=
  onDev (fun now d => d.overMctp now via (fun d =>
    match req with
    | .setEid e =>
      if 8 ≤ e.toNat ∧ e.toNat < 255 then (d.wr MGT.SIDEBAND_EID 0 e.toNat).mctpReply via 0 [1, 0, e.toNat]
      else (d.mgtRefuse now).mctpReply via 0 [1, 2]
    | .getEid => d.mctpReply via 0 [2, 0, d.rd MGT.SIDEBAND_EID]
    | .getVersions => d.mctpReply via 0 [4, 0]
    | .getTypes => d.mctpReply via 0 [5, 0, 0x00, 0x01, 0x7E]
    | .otherControl c => (d.mgtRefuse now).mctpReply via 0 [c.toNat, 5]
    | .otherType _ | .tooLong => d.mgtRefuse now))

/-- How many numeric sensors there are: 16 temperature sensors, 9 rails, device power, 16 module temperatures (R523). -/
def numericSensors : Nat := 42

/-- What a state sensor reads: port links 0 to 15, ready bits 16 to 55, FAULT_N 56 (R523). -/
def Dev.stateSensor (d : Dev) (id : Nat) : Option Nat :=
  if id < 16 then some (d.rd PRT.STATUS_LINK id)
  else if id < 56 then some (bitNat (d.ready (id - 16)))
  else if id = 56 then some (d.rd DKW.STATUS_FAULTN)
  else none

/-- PLDM_REQUEST: discovery and monitoring requests are served; effecters and any other request are refused (R523). -/
def execPldmRequest (via : Via) (req : PldmReq) : State → Host.Outcome State Fault Refusal :=
  onDev (fun now d => d.overMctp now via (fun d =>
    match req with
    | .setTid t => ({ d with mgt := { d.mgt with tid := t.toNat } }).mctpReply via 1 [0, 1, 0]
    | .getTid => d.mctpReply via 1 [0, 2, 0, d.mgt.tid]
    | .getVersion => d.mctpReply via 1 [0, 3, 0]
    | .getTypes => d.mctpReply via 1 [0, 4, 0, 0, 2, 5]
    | .getCommands t => d.mctpReply via 1 [0, 5, 0, t.toNat]
    | .sensorReading id v =>
      if id < numericSensors then d.mctpReply via 1 [2, 0x11, 0, id, v.toNat] else (d.mgtRefuse now).mctpReply via 1 [2, 0x11, 0x80]
    | .stateReading id =>
      match d.stateSensor id with
      | some v => d.mctpReply via 1 [2, 0x21, 0, id, v]
      | none => (d.mgtRefuse now).mctpReply via 1 [2, 0x21, 0x80]
    | .other t c => (d.mgtRefuse now).mctpReply via 1 [t.toNat, c.toNat, 5]))

/-! ## Telemetry snapshots (R525, R526) -/

/-- The words of a snapshot set that copy registers: set offset, first register offset, and words (R526). -/
def snapSections : List (Nat × Nat × Nat) :=
  (List.range 16).map (fun n => (0x100 + 0x400 * n, 0x1000100 + 0x10000 * n, 128))
    ++ (List.range 4).map (fun p => (0x4100 + 0x100 * p, 0x3001000 + 0x100 * p, 32))
    ++ [(0x4500, 0x5000000, 32)]
    ++ (List.range 16).map (fun n => (0x4600 + 0x100 * n, 0x6001000 + 0x100 * n, 32))
    ++ [(0x5600, 0x8000000, 32), (0x5700, 0x4800000, 32)]

/-- The words of a new snapshot, by word of the set: SEQ, time, registers and readings (R526). -/
def Dev.snapWords (d : Dev) (now : NetTime) (seq : Nat) (r : Readings) : List (Nat × Nat) :=
  let list := fun (off : Nat) (l : List (BitVec 64)) => (l.zipIdx).map (fun e => (off / 8 + e.2, e.1.toNat))
  [(0, seq), (1, now.tsin.toNat), (2, now.frac / 2 ^ 24)]
    ++ snapSections.flatMap (fun e => (List.range e.2.2).map (fun i => (e.1 / 8 + i, d.wordAt now (some 0) (e.2.1 + 8 * i))))
    ++ list 0x5800 (r.temps.take 16) ++ list 0x5880 (r.rails.take 9) ++ [(0x58D0 / 8, r.power.toNat)]
    ++ (List.range 16).map (fun c =>
      (0x5900 / 8 + c, if d.rdBit MBS.PRSNOW_LEVEL 0 c then (r.modules.getD c 0).toNat else 0x8000))

/-- Latch a snapshot into the set that is not being read: SEQ, NEWEST and EVT 1.19 (R525, R540). -/
def Dev.snapshot (d : Dev) (now : NetTime) (r : Readings) : Dev :=
  let k := match d.mgt.reading with
    | some j => 1 - j
    | none => 1 - d.rd MGT.SNAPSTAT_NEWEST
  let seq := (d.rd MGT.SNAPSTAT_SEQ + 1) % 2 ^ 32
  let old := d.mgt.snaps.filter (fun e => decide (e.1 / 8192 ≠ k))
  let new := (d.snapWords now seq r).foldl (fun t e => put 0 t (8192 * k + e.1) e.2) old
  ((({ d with mgt := { d.mgt with snaps := new } }).wr MGT.SNAPSTAT_SEQ 0 seq).wr MGT.SNAPSTAT_NEWEST 0 k).raise now (ev 1 19)

/-- VENDOR_SNAPSHOT_REQUEST: vendor request 02h (R523, R525). -/
def execVendorSnapshotRequest (via : Via) (readings : Readings) : State → Host.Outcome State Fault Refusal :=
  onDev (fun now d => d.overMctp now via (fun d => (d.snapshot now readings).mctpReply via 0x7E [2, 0]))

/-- The bytes of a block of 48 of a snapshot set (R523). -/
def Dev.snapBlock (d : Dev) (set block : Nat) : List Nat :=
  (List.range 48).filterMap (fun i =>
    let o := 48 * block + i
    if o < 65536 then some (look 0 d.mgt.snaps (8192 * set + o / 8) / 2 ^ (8 * (o % 8)) % 256) else none)

/-- VENDOR_SNAPSHOT_READ: vendor request 03h reads a block of 48 bytes; the set is being read until its last block (R523,
R525). -/
def execVendorSnapshotRead (via : Via) (set : Fin 2) (block : Nat) : State → Host.Outcome State Fault Refusal :=
  onDev (fun now d => d.overMctp now via (fun d =>
    if 1366 ≤ block then (d.mgtRefuse now).mctpReply via 0x7E [3, 2]
    else
      let last := decide (block = 1365)
      (({ d with mgt := { d.mgt with reading := if last then none else some set } }).wr MGT.SNAPSTAT_READING 0
        (if last then 0 else 1)).mctpReply via 0x7E ([3, 0] ++ d.snapBlock set block)))

/-- SNAPREQ: a PF writes 1 to MGT.SNAPREQ.REQ (R525); the write is ignored while the block is not ready (19 R502). -/
def execSnapreq (_pf : Pf) (readings : Readings) : State → Host.Outcome State Fault Refusal :=
  onDev (fun now d => if d.mgtServes then d.snapshot now readings else d.bump TOP.NOTREADY_COUNT)

/-- SNAPSHOT_PERIOD: the telemetry period of PERIOD ms expires; PERIOD 0 stops periodic requests, and so does a restart (R522,
R525). Nothing happens before the period has passed since the last periodic snapshot. -/
def execSnapshotPeriod (readings : Readings) : State → Host.Outcome State Fault Refusal :=
  onDev (fun now d =>
    let period := d.rd MGT.TELCFG_PERIOD
    if d.mgtServes && decide (period ≠ 0 ∧ d.mgt.periodAt + period * 1000000 ≤ d.eng.tclks) then
      let m : Mgt := { d.mgt with periodAt := d.eng.tclks }
      ({ d with mgt := m }).snapshot now readings
    else d)

/-! ## Control-core time (R527, R528) -/

/-- Judge a share at the end of its window: missed when work was pending throughout and it received less than its share. -/
def Dev.judgeShare (d : Dev) (now : NetTime) (f : Fld) (info share : Nat) (u : ShareUse) : Dev :=
  if u.pending && decide (u.got.val < share) then (d.bump f).raiseSec now (ev 1 18) info info else d

/-- SHARE_WINDOW: a window of 1 ms ends, 1 ms after it began: loads, missed shares, and the shares of the next window (R527, R528, R540). -/
def execShareWindow (mbox learn exc : ShareUse) (busy : Fin 101) : State → Host.Outcome State Fault Refusal :=
  onDev (fun now d =>
    if d.eng.tclks < d.mgt.windowAt + 1000000 then d else
    let set := (d.rd MGT.CCSHARE_MBOX, d.rd MGT.CCSHARE_LEARN, d.rd MGT.CCSHARE_EXC)
    let (a, b, c) := d.mgt.shares.getD set
    let d1 := (((d.wr MGT.CCLOAD_MBOX 0 mbox.got).wr MGT.CCLOAD_LEARN 0 learn.got).wr MGT.CCLOAD_EXC 0 exc.got).wr
      MGT.CCLOAD_BUSY 0 busy
    let d2 := ((d1.judgeShare now MGT.CCSAT_MBOX 0 a mbox).judgeShare now MGT.CCSAT_LEARN 1 b learn).judgeShare now
      MGT.CCSAT_EXC 2 c exc
    { d2 with mgt := { d2.mgt with shares := some set, windowAt := d.eng.tclks } })

/-! ## Flash updates and user OTP (R538, R539) -/

/-- The slot that an update writes: the one that DKW.FWSEL.ACTIVE does not name, A in recovery. -/
def Dev.updateSlot (d : Dev) : Nat := if d.rd DKW.FWSEL_ACTIVE = 0 then 1 else 0

/-- REQUEST_UPDATE: a PLDM RequestUpdate of the one component starts an update, unless one runs (R523, R538). -/
def execRequestUpdate (via : Via) (components : Nat) : State → Host.Outcome State Fault Refusal :=
  onDev (fun now d =>
    if d.dkw.mgtDown || !d.viaUp via || !(d.ready 37 || d.inRecovery) then d
    else if components ≠ 1 then (d.mgtRefuse now).mctpReply via 1 [5, 0x10, 2]
    else if 1 ≤ d.rd MGT.FWUPD_STATE ∧ d.rd MGT.FWUPD_STATE ≤ 4 then d.mctpReply via 1 [5, 0x10, 0x81]
    else
      let d1 : Dev := { d with mgt := { d.mgt with update := none } }
      (((((d1.wr MGT.FWUPD_STATE 0 1).wr MGT.FWUPD_SLOT 0 d.updateSlot).wr MGT.FWUPD_SOURCE 0 via).wr MGT.FWUPD_ERR 0 0).wr
        MGT.FWUPD_BYTES 0 0).mctpReply via 1 [5, 0x10, 0])

/-- The active image, if the part is not in recovery (18 R491). -/
def Dev.activeImage (d : Dev) : Option FwImage :=
  if d.rd DKW.FWSEL_ACTIVE < 2 then some (d.flashSlot (d.rd DKW.FWSEL_ACTIVE)) else none

/-- Why a received image is refused, as MGT.FWUPD.ERR numbers it; none where it is accepted (R538, R541). -/
def Dev.imageError (d : Dev) (x : FwReceived) : Option Nat :=
  let v := x.version.toNat
  if 33554432 < x.bytes then some 3
  else if !x.good then some 1
  else if v < d.rd DKW.FWVER_MINVER then some 2
  else match d.activeImage with
    | none => none
    | some a => if v < a.version ∨ (v = a.version ∧ x.content ≠ a.content) then some 2 else none

/-- VERIFY_COMPLETE: the image received is checked; a refused one ends the update with EVT 1.17 (R538). -/
def execVerifyComplete (image : FwReceived) : State → Host.Outcome State Fault Refusal :=
  onDev (fun now d =>
    if d.dkw.mgtDown ∨ ¬(d.rd MGT.FWUPD_STATE = 1 ∨ d.rd MGT.FWUPD_STATE = 2) then d
    else
      let d1 := d.wr MGT.FWUPD_BYTES 0 (min image.bytes (2 ^ 32 - 1))
      match d.imageError image with
      | some e => ((d1.wr MGT.FWUPD_STATE 0 5).wr MGT.FWUPD_ERR 0 e).raise now (ev 1 17)
      | none =>
        let x : FwImage := { good := image.good, version := image.version.toNat, content := image.content }
        ({ d1 with mgt := { d1.mgt with update := some x } }).wr MGT.FWUPD_STATE 0 3)

/-- APPLY_COMPLETE: the slot has been written and read back, with EVT 1.16; one that fails leaves it invalid (R538). -/
def execApplyComplete (ok : Bool) : State → Host.Outcome State Fault Refusal :=
  onDev (fun now d =>
    match d.mgt.update with
    | none => d
    | some x =>
      if d.dkw.mgtDown ∨ d.rd MGT.FWUPD_STATE ≠ 3 then d
      else
        let y : FwImage := { x with good := x.good && ok }
        let d1 : Dev := { d with mgt := { d.mgt with update := none, flash := Tbl.insert d.mgt.flash (d.rd MGT.FWUPD_SLOT) y } }
        if ok then (d1.wr MGT.FWUPD_STATE 0 4).raise now (ev 1 16) else (d1.wr MGT.FWUPD_STATE 0 5).wr MGT.FWUPD_ERR 0 4)

/-- OTP_PROG: PF 0 programs the staged board settings into user OTP, once; later commands are ignored with EVT 1.21. They apply
from the next cold reset (R539). -/
def execOtpProg (pf : Pf) : State → Host.Outcome State Fault Refusal :=
  onDev (fun now d =>
    if pf.val ≠ 0 then d
    else if !d.mgtServes then d.bump TOP.NOTREADY_COUNT
    else if d.rd MGT.OTPSTG_PROGRAMMED = 1 then d.raiseSec now (ev 1 21) 0
    else
      let x := (d.rd MGT.OTPSTG_BIFMODE, d.rd MGT.OTPSTG_CXLEN, d.rd MGT.OTPSTG_SMBADDR)
      ({ d with mgt := { d.mgt with otp := some x } }).wr MGT.OTPSTG_PROGRAMMED 0 1)

end Sys2Proof.Machine
end

