-- ==== Sys2Proof/Machine/ModuleBus.lean ====
section
/-! DEFINITION. The module bus: recovery of a stuck line, the probe, presence scans, and module polls (20 R532 to R536, R540). -/

namespace Sys2Proof.Machine

/-- Whether the module of a cage cannot be reached: its cage is enabled and its segment is marked stuck (R534). -/
def Dev.cageStuck (d : Dev) (c : Nat) : Bool :=
  decide (d.rd MBS.CAGE_EN c = 1) && d.rdBit MBS.STATUS_STUCK 0 (d.rd MBS.CAGE_SEG c)

/-- The state of a cage by presence alone. -/
def Dev.cageByPresence (d : Dev) (c : Nat) : Nat := if d.rdBit MBS.SCAN_RESULT 0 c then 1 else 0

/-- Put a cage in a state; one on a stuck segment reads 4h. -/
def Dev.setCage (d : Dev) (c st : Nat) : Dev := d.wr MBS.CAGE_STATE c (if d.cageStuck c then 4 else st)

/-- Show in every cage whether its segment is stuck: 4h, or its presence again when it no longer is (R534). -/
def Dev.showCages (d : Dev) : Dev :=
  (List.range 16).foldl (fun y c =>
    if y.cageStuck c then y.wr MBS.CAGE_STATE c 4
    else if y.rd MBS.CAGE_STATE c = 4 then y.wr MBS.CAGE_STATE c (y.cageByPresence c)
    else y) d

/-- Whether the bus serves: the controller does, and the trunk is not stuck (R522, R533). -/
def Dev.busServes (d : Dev) : Bool := d.mgtServes && decide (d.rd MBS.STATUS_TRUNK = 0)

/-- The trunk is stuck: every segment is marked stuck (R533). -/
def Dev.trunkStuck (d : Dev) : Dev := ((d.wr MBS.STATUS_TRUNK 0 1).wr MBS.STATUS_STUCK 0 (2 ^ 32 - 1)).showCages

/-- Recovery of a segment whose data line is found low (R533). -/
def Dev.recoverSegment (d : Dev) (now : NetTime) (s : Nat) (line : SdaLine) : Dev :=
  match line with
  | .high => d
  | .clocked => ((d.bump MBS.SEGCTL_RECOV s).bump MBS.RECOV_COUNT).raise now (ev 1 15) s
  | .stuck trunkLow =>
    let d1 := (((d.wr MBS.SEGCTL_OPEN s 1).wrBit MBS.STATUS_STUCK 0 s true).bump MBS.RECOV_STUCKS).raise now (ev 1 14) s
    if trunkLow then d1.trunkStuck else d1.showCages

/-- BUS_STUCK: SDA stays low at idle for longer than a bit time with a segment selected (R533, R540). -/
def execBusStuck (seg : Fin 32) (line : SdaLine) : State → Host.Outcome State Fault Refusal :=
  onDev (fun now d => if d.busServes && decide (d.rd MBS.SEGCTL_OPEN seg = 0) then d.recoverSegment now seg line else d)

/-- MODULE_BUS_PROBE: leaving reset, the controller checks the trunk, then each configured segment that is not OPEN (R534). -/
def execModuleBusProbe (trunkLow : Bool) (lines : List SdaLine) : State → Host.Outcome State Fault Refusal :=
  onDev (fun now d =>
    if !d.busServes then d
    else if trunkLow then d.trunkStuck
    else ((lines.take (8 * min (d.rd MBS.CFG_MUXN) 4)).zipIdx).foldl (fun y e =>
      if y.busServes && decide (y.rd MBS.SEGCTL_OPEN e.2 = 0) then y.recoverSegment now e.2 e.1 else y) d)

/-- MBS_RETRY: PF 0 returns a stuck trunk to service, if its data line is high again; OPEN segments stay disconnected (R533). -/
def execMbsRetry (pf : Pf) (trunkLow : Bool) : State → Host.Outcome State Fault Refusal :=
  onDev (fun _ d =>
    if pf.val ≠ 0 || !d.mgtServes || decide (d.rd MBS.STATUS_TRUNK = 0) || trunkLow then d
    else
      let still := ((List.range 32).filter (fun s => decide (d.rd MBS.SEGCTL_OPEN s = 1))).map (fun s => 2 ^ s)
      ((d.wr MBS.STATUS_TRUNK 0 0).wr MBS.STATUS_STUCK 0 still.sum).showCages)

/-- SEGMENT_RETRY: PF 0 has recovery run on one OPEN segment alone (R534). -/
def execSegmentRetry (pf : Pf) (seg : Fin 32) (line : SdaLine) : State → Host.Outcome State Fault Refusal :=
  onDev (fun now d =>
    if pf.val ≠ 0 || !d.busServes || decide (d.rd MBS.SEGCTL_OPEN seg = 0) then d
    else (((d.wr MBS.SEGCTL_OPEN seg 0).wrBit MBS.STATUS_STUCK 0 seg false).showCages).recoverSegment now seg line)

/-! ## Presence (R536) -/

/-- PRESENCE_CHANGE: a presence ball changes; the cage's latch bit sets, whatever the controller does (R522, R536). -/
def execPresenceChange (cage : Fin 16) (present : Bool) : State → Host.Outcome State Fault Refusal :=
  onDev (fun _ d =>
    if d.rdBit MBS.PRSNOW_LEVEL 0 cage = present then d
    else (d.wrBit MBS.PRSNOW_LEVEL 0 cage present).wrBit MBS.PRSLATCH_CHG 0 cage true)

/-- Step 1 of a scan: read and clear the latch, and read the levels. -/
def Dev.scanStart (d : Dev) (rescans : Nat) : Dev :=
  let m : Mgt := { d.mgt with scan1 := some (d.rd MBS.PRSNOW_LEVEL), rescans := rescans, settleAt := d.eng.tclks }
  ({ d with mgt := m }.wr MBS.PRSLATCH_CHG 0 0).wr
    MBS.SCAN_ATTEMPTS 0 rescans

/-- The presence timer has run for SCANMS ms since the last scan it began (R536). -/
def Dev.scanDue (d : Dev) : Bool := decide (d.mgt.scanAt + d.rd MBS.CFG_SCANMS * 1000000 ≤ d.eng.tclks)

/-- PRESENCE_SCAN: a scan starts by the timer, every SCANMS ms, or at once by PF 0's write of MBS.CTL.SCAN; one that runs goes on
(R536). -/
def execPresenceScan (pf : Option Pf) : State → Host.Outcome State Fault Refusal :=
  onDev (fun _ d =>
    if d.mgtServes = false ∨ d.mgt.scan1.isSome then d
    else match pf with
      | some p => if p.val = 0 then d.scanStart 0 else d
      | none =>
        let m : Mgt := { d.mgt with scanAt := d.eng.tclks }
        if d.scanDue then ({ d with mgt := m }).scanStart 0 else d)

/-- A cage whose presence reads stable from now on, by its presence alone. -/
def Dev.settleCage (d : Dev) (c : Nat) : Dev :=
  let m : Mgt := { d.mgt with stableAt := put 0 d.mgt.stableAt c d.eng.tclks }
  ({ d with mgt := m }).setCage c (d.cageByPresence c)

/-- A scan ends without CDS: RESULT, EVT 1.12 for each cage that changed, and the states of cages it settled. -/
def Dev.scanResult (d : Dev) (now : NetTime) (levels : Nat) : Dev :=
  let old := d.rd MBS.SCAN_RESULT
  let retry := decide (d.rd MBS.SCAN_UNSTABLE = 1)
  let d1 := ((({ d with mgt := { d.mgt with scan1 := none } }).wr MBS.SCAN_RESULT 0 levels).wr MBS.SCAN_CDS 0 0).wr MBS.SCAN_UNSTABLE 0 0
  let d2 := d1.wr MBS.SCAN_SEQ 0 (d.rd MBS.SCAN_SEQ + 1)
  (List.range 16).foldl (fun y c =>
    if old.testBit c ≠ levels.testBit c then (y.settleCage c).raise now (ev 1 12) c
    else if retry && decide (y.rd MBS.CAGE_STATE c = 3) then y.settleCage c
    else y) d2

/-- SCAN_SETTLE: step 3 of a scan, 10 ms on. A latch bit set means a change during the scan: it sets CDS and the controller
scans again; after three rescans that all set it, EVT 1.13, and the changed cages are in state 3h (R536, R540). -/
def execScanSettle : State → Host.Outcome State Fault Refusal :=
  onDev (fun now d =>
    let latch := d.rd MBS.PRSLATCH_CHG
    match d.mgt.scan1 with
    | none => d
    | some _ =>
      if !d.mgtServes || decide (d.eng.tclks < d.mgt.settleAt + 10000000) then d
      else if latch = 0 then d.scanResult now (d.rd MBS.PRSNOW_LEVEL)
      else if d.mgt.rescans < 3 then (d.wr MBS.SCAN_CDS 0 1).scanStart (d.mgt.rescans + 1)
      else
        let d1 := ((({ d with mgt := { d.mgt with scan1 := none } }).wr MBS.SCAN_CDS 0 1).wr MBS.SCAN_UNSTABLE 0 1).raise now
          (ev 1 13) latch
        (List.range 16).foldl (fun y c => if latch.testBit c then y.setCage c 3 else y) d1)

/-! ## Modules (R535) -/

/-- MODULE_POLL: the controller polls an enabled cage's module: one that answers is ready, its LowPwr held while its port is
disabled and its data path set for the port's mode; one that has answered no access for 2 s after its presence reads stable is in
state 3h. -/
def execModulePoll (cage : Fin 16) (answer : ModuleAnswer) : State → Host.Outcome State Fault Refusal :=
  onDev (fun _ d =>
    let st := d.rd MBS.CAGE_STATE cage
    let port := d.rd MBS.CAGE_PORT cage
    if !d.busServes || decide (d.rd MBS.CAGE_EN cage = 0 ∨ st = 0 ∨ 4 ≤ st) then d
    else match answer with
      | .silent =>
        if st = 1 ∧ look 0 d.mgt.stableAt cage + 2000000000 ≤ d.eng.tclks then d.setCage cage 3 else d
      | .answers =>
        (d.setCage cage 2).send (.message 13 [cage, 1 - d.rd PRT.CTL_EN port, look 0 d.mac.mode (port / 4)]))

end Sys2Proof.Machine
end

