-- ==== Sys2Proof/Machine/PueriAlu.lean ====
section
/-! DEFINITION. The integer and bit-field instructions of Pueri (03 R67) and the compare and predicate instructions
(R68). -/

namespace Sys2Proof.Machine

/-- The shift count of a register operand: its low 6 bits (R67). -/
def shiftOf (b : Word) : Nat := b.toNat % 64

/-- An R-format instruction: rd takes `f ra rb`. -/
def Dev.alu (d : Dev) (x rd ra rb : Nat) (f : Word → Word → Word) : Dev :=
  d.compute x rd [ra, rb] (fun c => f (c.rg ra) (c.rg rb))

/-- An instruction with one register operand: rd takes `f ra`. -/
def Dev.alu1 (d : Dev) (x rd ra : Nat) (f : Word → Word) : Dev :=
  d.compute x rd [ra] (fun c => f (c.rg ra))

/-- Leading zeros of a word, 64 for zero. -/
def clz (a : Word) : Word := BitVec.ofNat 64 (((List.range 64).find? (fun i => a.getLsbD (63 - i))).getD 64)

/-- Set bits of a word. -/
def popc (a : Word) : Word := BitVec.ofNat 64 ((List.range 64).countP (fun i => a.getLsbD i))

/-- The bytes of a word reversed. -/
def bswap (a : Word) : Word := BitVec.ofNat 64 (beNat (leBytes 8 a.toNat))

/-- The mask of the low `n` bits. -/
def lowMask (n : Nat) : Word := BitVec.ofNat 64 (2 ^ n - 1)

/-- ADD (R67). -/
def execAdd (x : CtxId) (rd ra rb : Reg) : State → Host.Outcome State Fault Refusal :=
  onDev (fun _ d => d.alu x rd ra rb (· + ·))
/-- SUB (R67). -/
def execSub (x : CtxId) (rd ra rb : Reg) : State → Host.Outcome State Fault Refusal :=
  onDev (fun _ d => d.alu x rd ra rb (· - ·))
/-- AND (R67). -/
def execAnd (x : CtxId) (rd ra rb : Reg) : State → Host.Outcome State Fault Refusal :=
  onDev (fun _ d => d.alu x rd ra rb (· &&& ·))
/-- OR (R67). -/
def execOr (x : CtxId) (rd ra rb : Reg) : State → Host.Outcome State Fault Refusal :=
  onDev (fun _ d => d.alu x rd ra rb (· ||| ·))
/-- XOR (R67). -/
def execXor (x : CtxId) (rd ra rb : Reg) : State → Host.Outcome State Fault Refusal :=
  onDev (fun _ d => d.alu x rd ra rb (· ^^^ ·))
/-- ANDN (R67). -/
def execAndn (x : CtxId) (rd ra rb : Reg) : State → Host.Outcome State Fault Refusal :=
  onDev (fun _ d => d.alu x rd ra rb (fun a b => a &&& ~~~b))
/-- SHL (R67). -/
def execShl (x : CtxId) (rd ra rb : Reg) : State → Host.Outcome State Fault Refusal :=
  onDev (fun _ d => d.alu x rd ra rb (fun a b => a <<< shiftOf b))
/-- SHR (R67). -/
def execShr (x : CtxId) (rd ra rb : Reg) : State → Host.Outcome State Fault Refusal :=
  onDev (fun _ d => d.alu x rd ra rb (fun a b => a >>> shiftOf b))
/-- SAR (R67). -/
def execSar (x : CtxId) (rd ra rb : Reg) : State → Host.Outcome State Fault Refusal :=
  onDev (fun _ d => d.alu x rd ra rb (fun a b => a.sshiftRight (shiftOf b)))
/-- ROL (R67). -/
def execRol (x : CtxId) (rd ra rb : Reg) : State → Host.Outcome State Fault Refusal :=
  onDev (fun _ d => d.alu x rd ra rb (fun a b => a.rotateLeft (shiftOf b)))
/-- MINU (R67). -/
def execMinu (x : CtxId) (rd ra rb : Reg) : State → Host.Outcome State Fault Refusal :=
  onDev (fun _ d => d.alu x rd ra rb (fun a b => if BitVec.ult a b then a else b))
/-- MAXU (R67). -/
def execMaxu (x : CtxId) (rd ra rb : Reg) : State → Host.Outcome State Fault Refusal :=
  onDev (fun _ d => d.alu x rd ra rb (fun a b => if BitVec.ult a b then b else a))
/-- MUL: the low 64 bits of the product (R67). -/
def execMul (x : CtxId) (rd ra rb : Reg) : State → Host.Outcome State Fault Refusal :=
  onDev (fun _ d => d.alu x rd ra rb (· * ·))
/-- MULHU: the high 64 bits of the unsigned product (R67). -/
def execMulhu (x : CtxId) (rd ra rb : Reg) : State → Host.Outcome State Fault Refusal :=
  onDev (fun _ d => d.alu x rd ra rb (fun a b => BitVec.ofNat 64 (a.toNat * b.toNat / 2 ^ 64)))
/-- CLZ (R67). -/
def execClz (x : CtxId) (rd ra : Reg) : State → Host.Outcome State Fault Refusal :=
  onDev (fun _ d => d.alu1 x rd ra clz)
/-- POPC (R67). -/
def execPopc (x : CtxId) (rd ra : Reg) : State → Host.Outcome State Fault Refusal :=
  onDev (fun _ d => d.alu1 x rd ra popc)
/-- BSWAP (R67). -/
def execBswap (x : CtxId) (rd ra : Reg) : State → Host.Outcome State Fault Refusal :=
  onDev (fun _ d => d.alu1 x rd ra bswap)
/-- DIVU: control profile only; a zero divisor gives all ones (R67, R86). -/
def execDivu (x : CtxId) (rd ra rb : Reg) : State → Host.Outcome State Fault Refusal :=
  onDev (fun _ d => d.issueCore x { regs := [rd, ra, rb] } (fun c =>
    d.setCtx x (c.wg rd (if c.rg rb = 0 then BitVec.allOnes 64 else c.rg ra / c.rg rb)).next))
/-- REMU: control profile only; a zero divisor gives ra (R67, R86). -/
def execRemu (x : CtxId) (rd ra rb : Reg) : State → Host.Outcome State Fault Refusal :=
  onDev (fun _ d => d.issueCore x { regs := [rd, ra, rb] } (fun c =>
    d.setCtx x (c.wg rd (if c.rg rb = 0 then c.rg ra else c.rg ra % c.rg rb)).next))
/-- ADDI: the immediate is sign-extended (R67). -/
def execAddi (x : CtxId) (rd ra : Reg) (imm : BitVec 16) : State → Host.Outcome State Fault Refusal :=
  onDev (fun _ d => d.alu1 x rd ra (fun a => a + imm.signExtend 64))
/-- ANDI: the immediate is zero-extended (R67). -/
def execAndi (x : CtxId) (rd ra : Reg) (imm : BitVec 16) : State → Host.Outcome State Fault Refusal :=
  onDev (fun _ d => d.alu1 x rd ra (fun a => a &&& imm.setWidth 64))
/-- ORI: the immediate is zero-extended (R67). -/
def execOri (x : CtxId) (rd ra : Reg) (imm : BitVec 16) : State → Host.Outcome State Fault Refusal :=
  onDev (fun _ d => d.alu1 x rd ra (fun a => a ||| imm.setWidth 64))
/-- XORI: the immediate is zero-extended (R67). -/
def execXori (x : CtxId) (rd ra : Reg) (imm : BitVec 16) : State → Host.Outcome State Fault Refusal :=
  onDev (fun _ d => d.alu1 x rd ra (fun a => a ^^^ imm.setWidth 64))
/-- SHLI (R67). -/
def execShli (x : CtxId) (rd ra : Reg) (sh : Fin 64) : State → Host.Outcome State Fault Refusal :=
  onDev (fun _ d => d.alu1 x rd ra (fun a => a <<< (sh : Nat)))
/-- SHRI (R67). -/
def execShri (x : CtxId) (rd ra : Reg) (sh : Fin 64) : State → Host.Outcome State Fault Refusal :=
  onDev (fun _ d => d.alu1 x rd ra (fun a => a >>> (sh : Nat)))
/-- SARI (R67). -/
def execSari (x : CtxId) (rd ra : Reg) (sh : Fin 64) : State → Host.Outcome State Fault Refusal :=
  onDev (fun _ d => d.alu1 x rd ra (fun a => a.sshiftRight sh))
/-- MOVI (R67). -/
def execMovi (x : CtxId) (rd : Reg) (imm : BitVec 16) : State → Host.Outcome State Fault Refusal :=
  onDev (fun _ d => d.compute x rd [] (fun _ => imm.signExtend 64))
/-- MOVK: 16 bits of rd at position 16h, the others kept (R67). -/
def execMovk (x : CtxId) (rd : Reg) (h : Fin 4) (imm : BitVec 16) : State → Host.Outcome State Fault Refusal :=
  onDev (fun _ d => d.compute x rd [] (fun c =>
    (c.rg rd &&& ~~~((0xFFFF : Word) <<< (16 * (h : Nat)))) ||| (imm.setWidth 64 <<< (16 * (h : Nat)))))
/-- EXT: the field of ra of `len1 + 1` bits at `pos` (R67). -/
def execExt (x : CtxId) (rd ra : Reg) (pos len1 : Fin 64) : State → Host.Outcome State Fault Refusal :=
  onDev (fun _ d => d.alu1 x rd ra (fun a => (a >>> (pos : Nat)) &&& lowMask (len1 + 1)))
/-- INS: the low `len1 + 1` bits of ra go into rd at `pos`, cut at bit 63 (R67). -/
def execIns (x : CtxId) (rd ra : Reg) (pos len1 : Fin 64) : State → Host.Outcome State Fault Refusal :=
  onDev (fun _ d => d.compute x rd [ra] (fun c =>
    (c.rg rd &&& ~~~(lowMask (len1 + 1) <<< (pos : Nat))) ||| ((c.rg ra &&& lowMask (len1 + 1)) <<< (pos : Nat))))
/-- CRC: CRC-32C of ra then rb, 8 little-endian bytes each, seeded by the low half of rd (R67). -/
def execCrc (x : CtxId) (rd ra rb : Reg) : State → Host.Outcome State Fault Refusal :=
  onDev (fun _ d => d.compute x rd [ra, rb] (fun c =>
    (crc32c ((c.rg rd).setWidth 32) (leBytes 8 (c.rg ra).toNat ++ leBytes 8 (c.rg rb).toNat)).setWidth 64))

/-! ## R68 -/

/-- CMP: a predicate takes a condition of two registers. -/
def execCmp (x : CtxId) (pd : Pred) (cond : Cond) (ra rb : Reg) : State → Host.Outcome State Fault Refusal :=
  onDev (fun _ d => d.issue x { regs := [ra, rb] } (fun c =>
    d.setCtx x (c.wp pd (condHolds cond (c.rg ra) (c.rg rb))).next))
/-- CMPI: as CMP, with a sign-extended 15-bit immediate. -/
def execCmpi (x : CtxId) (pd : Pred) (cond : Cond) (ra : Reg) (imm : BitVec 15) : State → Host.Outcome State Fault Refusal :=
  onDev (fun _ d => d.issue x { regs := [ra] } (fun c =>
    d.setCtx x (c.wp pd (condHolds cond (c.rg ra) (imm.signExtend 64))).next))
/-- PLOG: any function of two predicates, from its truth table. -/
def execPlog (x : CtxId) (pd pa pb : Pred) (tt : BitVec 4) : State → Host.Outcome State Fault Refusal :=
  onDev (fun _ d => d.issue x {} (fun c =>
    d.setCtx x (c.wp pd (tt.getLsbD (2 * (c.rp pa).toNat + (c.rp pb).toNat))).next))
/-- SEL: rd = p ? ra : rb. -/
def execSel (x : CtxId) (rd ra rb : Reg) (p : Pred) : State → Host.Outcome State Fault Refusal :=
  onDev (fun _ d => d.compute x rd [ra, rb] (fun c => if c.rp p then c.rg ra else c.rg rb))
/-- ASSERT: an assert fault with the code in bits [15:8] when `n ? p : !p` holds, the condition under which a BR of the same
predicate would not be taken (R68, R73). -/
def execAssert (x : CtxId) (p : Pred) (n : Bool) (code : BitVec 22) : State → Host.Outcome State Fault Refusal :=
  onDev (fun _ d => d.issue x {} (fun c =>
    if c.taken p n then d.setCtx x c.next else d.fault x (faultAssert + 256 * (code.toNat % 256))))

end Sys2Proof.Machine
end

