-- ==== Sys2Proof/Machine/PueriSystem.lean ====
section
/-! DEFINITION. System instructions of the control profile: control registers, interrupts, ERET and WFE (03 R86, R87). -/

namespace Sys2Proof.Machine

/-- Whether an enabled interrupt line is pending. -/
def Csr.waiting (r : Csr) : Bool := decide (r.irqen &&& r.irqpend ≠ 0)

/-- The content of a control register; none where the table of R87 lists no such number. CYCLE counts CCLK since the warm reset: the
TCLK that have passed, in the nominal ratio of 2.2 to 1 (log entry 3). TIME is read as R510 of chapter 19 has it. -/
def Dev.csrRead (d : Dev) (now : NetTime) (core n : Nat) : Option Word :=
  let r := d.csr core
  match n with
  | 0x000 => some (BitVec.ofNat 64 core)
  | 0x001 => some (BitVec.ofNat 64 (d.eng.tclks * 11 / 5))
  | 0x002 => some (d.readTime now).tsin
  | 0x010 => some (if r.ie then 1 else 0)
  | 0x011 => some r.tvec
  | 0x012 => some r.epc
  | 0x013 => some r.cause
  | 0x014 => some r.irqen
  | 0x015 => some r.irqpend
  | _ => none

/-- A control register written: a read-only one keeps its value, IRQPEND clears the bits written as 1. -/
def Csr.write (r : Csr) (n : Nat) (v : Word) : Csr :=
  match n with
  | 0x010 => { r with ie := v.getLsbD 0 }
  | 0x011 => { r with tvec := v }
  | 0x012 => { r with epc := v }
  | 0x014 => { r with irqen := v }
  | 0x015 => { r with irqpend := r.irqpend &&& ~~~v }
  | _ => r

/-- CSRR (R87): an unlisted number is an illegal instruction. -/
def execCsrr (x : CtxId) (rd : Reg) (csr : BitVec 12) : State → Host.Outcome State Fault Refusal :=
  onDev (fun now d => d.issueCore x { regs := [rd] } (fun c =>
    match d.csrRead now (x - 1536) csr.toNat with
    | some v => (if csr.toNat = 2 then d.drawn else d).setCtx x (c.wg rd v).next
    | none => d.fault x faultIllegal))

/-- CSRW (R87). -/
def execCsrw (x : CtxId) (ra : Reg) (csr : BitVec 12) : State → Host.Outcome State Fault Refusal :=
  onDev (fun now d => d.issueCore x { regs := [ra] } (fun c =>
    match d.csrRead now (x - 1536) csr.toNat with
    | some _ => (d.setCsr (x - 1536) ((d.csr (x - 1536)).write csr.toNat (c.rg ra))).setCtx x c.next
    | none => d.fault x faultIllegal))

/-- ERET (R87): go on at EPC with interrupts enabled. -/
def execEret (x : CtxId) : State → Host.Outcome State Fault Refusal :=
  onDev (fun _ d => d.issueCore x {} (fun c =>
    let r := d.csr (x - 1536)
    (d.setCsr (x - 1536) { r with ie := true }).setCtx x { c with pc := r.epc.toNat % 2 ^ 18 }))

/-- WFE (R86, R87): wait until an enabled interrupt line is pending. -/
def execWfe (x : CtxId) : State → Host.Outcome State Fault Refusal :=
  onDev (fun _ d => d.issueCore x {} (fun c =>
    if (d.csr (x - 1536)).waiting then d.setCtx x c.next
    else d.setCtx x { c with st := .wait, waitOn := .event }))

/-- Whether a context stands between two instructions (R87): it runs, or an AWAIT, a WFE or a lock holds it. -/
def Ctx.between (c : Ctx) : Bool :=
  match c.st, c.waitOn with
  | .run, _ => true
  | .wait, .await _ => true
  | .wait, .locked _ => true
  | .wait, .event => true
  | _, _ => false

/-- INTERRUPT_TRAP: a control core takes an enabled interrupt between instructions (R87): EPC, CAUSE, interrupts off, jump
to TVEC. A WFE in progress completes, and with interrupts off goes on without a trap. What CAUSE holds below bit 63 is
open (log entry 5). -/
def execInterruptTrap (core : Fin 12) : State → Host.Outcome State Fault Refusal :=
  onDev (fun _ d =>
    let x := 1536 + core.val
    let c := d.ctx x
    let r := d.csr core
    let c1 := if c.waitOn = .event then { c with st := .run, waitOn := .nothing }.next else c
    if !r.waiting || !c.between then d
    else if r.ie then
      (d.drawn.setCsr core { r with epc := BitVec.ofNat 64 c1.pc, cause := d.freeVal ||| (1#64 <<< 63), ie := false }).setCtx x
        { c1 with st := .run, waitOn := .nothing, pc := r.tvec.toNat % 2 ^ 18 }
    else d.setCtx x c1)

end Sys2Proof.Machine
end

