-- ==== Sys2Proof/Machine/Resets.lean ====
section
/-! DEFINITION. Resets and bring-up: the reset columns, the cold and warm start, ready bits, link resets, FLR, and what a
function's power states do to its messages (00_scope R17; 15 R407 to R411; 17 R471; 18 R491; 19 R500 to R521; 22 R554). -/

namespace Sys2Proof.Machine

/-! ## Reset columns (00_scope R17) -/

/-- The field that a key of the register store belongs to. -/
def fieldOf (key : Nat) : Option Fld := allFields[key % 1024]?

/-- The fields that a programming of OTP has changed keep it (04 R92; 20 R539). -/
def otpProgrammed (f : Fld) : Bool := [PGM.KEYSTAT_ENROLLED.id, PGM.KEYSTAT_REVOKED.id, MGT.OTPSTG_PROGRAMMED.id].contains f.id

/-- The fields that show what stays up or stands outside through a warm reset: the host links (15 R410) and the presence balls. -/
def staysUp (f : Fld) : Bool :=
  [HIF.LSTAT_UP.id, HIF.LSTAT_FLIT.id, HIF.LSTAT_PRESENT.id, HIF.LSTAT_RATE.id, HIF.LSTAT_WIDTH.id, HIF.LSTAT_FIGURE.id,
   HIF.CXLSTAT_CXL.id, MBS.PRSNOW_LEVEL.id].contains f.id

/-- Whether a field keeps its value through a warm reset: the entries `—` and BAT of column Warm. -/
def Fld.warmKeeps (f : Fld) : Bool :=
  otpProgrammed f || staysUp f || (match f.warm with | .keep => true | .bat => true | _ => false)

/-- Whether a field keeps its value through a cold reset: entry BAT, and programmed OTP. -/
def Fld.coldKeeps (f : Fld) : Bool :=
  otpProgrammed f || (match f.cold with | .bat => true | _ => false)

/-- Whether an FLR of a function returns instance `i` of a field to its FLR column; every value there is that of column Cold. -/
def Fld.flrClears (f : Fld) (fn i : Nat) : Bool :=
  match f.flr, f.view with
  | .val _, .perFn => decide (i / f.count = fn)
  | .val _, .perPf => decide (fn % 4096 = 0 ∧ i / f.count = fn / 4096)
  | _, _ => false

/-- The registers with every field at its reset value but those that are kept. -/
def Dev.keepRegs (d : Dev) (p : Fld → Bool) : Tbl Nat := d.regs.filter (fun e => (fieldOf e.1).any p)

/-! ## Firmware selection (18 R491) -/

/-- Whether a flash slot is valid. -/
def Dev.slotValid (d : Dev) (slot : Nat) : Bool :=
  (d.flashSlot slot).good && decide (d.rd DKW.FWVER_MINVER ≤ (d.flashSlot slot).version)

/-- The slot that the Dikewarden selects, 2 for none. -/
def Dev.selectedSlot (d : Dev) : Nat :=
  match d.slotValid 0, d.slotValid 1 with
  | true, true => if (d.flashSlot 0).version < (d.flashSlot 1).version then 1 else 0
  | true, false => 0
  | false, true => 1
  | false, false => 2

/-- FIRMWARE_SELECTION: the selected image and EVT 0.15 or EVT 0.16; in recovery the boot ROM runs. -/
def Dev.selectFirmware (d : Dev) (now : NetTime) : Dev :=
  let differ := d.slotValid 0 && d.slotValid 1 && decide (d.flashSlot 0 ≠ d.flashSlot 1)
  let k := d.selectedSlot
  let d1 := ((d.wr DKW.FWSEL_ACTIVE 0 k).wr DKW.FWSEL_VALIDA 0 (bitNat (d.slotValid 0))).wr DKW.FWSEL_VALIDB 0 (bitNat (d.slotValid 1))
  let d2 := ((d1.wr DKW.FWSEL_DIFFER 0 (bitNat differ)).wr DKW.FWSEL_VERA 0 (d.flashSlot 0).version).wr DKW.FWVER_VERB 0
    (d.flashSlot 1).version
  if k = 2 then (d2.wr MGT.STATUS_RECOVERY 0 1).raise now (ev 0 16)
  else if differ then d2.raise now (ev 0 15)
  else d2

/-! ## Start (19 R504, R506) -/

/-- Reset groups leave reset (19 R511, R520). -/
def Dev.leaveReset (d : Dev) (groups : List Nat) : Dev := groups.foldl (fun y n => y.wrBit CLK.RGSTAT_INRESET 0 n false) d

/-- The control service starts on the control cores, with the default grants (17 R458); the scheduler, rings and event unit are in
service. When it does within its bound is the model's choice (log entry 31). -/
def Dev.startService (d : Dev) : Dev :=
  let d1 := ([PGM.STATUS_READY, ADM.STATUS_READY, VIR.STATUS_READY, SCH.STATUS_READY, RNG.STATUS_READY] : List Fld).foldl
    (fun (y : Dev) f => y.wr f 0 1) d
  let d2 := (List.range 12).foldl (fun (y : Dev) c => y.setCtx (1536 + c) { st := .run }) d1
  ((((d2.leaveReset (5 :: (List.range 12).map (· + 32))).showExists 0).showExists 1).defaultGrant 0).defaultGrant 1

/-- What the start finds in the battery domain: a loss not yet reported, or a tamper (10 R272, R276). -/
def Dev.findBattery (d : Dev) (now : NetTime) : Dev :=
  let d1 := if d.bat.lost then ({ d with bat := { d.bat with lost := false } }).raise now (ev 10 13) else d
  let d2 := d1.showBatlow now
  if d2.rd BAT.STATE_ST = 2 then (d2.wr CIP.STATUS_TAMPER 0 1).raise now (ev 10 11) else d2

/-- The expansion ROM is copied from the active flash image set; with none active it has no content (15 R412). -/
def Dev.copyRom (d : Dev) : Dev :=
  let k := d.rd DKW.FWSEL_ACTIVE
  { d with hif := { d.hif with rom := if k < 2 then some ((d.flashSlot k).content, (d.flashSlot k).version) else none } }

/-- The start that cold and warm reset share: firmware selection, then the control service, which recovery does not start. -/
def Dev.startUp (d : Dev) (now : NetTime) : Dev :=
  let d1 := (((d.wr EVT.STATUS_READY 0 1).selectFirmware now).copyRom).findBattery now
  if d1.inRecovery then d1 else d1.startService

/-- The device with every field at column Cold: OTP, flash and the battery domain keep what they hold, and programmed board
settings apply (20 R539). -/
def Dev.coldState (d : Dev) : Dev :=
  let mgt : Mgt := { flash := d.mgt.flash, otp := d.mgt.otp }
  let d1 : Dev := {
    regs := d.keepRegs Fld.coldKeeps
    prog := { keyHash := d.prog.keyHash }
    bat := d.bat
    mgt := mgt
    cip := { masks := d.cip.masks }
    free := d.free
    out := d.out }
  match d.mgt.otp with
  | none => d1
  | some (mode, cxl, addr) => ((d1.wr HIF.CFG_BIFMODE 0 mode).wr HIF.CFG_CXLEN 0 cxl).wr MGT.SIDEBAND_SMBADDR 0 addr

/-- POWER_ON_RELEASE: the cold start: groups AON and TIME leave reset, OTP is read, network time starts from zero, FAULT_N is
asserted, ILK_OUT is low, and the Dikewarden selects the firmware (R504; 14 R386). -/
def execPowerOnRelease (s : State) : Host.Outcome State Fault Refusal :=
  let d1 := s.dev.coldState
  let d2 : Dev := { d1 with bat := { d1.bat with main := true } }
  let d3 := ((d2.leaveReset [1, 2]).send (.pin 1 false)).send (.message 8 [0])
  .next { s with dev := d3.startUp {}, time := {} }

/-- POWER_DOWN: the main supplies are removed: everything but the battery domain, OTP and flash is lost, the domain too where VBAT
is absent, and the outputs are no longer driven (10 R271, R272; 22 R554). -/
def execPowerDown (s : State) : Host.Outcome State Fault Refusal :=
  let d1 := s.dev.coldState
  let d2 : Dev := { d1 with bat := { d1.bat with main := false } }
  .next { s with dev := (if d2.bat.vbat then d2 else d2.batStart true).send (.message 14 []), time := {} }

/-! ## Warm reset (19 R505, R506, R511, R517) -/

/-- The reset groups that a warm reset names (R511). -/
def warmGroups : List Nat := (List.range 5).map (· + 3) ++ (List.range 34).map (· + 10)

/-- A function as a warm reset leaves it: configuration space kept, a running FLR finished with it, no vector pending (15 R410,
R421). -/
def HostFn.afterWarm (x : HostFn) : HostFn := if x.inFlr then {} else { x with pba := [] }

/-- The host interface as a warm reset leaves it: links up, configuration space kept, completions of its reads discarded. -/
def HostIf.afterWarm (h : HostIf) : HostIf :=
  { fns := Tbl.mapKept {} (fun _ x => x.afterWarm) h.fns, perst := h.perst, inReset := h.inReset
    reads := h.reads.map (fun r => { r with dead := true }) }

/-- The device with every field at column Warm: what R506 keeps, it keeps; every rotating order starts at its lowest position
(R570). -/
def Dev.warmState (d : Dev) : Dev :=
  { regs := d.keepRegs Fld.warmKeeps
    evt := { secondMarks := d.evt.secondMarks, hourMarks := d.evt.hourMarks }
    eng := { coh := { mem := d.eng.coh.mem } }
    prog := { keyHash := d.prog.keyHash }
    hif := d.hif.afterWarm
    cip := { masks := d.cip.masks }
    bat := d.bat
    dkw := { throttled := d.dkw.throttled }
    mgt := { flash := d.mgt.flash, otp := d.mgt.otp }
    warming := true
    free := d.free
    out := d.out }

/-- WARM_RESET: FAULT_N, silence, the groups' reset and the start; a source during a warm reset only adds its cause (R505, R506,
R517). `cause` is its field of TOP.RSTCAUSE. -/
def Dev.warmReset (d : Dev) (now : NetTime) (cause : Fld) : Dev :=
  if d.warming then d.wr cause 0 1
  else
    let time := d.ready 35
    let d1 := (d.assertFault now).abortUpdate
    let d2 := if d1.hif.lines.isEmpty then d1 else d1.dropAllLines now
    let d3 := (if d2.slu.pps then d2.send (.pin 0 false) else d2).send (.message 8 [0])
    let d4 := ((d3.warmState.wr TOP.RSTCAUSE_COLD 0 0).wr cause 0 1).wrBit TOP.READY_BITS 0 35 time
    let d5 := warmGroups.foldl (fun (y : Dev) n => (y.wrBit CLK.RGSTAT_INRESET 0 n true).bump CLK.RGCNT_COUNT n) d4
    d5.startUp now

/-- TOP_RESET_WARM: A5h to TOP.RESET.WARM from PF 0, while it is not in FLR (R505). -/
def execTopResetWarm (pf : Pf) : State → Host.Outcome State Fault Refusal :=
  onDev (fun now d => if pf.val ≠ 0 ∨ (d.fn 0).inFlr then d else d.warmReset now TOP.RSTCAUSE_PF0)

/-- WRST_N: held low for at least 10 µs (R505). -/
def execWrstN : State → Host.Outcome State Fault Refusal := onDev (fun now d => d.warmReset now TOP.RSTCAUSE_PIN)

/-- VENDOR_WARM_RESET: vendor request 01h over the sideband (20 R523). -/
def execVendorWarmReset (via : Via) : State → Host.Outcome State Fault Refusal :=
  onDev (fun now d => d.overMctp now via (fun d => (d.mctpReply via 0x7E [1, 0]).warmReset now TOP.RSTCAUSE_MGT))

/-- ACTIVATE_FIRMWARE: a self-contained activation of a finished update causes a warm reset; any other waits for the next reset
(20 R538). -/
def execActivateFirmware (via : Via) (selfContained : Bool) : State → Host.Outcome State Fault Refusal :=
  onDev (fun now d =>
    if d.dkw.mgtDown || !d.viaUp via || !(d.ready 37 || d.inRecovery) then d
    else if d.rd MGT.FWUPD_STATE ≠ 4 then d.mctpReply via 1 [5, 0x1A, 0x80]
    else
      let d1 := d.mctpReply via 1 [5, 0x1A, 0]
      if selfContained then d1.warmReset now TOP.RSTCAUSE_MGT else d1.wr MGT.FWUPD_STATE 0 0)

/-- WARM_RESET_COMPLETE: every host-link bit of a present link has set again: EVT 1.3, and TOP.WARMCNT counts the reset (R506). -/
def execWarmResetComplete : State → Host.Outcome State Fault Refusal :=
  onDev (fun now d =>
    if d.warming && (List.range 2).all (fun l => !d.linkPresent l || d.ready (38 + l)) then
      (({ d with warming := false }).bump TOP.WARMCNT_COUNT).raise now (ev 1 3)
    else d)

/-! ## Ready bits (19 R500 to R503) -/

/-- Whether a function exists as R503 counts them: not a port that the lane mode does not create, nor an absent link. -/
def Dev.hasFunction (d : Dev) (bit : Nat) : Bool :=
  if bit < 16 then d.portExists bit else if 38 ≤ bit then d.linkPresent (bit - 38) else true

/-- Whether every function that a function needs is ready (R501); in recovery only the host link of PF 0 comes up (18 R491). -/
def Dev.needsMet (d : Dev) (bit : Nat) : Bool :=
  if d.inRecovery then decide (bit = 38 ∧ d.rd HIF.LSTAT_UP 0 = 1)
  else if bit < 16 then d.ready (16 + bit / 4) && d.ready 35
  else if bit < 20 then d.ready 32 && d.ready 35
  else if bit = 33 then d.ready 34
  else if bit = 36 then
    (List.range 40).all (fun b => decide (b = 36) || !d.hasFunction b || d.ready b || d.rdBit TOP.FAILED_BITS 0 b)
      && decide (d.rd CAL.STATUS_COMMITTED = 1)
  else if bit = 37 then !d.dkw.mgtDown
  else if 38 ≤ bit then decide (d.rd HIF.LSTAT_UP (bit - 38) = 1)
  else true

/-- The reset groups of a function (R511). -/
def groupsOf (bit : Nat) : List Nat :=
  if bit < 16 then [12 + bit / 4]
  else if bit < 20 then [bit]
  else if bit < 32 then [bit]
  else if bit = 32 then [6]
  else if bit < 35 then [7]
  else if bit = 35 then [2]
  else if bit = 36 then [3]
  else if bit = 37 then [4]
  else [bit - 30, bit - 28]

/-- What serves once a function is ready: a bay's engines, the cipher cores that pass their tests, with their
mask generators seeded anew (10 R267), the entropy source, the
Dikewarden, the management controller. -/
def Dev.putInService (d : Dev) (now : NetTime) (bit : Nat) (cores : BitVec 32) : Dev :=
  if 20 ≤ bit ∧ bit < 32 then
    (List.range 16).foldl (fun (y : Dev) i =>
      let n := 16 * (bit - 20) + i
      if y.rd ENG.ESTAT_STATE n = engOffline then y.setEngine n engOnline 0 else y) (d.wr ENG.BSTAT_STORE_OK (bit - 20) 1)
  else if bit = 33 then
    (List.range 32).foldl (fun (y : Dev) c =>
      let y1 := (y.wr CIP.CORESTAT_STATE c 1).wrBit CIP.STATUS_CORES 0 c true
      if cores.getLsbD c then y1 else y1.katFail now c) d.seedMasks
  else if bit = 34 then d.wr CIP.ENTSTAT_OK 0 1
  else if bit = 36 then d.wr DKW.STATUS_READY 0 1
  else if bit = 37 then d.wr MGT.STATUS_READY 0 1
  else d

/-- READY_BIT_SET: a function has passed its self-test with what it needs ready, and its bit sets with EVT 1.0 (R500, R501).
`cores`: the cipher cores that pass their known-answer tests, of which the cipher complex needs one (10 R270). -/
def execReadyBitSet (bit : Fin 40) (cores : BitVec 32) : State → Host.Outcome State Fault Refusal :=
  onDev (fun now d =>
    if d.ready bit || d.rdBit TOP.FAILED_BITS 0 bit || !d.hasFunction bit || !d.needsMet bit || decide (bit.val = 33 ∧ cores = 0) then d
    else (((d.wrBit TOP.READY_BITS 0 bit true).leaveReset (groupsOf bit)).putInService now bit cores).raise now (ev 1 0) bit)

/-- SELF_TEST_FAIL: a function fails its self-test: its ready bit stays clear, TOP.FAILED sets, EVT 1.1 (R503). For the Dikewarden,
`sms` names the mechanisms that failed: DKW.SMSTAT, EVT 0.24, and FAULT_N stays asserted (18 R480, R485). -/
def execSelfTestFail (bit : Fin 40) (sms : BitVec 16) : State → Host.Outcome State Fault Refusal :=
  onDev (fun now d =>
    if d.ready bit || d.rdBit TOP.FAILED_BITS 0 bit || !d.hasFunction bit then d
    else
      let d1 := ((d.wrBit TOP.FAILED_BITS 0 bit true).leaveReset (groupsOf bit)).raise now (ev 1 1) bit
      let failed := sms.toNat / 2
      if bit.val ≠ 36 ∨ failed = 0 then d1
      else ((d1.wr DKW.SMSTAT_FAILED 0 failed).raise now (ev 0 24) (2 * failed)).assertFault now)

/-! ## Reference inputs, frequencies, trims (19 R516, R518, R520) -/

/-- REFERENCE_EXCURSION: a reference input stops or leaves ±200 ppm: EVT 1.2 at most once per second per input (R518). -/
def execReferenceExcursion (input : Fin 4) : State → Host.Outcome State Fault Refusal :=
  onDev (fun now d =>
    let f := ([CLK.REFSTAT_NET, CLK.REFSTAT_PCIE, CLK.REFSTAT_SYS, CLK.REFSTAT_XTAL] : List Fld).getD input CLK.REFSTAT_NET
    ((d.wr f 0 0).bump CLK.REFERR_COUNT).raiseSec now (ev 1 2) input input)

/-- FREQUENCY_MEASURE: the frequency of each clock is measured into CLK.FREQ; `refs` says which reference inputs are found within
±200 ppm (R518, R520). -/
def execFrequencyMeasure (freqs : List (BitVec 32)) (refs : BitVec 4) : State → Host.Outcome State Fault Refusal :=
  onDev (fun _ d =>
    let d1 := ((freqs.take 14).zipIdx).foldl (fun (y : Dev) e => y.wr CLK.FREQ_KHZ e.2 e.1.toNat) d
    (((d1.wr CLK.REFSTAT_NET 0 (bitNat (refs.getLsbD 0))).wr CLK.REFSTAT_PCIE 0 (bitNat (refs.getLsbD 1))).wr CLK.REFSTAT_SYS 0
      (bitNat (refs.getLsbD 2))).wr CLK.REFSTAT_XTAL 0 (bitNat (refs.getLsbD 3)))

/-- CAL_COMMIT: PF 0 locks the monitor trims until the next cold or warm reset (R516). -/
def execCalCommit (pf : Pf) : State → Host.Outcome State Fault Refusal :=
  onDev (fun _ d => if pf.val = 0 then d.wr CAL.STATUS_COMMITTED 0 1 else d)

/-- CAL_COMMIT_TIMEOUT: 250 ms after the cold or warm start no commit has arrived: the trims stay at zero and are locked (R516). -/
def execCalCommitTimeout : State → Host.Outcome State Fault Refusal :=
  onDev (fun _ d =>
    if d.rd CAL.STATUS_COMMITTED = 1 ∨ d.eng.tclks < 250000000 then d
    else
      let clear := fun (y : Dev) (u e : Fld) (i : Nat) => (y.wr u i 0).wr e i (e.coldValue i)
      let d1 := (List.range 16).foldl (fun (y : Dev) i => clear y CAL.TM_USER CAL.TM_EFF i) d
      ((List.range 9).foldl (fun (y : Dev) i => clear y CAL.VM_USER CAL.VM_EFF i) d1).wr CAL.STATUS_COMMITTED 0 1)

/-! ## Messages of a function through its resets (17 R471) -/

/-- The messages to a function were queued before its FLR or enable: PRIOR. -/
def Dev.markPrior (d : Dev) (f : Nat) : Dev :=
  let mark := fun (l : List Msg) => l.map (fun m => ({ m with prior := true } : Msg))
  if (d.inboxOf f).isEmpty ∧ (look [] d.mbx.overflow f).isEmpty then d
  else
    ({ d with mbx := { d.mbx with
      inbox := put [] d.mbx.inbox f (mark (d.inboxOf f))
      overflow := put [] d.mbx.overflow f (mark (look [] d.mbx.overflow f)) } }).showInbox f

/-- One inbox interrupt where messages wait and IRQ.EN is set. -/
def Dev.inboxVector (d : Dev) (f : Nat) : Dev :=
  if !(d.inboxOf f).isEmpty && decide (d.rd MBX.IRQ_EN f = 1) then d.vector f (d.rd MBX.IRQ_VECTOR f) else d

/-- The messages that a function sent and that no one has picked up are withdrawn, with EVT 2.3 (15 R409). -/
def Dev.withdrawAll (d : Dev) (now : NetTime) (f : Nat) : Dev :=
  let mine := fun (m : Msg) => decide (m.sender = f)
  let touched := d.mbx.inbox.filter (fun e => e.2.any mine)
  let n := (touched.map (fun e => (e.2.filter mine).length)).sum
  let d1 := touched.foldl (fun (y : Dev) e =>
    let y1 := y.setInbox e.1 (e.2.filter (fun m => !mine m))
    let y2 : Dev := { y1 with mbx := { y1.mbx with gone := (e.2.filter mine).map (fun m => (chanKey f e.1, m.seq)) ++ y1.mbx.gone } }
    if e.1 < 8192 then y2.showInbox e.1 else y2) d
  if n = 0 then d1 else d1.raise now (ev 2 3) n (some f)

/-! ## FLR (15 R408, R409) -/

/-- The functions that a reset of a function resets: a PF with its VFs, or the VF alone. -/
def Dev.resetFns (d : Dev) (f : Nat) : List Nat :=
  if f % 4096 = 0 then (List.range 4096).filterMap (fun k => if d.fnExists (f + k) then some (f + k) else none) else [f]

/-- Show how many functions are in FLR. -/
def Dev.showFlr (d : Dev) : Dev := d.wr HIF.FLRSTAT_ACTIVE 0 (d.hif.fns.filter (fun e => e.2.inFlr)).length

/-- A function enters its reset: its requests receive UR, its DMA is silenced, its controller stops fetching, its lines are
dropped, its set-ups are withdrawn (R409 steps 1 to 3, R420; 09 R236; 13 R364). -/
def Dev.flrEnter (d : Dev) (f : Nat) : Dev :=
  (((d.setFn f { d.fn f with inFlr := true }).silenceDma f).nvStop f).withdrawSetups f |>.dropLines (fun e => decide (e.2 = f))

/-- The ring contexts of a function are disabled and cleared, with all the device holds for them (R409 step 4; 16 R434). -/
def Dev.clearRings (d : Dev) (f : Nat) : Dev :=
  let mine := fun (k : Nat) => d.ownsRing f (k / 2 ^ 18) (k % 2 ^ 18)
  let out := (d.rng.rings.filter (fun e => mine e.1 && decide (e.2.st = .isolated))).length
  ({ d with rng := { d.rng with
    rings := d.rng.rings.filter (fun e => !mine e.1)
    cpls := d.rng.cpls.filter (fun e => !mine (ringKey kCq e.1))
    rxWait := d.rng.rxWait.filter (fun e => !mine (ringKey kRx e.1))
    left := d.rng.left.filter (fun e => !mine (ringKey kSub e.ring))
    ctxWait := if f % 4096 = 0 then d.rng.ctxWait.filter (fun e => decide (e.1 ≠ f / 4096)) else d.rng.ctxWait } }).wr RNG.STATUS_ISOLATED 0
      (d.rd RNG.STATUS_ISOLATED - out)

/-- A function is returned to its FLR state (R409 step 4): registers, rings, keys, session, connections, messages, and its
configuration space; its contracts and grants stay. -/
def Dev.flrFinish (d : Dev) (now : NetTime) (f : Nat) : Dev :=
  let pf := f % 4096 = 0
  let d1 := (d.clearRings f).withdrawAll now f
  let d2 : Dev := { d1 with
    regs := d1.regs.filter (fun e => !(fieldOf e.1).any (fun x => x.flrClears f (e.1 / 1024)))
    evt := if f = 0 then { d1.evt with recs0 := [] } else if f = 4096 then { d1.evt with recs1 := [] } else d1.evt
    sch := { d1.sch with waiting := if pf then d1.sch.waiting.filter (fun e => decide (e.1 ≠ f / 4096)) else d1.sch.waiting }
    acs := { d1.acs with waiting := if pf then d1.acs.waiting.filter (fun e => decide (e.1 / 4 ≠ f / 4096)) else d1.acs.waiting }
    mbx := { d1.mbx with work := d1.mbx.work.map (fun m => if m.sender = f then { m with prior := true } else m) } }
  let d3 := ((d2.cip.slots.filter (fun e => decide (e.2.owner = f))).map (fun e => e.1)).foldl Dev.zeroise d2
  let d4 := if pf then d3.endSession (f / 4096) else d3
  let conns := (d4.regs.filter (fun e => decide (e.1 % 1024 = STO.TCONN_STATE.id ∧ d4.rd STO.TCONN_POLDER (e.1 / 1024) = f))).map
    (fun e => e.1 / 1024)
  let d5 := conns.foldl (fun (y : Dev) c =>
    if y.offloaded c then y.failConn now c else y.wr STO.TCONN_STATE c 4) d4
  let d6 : Dev := { d5 with hif := { d5.hif with atc := d5.hif.atc.filter (fun e => decide (e.1 ≠ f))
                                                 xlWait := d5.hif.xlWait.filter (fun e => decide (e.1 ≠ f))
                                                 held := d5.hif.held.filter (fun e => decide (e.1 ≠ f)) } }
  ((((d6.setFn f {}).showAtc (linkOf f)).markPrior f).showFlr).showSent f

/-- INITIATE_FLR: a configuration write puts a function in FLR, a PF with its VFs; EVT 15.7 (R409). -/
def execInitiateFlr (fn : Fn) : State → Host.Outcome State Fault Refusal :=
  onDev (fun now d =>
    if !d.fnExists fn then d.urAnswer now fn
    else if (d.fn fn).inFlr || !d.ready (38 + linkOf fn) then d.send (.message 4 [fn])
    else
      let d1 := (d.resetFns fn).foldl (fun (y : Dev) f => if (y.fn f).inFlr then y else y.flrEnter f) d
      (((d1.showFlr).wr HIF.FLRSTAT_LASTFN 0 fn).bump HIF.FLRSTAT_COUNT).raise now (ev 15 7) 0 (some fn))

/-- FLR_COMPLETE: the function's state is returned, and configuration requests are answered again; EVT 15.8. A VF whose PF is in FLR
completes with it (R409, R421). -/
def execFlrComplete (fn : Fn) : State → Host.Outcome State Fault Refusal :=
  onDev (fun now d =>
    let pf := 4096 * linkOf fn
    if !(d.fn fn).inFlr || (decide (fn.val ≠ pf) && (d.fn pf).inFlr) then d
    else
      let fs := (d.resetFns fn).filter (fun f => (d.fn f).inFlr)
      let d1 := fs.reverse.foldl (fun (y : Dev) f => y.flrFinish now f) d
      (if fn.val = pf then d1.showExists (linkOf fn) else d1).raise now (ev 15 8) 0 (some fn))

/-- A link reset (R408): the PF and its VFs as by an FLR of the PF, configuration space to defaults, and the link retrains; its
ready bit clears and its groups reset (19 R500, R511). -/
def Dev.linkReset (d : Dev) (now : NetTime) (l : Nat) : Dev :=
  let fs := d.resetFns (4096 * l)
  let d1 := fs.foldl (fun (y : Dev) f => y.flrEnter f) d
  let d2 := (fs.reverse.foldl (fun (y : Dev) f => y.flrFinish now f) d1).showExists l
  let d3 := ([HIF.LSTAT_UP, HIF.LSTAT_FLIT, HIF.LSTAT_RATE, HIF.LSTAT_WIDTH, HIF.LSTAT_FIGURE] : List Fld).foldl
    (fun (y : Dev) f => y.wr f l 0) d2 |>.figureChanged (d2.rd HIF.LSTAT_FIGURE l) l
  let d4 := if l = 0 then (d3.wr HIF.CXLSTAT_CXL 0 0).wr HIF.CXLSTAT_CACHEEN 0 0 else d3
  let d5 : Dev := { d4 with hif := { d4.hif with inReset := put false d4.hif.inReset l true } }
  ([8 + l, 10 + l] : List Nat).foldl (fun (y : Dev) n => (y.wrBit CLK.RGSTAT_INRESET 0 n true).bump CLK.RGCNT_COUNT n)
    (d5.wrBit TOP.READY_BITS 0 (38 + l) false)

/-- LINK_RESET: PERST# asserted after power-on, Hot Reset or Link Disable (R408). The link goes down if it was up. -/
def execLinkReset (l : Fin 2) (perst : Bool) : State → Host.Outcome State Fault Refusal :=
  onDev (fun now d =>
    if !d.linkPresent l then d
    else
      let up := decide (d.rd HIF.LSTAT_UP l = 1)
      let d1 := d.linkReset now l
      let d2 : Dev := if perst then { d1 with hif := { d1.hif with perst := put false d1.hif.perst l false } } else d1
      if up then d2.raise now (linkEvent l) else d2)

/-- HOST_LINK_DOWN: a link that was up goes down, counted, with its event; its reset follows (R408, R422). -/
def execHostLinkDown (l : Fin 2) : State → Host.Outcome State Fault Refusal :=
  onDev (fun now d =>
    if d.rd HIF.LSTAT_UP l = 0 then d
    else ((d.linkReset now l).bump HIF.LDOWN_DOWN l).raise now (linkEvent l))

/-! ## Configuration requests and D0 -/

/-- VFs that come to exist find what was sent to them with PRIOR set, and their interrupt (17 R471). -/
def Dev.vfsEnabled (d : Dev) (l : Nat) (was : Nat → Bool) : Dev :=
  (d.mbx.inbox.map (fun e => e.1)).foldl (fun (y : Dev) f =>
    if f < 8192 ∧ linkOf f = l ∧ was f = false ∧ y.fnExists f = true then (y.markPrior f).inboxVector f else y) d

/-- The configuration dwords that the identities of 15 R396 fix, at the offsets of the PCIe 6.0 header: vendor and device ID of a
PF, revision and class code (a VF with the NVMe personality has its own, 09 R231), subsystem IDs. Every other dword is PCIe's to
fill, and reads as a free value (log entries 5, 34). -/
def Dev.configWord (d : Dev) (f dw : Nat) : Option Nat :=
  match dw with
  | 0 => if f % 4096 = 0 then some (d.rd HIF.ID_VID + 0x10000 * 0x1604) else none
  | 2 => some (d.rd HIF.ID_REV + 0x100 * (if (d.personaOf f).isSome then 0x10802 else 0x20000))
  | 11 => some (d.rd HIF.ID_SSVID + 0x10000 * d.rd HIF.ID_SSID)
  | _ => none

/-- CONFIG_REQUEST: a configuration request, type 0: UR where no function answers, RRS in FLR, else per PCIe 6.0
(R402, R408). Cache Enable is set here; its clearing is CACHE_ENABLE_CLEAR. -/
def execConfigRequest (fn : Fn) (req : CfgReq) : State → Host.Outcome State Fault Refusal :=
  onDev (fun now d =>
    if !d.fnExists fn then d.urAnswer now fn
    else if (d.fn fn).inFlr || !d.ready (38 + linkOf fn) then d.send (.message 4 [fn])
    else
      match req with
      | .read dw =>
        match d.configWord fn dw with
        | some v => d.send (.readData fn (BitVec.ofNat 64 v))
        | none => d.drawn.send (.readData fn (d.freeVal &&& 0xFFFFFFFF))
      | .cacheEnable =>
        if fn.val = 0 ∧ d.rd HIF.CXLSTAT_CXL = 1 then d.wr HIF.CXLSTAT_CACHEEN 0 1 else d
      | .tag10 _ | .tag14 _ => (d.setFn fn (cfgWrite req (d.fn fn))).showTags (linkOf fn)
      | .vfEnable _ _ =>
        if fn.val % 4096 = 0 then
          ((d.setFn fn (cfgWrite req (d.fn fn))).showExists (linkOf fn)).vfsEnabled (linkOf fn) (fun f => d.fnExists f)
        else d
      | .msixEnable _ | .msixMask _ => (d.setFn fn (cfgWrite req (d.fn fn))).sendPending fn
      | _ => d.setFn fn (cfgWrite req (d.fn fn)))

/-- D0_RETURN: a function returns to D0 with its state, and one interrupt if its inbox is not empty (15 R407; 17 R471). -/
def execD0Return (fn : Fn) : State → Host.Outcome State Fault Refusal :=
  onDev (fun now d =>
    if !d.fnExists fn then d.urAnswer now fn
    else if (d.fn fn).inFlr then d.send (.message 4 [fn])
    else if !(d.fn fn).d3hot then d
    else (d.setFn fn { d.fn fn with d3hot := false }).inboxVector fn)

end Sys2Proof.Machine
end

