-- ==== Sys2Proof/Machine/Tunnels.lean ====
section
/-! DEFINITION. The tunnel unit: templates and the three operations of TUN (09 R216 to R223). -/

namespace Sys2Proof.Machine

/-! ## Templates (R216, R217) -/

/-- A template by number. -/
def Dev.template (d : Dev) (n : Nat) : Template := look {} d.tmpl n

def Template.at (t : Template) (o : Nat) : Nat := (t.bytes.getD o 0).toNat
def Template.hlen (t : Template) : Nat := t.at 112
def Template.type (t : Template) : Nat := t.at 113
def Template.flag (t : Template) (b : Nat) : Bool := (t.at 114).testBit b
def Template.dpoff (t : Template) : Nat := t.at 115 * 4
def Template.mtu (t : Template) : Nat := leAt t.bytes 116 2
def Template.l3off (t : Template) : Nat := leAt t.bytes 118 2
def Template.l4off (t : Template) : Nat := leAt t.bytes 120 2
def Template.udp (t : Template) : Bool := decide (t.type = 1 ∨ t.type = 2)
def Template.gre (t : Template) : Bool := decide (t.type = 3)

/-- Where the GRE sequence field stands in HDR. -/
def Template.greSeq (t : Template) : Nat :=
  t.l4off + 4 + (if t.flag 4 then 4 else 0) + (if (t.at t.l4off).testBit 5 then 4 else 0)

/-- The bytes of a template's outer IP header. -/
def Template.ipLen (t : Template) : Nat := if t.flag 0 then 40 else t.at t.l3off % 16 * 4

/-- The bytes of a template's headers behind the outer IP header (R222). -/
def Template.tunLen (t : Template) : Nat :=
  if t.type = 1 then 16
  else if t.type = 2 then 16 + t.at (t.l4off + 8) % 64 * 4
  else if t.type = 3 then t.greSeq + (if t.flag 5 then 4 else 0) - t.l4off
  else 0

/-- Whether the tunnel header of a template is one that R222 supports: VXLAN with the I flag alone, Geneve of version 0, GRE of
version 0 without routing, whose checksum and sequence fields FLAGS names. -/
def Template.tunOk (t : Template) : Bool :=
  if t.type = 1 then decide (t.at (t.l4off + 8) = 8)
  else if t.type = 2 then decide (t.at (t.l4off + 8) / 64 = 0)
  else if t.type = 3 then
    decide (t.at (t.l4off + 1) % 8 = 0) && !(t.at t.l4off).testBit 6 && decide ((t.at t.l4off).testBit 7 = t.flag 4)
      && decide ((t.at t.l4off).testBit 4 = t.flag 5)
  else true

/-- Whether a template obeys the table of R216 and R222. TYPE 0h clears a template and has no headers to judge; a template of
TYPE 5h has no L3 or L4 header (log entry 18). -/
def Template.ok (t : Template) : Bool :=
  let proto := t.at (t.l3off + (if t.flag 0 then 6 else 9))
  decide (t.at 114 / 64 = 0) && (slice t.bytes 122 6).all (fun b => decide (b = 0)) && (decide (t.type = 0) ||
    (decide (14 ≤ t.hlen ∧ t.hlen ≤ 112 ∧ t.type ≤ 5 ∧ 64 ≤ t.mtu ∧ t.mtu ≤ 9596)
      && (if t.type = 5 then decide (t.l4off = 0)
          else decide (14 ≤ t.l3off ∧ t.at t.l3off / 16 = (if t.flag 0 then 6 else 4) ∧ 20 ≤ t.ipLen ∧ t.l3off + t.ipLen + t.tunLen ≤ t.hlen)
            && (if t.udp then decide (proto = 17) else if t.gre then decide (proto = 47) else decide (proto = 4 ∨ proto = 41))
            && decide (t.l4off = (if t.type = 4 then 0 else t.l3off + t.ipLen)) && t.tunOk
            && (!t.flag 3 || decide (t.type = 2 ∧ t.l4off + 20 ≤ t.dpoff ∧ t.dpoff + 8 ≤ t.hlen)))))

/-- The 128 bytes in TUN.TSTG. -/
def Dev.staged128 (d : Dev) : List Byte :=
  ((List.range 16).map (fun j => leBytes 8 (d.rd TUN.TSTG_DATA j))).flatten

/-- The staged template is committed whole with its counters set from HDR, or refused with EVT 9.0 (R216, R217). -/
def Dev.commitTemplate (d : Dev) (now : NetTime) (n : Nat) : Dev :=
  let t : Template := { bytes := d.staged128 }
  let d1 := d.wr TUN.TCMD_TMPL 0 n
  if !t.ok then d1.raise now (ev 9 0) n
  else
    let ver := fun (x : Template) => if x.type = 0 then 0 else 1
    let old := d1.template n
    let t1 := if t.type = 0 then {} else
      { t with idctr := beAt t.bytes (t.l3off + 4) 2, seqctr := if t.gre then beAt t.bytes t.greSeq 4 else 0 : Template }
    ({ d1 with tmpl := put {} d1.tmpl n t1 }).wr TUN.TSTATUS_VALID 0 (d1.rd TUN.TSTATUS_VALID + ver t1 - ver old)

/-- TEMPLATE_COMMIT (R216, R217). -/
def execTemplateCommit (n : Fin 16384) : State → Host.Outcome State Fault Refusal :=
  onDev (fun now d => d.commitTemplate now n)

/-! ## The operations (R218 to R223) -/

/-- What a TUN operation answers: status, new S, the bytes from it on, egress work, tag and PARSE. -/
structure TunResult where
  status : Nat
  s      : Nat
  bytes  : List Byte := []
  eg     : Egress := {}
  tag    : Option DupTag := none
  late   : Bool := false
  parse  : Nat := 0

/-- A result that leaves the packet as it is. -/
def Ctx.tunFail (c : Ctx) (status : Nat) : TunResult :=
  let p := c.pkt.getD {}
  { status := status, s := c.s, eg := p.egress, tag := p.tag, late := p.late, parse := p.parse }

/-- An offset of the parse descriptor of the packet at dispatch, as a header-buffer position (06 R145). -/
def Ctx.layer (c : Ctx) (i : Nat) : Option Nat :=
  let o := leAt (c.pkt.getD {}).desc (2 * i) 2
  if o = 0xFFFF ∨ c.pkt.isNone then none else some (128 + o)

/-- The header buffer as bytes by position. -/
def Ctx.buffer (c : Ctx) : List Byte := c.hdrBytes 0 c.e

/-- The protocol behind the IP header at a position, whose L4 header stands at another. -/
def l4Proto (bs : List Byte) (ip l4 : Nat) : Nat :=
  if ipV6 bs ip then
    match walkExt { bytes := bs, avail := bs.length, len := bs.length } {} 8 (ip + 40) (bs.getD (ip + 6) 0).toNat with
    | .inr (_, nh, _, _) => if l4 = 0 then 0 else nh
    | .inl _ => 0
  else (bs.getD (ip + 9) 0).toNat

/-- The innermost IP and L4 header of a packet: positions and protocol. -/
def Ctx.innermost (c : Ctx) : Option (Nat × Nat × Nat) :=
  let at_ := fun (a b : Option Nat) => match a, b with
    | some ip, some l4 => some (ip, l4, l4Proto c.buffer ip l4)
    | _, _ => none
  match c.layer 5 with
  | some ip => at_ (some ip) (c.layer 6)
  | none => at_ (c.layer 1) (c.layer 2)

/-- Encapsulate (R220). -/
def Ctx.encapsulate (c : Ctx) (t : Template) (sport : Nat) : TunResult :=
  let p := c.pkt.getD {}
  if t.type = 0 ∨ t.type = 5 then c.tunFail 1
  else if c.s < t.hlen then c.tunFail 2
  else
    let segh := match p.egress.l4 with
      | some (_, l4, _, _) => l4 + (c.hdrByte (l4 + 12)).toNat / 16 * 4 - c.s
      | none => 0
    let big := if p.egress.mss ≠ 0 then t.hlen + segh + p.egress.mss else t.hlen + p.len
    if t.mtu < big then c.tunFail 3
    else
      let len := p.len + t.hlen
      let b0 := t.bytes.take t.hlen
      let b1 := if t.flag 0 then put16 b0 (t.l3off + 4) (len - t.l3off - 40)
        else insertIp4 (put16 (put16 b0 (t.l3off + 2) (len - t.l3off)) (t.l3off + 4) t.idctr) t.l3off
      let ins := t.flag 0 || t.flag 1
      let b2 := if t.udp then
          let port := if sport ≠ 0 then sport else if t.flag 2 then 49152 + p.flow % 16384 else beAt b1 t.l4off 2
          put16 (put16 (put16 b1 t.l4off port) (t.l4off + 4) (len - t.l4off)) (t.l4off + 6) 0
        else b1
      let b3 := if t.gre && t.flag 5 then put32 b2 t.greSeq t.seqctr else b2
      let b4 := if t.flag 3 then fillDp b3 t.dpoff 0 (bitsOf (beAt b3 t.dpoff 4) 24 2) 0 else b3
      let s := c.s - t.hlen
      let eg := p.egress
      { status := 0, s := s, bytes := b4, tag := p.tag, late := p.late, parse := p.parse,
        eg := { eg with
          ips := (s + t.l3off) :: eg.ips
          udps := if t.udp then eg.udps ++ [(s + t.l3off, s + t.l4off, ins)] else eg.udps
          gres := if t.gre && t.flag 4 then eg.gres ++ [s + t.l4off] else eg.gres
          dp := if t.flag 3 then some (s + t.dpoff, (dpOption b4 t.dpoff).src) else eg.dp } }

/-- Whether a Geneve option is listed in TUN.KNOWNOPT. -/
def Dev.knownOpt (d : Dev) (cls type : Nat) : Bool :=
  (List.range 8).any (fun i => decide (d.rd TUN.KNOWNOPT_EN i = 1 ∧ d.rd TUN.KNOWNOPT_CLASS i = cls ∧ d.rd TUN.KNOWNOPT_TYPE i = type))

/-- The positions of the Geneve options of the tunnel header at a position (R221). -/
def Ctx.geneveAt (c : Ctx) (th : Nat) : List Nat :=
  let v : View := { bytes := c.buffer, avail := c.e, len := c.e }
  (geneveOpts v (th + 8 + (c.hdrByte th).toNat % 64 * 4) 64 (th + 8)).getD []

/-- The dual-path options among Geneve options: number and position of each. -/
def Dev.dpOpts (d : Dev) (c : Ctx) (opts : List Nat) : List (Nat × Nat) :=
  (opts.zipIdx.map (fun o => (o.2, o.1))).filter (fun o =>
    decide (beNat (c.hdrBytes o.2 2) = d.rd TUN.CFG_DPCLASS ∧ (c.hdrByte (o.2 + 2)).toNat = d.rd TUN.CFG_DPTYPE))

/-- Whether a dual-path option is usable (R223). -/
def usableDp (bs : List Byte) (o : Nat) : Bool :=
  let q := dpOption bs (o + 4)
  decide ((bs.getD (o + 3) 0).toNat % 32 = 2 ∧ q.ver = 0 ∧ q.path ≠ 3 ∧ q.pair < 2)

/-- Decapsulate (R221). A tunnel with no inner Ethernet and no inner IP header cannot be decapsulated (log entry 18). -/
def Dev.decapsulate (d : Dev) (c : Ctx) (t : Template) (verify : Bool) : TunResult :=
  let p := c.pkt.getD {}
  let buf := c.buffer
  let frame := buf.drop c.s ++ p.tail
  let il2 := c.layer 4
  let il3 := c.layer 5
  let opts := match c.layer 3 with
    | some th => if bitsOf p.parse 10 3 = 2 then c.geneveAt th else []
    | none => []
  let dps := d.dpOpts c opts
  let outerBad := match c.layer 1 with
    | some ip => !ipV6 buf ip && decide (sumOf 0 (slice buf ip ((c.hdrByte ip).toNat % 16 * 4)) ≠ 65535)
    | none => false
  let udpBad := match c.layer 1, c.layer 2 with
    | some ip, some l4 => verify && decide (bitsOf p.parse 10 3 = 1 ∨ bitsOf p.parse 10 3 = 2)
        && decide (beAt buf (l4 + 6) 2 ≠ 0) && decide (l4Sum frame (ip - c.s) (l4 - c.s) 17 ≠ 65535)
    | _, _ => false
  let routed := decide (bitsOf p.parse 10 3 = 3) && (c.layer 3).any (fun th => (c.hdrByte th).toNat.testBit 6)
  let bare := il2.isNone && il3.isSome
  if bare ∧ t.type ≠ 5 then c.tunFail 1
  else if bare ∧ c.s < t.hlen then c.tunFail 2
  else if !p.parse.testBit 9 ∨ c.s ≠ 128 ∨ routed ∨ c.e < (il2.or il3).getD (c.e + 1) then c.tunFail 4
  else if outerBad || udpBad then c.tunFail 5
  else if opts.any (fun o => (c.hdrByte (o + 2)).getLsbD 7 && !d.knownOpt (beNat (c.hdrBytes o 2)) (c.hdrByte (o + 2)).toNat) then c.tunFail 6
  else if p.parse.testBit 7 then c.tunFail 9
  else
    let (s, bytes) := match il2 with
      | some o => (o, [])
      | none =>
        let ip := il3.getD 0
        (ip - t.hlen, put16 (t.bytes.take t.hlen) (t.hlen - 2) (if ipV6 buf ip then 0x86DD else 0x0800))
    let (status, tag, late) := match dps with
      | [] => (0, none, false)
      | [(i, o)] =>
        let q := dpOption buf (o + 4)
        if usableDp buf o then (0, some ⟨q.src, q.seq, q.pair, q.path⟩, decide (8 ≤ i)) else (7, none, false)
      | _ => (7, none, false)
    { status := status, s := s, bytes := bytes, eg := p.egress, tag := tag, late := late, parse := setBit p.parse 9 false }

/-- Mark (R218, R225): checksum insertion and segmentation at egress. -/
def Ctx.mark (c : Ctx) (a : Nat) : TunResult :=
  let p := c.pkt.getD {}
  let mss := a % 16384
  let inner := c.innermost
  let proto := (inner.map (fun x => x.2.2)).getD 0
  if (mss ≠ 0 ∧ (mss < 256 ∨ 9000 < mss ∨ proto ≠ 6)) ∨ 262144 < p.len ∨ (a.testBit 16 ∧ proto ≠ 6 ∧ proto ≠ 17) then c.tunFail 8
  else if p.parse.testBit 7 then c.tunFail 9
  else
    let tun := p.parse.testBit 9
    let udp := match c.layer 1, c.layer 2 with
      | some ip, some l4 => if tun ∧ (bitsOf p.parse 10 3 = 1 ∨ bitsOf p.parse 10 3 = 2) then [(ip, l4, a.testBit 17)] else []
      | _, _ => []
    let ips := ((if tun then (c.layer 1).toList else []) ++ (inner.map (fun x => x.1)).toList).filter (fun i => !p.egress.ips.contains i)
    { c.tunFail 0 with
      eg := { p.egress with
        mss := mss
        ips := p.egress.ips ++ ips
        udps := if p.egress.udps.isEmpty then udp else p.egress.udps.map (fun u => (u.1, u.2.1, u.2.2 || a.testBit 17))
        l4 := inner.map (fun x => (x.1, x.2.1, x.2.2, a.testBit 16)) } }

/-- The value of a TUN result: status in [7:0], the signed change of S in [31:16] under status 00h or 07h. -/
def TunResult.value (r : TunResult) (s : Nat) : Word :=
  BitVec.ofNat 64 (r.status + (if r.status = 0 ∨ r.status = 7 then unsignedOf ((r.s : Int) - s) 16 * 2 ^ 16 else 0))

/-- Issue a TUN operation: count its status, and hold its result for the ticket (R218, R240). -/
def Dev.tunIssue (d : Dev) (x rd ra k : Nat) (op : Ctx → Dev × TunResult) : Dev :=
  d.async x k { regs := [rd, ra], header := true } (fun c =>
    let (d1, r) := op c
    let d2 := if r.status = 0 then d1 else (d1.bump TUN.ERR_COUNT).wr TUN.ERR_LAST 0 r.status
    let d3 := if r.status = 7 then d2.bump TUN.DPIGN_COUNT else d2
    .ok (d3, { rd := rd, header := true, pend := .toHeader (r.value c.s) r.s r.bytes r.eg r.tag r.late r.parse }))

/-- TUN, encapsulate (R220). The counters of the template advance with each use. -/
def execTunEncapsulate (x : CtxId) (rd ra : Reg) (k : Tick) : State → Host.Outcome State Fault Refusal :=
  onDev (fun _ d => d.tunIssue x rd ra k (fun c =>
    let a := (c.rg ra).toNat
    let t := d.template (a % 16384)
    let r := c.encapsulate t (bitsOf a 16 16)
    if r.status = 0 then
      let t1 := { t with idctr := if t.flag 0 then t.idctr else (t.idctr + 1) % 65536
                         seqctr := if t.gre && t.flag 5 then (t.seqctr + 1) % 2 ^ 32 else t.seqctr }
      (({ d with tmpl := put {} d.tmpl (a % 16384) t1 }).bump TUN.ENCAP_COUNT, r)
    else (d, r)))

/-- TUN, decapsulate (R221, R222). -/
def execTunDecapsulate (x : CtxId) (rd ra : Reg) (k : Tick) : State → Host.Outcome State Fault Refusal :=
  onDev (fun _ d => d.tunIssue x rd ra k (fun c =>
    let a := (c.rg ra).toNat
    let r := d.decapsulate c (d.template (a % 16384)) (a.testBit 16)
    (if r.status = 0 ∨ r.status = 7 then d.bump TUN.DECAP_COUNT else d, r)))

/-- TUN, mark (R218). -/
def execTunMark (x : CtxId) (rd ra : Reg) (k : Tick) : State → Host.Outcome State Fault Refusal :=
  onDev (fun _ d => d.tunIssue x rd ra k (fun c => (d, c.mark (c.rg ra).toNat)))

end Sys2Proof.Machine
end

