-- ==== Sys2Proof/Machine/Registers.lean ====
section
/-! DEFINITION. Register accesses: the writes and reads of BAR0 and BAR2 by host functions (00 R12 to R16; 15 R402; 19 R502; 23
R564 to R567), the device registers of the control cores (03 R86), and the TABLES service (17 R466). -/

namespace Sys2Proof.Machine

/-! ## What a write stores -/

/-- The fields that read 1h after a write of 0h. -/
def zeroIsOne : List Nat :=
  ([ENG.CFG_STALL_LIM, PRT.PREEMPT_VTIME, DSP.CFG_SLOWCLR, DSP.CFG_OFAIR, CIP.CFG_RCORES, SLU.TCTL_PPSW, DMA.CFG_AGE,
    DUP.QCFG_RSYNC] : List Fld).map (fun f => f.id)

/-- The limit of a signed user offset, in units of its field (19 R513). -/
def offsetLimit (f : Fld) : Option Nat :=
  (([(CAL.TXU_C2, 4), (CAL.TXU_C1, 8), (CAL.TXU_C0, 8), (CAL.TXU_CP1, 8), (CAL.TXU_CTLE, 8), (CAL.TSU_RXU, 50 * 65536),
    (CAL.TSU_TXU, 50 * 65536), (CAL.TM_USER, 32), (CAL.VM_USER, 5)] : List (Fld × Nat)).find? (fun e => decide (e.1.id = f.id))).map
    (fun e => e.2)

/-- A number limited to a range. -/
def within (lo hi x : Int) : Int := if x < lo then lo else if hi < x then hi else x

/-- What a user offset is stored as (R514). -/
def storedOffset (f : Fld) (v : Nat) : Nat :=
  match offsetLimit f with
  | some n => unsignedOf (within (-(n : Int)) n (signedOf v f.w)) f.w
  | none => v

/-- The factory value, the effective value and its range that a user offset goes with (R513): a tap's range is unsigned, the other
values have the range of their signed format. -/
def effectOf (f : Fld) : Option (Fld × Fld × Int × Int) :=
  (([(CAL.TXU_C2, CAL.TXF_C2, CAL.TXE_C2, 0, 8), (CAL.TXU_C1, CAL.TXF_C1, CAL.TXE_C1, 0, 24), (CAL.TXU_C0, CAL.TXF_C0, CAL.TXE_C0, 24, 63),
    (CAL.TXU_CP1, CAL.TXF_CP1, CAL.TXE_CP1, 0, 24), (CAL.TXU_CTLE, CAL.TXF_CTLE, CAL.TXE_CTLE, 0, 31),
    (CAL.TSU_RXU, CAL.TSF_RXF, PRT.TSLAT_RXEFF, -2 ^ 31, 2 ^ 31 - 1), (CAL.TSU_TXU, CAL.TSF_TXF, PRT.TSLAT_TXEFF, -2 ^ 31, 2 ^ 31 - 1),
    (CAL.TM_USER, CAL.TM_FACT, CAL.TM_EFF, -2 ^ 11, 2 ^ 11 - 1), (CAL.VM_USER, CAL.VM_FACT, CAL.VM_EFF, -2 ^ 9, 2 ^ 9 - 1)] :
    List (Fld × Fld × Fld × Int × Int)).find? (fun e => decide (e.1.id = f.id))).map (fun e => e.2)

/-- Factory value plus stored offset, before it is limited to the effective range. -/
def Dev.offsetSum (d : Dev) (f : Fld) (j v : Nat) : Int :=
  match effectOf f with
  | some (fact, _, lo, _) => (if 0 ≤ lo then (d.rd fact j : Int) else signedOf (d.rd fact j) fact.w) + signedOf (storedOffset f v) f.w
  | none => 0

/-- Whether a write of a user offset is clamped, itself or in its effect (R514). -/
def Dev.offsetClamped (d : Dev) (f : Fld) (j v : Nat) : Bool :=
  match effectOf f with
  | some (_, _, lo, hi) => decide (storedOffset f v ≠ v) || decide (within lo hi (d.offsetSum f j v) ≠ d.offsetSum f j v)
  | none => false

/-- The bits that the entries of a packed field have; the others are reserved and read zero (06 R169; 07 R195; 12 R335). -/
def packedMask (f : Fld) : Option Nat :=
  if f.id = ACS.PSEL_SEL.id then some 0x9F9F9F9F9F9F9F9F
  else if f.id = ACS.PSEL_SELHI.id then some 0x9F9F9F9F9F9F9F
  else if f.id = FWD.AREA_BASE.id then some 0x1F1F1F1F
  else if f.id = SLU.CMAX0_CMAX.id ∨ f.id = SLU.CMAX1_CMAX.id then some 0x3FFF3FFF3FFF3FFF
  else none

/-- The value that a write of `v` stores in an RW field, by who writes (none: the control cores): limits and clamps of the field's
rule (02 R56; 05 R121, R128, R129; 06 R169; 10 R279, R280; 19 R514). -/
def Dev.stored (d : Dev) (who : Option Nat) (f : Fld) (j v : Nat) : Nat :=
  if zeroIsOne.contains f.id && decide (v = 0) then 1
  else if f.id = CIP.CFG_RCORES.id then min v 8
  else if f.id = ENG.CFG_MAXCTX.id then min v 4
  else if f.id = PRT.MAXLEN_LEN.id then max 1518 (min v 9600)
  else if f.id = PRT.TXCT_BASE.id then max 64 (min v (d.rd PRT.MAXLEN_LEN j))
  else if f.id = PRT.TXCT_EXPTHR.id then max 64 (min v 2048)
  else if f.id = KEY.TPOL_DROP.id then (if who.all (fun fn => decide (j / 64 = fn / 4096)) then v else d.rd f j)
  else if f.id = ACS.PDEF_ACT.id then (if who.isSome then setBits v 32 20 (bitsOf (d.rd f j) 32 20) else v)
  else match packedMask f with
    | some m => v &&& m
    | none => storedOffset f v

/-! ## What a write does -/

/-- Whether the link of the port that has a lane is up. -/
def Dev.laneUp (d : Dev) (x : Nat) : Bool := (List.range 16).any (fun n => decide (n ≤ x ∧ x < n + d.portLanes n) && d.linkUp n)

/-- What follows from a field that held `old` and now holds `v`. -/
def Dev.afterStore (d : Dev) (now : NetTime) (f : Fld) (j old v : Nat) : Dev :=
  if f.id = PRT.CTL_EN.id then
    (if old = v then d
    else
      let d1 := d.commit [(2, j / 4)]
      if v = 0 ∧ d.linkUp j = true then d1.linkFalls now j else d1)
  else if f.id = PRT.TXCT_BASE.id then d.setPort j { d.port j with newBase := true }
  else if f.id = MBX.IRQ_EN.id then (if old = 0 ∧ v = 1 then d.inboxVector j else d)
  else if f.id = HIF.CFG_TAGADM.id ∨ f.id = HIF.CFG_TAGCTL.id then (d.showTags 0).showTags 1
  else if f.id = DUP.ILK_PRIO.id then (if old ≠ v ∧ d.rd DUP.ILK_ROLE = 2 then d.wr DUP.ILK_ROLE 0 0 else d)
  else match effectOf f with
    | some (_, eff, lo, hi) =>
      if 0 ≤ lo then (if d.laneUp j then d.wr CAL.TXE_PEND j 1 else d)
      else d.wr eff j (unsignedOf (within lo hi (d.offsetSum f j v)) eff.w)
    | none =>
      match objectOf f j with
      | some o =>
        if o.1 = 4 then
          let d1 : Dev := { d with dup := { d.dup with undone := d.dup.undone.filter (fun x => decide (x ≠ j)) } }
          (if old = v then d1 else d1.commit [o]).showPaths now
        else if old = v then d else (d.commit [o]).showPaths now
      | none => d

/-- A field takes a value. -/
def Dev.store_ (d : Dev) (now : NetTime) (who : Option Nat) (f : Fld) (j v : Nat) : Dev :=
  (d.wr f j (d.stored who f j v)).afterStore now f j (d.rd f j) (d.stored who f j v)

/-- Whether an RWL field is locked: its block has committed (R12, R13; 02 R38; 19 R516). -/
def Dev.locked (d : Dev) (f : Fld) : Bool :=
  decide (f.acc = .rwl) && (if f.off < 0x200000 then decide (d.rd CAL.STATUS_COMMITTED = 1) else decide (d.rd ENG.STATUS_COMMITTED = 1))

/-- The configuration fields that the control cores write and a host reads (07 R195, R196; 09 R240, R241; 12 R335; 14 R391; 16 R454,
R455; 18 R499; 20 R541). The fields of a table descriptor are written by TABLE_DESCRIPTOR. -/
def controlFields : List Nat :=
  ([FWD.CFG_TICK, FWD.AREA_BASE, FWD.AREA_CONNBASE, FWD.IPROF_DKEY, FWD.IPROF_DTABLE, FWD.IPROF_LEARN, FWD.IPROF_LKEY, FWD.IPROF_LTABLE,
    LRN.CFG_SETTLE, LRN.POLICY_MOVELIM, LRN.POLICY_MOVEWIN, LRN.POLICY_DAMPTIME, LRN.POLICY_SPREAD, LRN.LRING_SIZE, LRN.LRING_BASE,
    LRN.LHEAD_INDEX, LRN.LHEAD_WRAP, LRN.ARING_SIZE, LRN.ARING_BASE, LRN.AHEAD_INDEX, LRN.AHEAD_WRAP, LRN.CRING_SIZE, LRN.CRING_BASE,
    LRN.CHEAD_INDEX, LRN.CHEAD_WRAP, TUN.CFG_DPCLASS, TUN.CFG_DPTYPE, TUN.KNOWNOPT_CLASS, TUN.KNOWNOPT_TYPE, TUN.KNOWNOPT_EN,
    TUN.TSTG_DATA, STO.TCPCFG_RTOMIN, STO.TCPCFG_MAXRETX, STO.CNPINT_US] ++
   [SCH.POOL_ADMRES, SLU.TCTL_OWNER, SLU.PCTL_MODE, SLU.PCTL_FSET, SLU.PCTL_LENAWARE, SLU.CMAX0_CMAX, SLU.CMAX1_CMAX, SLU.CBASELO_NS,
    SLU.CBASEHI_SEC, SLU.CCYCLE_CYCLE, SLU.CCYCLE_LEN, SLU.CENT_ENTRY, SLU.FABASELO_NS, SLU.FABASEHI_SEC, SLU.FACYCLE_CYCLE,
    SLU.FACYCLE_LEN, SLU.FAEXT_EXT, SLU.FAENT_ENTRY, DUP.CFG_HBINT, DUP.CFG_HBCLASS, DUP.CFG_RXSTRIP, DUP.CFG_TXSTRIP, DUP.CFG_FORGET,
    DUP.CFG_SIZE, DUP.CFG_GLIM, DUP.SRCAREA_TABBASE, DUP.SRCAREA_WINBASE, DUP.PRP_TABLE, DUP.PRP_PRPBASE, DUP.PRP_EN, DUP.HBDA_DA,
    DUP.HBSA_SA, DUP.QCFG_QTHR, DUP.QCFG_QEXIT, DUP.QCFG_QHOLD, DUP.QCFG_RSYNC, DUP.QCFG_RSMAX] ++
   [DUP.PAIR_PORT1, DUP.PAIR_PORT2, DUP.PAIR_EN, DUP.ILK_EN, DUP.ILK_PRIO, DUP.ILKID_ID, DUP.ILKPARTNER_ID, DUP.PXRANGE_BASE,
    DUP.PXRANGE_KIND, DUP.PXRANGE_COUNT, DUP.PXRANGE_EN, DUP.HBPEER_ID, RNG.CFG_ISOLMS, RNG.CFG_FETCH, DMA.LTPROF_W, DMA.LTPROF_E,
    DMA.LTPROF_PACKED, DMA.LTPROF_EN, ACS.BANKOWN0_OWN, ACS.BANKOWN1_OWN, DKW.PACT_ACT, MGT.NCSIQ_QUEUE, MGT.NCSIQ_EN, MGT.XRING_SIZE,
    MGT.XRING_BASE, MGT.XHEAD_INDEX, MGT.XHEAD_WRAP, MGT.XDATA_BASE, MGT.TRING_SIZE, MGT.TRING_BASE, MGT.THEAD_INDEX, MGT.THEAD_WRAP] :
    List Fld).map (fun f => f.id)

/-- Whether a list setting cannot be written now: a compact list while it runs or waits (12 R319, R331), and the administrative list
of a set while a change of its port waits or is being copied back (R330). -/
def Dev.listHeld (d : Dev) (f : Fld) (j : Nat) : Bool :=
  let compact := fun (p : Nat) => decide (d.rd SLU.PSTAT_STATE p = 1) || decide (d.rd SLU.PSTAT_PENDING p = 1 ∧ d.rd SLU.PCTL_MODE p = 1)
  let full := fun (s : Nat) => (List.range 16).any (fun p => decide (d.rd SLU.PCTL_FSET p = s ∧ d.rd SLU.PCTL_MODE p = 2) &&
    (decide (d.rd SLU.PSTAT_PENDING p = 1) || decide (d.rd SLU.PSTAT_COPYING p = 1)))
  if f.id = SLU.CENT_ENTRY.id then compact (j / 64)
  else if (([SLU.CBASELO_NS, SLU.CBASEHI_SEC, SLU.CCYCLE_CYCLE, SLU.CCYCLE_LEN] : List Fld).map (fun g => g.id)).contains f.id then compact j
  else if f.id = SLU.FAENT_ENTRY.id then full (j / 4096)
  else if (([SLU.FABASELO_NS, SLU.FABASEHI_SEC, SLU.FACYCLE_CYCLE, SLU.FACYCLE_LEN, SLU.FAEXT_EXT] : List Fld).map (fun g => g.id)).contains f.id
    then full j
  else false

/-- The blocks that only PF 0 writes (19 R521; 20 R541, R542). -/
def onlyPf0 (off : Nat) : Bool := (blockAt off).any (fun b => decide (b.1 = 0x100000 ∨ b.1 = 0xC000000 ∨ b.1 = 0xC800000))

/-- The registers that only the owner of network time writes (12 R312). -/
def ownerOnly (off : Nat) : Bool :=
  ([SLU.TSETLO_NS, SLU.TSETHI_SEC, SLU.TOFF_OFF, SLU.TRATE_RATE, SLU.TCMD_OP, SLU.TCTL_PPSW, SLU.PTPCFG_OSMODE] : List Fld).any
    (fun f => (f.indexAt off).isSome)

/-- One field under its access code (R12). The control cores write the fields of `controlFields`, and RW fields where no physical
function alone writes them. -/
def Dev.putField (d : Dev) (now : NetTime) (who : Option Nat) (f : Fld) (j v : Nat) : Dev :=
  match f.acc with
  | .rw =>
    if f.id = EVT.MASK_BITS.id then d.setMask (j / 16) (j % 16) v
    else if f.id = SLU.TRATE_RATE.id then (if who.isSome then d.setRate (BitVec.ofNat 32 v) else d)
    else if f.id = PGM.CNTSEL_KIND.id then d.selectCount j v (d.rd PGM.CNTSEL_INDEX j)
    else if f.id = PGM.CNTSEL_INDEX.id then d.selectCount j (d.rd PGM.CNTSEL_KIND j) v
    else if who.isNone && (onlyPf0 f.off || ownerOnly f.off) then d
    else d.store_ now who f j v
  | .rw1c => d.wr f j (d.rd f j - (d.rd f j &&& v))
  | .rw1s => d.wr f j (d.rd f j ||| v)
  | .rwl => if d.locked f || (who.isNone && onlyPf0 f.off) then d else d.store_ now who f j v
  | .ro => if who.isNone && controlFields.contains f.id && !d.listHeld f j then d.store_ now who f j v else d
  | .rc | .rp | .wo => d

/-- The fields that a write touches, each with its instance and the value it would hold: bits `lo` to `lo` + `w` − 1 of the register
take `data`. -/
def Dev.written (d : Dev) (who : Option Nat) (off lo w data : Nat) : List (Fld × Nat × Nat) :=
  (fieldsAt off).filterMap (fun e =>
    if e.1.lo + e.1.w ≤ lo ∨ lo + w ≤ e.1.lo then none
    else (e.1.instanceOf who e.2).map (fun j =>
      let base := if e.1.acc = .rw1c ∨ e.1.acc = .rw1s then 0 else d.rd e.1 j * 2 ^ e.1.lo
      (e.1, j, bitsOf (setBits base lo w data) e.1.lo e.1.w)))

/-- Whether a port block ignores a write: its port is not created, or it is not the lowest of its group and the register is
PRT.MODE; PRT.MODE of a group's lowest port always answers (05 R112), but reads 4h whatever is written while the group is joined to
the one below (05 R113). -/
def Dev.portIgnores (d : Dev) (off : Nat) : Bool :=
  let n := (off - 0x1000000) / 0x10000
  let mode := decide (off % 0x10000 = 8)
  decide (0x1000000 ≤ off ∧ off < 0x1100000) && (if n % 4 = 0 then (if mode then decide (n % 8 = 4 ∧ d.groupMode (n / 4) = 4) else !d.portExists n) else !d.portExists n || mode)

/-- The shares of a write of MGT.CCSHARE add up to more than 60 % (20 R527). -/
def shareSum (ws : List (Fld × Nat × Nat)) (d : Dev) : Nat :=
  (([MGT.CCSHARE_MBOX, MGT.CCSHARE_LEARN, MGT.CCSHARE_EXC] : List Fld).map (fun f =>
    ((ws.find? (fun e => decide (e.1.id = f.id))).map (fun e => e.2.2)).getD (d.rd f))).sum

/-- The command that a write of ACS.CMD spells, from the bits that it writes (06 R164, R169). The verification of a search that is started
so finds nothing; ACS_SEARCH and ACS_NEXT carry what it finds (log entry 29). -/
def acsCmdOf (lo w data : Nat) : AcsCmd :=
  let x := setBits 0 lo w data
  { op := bitsOf x 0 4, width := bitsOf x 4 2, bank := bitsOf x 16 6, profile := bitsOf x 24 5, index := bitsOf x 32 11 }

/-- The command that a write of SCH.NCMD spells (11 R309, R310). -/
def nodeCmdOf (lo w data : Nat) : NodeCmd :=
  let x := setBits 0 lo w data
  { op := bitsOf x 0 2, lvl := bitsOf x 4 3, node := bitsOf x 32 18 }

/-- The command that a write of RNG.CCMD spells (16 R433, R454). -/
def ctxCmdOf (lo w data : Nat) : CtxCmd :=
  let x := setBits 0 lo w data
  { op := bitsOf x 0 3, kind := bitsOf x 4 2, ring := bitsOf x 32 18 }

/-- A write to a register of a block that is ready, by a function or (none) the control cores: aligned offset, first bit, width,
data. -/
def Dev.busWrite (d : Dev) (now : NetTime) (who : Option Nat) (off lo w data : Nat) : Dev :=
  let ws := d.written who off lo w data
  let pf0 := decide (who = some 0)
  if d.portIgnores off then d
  else if let some pipe := ACS.CMD_OP.indexAt off then
    (if lo = 0 then d.acsCommand now (writerOf ((who.map (fun fn => fn / 4096)).getD 2)) pipe (acsCmdOf lo w data) else d)
  else if off = SCH.NCMD_OP.off then
    (if lo = 0 then d.nodeCommand (writerOf ((who.map (fun fn => fn / 4096)).getD 2)) (nodeCmdOf lo w data) else d)
  else if off = RNG.CCMD_OP.off then
    (if lo = 0 then d.ctxPost (writerOf ((who.map (fun fn => fn / 4096)).getD 2)) (ctxCmdOf lo w data) else d)
  else if onlyPf0 off && who.isSome && !pf0 then (if ws.any (fun e => d.locked e.1) then d.raise now (ev 0 14) (off % 2 ^ 28) who else d)
  else if ownerOnly off && who.any (fun fn => !d.ownsTime (fn / 4096)) then d.notOwner now ((who.getD 0) / 4096)
  else if ws.any (fun e => d.locked e.1) then
    (ws.foldl (fun (y : Dev) e => y.putField now who e.1 e.2.1 e.2.2) d).raise now (ev 0 14) (off % 2 ^ 28) who
  else if off = MGT.CCSHARE_MBOX.off then
    (if pf0 then
      (if 60 < shareSum ws d then d.wr MGT.CCSHARE_ERR 0 1
      else (ws.foldl (fun (y : Dev) e => y.putField now who e.1 e.2.1 e.2.2) d).wr MGT.CCSHARE_ERR 0 0)
    else d)
  else
    let d1 := ws.foldl (fun (y : Dev) e => y.putField now who e.1 e.2.1 e.2.2) d
    if who.isSome && ws.any (fun e => d.offsetClamped e.1 e.2.1 e.2.2) then (d1.wr CAL.STATUS_CLAMPED 0 1).raise now (ev 1 4) else d1

/-! ## Reads -/

/-- What a register of a port block shows: reset values where the port is not created; the group's mode in force, and the STATE of
the lowest port, in PRT.MODE of a port that is not the lowest (05 R112). -/
def Dev.portWord (d : Dev) (now : NetTime) (who : Option Nat) (off : Nat) : Nat :=
  let n := (off - 0x1000000) / 0x10000
  if off % 0x10000 = 8 ∧ n % 4 = 0 then d.wordAt now who off
  else if !d.portExists n then d.resetWord now who off
  else if off % 0x10000 = 8 then d.groupMode (n / 4) + d.rd PRT.MODE_STATE (n / 4 * 4) * 2 ^ PRT.MODE_STATE.lo
  else d.wordAt now who off

/-- The RC fields of a register that a read of some of its bits clears, keeping nothing of their count (R12, R15). DESIGN CHOICE (log
entry 29): a PF's read of a VIR record of the other family, which reads zero, clears nothing. -/
def Dev.clearRead (d : Dev) (who : Option Nat) (off lo w : Nat) : Dev :=
  if otherFamily who off then d
  else (fieldsAt off).foldl (fun (y : Dev) e =>
    match e.1.instanceOf who e.2 with
    | some j => if e.1.acc = .rc ∧ lo < e.1.lo + e.1.w ∧ e.1.lo < lo + w then y.wr e.1 j 0 else y
    | none => y) d

/-- A read of a register of a block that is ready: bits `lo` to `lo` + `w` − 1 at an aligned offset. The answer is the whole register.
Reads with a row of their own take the same effect here. -/
def Dev.busRead (d : Dev) (now : NetTime) (who : Option Nat) (off lo w : Nat) : Dev × Nat :=
  if off = EVT.RECA_SOURCE.off then
    (match who with
    | some fn => ((d.takeRecord (fn / 4096)).1, (d.takeRecord (fn / 4096)).2.toNat)
    | none => (d, 0))
  else if off = SLU.TNOWLO_NS.off then
    (match who with
    | some fn => (d.drawn.wr SLU.TNOWHI_SEC (fn / 4096) (d.readTime now).sec, (d.readTime now).lowWord)
    | none => (d.drawn, (d.readTime now).lowWord))
  else if off = CIP.RANDCC_VALUE.off then ((d.takeRandom now).1, (d.takeRandom now).2.toNat)
  else match SLU.TXTSA_MARK.indexAt off with
    | some p => ((d.takeTwoStep p).1, (d.takeTwoStep p).2.toNat)
    | none =>
      if 0x1000000 ≤ off ∧ off < 0x1100000 then
        (if d.portExists ((off - 0x1000000) / 0x10000) then d.clearRead who off lo w else d, d.portWord now who off)
      else (d.clearRead who off lo w, d.wordAt now who off)

/-! ## BAR2: the MSI-X table and PBA (15 R406; 23 R567) -/

/-- Where the PBA starts: the middle of the window. -/
def pbaBase (fn : Nat) : Nat := if fn % 4096 = 0 then 0x8000 else 0x800

/-- The 8-byte word at an aligned offset of BAR2; what lies beyond the table size reads zero. -/
def Dev.msixWord (d : Dev) (fn off : Nat) : Nat :=
  let n := d.rd VIR.PVEC_VECTORS fn
  let x := d.fn fn
  if off < pbaBase fn then
    let e := look {} x.vecs (off / 16)
    if n ≤ off / 16 then 0 else if off % 16 = 0 then e.addr else e.data + bitNat e.masked * 2 ^ 32
  else ((List.range 64).map (fun b =>
    let v := (off - pbaBase fn) * 8 + b
    if v < n ∧ look false x.pba v = true then 2 ^ b else 0)).sum

/-- A write to BAR2: an entry of the table takes it; the PBA is read-only, as PCI Express has it. -/
def Dev.msixWrite (d : Dev) (fn off lo w data : Nat) : Dev :=
  if pbaBase fn ≤ off ∨ d.rd VIR.PVEC_VECTORS fn ≤ off / 16 then d
  else
    let e := look {} (d.fn fn).vecs (off / 16)
    let v := setBits (d.msixWord fn off) lo w data
    d.setVec fn (off / 16) (if off % 16 = 0 then { e with addr := v } else { e with data := v % 2 ^ 32, masked := v.testBit 32 })

/-! ## Requests of host functions (15 R402) -/

/-- Whether a memory request of a function for an offset reaches its target: as R402 and R410 say; the TOP block of a PF answers
before the host-link ready bit sets. -/
def Dev.answersAt (d : Dev) (fn : Nat) (bar : Bar) (off : Nat) : Bool :=
  let x := d.fn fn
  d.memAnswers fn || (d.fnExists fn && x.memEnable && !x.d3hot && !x.inFlr && decide (bar = .bar0 ∧ fn % 4096 = 0 ∧ off < 0x10000))

/-- A write other than an 8-byte one to a doorbell page: discarded, counted, EVT 15.11 at most once per second (R402). -/
def Dev.dropDoorbell (d : Dev) (now : NetTime) (fn : Nat) : Dev :=
  (d.bump HIF.DBDROP_COUNT (linkOf fn)).raiseSec now (ev 15 11) (linkOf fn) (linkOf fn) (some fn)

/-- Where the registers of a virtual function's window lie in the map of a physical function (R566): its mailbox, without the secure
registers, and its own polder record. -/
def vfTarget (fn off : Nat) : Option Nat :=
  if 0x10000 ≤ off ∧ off < 0x10200 then some (0xB000000 + (off - 0x10000))
  else if 0x11000 ≤ off ∧ off < 0x11068 then some (0xA100000 + 0x80 * fn + (off - 0x11000))
  else none

/-- A write of 4 or 8 bytes, naturally aligned, to BAR0 of a physical function. -/
def Dev.pfWrite (d : Dev) (now : NetTime) (fn off n data : Nat) : Dev :=
  if isDoorbell off then
    (if n = 8 ∧ off % 8 = 0 then d.doorbell now fn ((off - 0x8800000) / 8) (BitVec.ofNat 64 data) else d.dropDoorbell now fn)
  else if off % n ≠ 0 ∨ (blockAt off).isNone = true then d.urAnswer now fn
  else if !d.blockReady off then d.bump TOP.NOTREADY_COUNT
  else d.busWrite now (some fn) (off / 8 * 8) (off % 8 * 8) (8 * n) data

/-- The same for a virtual function (R566; 09 R231). -/
def Dev.vfWrite (d : Dev) (now : NetTime) (fn off n data : Nat) : Dev :=
  if off < 0x10000 then
    (if (d.personaOf fn).isSome then
      (if off % n ≠ 0 then d.urAnswer now fn else if off < 0x1000 then d.nvRegWrite fn off n data else d)
    else if n = 8 ∧ off % 8 = 0 then d.doorbell now fn (off / 8) (BitVec.ofNat 64 data)
    else d.dropDoorbell now fn)
  else if off % n ≠ 0 ∨ 0x12000 ≤ off then d.urAnswer now fn
  else match vfTarget fn off with
    | some t => if !d.blockReady t then d.bump TOP.NOTREADY_COUNT else d.busWrite now (some fn) (t / 8 * 8) (t % 8 * 8) (8 * n) data
    | none => d

/-- The bytes of an access width. -/
def widthBytes : Width → Nat
  | .w4 => 4
  | .w8 => 8

/-- REGISTER_WRITE: a host write to BAR0 or BAR2 of a function (R12, R402). One that arrives poisoned, with an ECRC error or malformed is
discarded and logged (R405). -/
def execRegisterWrite (fn : Fn) (bar : Bar) (off : Fin 268435456) (width : Width) (data : Word) (tlp : TlpCheck) :
    State → Host.Outcome State Fault Refusal :=
  onDev (fun now d =>
    let n := widthBytes width
    if tlp = .poisoned then d.aerLog fn .poisoned
    else if tlp = .ecrc then d.aerLog fn .ecrc
    else if tlp = .malformed then (d.aerLog fn .malformed).raise now (ev 15 6) (linkOf fn)
    else if !d.answersAt fn bar off then d.urAnswer now fn
    else match bar with
      | .bar0 => if fn.val % 4096 = 0 then d.pfWrite now fn off n (data.toNat % 2 ^ (8 * n)) else d.vfWrite now fn off n (data.toNat % 2 ^ (8 * n))
      | .bar2 =>
        if off.val % n ≠ 0 ∨ 2 * pbaBase fn ≤ off.val then d.urAnswer now fn
        else d.msixWrite fn (off / 8 * 8) (off % 8 * 8) (8 * n) (data.toNat % 2 ^ (8 * n)))

/-- The data of a read: `len` bytes from an offset on, of the word they lie in. -/
def Dev.reply_ (d : Dev) (fn off len word : Nat) : Dev := d.send (.readData fn (BitVec.ofNat 64 (bitsOf word (off % 8 * 8) (8 * len))))

/-- A read of 1 to 8 bytes within one aligned word of BAR0 of a physical function. -/
def Dev.pfRead (d : Dev) (now : NetTime) (fn off len : Nat) : Dev :=
  let a := off / 8 * 8
  if isDoorbell off then d.reply_ fn off len 0
  else if (blockAt off).isNone then d.urAnswer now fn
  else if !d.blockReady off then (d.bump TOP.NOTREADY_COUNT).reply_ fn off len (d.resetWord now (some fn) a)
  else
    let r := d.busRead now (some fn) a (off % 8 * 8) (8 * len)
    r.1.reply_ fn off len r.2

/-- The same for a virtual function (R566; 09 R231). -/
def Dev.vfRead (d : Dev) (now : NetTime) (fn off len : Nat) : Dev :=
  if off < 0x10000 then
    d.reply_ fn off len (if (d.personaOf fn).isSome ∧ off < 0x1000 then (d.ctl fn).reg (off / 8 * 8) else 0)
  else if 0x12000 ≤ off then d.urAnswer now fn
  else match vfTarget fn off with
    | some t =>
      let a := t / 8 * 8
      if !d.blockReady t then (d.bump TOP.NOTREADY_COUNT).reply_ fn off len (d.resetWord now (some fn) a)
      else
        let r := d.busRead now (some fn) a (t % 8 * 8) (8 * len)
        r.1.reply_ fn off len r.2
    | none => d.reply_ fn off len 0

/-- READ_CLEAR: a host read of registers: it returns the data, and the RC fields it reads are cleared (R12, R15, R402). -/
def execReadClear (fn : Fn) (bar : Bar) (off : Fin 268435456) (len : Nat) : State → Host.Outcome State Fault Refusal :=
  onDev (fun now d =>
    let whole := decide (1 ≤ len ∧ off.val % 8 + len ≤ 8)
    if !d.answersAt fn bar off then d.urAnswer now fn
    else match bar with
      | .bar0 =>
        if !whole then d.urAnswer now fn
        else if fn.val % 4096 = 0 then d.pfRead now fn off len
        else d.vfRead now fn off len
      | .bar2 =>
        if (len = 4 ∨ len = 8) ∧ off.val % len = 0 ∧ off.val < 2 * pbaBase fn then d.reply_ fn off len (d.msixWord fn (off / 8 * 8))
        else d.urAnswer now fn)

/-! ## Device registers of the control cores (03 R86) -/

/-- The BAR0 offset that an IOR or IOW names: ra + sext64(imm11), a multiple of 8 within a block (log entry 29); any other is an address
fault. -/
def ioOffset (c : Ctx) (ra : Nat) (imm : BitVec 11) : Option Nat :=
  let o := memOffset (c.rg ra) imm
  if o % 8 = 0 ∧ (blockAt o).isSome = true ∧ isDoorbell o = false then some o else none

/-- IOR: a control core reads a device register; RC fields are cleared as by any read (R12). -/
def execIor (x : CtxId) (rd ra : Reg) (imm : BitVec 11) : State → Host.Outcome State Fault Refusal :=
  onDev (fun now d => d.issueCore x { regs := [rd.val, ra.val] } (fun c =>
    match ioOffset c ra imm with
    | none => d.fault x faultAddress
    | some o =>
      let r := d.busRead now none o 0 64
      r.1.setCtx x (c.wg rd (BitVec.ofNat 64 r.2)).next))

/-- IOW: a control core writes a device register. -/
def execIow (x : CtxId) (rs ra : Reg) (imm : BitVec 11) : State → Host.Outcome State Fault Refusal :=
  onDev (fun now d => d.issueCore x { regs := [rs.val, ra.val] } (fun c =>
    match ioOffset c ra imm with
    | none => d.fault x faultAddress
    | some o => (d.busWrite now none o 0 64 (c.rg rs).toNat).setCtx x c.next))

/-! ## The TABLES service (17 R466) -/

/-- Whether an offset is one of a sluice or path setting. -/
def pathSetting (off : Nat) : Bool := (blockAt off).any (fun b => decide (b.1 = 0x5800000 ∨ b.1 = 0x6000000))

/-- A bank of the classifier takes an owner: 0 the control cores, 1 and 2 the physical functions (06 R159). -/
def Dev.giveBank (d : Dev) (pipe bank owner : Nat) : Dev :=
  let f := if bank < 32 then ACS.BANKOWN0_OWN else ACS.BANKOWN1_OWN
  d.wr f pipe (setBits (d.rd f pipe) (2 * (bank % 32)) 2 owner)

/-- What a TABLES request asks for, done. -/
def Dev.serveTables (d : Dev) (now : NetTime) (r : TableReq) : Dev :=
  match r with
  | .entry area bucket data mask => d.tableDma area bucket data.toNat mask none
  | .template n bytes =>
    ((List.range 16).foldl (fun (y : Dev) j => y.wr TUN.TSTG_DATA j (leAt bytes (8 * j) 8)) d).commitTemplate now n
  | .bank pipe bank owner => d.giveBank pipe bank owner
  | .setting off value => if pathSetting off then d.busWrite now none (off / 8 * 8) 0 64 value.toNat else d

/-- TABLES_REQUEST: the control service serves a request of a physical function, or refuses it, and answers; the result code is
its service's own, which no rule states: a free value (R466). -/
def execTablesRequest (pf : Pf) (req : TableReq) (accepted : Bool) : State → Host.Outcome State Fault Refusal :=
  onDev (fun now d =>
    let f := 4096 * pf.val
    if !d.answerRoom f then d
    else
      let d1 := if accepted then d.serveTables now req else d
      d1.drawn.answer f 4 (leBytes 1 d1.freeVal.toNat))

end Sys2Proof.Machine
end

