-- ==== Sys2Proof/Machine/Revalidate.lean ====
section
/-! DEFINITION. Revalidation: degradation and restoration of contracts, with their breach messages (13 R359 to R364; 18
R482). -/

namespace Sys2Proof.Machine

/-- Whether the egress of a contract exists: for an egress queue, its port's link is up and its path is not quarantined, or the
contract is duplicated and its twin's is so. A contract of a polder in its safe state never passes (R354, R359; 18 R482). -/
def Dev.canServe (d : Dev) (r : CRec) : Bool :=
  !d.polSafe r.polder && (r.toHost || r.queues.any (fun q =>
    let p := (d.pathOfQueue q).2.2.2
    d.linkUp p && !d.quarantined p))

/-- Whether every plan passes: its deadline under R342, and the conditions of R344. -/
def Dev.allPass (d : Dev) (ps : List Plan) : Bool :=
  let t := d.withRates ps
  (t.capacity ps).isNone && ps.all (fun k => decide (t.misses ps k = 0) && (d.frameMiss k.r).isNone && t.priorityOk ps k.r && d.canServe k.r)

/-- Insert by a key, the smallest first. -/
def insertBy (key : Nat → Nat × Nat) (n : Nat) : List Nat → List Nat
  | [] => [n]
  | m :: ms =>
    if (key n).1 < (key m).1 ∨ ((key n).1 = (key m).1 ∧ (key n).2 ≤ (key m).2) then n :: m :: ms else m :: insertBy key n ms

/-- The contracts that a revalidation judges, oldest epoch first: all but those whose activation is pending. Numbers decide within
an epoch (log entry 28). -/
def Dev.judged (d : Dev) : List Nat :=
  ((d.adm.contracts.filter (fun (e : Nat × Contract) => decide (2 ≤ d.rd ADM.CSTAT_STATE e.1))).map (fun (e : Nat × Contract) => e.1)).foldr
    (insertBy (fun n => (d.rd ADM.CSTAT_EPOCH n, n))) []

/-- Rates by contract number: a contract that is not listed is suspended. -/
abbrev Rates := List (Nat × Nat)

/-- The plans of contracts at given rates, with those whose activation is pending at their own. -/
def Dev.plansAt (d : Dev) (rates : Rates) : List Plan :=
  let waiting := (d.adm.contracts.filter (fun (e : Nat × Contract) => decide (d.rd ADM.CSTAT_STATE e.1 = 1))).map
    (fun (e : Nat × Contract) => ({ num := e.1, r := e.2.rcd, rate := e.2.rate } : Plan))
  waiting ++ (rates.filter (fun e => decide (e.2 ≠ 0))).map (fun e => ({ num := e.1, r := (d.contract e.1).rcd, rate := e.2 } : Plan))

/-- Whether everything passes at given rates. -/
def Dev.passAt (d : Dev) (rates : Rates) : Bool := d.allPass (d.plansAt rates)

/-- Set the rate of one contract. -/
def ratesWith (rates : Rates) (n rate : Nat) : Rates := rates.map (fun e => if e.1 = n then (n, rate) else e)

/-- Whether the others pass with one contract at a rate: its own deadline apart, which a lower rate does not help. -/
def Dev.othersPass (d : Dev) (rates : Rates) (n rate : Nat) : Bool :=
  let ps := d.plansAt (ratesWith rates n rate)
  let t := d.withRates ps
  (t.capacity ps).isNone && ps.all (fun k => decide (k.num = n) || (decide (t.misses ps k = 0) && (d.frameMiss k.r).isNone
    && t.priorityOk ps k.r && d.canServe k.r))

/-- The highest rate below `hi` that passes `ok`, by halving; `lo` passes or is 0. -/
def bisect (ok : Nat → Bool) : Nat → Nat → Nat → Nat
  | 0, lo, _ => lo
  | n + 1, lo, hi =>
    if hi ≤ lo + 1 then lo
    else (let m := (lo + hi) / 2; if ok m then bisect ok n m hi else bisect ok n lo m)

/-- The rate that a committed-rate contract is lowered to: the highest at which every remaining contract passes, 0 when there is
none (R360). -/
def Dev.loweredRate (d : Dev) (rates : Rates) (n : Nat) : Nat :=
  let full := (d.contract n).rcd.rate
  let hi := bisect (d.othersPass rates n) 64 0 full
  if hi ≠ 0 ∧ d.passAt (ratesWith rates n hi) then hi else 0

/-- Degrade contracts in order until everything passes. -/
def Dev.degradeIn (d : Dev) (lower : Bool) (rates : Rates) : List Nat → Rates
  | [] => rates
  | n :: ns =>
    if d.passAt rates then rates
    else d.degradeIn lower (ratesWith rates n (if lower then d.loweredRate rates n else 0)) ns

/-- Give contracts their full rate back in order, each when everything passes with it (R363). -/
def Dev.restoreIn (d : Dev) (rates : Rates) : List Nat → Rates
  | [] => rates
  | n :: ns =>
    let up := ratesWith rates n (d.contract n).rcd.rate
    if rates.contains (n, (d.contract n).rcd.rate) then d.restoreIn rates ns
    else d.restoreIn (if d.passAt up then up else rates) ns

/-- The contracts of a class, in the order given. -/
def Dev.ofClass (d : Dev) (c : Nat) (ns : List Nat) : List Nat := ns.filter (fun n => decide ((d.contract n).rcd.cclass = c))

/-- The rates that a revalidation leaves: degradation of committed-rate, time-gated and safety contracts, newest first (R360), then
restoration in the reverse order (R363). Contracts that cannot be served are suspended before any other. -/
def Dev.ratesAfter (d : Dev) (ns : List Nat) : Rates :=
  let start : Rates := ns.map (fun n => (n, if d.canServe (d.contract n).rcd then (d.contract n).rcd.rate else 0))
  let newest := ns.reverse
  let r1 := d.degradeIn true start (d.ofClass 1 newest)
  let r2 := d.degradeIn false r1 (d.ofClass 2 newest)
  let r3 := d.degradeIn false r2 (d.ofClass 3 newest)
  d.restoreIn (d.restoreIn (d.restoreIn r3 (d.ofClass 3 ns)) (d.ofClass 2 ns)) (d.ofClass 1 ns)

/-- The L2 nodes that no contract's queue hangs under. -/
def Dev.freeL2 (d : Dev) : List Nat :=
  let used := d.adm.contracts.flatMap (fun (e : Nat × Contract) => e.2.rcd.queues.map (fun q => (d.pathOfQueue q).2.1))
  ((d.nodesAt 2).filter (fun e => e.2.wrote.en && !used.contains e.1)).map (fun e => e.1)

/-- A message of admission to a mailbox (R362): type, contract, state, cause, rate, epoch, time. -/
def breachBytes (type n st cause rate epoch : Nat) (now : NetTime) : List Byte :=
  leBytes 64 (type + n * 2 ^ 8 + st * 2 ^ 28 + cause * 2 ^ 32 + rate * 2 ^ 40 + epoch * 2 ^ 104 + now.toNs % 2 ^ 80 * 2 ^ 136)

/-- Best effort is degraded (R360): OFAIR is 15, the peak INC of L2 nodes without contracts is lowered by the capacity short, the
physical functions get a notice, EVT 13.4. A peak shaper that is off stays off, and one that is on keeps an INC of 1 at least. -/
def Dev.degradeBestEffort (d : Dev) (now : NetTime) (cause short : Nat) : Dev :=
  let d1 := d.wr DSP.CFG_OFAIR 0 15
  let d2 := d1.freeL2.foldl (fun y n =>
    let x := y.node 2 n
    if x.wrote.pinc = 0 then y
    else y.setNode 2 n { x with wrote := { x.wrote with w0 := setBits x.wrote.w0 32 32 (max (x.wrote.pinc - incOf short) 1) } }) d1
  let body := breachBytes 0x12 0 0 cause 0 0 now
  let pfs := [0, 4096].filter (fun f => d2.fnExists f)
  (pfs.foldl (fun y f => y.notice now f body) d2).raise now (ev 13 4)

/-- A contract gets its new rate: its queues' committed INC, its rules while it enters or leaves suspension, its state, and the
message and the event of the change; none when nothing changed. -/
def Dev.setContractRate (d : Dev) (now : NetTime) (cause n rate : Nat) : Dev :=
  let c := d.contract n
  let st := if rate = 0 then 4 else if rate = c.rcd.rate then 2 else 3
  let old := d.rd ADM.CSTAT_STATE n
  if st = old ∧ rate = c.rate then d
  else
    let d1 := c.rcd.queues.foldl (fun y q => (y.commitQueue q (incOf rate) c.rcd.burst).raisePath q) d
    let d2 := if st = 4 then d1.writeRules c 0 else if old = 4 then d1.writeRules c n else d1
    let d3 := (d2.putContract n { c with rate := rate }).wr ADM.CSTAT_STATE n st
    let back := decide (st = 2)
    let body := breachBytes (if back then 0x11 else 0x10) n st cause rate (d.rd ADM.CSTAT_EPOCH n) now
    let d4 := [c.rcd.polder, pfOf c.rcd.polder].eraseDups.foldl (fun y f => y.notice now f body) d3
    if back then d4.raise now (ev 13 3) n (some c.rcd.polder) else (d4.bump ADM.BREACHES_COUNT).raise now (ev 13 2) n (some c.rcd.polder)

/-- REVALIDATION: the revalidation that is due longest runs, with EVT 13.5 (R359). -/
def execRevalidation : State → Host.Outcome State Fault Refusal :=
  onDev (fun now d =>
    match d.adm.revalidate with
    | [] => d
    | cause :: rest =>
      let d1 : Dev := { d with adm := { d.adm with revalidate := rest } }.raise now (ev 13 5) cause
      let ns := d1.judged
      let full : Rates := ns.map (fun n => (n, (d1.contract n).rcd.rate))
      let plans := d1.plansAt full
      let d2 := if d1.passAt full then d1
        else d1.degradeBestEffort now cause (match (d1.withRates plans).capacity plans with
          | some (_, 1, short) => short
          | _ => 0)
      ((d2.ratesAfter ns).foldl (fun y e => y.setContractRate now cause e.1 e.2) d2).showContracts)

end Sys2Proof.Machine
end

