-- ==== Sys2Proof/Machine/Roce.lean ====
section
/-! DEFINITION. RoCEv2 reliable connections: frames received, acknowledgements, timers and work requests (09 R229; 16 R438). The
packet formats and codes of the InfiniBand Architecture that R229 names are PRESUMED (log entry 26). -/

namespace Sys2Proof.Machine

/-! ## Frames received -/

/-- The content of a received RoCEv2 frame (R229): its base header, the extended header its opcode has, and payload. -/
structure RoceFrame where
  icrcOk  : Bool
  ce      : Bool
  opcode  : Nat
  qpn     : Nat
  psn     : Nat
  imm     : Nat := 0
  vaddr   : Nat := 0
  rkey    : Nat := 0
  dlen    : Nat := 0
  syndrome : Nat := 0
  payload : List Byte := []

/-- Bytes of the extended headers behind the base header of an RC opcode. -/
def extLen (op : Nat) : Nat :=
  if op = 6 ∨ op = 10 ∨ op = 12 then 16
  else if op = 11 then 20
  else if op = 3 ∨ op = 5 ∨ op = 9 ∨ op = 13 ∨ op = 15 ∨ op = 16 ∨ op = 17 ∨ op = 22 ∨ op = 23 then 4
  else if op = 18 then 12
  else if op = 19 ∨ op = 20 then 28
  else 0

/-- The RoCEv2 frame that bytes of a frame hold behind an IPv4 or IPv6 header, a VLAN tag passed over; none where it is no UDP to port
4791. The ICRC is the last four bytes of the packet. -/
def readRoce (bs : List Byte) : Option RoceFrame :=
  let l3 := if beAt bs 12 2 = 0x8100 then 18 else 14
  let v6 := ipV6 bs l3
  let l4 := l3 + ipLen bs l3
  let proto := (bs.getD (if v6 then l3 + 6 else l3 + 9) 0).toNat
  let bth := l4 + 8
  let stop := ipEnd bs l3
  let op := (bs.getD bth 0).toNat
  let pad := (bs.getD (bth + 1) 0).toNat / 16 % 4
  let ext := bth + 12
  let body := ext + extLen op
  if proto ≠ 17 ∨ beAt bs (l4 + 2) 2 ≠ 4791 ∨ stop < bth + 16 then none
  else some {
    icrcOk := decide (slice bs (stop - 4) 4 = icrcOf (slice bs l3 (stop - 4 - l3)))
    ce := decide (((bs.getD (l3 + 1) 0).toNat / (if v6 then 16 else 1)) % 4 = 3)
    opcode := op
    qpn := beAt bs (bth + 5) 3
    psn := beAt bs (bth + 9) 3
    imm := beAt bs (if op = 11 then ext + 16 else ext) 4
    vaddr := beAt bs ext 8
    rkey := beAt bs (ext + 8) 4
    dlen := beAt bs (ext + 12) 4
    syndrome := (bs.getD ext 0).toNat
    payload := slice bs body (stop - 4 - pad - body) }

/-! ## Responder -/

/-- Syndromes of an acknowledgement: ACK, and NAK codes. -/
abbrev aethAck : Nat := 0x1F
abbrev nakSequence : Nat := 0x60
abbrev nakInvalid : Nat := 0x61
abbrev nakAccess : Nat := 0x62

/-- Send an acknowledgement of a queue pair. -/
def Dev.roceAck (d : Dev) (now : NetTime) (q psn syndrome : Nat) : Dev :=
  d.roceOut now q 0x11 psn ([BitVec.ofNat 8 syndrome] ++ beBytes 3 (d.qp q).msn) []

/-- Whether a remote access lies in a memory region of the queue pair with the right it needs. -/
def Qp.mayAccess (x : Qp) (rkey addr len : Nat) (write : Bool) : Bool :=
  x.p.regions.any (fun r => decide (r.rkey = rkey ∧ r.base ≤ addr ∧ addr + len ≤ r.base + r.len) && (if write then r.write else r.read))

/-- The outstanding command of the initiator whose data a remote key on a queue pair names. -/
def Dev.jobData (d : Dev) (q rkey : Nat) : Option (Nat × NvJob) :=
  (d.sto.jobs.find? (fun e => decide (jobKey e.1 = rkey) && ((e.2.map (fun j => decide (j.conn = (true, q)))).getD false))).bind
    (fun e => e.2.map (fun j => (e.1, j)))

/-- Write bytes to the memory of the queue pair's polder. -/
def Dev.qpWrite (d : Dev) (f addr : Nat) (bytes : List Byte) : Dev :=
  d.hostWrite f addr bytes

/-- Write a payload into buffers in order. -/
def Dev.qpFill (d : Dev) (f : Nat) : List RxBuf → List Byte → Dev
  | [], _ => d
  | b :: bs, bytes => if bytes.isEmpty then d else (d.qpWrite f b.addr (bytes.take b.blen)).qpFill f bs (bytes.drop b.blen)

/-- Place a whole SEND in the receive ring bound to the queue pair, with its TYPE 4h completion (16 R438, R441); none while the ring
has too few buffers. -/
def Dev.placeSend (d : Dev) (q : Nat) (bytes : List Byte) (imm : Option Nat) : Option Dev :=
  let x := d.qp q
  let r := d.ring kRx x.p.ring
  if r.st ≠ .enabled then none
  else
    match fillBufs r.bufs (max 1 bytes.length) with
    | none => none
    | some (used, rest) =>
      if 16 < used.length then none
      else
        let last := (used.getLast?.map (fun b => b.pos)).getD r.head
        let y := { r with bufs := rest, head := r.moved last 1, done := up32 r.done }
        let d1 := (d.qpFill x.polder used bytes).setRing kRx x.p.ring y
        some (d1.queueCpl y.cq (ringKey kRx x.p.ring)
          (rdmaCpl 0 x.p.ring (y.posField y.head) (imm.getD 0) 0 bytes.length q (if imm.isSome then 0x11 else 0x10)))

/-- The request was taken: the expected sequence number moves past it, and it is acknowledged; `last` counts a message. -/
def Dev.roceTook (d : Dev) (now : NetTime) (q n : Nat) (last : Bool) : Dev :=
  let x := d.qp q
  (d.setQp q { x with epsn := (x.epsn + n) % 2 ^ 24, msn := (x.msn + (if last then 1 else 0)) % 2 ^ 24, naked := false }).roceAck now q
    ((x.epsn + n + 2 ^ 24 - 1) % 2 ^ 24) aethAck

/-- A SEND packet in sequence: the response capsule of an outstanding command is the initiator's (R230), any other SEND goes to the
receive ring. -/
def Dev.roceSend (d : Dev) (now : NetTime) (q : Nat) (f : RoceFrame) (first last imm : Bool) : Dev :=
  let x := d.qp q
  let bytes := (if first then [] else x.asm) ++ f.payload
  if !last then (d.setQp q { x with asm := bytes }).roceTook now q 1 false
  else
    let capsule := decide (bytes.length = 16 ∧ (d.jobOf (true, q) (leAt bytes 12 2)).isSome)
    match if capsule then some (d.cqeArrives (true, q) (leAt bytes 0 16)) else d.placeSend q bytes (if imm then some f.imm else none) with
    | some d1 => (d1.setQp q { d1.qp q with asm := [] }).roceTook now q 1 true
    | none => (d.freeBytes 1).1.roceAck now q x.epsn (0x20 + ((d.freeBytes 1).2.headD 0).toNat % 32)

/-- An RDMA WRITE packet in sequence, into a memory region or into the data of an outstanding command (R230). -/
def Dev.roceWrite (d : Dev) (now : NetTime) (q : Nat) (f : RoceFrame) (first last imm : Bool) : Dev :=
  let x := d.qp q
  let addr := if first then f.vaddr else x.waddr
  let left := if first then f.dlen else x.wleft
  let key := if first then f.rkey else x.wkey
  let job := d.jobData q key
  let allowed := match job with
    | some e => decide (addr + left ≤ e.2.len)
    | none => x.mayAccess key addr left true
  if left < f.payload.length ∨ (last ∧ left ≠ f.payload.length) then d.roceAck now q x.epsn nakInvalid
  else if !allowed then d.roceAck now q x.epsn nakAccess
  else
    let d0 : Dev := match job with
      | some e =>
        let recv := splice (e.2.recv ++ List.replicate (addr + f.payload.length - e.2.recv.length) 0) addr f.payload
        { d with sto := { d.sto with jobs := put none d.sto.jobs e.1 (some { e.2 with recv := recv }) } }
      | none => d.qpWrite x.polder addr f.payload
    let d1 := d0.setQp q { x with waddr := addr + f.payload.length, wleft := left - f.payload.length, wkey := key }
    if last ∧ imm then
      match d1.placeSend q [] (some f.imm) with
      | some d2 => d2.roceTook now q 1 true
      | none => (d.freeBytes 1).1.roceAck now q x.epsn (0x20 + ((d.freeBytes 1).2.headD 0).toNat % 32)
    else d1.roceTook now q 1 last

/-- The response packets of an RDMA READ from a sequence number on. -/
def Dev.readResponse (d : Dev) (now : NetTime) (q psn : Nat) (data : List Byte) : Dev :=
  let mtu := (d.qp q).p.mtu
  let n := packetsOf mtu data.length
  let aeth : List Byte := [BitVec.ofNat 8 aethAck] ++ beBytes 3 (d.qp q).msn
  (List.range n).foldl (fun y i =>
    let op := if n = 1 then 0x10 else if i = 0 then 0x0D else if i + 1 = n then 0x0F else 0x0E
    y.roceOut now q op ((psn + i) % 2 ^ 24) (if op = 0x0E then [] else aeth) ((data.drop (i * mtu)).take mtu)) d

/-- An RDMA READ Request of a memory region, where `read` is what the host returns for the range, or of the data of an outstanding
command (R230). -/
def Dev.roceRead (d : Dev) (now : NetTime) (q : Nat) (f : RoceFrame) (read : List Byte) : Dev :=
  let x := d.qp q
  let job := d.jobData q f.rkey
  let allowed := match job with
    | some e => decide (f.vaddr + f.dlen ≤ e.2.data.length)
    | none => x.mayAccess f.rkey f.vaddr f.dlen false
  if !allowed then d.roceAck now q f.psn nakAccess
  else
    let data := match job with
      | some e => slice e.2.data f.vaddr f.dlen
      | none => slice read 0 f.dlen
    let d1 := if f.psn = x.epsn then
        d.setQp q { x with epsn := (x.epsn + packetsOf x.p.mtu f.dlen) % 2 ^ 24, msn := (x.msn + 1) % 2 ^ 24, naked := false }
      else d
    d1.readResponse now q f.psn data

/-- A request packet: in sequence, a duplicate, or behind a gap. -/
def Dev.roceRequest (d : Dev) (now : NetTime) (q : Nat) (f : RoceFrame) (read : List Byte) : Dev :=
  let x := d.qp q
  let op := f.opcode
  let ahead := psnDist x.epsn f.psn
  if ahead ≠ 0 ∧ ahead < 2 ^ 23 then
    if x.naked then d else (d.setQp q { x with naked := true }).roceAck now q x.epsn nakSequence
  else if ahead ≠ 0 then
    if op = 0x0C then d.roceRead now q f read else d.roceAck now q ((x.epsn + 2 ^ 24 - 1) % 2 ^ 24) aethAck
  else if op = 0x0C then d.roceRead now q f read
  else if op < 6 then d.roceSend now q f (decide (op = 0 ∨ op = 4 ∨ op = 5)) (decide (2 ≤ op)) (decide (op = 3 ∨ op = 5))
  else if op < 12 then d.roceWrite now q f (decide (op = 6 ∨ op = 10 ∨ op = 11)) (decide (8 ≤ op)) (decide (op = 9 ∨ op = 11))
  else d.roceAck now q x.epsn nakInvalid

/-! ## Requester -/

/-- Work requests whose every packet a sequence number acknowledges complete, in order; a READ that is not whole stops the run. -/
def Dev.wrAcked (d : Dev) (q psn : Nat) : Nat → Dev
  | 0 => d
  | fuel + 1 =>
    let x := d.qp q
    match x.wrs with
    | [] => d
    | w :: ws =>
      let k := psnDist w.first psn
      if 2 ^ 23 ≤ k then d
      else if w.opc = 4 then d
      else if k + 1 < w.count then d.setQp q { x with wrs := { w with acked := max w.acked (k + 1) } :: ws }
      else ((d.setQp q { x with wrs := ws }).wrDone q w 0).wrAcked q psn fuel

/-- Acknowledgements restore the retry counts and start the ACK timer again. -/
def Dev.qpProgress (d : Dev) (q : Nat) : Dev :=
  let x := d.qp q
  (d.setQp q { x with retry := x.p.retry, rnr := x.p.rnr, rnrWait := false }).qpTimer q

/-- An acknowledgement: ACK, RNR NAK, sequence NAK, or an error from the remote end. -/
def Dev.roceAcked (d : Dev) (now : NetTime) (q psn syndrome : Nat) : Dev :=
  let x := d.qp q
  let kind := syndrome / 32 % 4
  if kind = 0 then (d.wrAcked q psn x.wrs.length).qpProgress q
  else
    let d1 := d.wrAcked q ((psn + 2 ^ 24 - 1) % 2 ^ 24) x.wrs.length
    if kind = 1 then d1.setQp q { d1.qp q with rnrWait := true }
    else if syndrome = nakSequence then
      (if x.retry = 0 then d1.failQp now q 0x0A else (d1.setQp q { d1.qp q with retry := x.retry - 1 }).goBack now q psn)
    else d1.failQp now q 0x06

/-- A response packet of an RDMA READ at the front: its bytes go to the local address; the last one completes the request. -/
def Dev.roceReadData (d : Dev) (now : NetTime) (q : Nat) (f : RoceFrame) : Dev :=
  let d0 := d.wrAcked q ((f.psn + 2 ^ 24 - 1) % 2 ^ 24) (d.qp q).wrs.length
  let x := d0.qp q
  match x.wrs with
  | [] => d0
  | w :: ws =>
    let want := (w.first + w.got / max x.p.mtu 1) % 2 ^ 24
    if w.opc ≠ 4 then d0
    else if f.psn ≠ want then
      (if psnDist want f.psn < 2 ^ 23 ∧ x.retry ≠ 0 then (d0.setQp q { x with retry := x.retry - 1 }).goBack now q want else d0)
    else
      let bytes := f.payload.take (w.len - w.got)
      let w1 := { w with got := w.got + bytes.length }
      let d1 := d0.qpWrite x.polder (w.laddr + w.got) bytes
      if w.len ≤ w1.got then ((d1.setQp q { x with wrs := ws }).wrDone q w 0).qpProgress q
      else (d1.setQp q { x with wrs := w1 :: ws }).qpProgress q

/-- A CNP arrives: counted, and posted to the completion ring of the queue pair; its OPC is a free value (log entry 5). -/
def Dev.cnpArrives (d : Dev) (q : Nat) : Dev :=
  let x := d.qp q
  let fb := (d.freeBytes 1).2
  ((d.freeBytes 1).1.bump STO.CNPRCVD_COUNT).queueCpl x.p.cq (ringKey kCq x.p.cq) (rdmaCpl 0 0 0 0 0 0 q ((fb.headD 0).toNat))

/-- A CNP to the sender of a frame marked CE, at most one in STO.CNPINT µs. -/
def Dev.congestion (d : Dev) (now : NetTime) (q : Nat) : Dev :=
  let x := d.qp q
  let due := match x.cnp with
    | some t => decide (t + 1000 * d.rd STO.CNPINT_US ≤ d.uptime)
    | none => true
  if due then
    ((d.setQp q { x with cnp := some d.uptime }).bump STO.CNPSENT_COUNT).roceOut now q 0x81 0 (List.replicate 16 0) []
  else d

/-- A RoCEv2 frame reaches the unit. A failed ICRC and a transport other than RC are dropped and counted (R229). -/
def Dev.roceFrame (d : Dev) (now : NetTime) (frame : RoceFrame) (read : List Byte) : Dev :=
  let q := frame.qpn
  let x := d.qp q
  let op := frame.opcode
  if !frame.icrcOk then d.bump STO.ICRCERR_COUNT
  else if op = 0x81 then (if x.up then d.cnpArrives q else d)
  else if 32 ≤ op then d.bump STO.BADOPC_COUNT
  else if !x.up then d
  else
    let d1 := if frame.ce then d.congestion now q else d
    if op = 0x11 then d1.roceAcked now q frame.psn frame.syndrome
    else if 0x0D ≤ op ∧ op ≤ 0x10 then d1.roceReadData now q frame
    else if op = 0x12 then d1
    else d1.roceRequest now q frame read

/-- ROCE_FRAME_RECEIVE: a frame that reached the unit, without its FCS; `read` is what the host returns for an RDMA READ Request. A
frame that is no RoCEv2 changes nothing. -/
def execRoceFrameReceive (bytes read : List Byte) : State → Host.Outcome State Fault Refusal :=
  onDev (fun now d => match readRoce bytes with
    | some f => d.roceFrame now f read
    | none => d)

/-- ACK_TIMEOUT: 4.096 µs × 2^T passed without acknowledgement; everything from the oldest packet on is sent again, and once the
retries are used up the queue pair goes to error (R229). `covered`: an ACK of the oldest packet arrives in the same cycle, and
wins (R238). -/
def execAckTimeout (qpn : Fin 65536) (covered : Bool) : State → Host.Outcome State Fault Refusal :=
  onDev (fun now d =>
    let x := d.qp qpn
    if !x.up || x.wrs.isEmpty || x.rnrWait || covered || decide (d.uptime < x.since + 4096 * 2 ^ x.p.t) then d
    else if x.retry = 0 then d.failQp now qpn 0x0A
    else (d.setQp qpn { x with retry := x.retry - 1 }).goBack now qpn x.oldest)

/-- RNR_TIMER: the timer of an RNR NAK expires and the request is sent again; once the RNR retries are used up the queue pair goes
to error. A count of 7 never runs out (R229). -/
def execRnrTimer (qpn : Fin 65536) : State → Host.Outcome State Fault Refusal :=
  onDev (fun now d =>
    let x := d.qp qpn
    if !x.up || !x.rnrWait then d
    else if x.rnr = 0 then d.failQp now qpn 0x0A
    else (d.setQp qpn { x with rnrWait := false, rnr := if x.p.rnr = 7 then 7 else x.rnr - 1 }).goBack now qpn x.oldest)

/-- RDMA_WORK_REQUEST: the next entry of an RDMA ring is taken, with what the host returns for its local range. A READ waits while
16 are outstanding; a request for a queue pair in error completes FLUSHED, and so does one for another polder's (R229; 16 R438,
R442). -/
def execRdmaWorkRequest (ring : Fin 262144) (data : List Byte) : State → Host.Outcome State Fault Refusal :=
  onDev (fun now d =>
    let y := d.ring kSub ring
    match y.nextEntry with
    | none => d
    | some e =>
      let u := fun (i : Nat) => e.words.getD i 0
      let q := bitsOf (u 0) 32 16
      let x := d.qp q
      let w : Wr := { ring := ring, pos := e.pos, opc := bitsOf (u 0) 8 8, signal := (u 0).testBit 16, imm := bitsOf (u 0) 64 32,
                      wrid := bitsOf (u 1) 0 64, laddr := bitsOf (u 2) 0 64, len := bitsOf (u 2) 64 32, raddr := bitsOf (u 3) 0 64,
                      rkey := bitsOf (u 3) 64 32 }
      if y.mode ≠ 3 then d
      else if !x.up || decide (x.polder ≠ y.polder) then (d.setRing kSub ring (y.start e.pos)).wrDone q w 7
      else if w.opc = 4 ∧ 16 ≤ (x.wrs.filter (fun v => decide (v.opc = 4))).length then d
      else (d.setRing kSub ring (y.start e.pos)).wrPost now q { w with data := if w.opc = 4 then [] else slice data 0 w.len })

end Sys2Proof.Machine
end

