-- ==== Sys2Proof/Machine/Rom.lean ====
section
/-! DEFINITION. The expansion ROM: the chain of UEFI images and the resource directory (15 R412, R413; 23 R564 to R567; 09 R231). -/

namespace Sys2Proof.Machine

/-! ## UEFI images (R412) -/

/-- Bytes padded with zeros up to a length. -/
def padTo (n : Nat) (bs : List Byte) : List Byte := bs ++ List.replicate (n - bs.length) 0

/-- One image of the chain: its ROM header, its PCI data structure, its body, in whole blocks of 512 bytes. The layout is that of the
PCI Firmware and UEFI specifications (PRESUMED, log entry 34). -/
def uefiImage (vendor : Nat) (last : Bool) (machine : Nat) (body : List Byte) : List Byte :=
  let blocks := (64 + body.length + 511) / 512
  let hdr := leBytes 2 0xAA55 ++ leBytes 2 blocks ++ leBytes 4 0x0EF1 ++ leBytes 2 0x0B ++ leBytes 2 machine ++ leBytes 10 0
    ++ leBytes 2 64 ++ leBytes 2 0x1C
  let pcir := leBytes 4 0x52494350 ++ leBytes 2 vendor ++ leBytes 2 0x1604 ++ leBytes 2 0 ++ leBytes 2 0x1C ++ leBytes 1 3
    ++ leBytes 3 0x020000 ++ leBytes 2 blocks ++ leBytes 2 0 ++ leBytes 1 3 ++ leBytes 1 (if last then 0x80 else 0) ++ leBytes 6 0
  padTo (512 * blocks) (padTo 64 (padTo 0x1C hdr ++ pcir) ++ body)

/-- The images of a flash image set, each with its machine type. -/
def romImages (vendor content : Nat) : List (Nat × List Byte) :=
  let l := Config.uefiImages content
  l.zipIdx.map (fun e => (e.1.1, uefiImage vendor (decide (e.2 + 1 = l.length)) e.1.1 e.1.2))

/-! ## The resource directory (R413) -/

/-- An entry of the directory. -/
structure Region where
  kind    : Nat
  bar     : Nat
  name    : String
  off     : Nat
  size    : Nat
  attr    : Nat
  machine : Nat := 0

/-- The bits of ATTR. -/
abbrev attrRegs : Nat := 1
abbrev attrDoorbells : Nat := 2
abbrev attrTable : Nat := 4
abbrev attrPba : Nat := 8
abbrev attrMailbox : Nat := 16
abbrev attrStatus : Nat := 32
abbrev attrNvme : Nat := 64

/-- The 32 bytes of an entry. -/
def Region.bytes (r : Region) : List Byte :=
  leBytes 1 r.kind ++ leBytes 1 r.bar ++ leBytes 2 0 ++ (padTo 4 (r.name.toList.map (fun c => BitVec.ofNat 8 c.toNat))).take 4
    ++ leBytes 8 r.off ++ leBytes 8 r.size ++ leBytes 4 r.attr ++ leBytes 4 r.machine

/-- The names of the blocks of a PF, in the order of their bases (23 R564). -/
def blockNames : List String :=
  ["TOP", "CAL", "CLK", "EVT", "DKW", "PRT", "PAR", "ACS", "FWD", "LRN", "DSP", "ENG", "PGM", "TUN", "STO", "CIP", "KEY", "BAT", "SCH", "SLU",
   "ADM", "DUP", "HIF", "RNG", "DMA", "VIR", "MBX", "MGT", "MBS"]

/-- The BAR regions that the directory describes: those of a PF, of its VFs, and of a VF with the NVMe personality. Their order, the names of
regions that belong to no block, and the attributes of a region that two describe are the model's (DESIGN CHOICE, log entry 34). -/
def barRegions : List Region :=
  let vf := fun (kind : Nat) => ([⟨kind, 0, "MBX", 0x10000, 0x1000, attrMailbox, 0⟩, ⟨kind, 0, "VIR", 0x11000, 0x1000, attrStatus, 0⟩,
    ⟨kind, 2, "", 0, 0x800, attrTable, 0⟩, ⟨kind, 2, "", 0x800, 0x800, attrPba, 0⟩] : List Region)
  (blocks.zip blockNames).map (fun e => ⟨1, 0, e.2, e.1.1, e.1.2.1, if e.1.1 = 0xB000000 then attrRegs + attrMailbox else attrRegs, 0⟩)
    ++ [⟨1, 0, "RNG", 0x8800000, 0x200000, attrDoorbells, 0⟩, ⟨1, 2, "", 0, 0x8000, attrTable, 0⟩, ⟨1, 2, "", 0x8000, 0x8000, attrPba, 0⟩,
        ⟨2, 0, "RNG", 0, 0x10000, attrDoorbells, 0⟩] ++ vf 2
    ++ [⟨3, 0, "STO", 0, 0x1000, attrNvme, 0⟩, ⟨3, 0, "STO", 0x1000, 0x400, attrDoorbells, 0⟩] ++ vf 3

/-- The entries of the images, each at its offset in the window. -/
def imageRegions : List (Nat × List Byte) → Nat → List Region
  | [], _ => []
  | (machine, bs) :: l, o => ⟨4, 0, "", o, bs.length, 0, machine⟩ :: imageRegions l (o + bs.length)

/-- The directory: its header of 32 bytes and its entries. -/
def directory (version : Nat) (rs : List Region) : List Byte :=
  let tail := leBytes 8 version ++ leBytes 8 0 ++ (rs.map Region.bytes).flatten
  [0x48#8, 0x51#8, 0x52#8, 0x44#8] ++ leBytes 2 1 ++ leBytes 2 rs.length ++ leBytes 4 (32 + 32 * rs.length)
    ++ leBytes 4 (crc32c 0xFFFFFFFF#32 tail).toNat ++ tail

/-- The byte of the expansion ROM at an offset: the chain of images, FFh behind it, and the directory, 0 behind it (R412). -/
def Dev.romByte (d : Dev) (o : Nat) : Byte :=
  match d.hif.rom with
  | none => if o < 0xF0000 then 0xFF else 0
  | some (content, version) =>
    let l := romImages (d.rd HIF.ID_VID) content
    if o < 0xF0000 then (l.map (fun e => e.2)).flatten.getD o 0xFF
    else (directory version (barRegions ++ imageRegions l 0)).getD (o - 0xF0000) 0

/-- EXPANSION_ROM_READ: 1 to 64 bytes within one aligned 64-byte block of a PF's enabled ROM are returned; any other
access is answered with UR (R402, R412). -/
def execExpansionRomRead (fn : Fn) (off : Fin 1048576) (len : Nat) : State → Host.Outcome State Fault Refusal :=
  onDev (fun now d =>
    let x := d.fn fn
    if d.memAnswers fn && decide (fn.val % 4096 = 0) && x.romEnable && decide (1 ≤ len ∧ off % 64 + len ≤ 64) then
      d.send (.reply fn ((List.range len).map (fun i => d.romByte (off + i))))
    else d.urAnswer now fn)

end Sys2Proof.Machine
end

