-- ==== Sys2Proof/Machine/Transmit.lean ====
section
/-! DEFINITION. The MAC's transmit side: which frame starts, tags and one-step treatment, preemption, berms, the end of a
frame, underruns and link loss (05 R121, R123 to R131, R135; 11 R297, R301; 12 R316, R317, R324, R325, R327; 14 R371,
R376, R377; 18 R480, R481). -/

namespace Sys2Proof.Machine

/-! ## One-step treatment (12 R315, R317) -/

/-- Where the PTP header of a frame starts, and the offset of its UDP checksum with the version of its IP header. -/
def ptpHeader (bs : List Byte) : Option (Nat × Option (Nat × Bool)) :=
  let tagged := fun (o : Nat) => decide (beAt bs o 2 = 0x8100 ∨ beAt bs o 2 = 0x88A8)
  let t := if tagged 12 then (if tagged 16 then 20 else 16) else 12
  let o := t + 2
  let found := fun (h : Nat) (u : Option (Nat × Bool)) => if h + 34 ≤ bs.length then some (h, u) else none
  match beAt bs t 2 with
  | 0x88F7 => found o none
  | 0x0800 =>
    if (bs.getD o 0).toNat = 0x45 ∧ (bs.getD (o + 9) 0).toNat = 17 ∧ beAt bs (o + 22) 2 = 319 then found (o + 28) (some (o, false)) else none
  | 0x86DD => if (bs.getD (o + 6) 0).toNat = 17 ∧ beAt bs (o + 42) 2 = 319 then found (o + 48) (some (o, true)) else none
  | _ => none

/-- Add to the correctionField of a PTP header, in units of 2⁻¹⁶ ns. -/
def addCorrection (bs : List Byte) (h : Nat) (x : Int) : List Byte :=
  splice bs (h + 8) (beBytes 8 (unsignedOf (beAt bs (h + 8) 8 + x) 64))

/-- The residence of a packet that leaves at a time, in units of 2⁻¹⁶ ns; TSIN has the low 32 bits of its seconds. -/
def residence (p : Packet) (t : Nat) : Int :=
  let lap := 2 ^ 32 * 1000000000 * 65536
  let x := ((t % lap : Nat) : Int) - (((p.tsin / 2 ^ 32) * 1000000000 + p.tsin % 2 ^ 32) * 65536 + p.tsfrac : Nat)
  if 2 * x < -lap then x + lap else if (lap : Int) < 2 * x then x - lap else x

/-- Rewrite the PTP header of a frame that leaves at a time `t`; none where the frame has no PTP header (R317). -/
def oneStepRewrite (residenceMode : Bool) (p : Packet) (t : Nat) (bs : List Byte) : Option (List Byte) :=
  (ptpHeader bs).map (fun e =>
    let (h, udp) := e
    let kind := (bs.getD h 0).toNat % 16
    let done :=
      if residenceMode then (if kind ≤ 3 then some (addCorrection bs h (residence p t)) else none)
      else if kind = 0 ∧ !(bs.getD (h + 6) 0).toNat.testBit 1 ∧ h + 44 ≤ bs.length then
        some (splice (addCorrection bs h (t % 65536 : Nat)) (h + 34)
          (beBytes 6 (t / 65536 / 1000000000) ++ beBytes 4 (t / 65536 % 1000000000)))
      else none
    match done, udp with
    | none, _ => bs
    | some b, none => b
    | some b, some (ip, false) => put16 b (ip + 26) 0
    | some b, some (ip, true) => insertL4 b ip (ip + 40) 17)

/-! ## The frame that starts (R123, R125; R297; R324, R327; 14 R377) -/

/-- Whether a class of a port is preemptable for a frame that starts now (R125, R126). -/
def Dev.preemptClass (d : Dev) (n c : Nat) : Bool := d.rdBit PRT.PREEMPT_PMASK n c && d.preempts n

/-- Whether the class shaper of a class permits (11 R297). -/
def Dev.classShaperOk (d : Dev) (n c : Nat) : Bool :=
  let x := d.node lvlClass (8 * n + c)
  !x.inForce.en || decide (0 ≤ x.cred)

/-- What may start at a port for a class: a heartbeat, the rest of the held frame, or the head of the class buffer. -/
inductive Start where
  | beat (path : Nat)
  | resume (t : TxFrame)
  | head (p : Packet)

/-- The candidate of a class, if its gate, its berm, its shaper and a hold let it start. -/
def Dev.startOf (d : Dev) (now : NetTime) (n c : Nat) : Option Start :=
  let quiet := d.preemptClass n c && (d.held n || (d.port n).held.isSome)
  let beat := match d.pathOf n with
    | some i => if (d.pathSt i).hbDue ∧ c = d.rd DUP.CFG_HBCLASS ∧ d.sluiceLets now n c 64 ∧ !quiet then some i else none
    | none => none
  let head := match d.classBuf n c with
    | p :: _ => if !quiet && d.classShaperOk n c && d.sluiceLets now n c (d.sendWire n p) then some (Start.head p) else none
    | [] => none
  match beat, (d.port n).held with
  | some i, _ => some (.beat i)
  | none, some t => if t.cls = c ∧ d.sluiceLets now n c (t.bytes.length - t.sent + 4) ∧ !d.held n then some (.resume t) else head
  | none, none => head

/-- What may start at a port, of the highest-numbered class first. -/
def Dev.starts (d : Dev) (now : NetTime) (n : Nat) : List (Nat × Start) :=
  [7, 6, 5, 4, 3, 2, 1, 0].filterMap (fun c => (d.startOf now n c).map (fun s => (c, s)))

/-- The rest of a preempted frame. -/
def Start.resumes : Start → Bool
  | .resume _ => true
  | _ => false

/-- The class that starts at a port, the highest-numbered one with a candidate (R123); the rest of a preempted frame waits for every
express frame that is ready, whatever the class numbers (R125, R127). -/
def Dev.nextStart (d : Dev) (now : NetTime) (n : Nat) : Option (Nat × Start) :=
  let l := d.starts now n
  (l.find? (fun e => !e.2.resumes)).or l.head?

/-! ## A frame as it leaves (14 R371, R376; 09 R218, R224) -/

/-- The bytes with which the frame at the head of a class buffer leaves a port: without a trailer it came with, its option
filled, its checksums inserted, and the trailer of its own path appended. -/
def Dev.leaving (d : Dev) (n : Nat) (p : Packet) : List Byte :=
  let p1 := if d.strips n p then p.cutEnd 6 else p
  match p.drawn, d.pathOf n with
  | some seq, some i =>
    match p.egress.dp with
    | some (o, _) =>
      let b := fillDp p1.bytes o seq (i / 2) (i % 2 + 1)
      ({ p1 with hdr := b.take p1.hdr.length, tail := b.drop p1.hdr.length }).segment p.segsOut
    | none => appendTrailer (p1.segment p.segsOut) seq (i % 2 + 1)
  | _, _ => p1.segment p.segsOut

/-- One-step treatment of a frame that asks for it (12 R317). -/
def Dev.oneStep (d : Dev) (now : NetTime) (n t : Nat) (p : Packet) (bs : List Byte) : Dev × List Byte :=
  if !p.oneStep then (d, bs)
  else match oneStepRewrite (decide (d.rd SLU.PTPCFG_OSMODE n = 1)) p t bs with
    | some b => (d, b)
    | none => ((d.bump SLU.PDROP_OSMISS n).raiseSec now (ev 12 3) n n, bs)

/-- Charge a class shaper with a frame (11 R297). -/
def Dev.chargeClass (d : Dev) (n c len : Nat) : Dev :=
  let x := d.node lvlClass (8 * n + c)
  if x.inForce.en then d.setNode lvlClass (8 * n + c) { x with cred := x.cred - chargeOf len (d.ovh n) } else d

/-- A write of TXCT.BASE comes into force (R128). -/
def Dev.takeBase (d : Dev) (n : Nat) : Dev :=
  if (d.port n).newBase then
    (d.setPort n { d.port n with newBase := false }).wr PRT.TXCT_CUR n (min (d.rd PRT.TXCT_BASE n) (d.rd PRT.MAXLEN_LEN n))
  else d

/-- Put a frame on the wire of a port. -/
def Dev.onWire (d : Dev) (n : Nat) (t : TxFrame) : Dev := d.setPort n { d.port n with tx := some t }

/-- Send a heartbeat (14 R377). Its start is a frame start (R128). -/
def Dev.sendBeat (d : Dev) (now : NetTime) (n c i : Nat) : Dev :=
  let t : TxFrame := { pkt := { place := .express, len := 60 }, cls := c, bytes := d.heartbeat now i, preempt := d.preemptClass n c
                       ts := d.txTime now n, beat := true }
  let x := d.pathSt i
  (d.setPathSt i { x with sent := (x.sent + 1) % 2 ^ 32, hbDue := false }).takeBase n |>.onWire n t

/-- Start the frame at the head of a class buffer. A frame that is too long is dropped (R121); with the link down the MAC
discards it (R124, 11 R301); one whose payload fails its CRC ends with the inverted FCS (18 R480, SM 7). -/
def Dev.sendHead (d : Dev) (now : NetTime) (n c : Nat) (p : Packet) (crcOk : Bool) : Dev :=
  let d1 := d.setClassBuf n c ((d.classBuf n c).drop 1)
  let bs := d.leaving n p
  let len := bs.length + 4
  let t : TxFrame := { pkt := p, cls := c, bytes := bs, preempt := d.preemptClass n c, ts := d.txTime now n }
  if d.rd PRT.MAXLEN_LEN n < len then (d1.bump PRT.TXDISCARD_COUNT n).macDone t false none
  else
    let d2 := d1.chargeClass n c len
    if !d.linkUp n then (d2.bump PRT.TXDISCARD_COUNT n).macDone t false none
    else if !crcOk then ((d2.takeBase n).spoil n t).payloadFailure now (some n)
    else
      let r := d2.oneStep now n t.ts p bs
      (r.1.takeBase n).onWire n { t with bytes := r.2 }

/-- TRANSMIT_START: a MAC with an idle line starts the frame of the highest ready class (R123). A port in its safe state
starts nothing (18 R481). `crcOk`: the payload's blocks pass their CRC as they are read. -/
def execTransmitStart (port : Fin 16) (crcOk : Bool) : State → Host.Outcome State Fault Refusal :=
  onDev (fun now d =>
    if !d.portExists port || (d.port port).tx.isSome || d.portSafe port then d
    else
      let d1 := (List.range 8).foldl (fun y c => y.trimClass now port c 2) (d.quarRemove port)
      if !d1.linkUp port ∧ d1.rd PRT.CTL_DOWNACT port = 1 then d1
      else match d1.nextStart now port with
        | none => d1
        | some (c, .beat i) => if d1.linkUp port then d1.sendBeat now port c i else d1
        | some (_, .resume t) => (d1.setPort port { d1.port port with held := none }).onWire port t
        | some (c, .head p) => d1.sendHead now port c p crcOk)

/-! ## Fragments (R125; 12 R324, R325, R327) -/

/-- Whether the frame on the wire can end a fragment with `len` more bytes: the fragment and what remains are legal (R125). -/
def Dev.divisible (d : Dev) (n len : Nat) (t : TxFrame) : Bool :=
  t.preempt && decide (64 * (1 + d.rd PRT.PREEMPT_ADDFRAG n) ≤ len + 4 ∧ t.sent + len + 60 ≤ t.bytes.length)

/-- End the fragment of the frame on the wire after `len` bytes; its rest waits. -/
def Dev.cutFrame (d : Dev) (n len : Nat) (t : TxFrame) : Dev :=
  let d1 := (d.setPort n { d.port n with tx := none, held := some { t with cut := true, sent := t.sent + len } })
  let d2 := if d.toLanes n then d1.send (.fragment n len) else d1
  if t.cut then d2 else d2.bump PRT.TXPREEMPT_COUNT n

/-- PREEMPTION: an express frame that is ready preempts the preemptable frame on the wire, whose fragment ends after `len`
bytes; a frame that is no longer divisible there finishes (R125, R135). -/
def execPreemption (port : Fin 16) (len : Nat) : State → Host.Outcome State Fault Refusal :=
  onDev (fun now d =>
    match (d.port port).tx with
    | none => d
    | some t =>
      let ready := (List.range 8).any (fun c => !d.preemptClass port c && (d.startOf now port c).isSome)
      if d.divisible port len t && ready then d.cutFrame port len t else d)

/-- Whether an entry that starts within a time of ells, at its own place or at a take-over, sets a hold (12 R327). -/
def Dev.holdNear (d : Dev) (n t ells : Nat) : Bool :=
  (List.range (ells + 1)).any (fun j =>
    let e := d.entryAtTime n (t + 8 * j)
    decide (e.map (fun x => entryOp x.2) = some 1 ∧ e ≠ d.entryAtTime n (t + 8 * j - 8)))

/-- BERM_START: the berm of a class begins (R324), or with no class the hold that an entry will set (R327); a preemptable
frame on the wire ends its fragment after `len` bytes if it can (R325). -/
def execBermStart (port : Fin 16) (cls : Option (Fin 8)) (len : Nat) : State → Host.Outcome State Fault Refusal :=
  onDev (fun now d =>
    let cut := fun (y : Dev) (c : Option Nat) => match (y.port port).tx with
      | some t => if (c.isNone || decide (c = some t.cls)) && y.divisible port len t then y.cutFrame port len t else y
      | none => y
    match cls with
    | some c =>
      match d.inBerm port c (d.txTime now port / 65536) with
      | none => d
      | some close =>
        let x := d.sluice port
        let d1 := d.setSluice port { x with inBerm := put 0 x.inBerm c close }
        if d1.bermPreemptable port c then cut d1 (some c.val) else d1
    | none =>
      if d.rd PRT.PREEMPT_PMASK port ≠ 0 ∧ d.rd PRT.STATUS_PVERIFY port ≠ 3 ∧ d.holdNear port (d.txTime now port / 65536) (d.bermP port) then
        cut (d.wr SLU.PSTAT_HOLD port 1) none
      else d)

/-! ## The end of a frame (R128, R129, R134; 12 R316) -/

/-- Capture the transmit timestamp of a frame that asks for it (12 R316); of a train only the first segment captures (21 R545). -/
def Dev.capture (d : Dev) (now : NetTime) (n : Nat) (t : TxFrame) : Dev :=
  if !t.pkt.twoStep || decide (t.pkt.segsOut ≠ 0) then d
  else
    let p := d.port n
    if 64 ≤ p.twoStep.length then (d.bump SLU.TXTSSTAT_OVF n).raiseSec now (ev 12 2) n n
    else
      let e : TwoStep := { mark := t.pkt.mark, sec := t.ts / 65536 / 1000000000, ns := t.ts / 65536 % 1000000000, frac := t.ts % 65536 }
      (d.setPort n { p with twoStep := p.twoStep ++ [e] }).wr SLU.TXTSSTAT_COUNT n (p.twoStep.length + 1)

/-- An HBM frame ended without underrun: after 2²⁰ in a row CUR falls, never below BASE (R128). -/
def Dev.cleanFrame (d : Dev) (n : Nat) : Dev :=
  let p := d.port n
  if p.clean + 1 < 2 ^ 20 then d.setPort n { p with clean := p.clean + 1 }
  else
    let base := min (d.rd PRT.TXCT_BASE n) (d.rd PRT.MAXLEN_LEN n)
    (d.setPort n { p with clean := 0 }).wr PRT.TXCT_CUR n (max base (d.rd PRT.TXCT_CUR n - 256))

/-- The transmit timestamp that a transmit completion carries: TSREQ of a direct ring (16 R435, R441). -/
def Dev.completionTs (d : Dev) (t : TxFrame) : Option (Nat × Nat) :=
  match t.pkt.txring with
  | some (r, _) => if t.pkt.twoStep ∧ (d.ring kSub r).mode = 0 then some (tsinOf t.ts, t.ts % 65536) else none
  | none => none

/-- TRANSMIT_END: the frame on the wire ends complete. -/
def execTransmitEnd (port : Fin 16) : State → Host.Outcome State Fault Refusal :=
  onDev (fun now d =>
    match (d.port port).tx with
    | none => d
    | some t =>
      let d1 := (d.setPort port { d.port port with tx := none }).toLine port (.frame port t.bytes true) (.frame t.bytes true)
      let d2 := ((d1.bump PRT.TXFRAMES_COUNT port).bump PRT.TXOCTETS_COUNT port (t.bytes.length + 4)).bump PRT.TXCLASS_COUNT (8 * port + t.cls)
      let d3 := if t.pkt.place = .hbm then d2.cleanFrame port else d2
      (d3.capture now port t).macDone t true (d.completionTs t))

/-- HBM_UNDERRUN: the transmit buffer empties during an HBM frame (R128). -/
def execHbmUnderrun (port : Fin 16) : State → Host.Outcome State Fault Refusal :=
  onDev (fun now d =>
    match (d.port port).tx with
    | none => d
    | some t =>
      if t.pkt.place ≠ .hbm then d
      else
        let d1 := ((d.setPort port { d.port port with tx := none, clean := 0 }).spoil port t).bump PRT.TXUNDERRUN_HBM port
        (d1.wr PRT.TXCT_CUR port (min (d1.rd PRT.TXCT_CUR port + 256) (d1.rd PRT.MAXLEN_LEN port))).raiseSec now (ev 5 17) port port)

/-- EXPRESS_UNDERRUN: the transmit buffer empties during an express-buffer frame, reported as a data-plane checker failure
(R129). -/
def execExpressUnderrun (port : Fin 16) : State → Host.Outcome State Fault Refusal :=
  onDev (fun now d =>
    match (d.port port).tx with
    | none => d
    | some t =>
      if t.pkt.place ≠ .express ∨ t.beat then d
      else
        let d1 := ((d.setPort port { d.port port with tx := none }).spoil port t).bump PRT.TXUNDERRUN_EXP port
        (d1.raiseSec now (ev 5 18) port port).payloadFailure now (some port))

/-- LINK_DOWN: a port's link goes down (R124, R135; 14 R379). -/
def execLinkDown (port : Fin 16) : State → Host.Outcome State Fault Refusal :=
  onDev (fun now d => if d.linkUp port then d.linkFalls now port else d)

/-- HEARTBEAT_SEND: HBINT passes on a path that is not DISABLED, and a heartbeat is due: the MAC sends it ahead of the frames
of HBCLASS (14 R377). Heartbeats stop in the safe state of the port (18 R481), and while its link is down. -/
def execHeartbeatSend (path : Fin 4) : State → Host.Outcome State Fault Refusal :=
  onDev (fun _ d =>
    let n := d.pathPort path
    if !d.pairOn (path / 2) || decide (d.pathState path = pathDisabled) || d.portSafe n || !d.linkUp n then d
    else d.setPathSt path { d.pathSt path with hbDue := true })

end Sys2Proof.Machine
end

