-- ==== Sys2Proof/Machine/Dispatch.lean ====
section
/-! DEFINITION. The command dispatch: one arm per command of the opcode table. -/

namespace Sys2Proof.Machine

def exec (i : Instr) (s : State) : Host.Outcome State Fault Refusal :=
  match i with
  | .registerWrite fn bar off width data tlp => Sys2Proof.Machine.execRegisterWrite fn bar off width data tlp s
  | .readClear fn bar off len => Sys2Proof.Machine.execReadClear fn bar off len s
  | .secondBoundary => Sys2Proof.Machine.execSecondBoundary s
  | .frameReceive port a f1 f2 ecc => Sys2Proof.Machine.execFrameReceive port a f1 f2 ecc s
  | .homeSliceTake slice ecc => Sys2Proof.Machine.execHomeSliceTake slice ecc s
  | .dataGrant who line ecc => Sys2Proof.Machine.execDataGrant who line ecc s
  | .snoop who line kind => Sys2Proof.Machine.execSnoop who line kind s
  | .storeReloadDone bay => Sys2Proof.Machine.execStoreReloadDone bay s
  | .contextWatchdog x bad => Sys2Proof.Machine.execContextWatchdog x bad s
  | .stallWatchdog n bad => Sys2Proof.Machine.execStallWatchdog n bad s
  | .retest n => Sys2Proof.Machine.execRetest n s
  | .retestDone n pass => Sys2Proof.Machine.execRetestDone n pass s
  | .engineWithdraw n => Sys2Proof.Machine.execEngineWithdraw n s
  | .withdrawDone n => Sys2Proof.Machine.execWithdrawDone n s
  | .engineOnline n => Sys2Proof.Machine.execEngineOnline n s
  | .engCommit => Sys2Proof.Machine.execEngCommit s
  | .taskDue bay entry => Sys2Proof.Machine.execTaskDue bay entry s
  | .taskStart bay => Sys2Proof.Machine.execTaskStart bay s
  | .resultArrival x k race => Sys2Proof.Machine.execResultArrival x k race s
  | .deferredTermination x => Sys2Proof.Machine.execDeferredTermination x s
  | .interruptTrap core => Sys2Proof.Machine.execInterruptTrap core s
  | .add x rd ra rb => Sys2Proof.Machine.execAdd x rd ra rb s
  | .sub x rd ra rb => Sys2Proof.Machine.execSub x rd ra rb s
  | .and x rd ra rb => Sys2Proof.Machine.execAnd x rd ra rb s
  | .or x rd ra rb => Sys2Proof.Machine.execOr x rd ra rb s
  | .xor x rd ra rb => Sys2Proof.Machine.execXor x rd ra rb s
  | .andn x rd ra rb => Sys2Proof.Machine.execAndn x rd ra rb s
  | .shl x rd ra rb => Sys2Proof.Machine.execShl x rd ra rb s
  | .shr x rd ra rb => Sys2Proof.Machine.execShr x rd ra rb s
  | .sar x rd ra rb => Sys2Proof.Machine.execSar x rd ra rb s
  | .rol x rd ra rb => Sys2Proof.Machine.execRol x rd ra rb s
  | .minu x rd ra rb => Sys2Proof.Machine.execMinu x rd ra rb s
  | .maxu x rd ra rb => Sys2Proof.Machine.execMaxu x rd ra rb s
  | .mul x rd ra rb => Sys2Proof.Machine.execMul x rd ra rb s
  | .mulhu x rd ra rb => Sys2Proof.Machine.execMulhu x rd ra rb s
  | .clz x rd ra => Sys2Proof.Machine.execClz x rd ra s
  | .popc x rd ra => Sys2Proof.Machine.execPopc x rd ra s
  | .bswap x rd ra => Sys2Proof.Machine.execBswap x rd ra s
  | .divu x rd ra rb => Sys2Proof.Machine.execDivu x rd ra rb s
  | .remu x rd ra rb => Sys2Proof.Machine.execRemu x rd ra rb s
  | .addi x rd ra imm => Sys2Proof.Machine.execAddi x rd ra imm s
  | .andi x rd ra imm => Sys2Proof.Machine.execAndi x rd ra imm s
  | .ori x rd ra imm => Sys2Proof.Machine.execOri x rd ra imm s
  | .xori x rd ra imm => Sys2Proof.Machine.execXori x rd ra imm s
  | .shli x rd ra sh => Sys2Proof.Machine.execShli x rd ra sh s
  | .shri x rd ra sh => Sys2Proof.Machine.execShri x rd ra sh s
  | .sari x rd ra sh => Sys2Proof.Machine.execSari x rd ra sh s
  | .movi x rd imm => Sys2Proof.Machine.execMovi x rd imm s
  | .movk x rd h imm => Sys2Proof.Machine.execMovk x rd h imm s
  | .ext x rd ra pos len1 => Sys2Proof.Machine.execExt x rd ra pos len1 s
  | .ins x rd ra pos len1 => Sys2Proof.Machine.execIns x rd ra pos len1 s
  | .crc x rd ra rb => Sys2Proof.Machine.execCrc x rd ra rb s
  | .cmp x pd cond ra rb => Sys2Proof.Machine.execCmp x pd cond ra rb s
  | .cmpi x pd cond ra imm => Sys2Proof.Machine.execCmpi x pd cond ra imm s
  | .plog x pd pa pb tt => Sys2Proof.Machine.execPlog x pd pa pb tt s
  | .sel x rd ra rb p => Sys2Proof.Machine.execSel x rd ra rb p s
  | .assertP x p n code => Sys2Proof.Machine.execAssert x p n code s
  | .wld x rd off sz => Sys2Proof.Machine.execWld x rd off sz s
  | .wst x ra off sz => Sys2Proof.Machine.execWst x ra off sz s
  | .wldx x rd ra off sz => Sys2Proof.Machine.execWldx x rd ra off sz s
  | .wstx x rd ra off sz => Sys2Proof.Machine.execWstx x rd ra off sz s
  | .wget x rd win => Sys2Proof.Machine.execWget x rd win s
  | .wput x ra win => Sys2Proof.Machine.execWput x ra win s
  | .wbase x ra => Sys2Proof.Machine.execWbase x ra s
  | .hadj x ra => Sys2Proof.Machine.execHadj x ra s
  | .csum x rd ra off sz => Sys2Proof.Machine.execCsum x rd ra off sz s
  | .mdr x rd field => Sys2Proof.Machine.execMdr x rd field s
  | .mdw x ra field => Sys2Proof.Machine.execMdw x ra field s
  | .ld x rd ra sp sz sx imm ecc => Sys2Proof.Machine.execLd x rd ra sp sz sx imm ecc s
  | .st x rs ra sp sz imm ecc => Sys2Proof.Machine.execSt x rs ra sp sz imm ecc s
  | .amo x rd ra rb k fn wide => Sys2Proof.Machine.execAmo x rd ra rb k fn wide s
  | .br x p n off => Sys2Proof.Machine.execBr x p n off s
  | .loop x cnt bodyEnd => Sys2Proof.Machine.execLoop x cnt bodyEnd s
  | .loopr x ra bodyEnd => Sys2Proof.Machine.execLoopr x ra bodyEnd s
  | .brk x p n => Sys2Proof.Machine.execBreak x p n s
  | .lidx x rd => Sys2Proof.Machine.execLidx x rd s
  | .call x fidx => Sys2Proof.Machine.execCall x fidx s
  | .ret x => Sys2Proof.Machine.execRet x s
  | .jt x ra table => Sys2Proof.Machine.execJt x ra table s
  | .jr x ra => Sys2Proof.Machine.execJr x ra s
  | .lka x rd ra k profile f1 f2 => Sys2Proof.Machine.execLka x rd ra k profile f1 f2 s
  | .lkaLate x k => Sys2Proof.Machine.execLkaLate x k s
  | .lkh x rd ra rb k table ecc => Sys2Proof.Machine.execLkh x rd ra rb k table ecc s
  | .lkc x rd ra rb k table create ecc => Sys2Proof.Machine.execLkc x rd ra rb k table create ecc s
  | .mtr x rd ra rb k => Sys2Proof.Machine.execMtr x rd ra rb k s
  | .cisOnward x rd ra rb k ecc => Sys2Proof.Machine.execCisOnward x rd ra rb k ecc s
  | .cisReturn x rd ra rb k => Sys2Proof.Machine.execCisReturn x rd ra rb k s
  | .tunEncapsulate x rd ra k => Sys2Proof.Machine.execTunEncapsulate x rd ra k s
  | .tunDecapsulate x rd ra k => Sys2Proof.Machine.execTunDecapsulate x rd ra k s
  | .tunMark x rd ra k => Sys2Proof.Machine.execTunMark x rd ra k s
  | .rand x rd k => Sys2Proof.Machine.execRand x rd k s
  | .await x k => Sys2Proof.Machine.execAwait x k s
  | .emit x ra twoStep oneStep => Sys2Proof.Machine.execEmit x ra twoStep oneStep s
  | .copy x ra => Sys2Proof.Machine.execCopy x ra s
  | .drop x reason => Sys2Proof.Machine.execDrop x reason s
  | .punt x code => Sys2Proof.Machine.execPunt x code s
  | .tdone x ra => Sys2Proof.Machine.execTdone x ra s
  | .cnt x ra rb => Sys2Proof.Machine.execCnt x ra rb s
  | .timeRead x rd => Sys2Proof.Machine.execTime x rd s
  | .tarm x rd ra rb idx => Sys2Proof.Machine.execTarm x rd ra rb idx s
  | .trdy x rd ra => Sys2Proof.Machine.execTrdy x rd ra s
  | .tcan x rd ra race => Sys2Proof.Machine.execTcan x rd ra race s
  | .trdyx x rd ra k => Sys2Proof.Machine.execTrdyx x rd ra k s
  | .tcanx x rd ra k => Sys2Proof.Machine.execTcanx x rd ra k s
  | .ior x rd ra imm => Sys2Proof.Machine.execIor x rd ra imm s
  | .iow x rs ra imm => Sys2Proof.Machine.execIow x rs ra imm s
  | .csrr x rd csr => Sys2Proof.Machine.execCsrr x rd csr s
  | .csrw x ra csr => Sys2Proof.Machine.execCsrw x ra csr s
  | .eret x => Sys2Proof.Machine.execEret x s
  | .wfe x => Sys2Proof.Machine.execWfe x s
  | .loaderLoad pf len image => Sys2Proof.Machine.execLoaderLoad pf len image s
  | .loaderBind pf b => Sys2Proof.Machine.execLoaderBind pf b s
  | .loaderUnbind pf mask slot zeroOk => Sys2Proof.Machine.execLoaderUnbind pf mask slot zeroOk s
  | .loaderCommit pf => Sys2Proof.Machine.execLoaderCommit pf s
  | .loaderUnload pf handle => Sys2Proof.Machine.execLoaderUnload pf handle s
  | .loaderQuery pf what => Sys2Proof.Machine.execLoaderQuery pf what s
  | .imageFreed handle => Sys2Proof.Machine.execImageFreed handle s
  | .enrol pf idx hash => Sys2Proof.Machine.execEnrol pf idx hash s
  | .revoke pf idx => Sys2Proof.Machine.execRevoke pf idx s
  | .cntselWrite pf kind index => Sys2Proof.Machine.execCntselWrite pf kind index s
  | .cntclr pf => Sys2Proof.Machine.execCntclr pf s
  | .modeApply port => Sys2Proof.Machine.execModeApply port s
  | .modeChangeDone group => Sys2Proof.Machine.execModeChangeDone group s
  | .portEnable port lt => Sys2Proof.Machine.execPortEnable port lt s
  | .linkUp port => Sys2Proof.Machine.execLinkUp port s
  | .linkDown port => Sys2Proof.Machine.execLinkDown port s
  | .fecSecond port => Sys2Proof.Machine.execFecSecond port s
  | .verifyTimer port => Sys2Proof.Machine.execVerifyTimer port s
  | .transmitStart port crcOk => Sys2Proof.Machine.execTransmitStart port crcOk s
  | .preemption port len => Sys2Proof.Machine.execPreemption port len s
  | .transmitEnd port => Sys2Proof.Machine.execTransmitEnd port s
  | .hbmUnderrun port => Sys2Proof.Machine.execHbmUnderrun port s
  | .expressUnderrun port => Sys2Proof.Machine.execExpressUnderrun port s
  | .profileApply pipe n => Sys2Proof.Machine.execProfileApply pipe n s
  | .acsWrite w pipe bank index => Sys2Proof.Machine.execAcsWrite w pipe bank index s
  | .acsInvalidate w pipe bank index => Sys2Proof.Machine.execAcsInvalidate w pipe bank index s
  | .acsRead w pipe bank index => Sys2Proof.Machine.execAcsRead w pipe bank index s
  | .acsSearch w pipe profile f1 f2 => Sys2Proof.Machine.execAcsSearch w pipe profile f1 f2 s
  | .acsNext w pipe f1 f2 => Sys2Proof.Machine.execAcsNext w pipe f1 f2 s
  | .acsSetwidth w pipe bank width => Sys2Proof.Machine.execAcsSetwidth w pipe bank width s
  | .scrub pipe bank index differs => Sys2Proof.Machine.execScrub pipe bank index differs s
  | .areasReady => Sys2Proof.Machine.execAreasReady s
  | .tableDescriptor pipe t desc => Sys2Proof.Machine.execTableDescriptor pipe t desc s
  | .ageTick => Sys2Proof.Machine.execAgeTick s
  | .markingWrite => Sys2Proof.Machine.execMarkingWrite s
  | .sweepVisit area bucket => Sys2Proof.Machine.execSweepVisit area bucket s
  | .tableDma area bucket data mask cmpv => Sys2Proof.Machine.execTableDma area bucket data mask cmpv s
  | .lockRelease area bucket => Sys2Proof.Machine.execLockRelease area bucket s
  | .lockTimeout area bucket => Sys2Proof.Machine.execLockTimeout area bucket s
  | .settleExpiry pipe n => Sys2Proof.Machine.execSettleExpiry pipe n s
  | .learnNotification pipe => Sys2Proof.Machine.execLearnNotification pipe s
  | .dampExpiry area bucket => Sys2Proof.Machine.execDampExpiry area bucket s
  | .dispatch => Sys2Proof.Machine.execDispatch s
  | .redispatch pipe => Sys2Proof.Machine.execRedispatch pipe s
  | .collectorAccept inject seq => Sys2Proof.Machine.execCollectorAccept inject seq s
  | .templateCommit n => Sys2Proof.Machine.execTemplateCommit n s
  | .handOver fn conn state => Sys2Proof.Machine.execHandOver fn conn state s
  | .tcpSegmentReceive conn => Sys2Proof.Machine.execTcpSegmentReceive conn s
  | .delayedAck conn => Sys2Proof.Machine.execDelayedAck conn s
  | .retransmitTimer conn => Sys2Proof.Machine.execRetransmitTimer conn s
  | .queuePairCreate fn req => Sys2Proof.Machine.execQueuePairCreate fn req s
  | .roceFrameReceive bytes read => Sys2Proof.Machine.execRoceFrameReceive bytes read s
  | .ackTimeout qpn covered => Sys2Proof.Machine.execAckTimeout qpn covered s
  | .rdmaWorkRequest ring data => Sys2Proof.Machine.execRdmaWorkRequest ring data s
  | .storageCommand ring bufs data => Sys2Proof.Machine.execStorageCommand ring bufs data s
  | .nvmeQueueDoorbell fn index value cmds => Sys2Proof.Machine.execNvmeQueueDoorbell fn index value cmds s
  | .remoteCompletion => Sys2Proof.Machine.execRemoteCompletion s
  | .ccEnClear fn => Sys2Proof.Machine.execCcEnClear fn s
  | .ccShn fn shn => Sys2Proof.Machine.execCcShn fn shn s
  | .shutdownComplete fn => Sys2Proof.Machine.execShutdownComplete fn s
  | .personalityAssign pf vf namespaces => Sys2Proof.Machine.execPersonalityAssign pf vf namespaces s
  | .chunkBoundary core ecc => Sys2Proof.Machine.execChunkBoundary core ecc s
  | .returnLate => Sys2Proof.Machine.execReturnLate s
  | .jobComplete core => Sys2Proof.Machine.execJobComplete core s
  | .merge job => Sys2Proof.Machine.execMerge job s
  | .katRun core pass => Sys2Proof.Machine.execKatRun core pass s
  | .session pf hostKey reply => Sys2Proof.Machine.execSession pf hostKey reply s
  | .keyLoad pf slot blob => Sys2Proof.Machine.execKeyLoad pf slot blob s
  | .generate pf slot attrs => Sys2Proof.Machine.execGenerate pf slot attrs s
  | .keyExport pf slot reply ecc => Sys2Proof.Machine.execExport pf slot reply ecc s
  | .keyImport pf slot blob => Sys2Proof.Machine.execImport pf slot blob s
  | .retire pf slot => Sys2Proof.Machine.execRetire pf slot s
  | .retiringDrain slot => Sys2Proof.Machine.execRetiringDrain slot s
  | .keyQuery pf slot reply => Sys2Proof.Machine.execKeyQuery pf slot reply s
  | .cert pf reply => Sys2Proof.Machine.execCert pf reply s
  | .rootgen pf => Sys2Proof.Machine.execRootgen pf s
  | .tamperAck pf => Sys2Proof.Machine.execTamperAck pf s
  | .tamperCfg pf tcfg => Sys2Proof.Machine.execTamperCfg pf tcfg s
  | .setRtc pf rtc => Sys2Proof.Machine.execSetRtc pf rtc s
  | .zeroiseAll pf => Sys2Proof.Machine.execZeroiseAll pf s
  | .entropyTestFail => Sys2Proof.Machine.execEntropyTestFail s
  | .drbgReseed inst => Sys2Proof.Machine.execDrbgReseed inst s
  | .tamperInput inputs => Sys2Proof.Machine.execTamperInput inputs s
  | .meshMismatch => Sys2Proof.Machine.execMeshMismatch s
  | .aclkStop => Sys2Proof.Machine.execAclkStop s
  | .batteryLoss => Sys2Proof.Machine.execBatteryLoss s
  | .batlow low => Sys2Proof.Machine.execBatlow low s
  | .classBufferRequest port cls => Sys2Proof.Machine.execClassBufferRequest port cls s
  | .refill => Sys2Proof.Machine.execRefill s
  | .nodeRead w lvl n => Sys2Proof.Machine.execNodeRead w lvl n s
  | .nodeWrite w lvl n => Sys2Proof.Machine.execNodeWrite w lvl n s
  | .timeSet pf => Sys2Proof.Machine.execTimeSet pf s
  | .timeStep pf => Sys2Proof.Machine.execTimeStep pf s
  | .rateWrite pf rate => Sys2Proof.Machine.execRateWrite pf rate s
  | .tnowloRead pf => Sys2Proof.Machine.execTnowloRead pf s
  | .ppsOutEnd => Sys2Proof.Machine.execPpsOutEnd s
  | .ppsIn => Sys2Proof.Machine.execPpsIn s
  | .txtsaRead fn port => Sys2Proof.Machine.execTxtsaRead fn port s
  | .gateChange port => Sys2Proof.Machine.execGateChange port s
  | .bermStart port cls len => Sys2Proof.Machine.execBermStart port cls len s
  | .sluiceChange port => Sys2Proof.Machine.execSluiceChange port s
  | .sluiceCancel port => Sys2Proof.Machine.execSluiceCancel port s
  | .takeOver port => Sys2Proof.Machine.execTakeOver port s
  | .copyBackDone port => Sys2Proof.Machine.execCopyBackDone port s
  | .setup fn reply buffer entries => Sys2Proof.Machine.execSetup fn reply buffer entries s
  | .admQuery fn contract reply => Sys2Proof.Machine.execAdmQuery fn contract reply s
  | .epochq fn => Sys2Proof.Machine.execEpochq fn s
  | .activationComplete => Sys2Proof.Machine.execActivationComplete s
  | .revalidation => Sys2Proof.Machine.execRevalidation s
  | .heartbeatSend path => Sys2Proof.Machine.execHeartbeatSend path s
  | .heartbeatMiss path => Sys2Proof.Machine.execHeartbeatMiss path s
  | .resyncEnd path => Sys2Proof.Machine.execResyncEnd path s
  | .ilkOutPeriod => Sys2Proof.Machine.execIlkOutPeriod s
  | .ilkInPulse high => Sys2Proof.Machine.execIlkInPulse high s
  | .ilkInLost => Sys2Proof.Machine.execIlkInLost s
  | .inbandLost => Sys2Proof.Machine.execInbandLost s
  | .roleDecision => Sys2Proof.Machine.execRoleDecision s
  | .hostLinkUp l rate width flit cxl => Sys2Proof.Machine.execHostLinkUp l rate width flit cxl s
  | .hostLinkDown l => Sys2Proof.Machine.execHostLinkDown l s
  | .linkReset l perst => Sys2Proof.Machine.execLinkReset l perst s
  | .perstRelease l => Sys2Proof.Machine.execPerstRelease l s
  | .configRequest fn req => Sys2Proof.Machine.execConfigRequest fn req s
  | .urRequest fn => Sys2Proof.Machine.execUrRequest fn s
  | .expansionRomRead fn off len => Sys2Proof.Machine.execExpansionRomRead fn off len s
  | .completionArrival l tag status f1 f2 ecc => Sys2Proof.Machine.execCompletionArrival l tag status f1 f2 ecc s
  | .completionTimeout l tag => Sys2Proof.Machine.execCompletionTimeout l tag s
  | .translationCompletion fn page answer => Sys2Proof.Machine.execTranslationCompletion fn page answer s
  | .atsInvalidation fn page => Sys2Proof.Machine.execAtsInvalidation fn page s
  | .initiateFlr fn => Sys2Proof.Machine.execInitiateFlr fn s
  | .flrComplete fn => Sys2Proof.Machine.execFlrComplete fn s
  | .d3hotEntry fn => Sys2Proof.Machine.execD3hotEntry fn s
  | .d0Return fn => Sys2Proof.Machine.execD0Return fn s
  | .vectorUnmask fn vec => Sys2Proof.Machine.execVectorUnmask fn vec s
  | .cxlSnoop line kind => Sys2Proof.Machine.execCxlSnoop line kind s
  | .globalObservation cpl ring => Sys2Proof.Machine.execGlobalObservation cpl ring s
  | .cacheEnableClear => Sys2Proof.Machine.execCacheEnableClear s
  | .writeBackInvalidate => Sys2Proof.Machine.execWriteBackInvalidate s
  | .submissionTailDoorbell fn slot value => Sys2Proof.Machine.execSubmissionTailDoorbell fn slot value s
  | .receiveTailDoorbell fn slot value => Sys2Proof.Machine.execReceiveTailDoorbell fn slot value s
  | .completionHeadDoorbell fn slot value => Sys2Proof.Machine.execCompletionHeadDoorbell fn slot value s
  | .contextWrite w kind ring => Sys2Proof.Machine.execContextWrite w kind ring s
  | .contextEnable w kind ring => Sys2Proof.Machine.execContextEnable w kind ring s
  | .contextDisable w kind ring => Sys2Proof.Machine.execContextDisable w kind ring s
  | .contextRead w kind ring => Sys2Proof.Machine.execContextRead w kind ring s
  | .disableDone kind ring => Sys2Proof.Machine.execDisableDone kind ring s
  | .entryFetch kind ring units ok => Sys2Proof.Machine.execEntryFetch kind ring units ok s
  | .descriptorStart g payload => Sys2Proof.Machine.execDescriptorStart g payload s
  | .dmaBurst g crcOk => Sys2Proof.Machine.execDmaBurst g crcOk s
  | .transmitCompletion => Sys2Proof.Machine.execTransmitCompletion s
  | .completionWrite => Sys2Proof.Machine.execCompletionWrite s
  | .coalesceTimer ring => Sys2Proof.Machine.execCoalesceTimer ring s
  | .isolationTimer ring => Sys2Proof.Machine.execIsolationTimer ring s
  | .channelStop g c => Sys2Proof.Machine.execChannelStop g c s
  | .channelStart g c => Sys2Proof.Machine.execChannelStart g c s
  | .send who => Sys2Proof.Machine.execSend who s
  | .withdraw who wseq => Sys2Proof.Machine.execWithdraw who wseq s
  | .pop who => Sys2Proof.Machine.execPop who s
  | .secureSend pf => Sys2Proof.Machine.execSecureSend pf s
  | .secureWithdraw pf wseq => Sys2Proof.Machine.execSecureWithdraw pf wseq s
  | .securePop pf => Sys2Proof.Machine.execSecurePop pf s
  | .controlServicePickup => Sys2Proof.Machine.execControlServicePickup s
  | .grant fn body => Sys2Proof.Machine.execGrant fn body s
  | .limits fn body => Sys2Proof.Machine.execLimits fn body s
  | .resourcesQuery fn body => Sys2Proof.Machine.execResourcesQuery fn body s
  | .tablesRequest pf req accepted => Sys2Proof.Machine.execTablesRequest pf req accepted s
  | .pairCheck pair agree => Sys2Proof.Machine.execPairCheck pair agree s
  | .reactionDeadline => Sys2Proof.Machine.execReactionDeadline s
  | .lockstepMismatch core => Sys2Proof.Machine.execLockstepMismatch core s
  | .mgtLockstepMismatch => Sys2Proof.Machine.execMgtLockstepMismatch s
  | .mgtRestartDone => Sys2Proof.Machine.execMgtRestartDone s
  | .gateComparator port equal => Sys2Proof.Machine.execGateComparator port equal s
  | .controlHeartbeatMiss core => Sys2Proof.Machine.execControlHeartbeatMiss core s
  | .clockMonitor dom inRange => Sys2Proof.Machine.execClockMonitor dom inRange s
  | .supplyMonitor rail inRange => Sys2Proof.Machine.execSupplyMonitor rail inRange s
  | .supplyNearLimit rail => Sys2Proof.Machine.execSupplyNearLimit rail s
  | .temperatureSample sensor temp => Sys2Proof.Machine.execTemperatureSample sensor temp s
  | .throttleEnd => Sys2Proof.Machine.execThrottleEnd s
  | .hwCopyCompare kind inst found => Sys2Proof.Machine.execHwCopyCompare kind inst found s
  | .objectScan kind inst a b c => Sys2Proof.Machine.execObjectScan kind inst a b c s
  | .psclr pf ports => Sys2Proof.Machine.execPsclr pf ports s
  | .polclr pf polder => Sys2Proof.Machine.execPolclr pf polder s
  | .fclrDevice pf => Sys2Proof.Machine.execFclrDevice pf s
  | .fclrRelease pf => Sys2Proof.Machine.execFclrRelease pf s
  | .inject pf sm inst => Sys2Proof.Machine.execInject pf sm inst s
  | .maskWrite pf group value => Sys2Proof.Machine.execMaskWrite pf group value s
  | .recaRead pf => Sys2Proof.Machine.execRecaRead pf s
  | .randccRead pf => Sys2Proof.Machine.execRandccRead pf s
  | .powerOnRelease => Sys2Proof.Machine.execPowerOnRelease s
  | .readyBitSet bit cores => Sys2Proof.Machine.execReadyBitSet bit cores s
  | .selfTestFail bit sms => Sys2Proof.Machine.execSelfTestFail bit sms s
  | .topResetWarm pf => Sys2Proof.Machine.execTopResetWarm pf s
  | .wrstN => Sys2Proof.Machine.execWrstN s
  | .warmResetComplete => Sys2Proof.Machine.execWarmResetComplete s
  | .referenceExcursion input => Sys2Proof.Machine.execReferenceExcursion input s
  | .frequencyMeasure freqs refs => Sys2Proof.Machine.execFrequencyMeasure freqs refs s
  | .calCommit pf => Sys2Proof.Machine.execCalCommit pf s
  | .calCommitTimeout => Sys2Proof.Machine.execCalCommitTimeout s
  | .ncsiCommand channel req => Sys2Proof.Machine.execNcsiCommand channel req s
  | .ncsiPassthrough channel frame => Sys2Proof.Machine.execNcsiPassthrough channel frame s
  | .sidebandLost => Sys2Proof.Machine.execSidebandLost s
  | .mctpMessage via req => Sys2Proof.Machine.execMctpMessage via req s
  | .pldmRequest via req => Sys2Proof.Machine.execPldmRequest via req s
  | .vendorWarmReset via => Sys2Proof.Machine.execVendorWarmReset via s
  | .vendorSnapshotRequest via readings => Sys2Proof.Machine.execVendorSnapshotRequest via readings s
  | .vendorSnapshotRead via set block => Sys2Proof.Machine.execVendorSnapshotRead via set block s
  | .snapreq pf readings => Sys2Proof.Machine.execSnapreq pf readings s
  | .snapshotPeriod readings => Sys2Proof.Machine.execSnapshotPeriod readings s
  | .shareWindow mbox learn exc busy => Sys2Proof.Machine.execShareWindow mbox learn exc busy s
  | .requestUpdate via components => Sys2Proof.Machine.execRequestUpdate via components s
  | .verifyComplete image => Sys2Proof.Machine.execVerifyComplete image s
  | .applyComplete ok => Sys2Proof.Machine.execApplyComplete ok s
  | .activateFirmware via selfContained => Sys2Proof.Machine.execActivateFirmware via selfContained s
  | .otpProg pf => Sys2Proof.Machine.execOtpProg pf s
  | .busStuck seg line => Sys2Proof.Machine.execBusStuck seg line s
  | .moduleBusProbe trunkLow lines => Sys2Proof.Machine.execModuleBusProbe trunkLow lines s
  | .mbsRetry pf trunkLow => Sys2Proof.Machine.execMbsRetry pf trunkLow s
  | .segmentRetry pf seg line => Sys2Proof.Machine.execSegmentRetry pf seg line s
  | .presenceChange cage present => Sys2Proof.Machine.execPresenceChange cage present s
  | .presenceScan pf => Sys2Proof.Machine.execPresenceScan pf s
  | .scanSettle => Sys2Proof.Machine.execScanSettle s
  | .modulePoll cage answer => Sys2Proof.Machine.execModulePoll cage answer s
  | .powerDown => Sys2Proof.Machine.execPowerDown s
  | .vbatApplication => Sys2Proof.Machine.execVbatApplication s
  | .rnrTimer qpn => Sys2Proof.Machine.execRnrTimer qpn s
  | .controllerEnable fn => Sys2Proof.Machine.execControllerEnable fn s
  | .controlCoreReturn core pass => Sys2Proof.Machine.execControlCoreReturn core pass s

end Sys2Proof.Machine
end

