-- ==== Sys2Proof/Safety.lean ====
section
/-! DEFINITION. What counts as a safe run of the model: no command stops it. -/

namespace Sys2Proof

/-- The step from `s` is safe: it answers a next state. -/
def SafeStep (s : Machine.State) : Prop := ∃ t, Machine.step s = .next t

/-- Network time within its fields (00_scope R10; 12 R311): 48 bits of seconds, nanoseconds below one second, 40 bits of fraction. -/
def LegalTime (t : Machine.NetTime) : Prop := t.sec < 2 ^ 48 ∧ t.ns ≤ 999999999 ∧ t.frac < 2 ^ 40

/-- Network time as one number, in fractions of 2⁻⁴⁰ ns (12 R311). -/
def timeUnits (t : Machine.NetTime) : Nat := (t.sec * 1000000000 + t.ns) * 2 ^ 40 + t.frac

/-- The commands that set network time themselves (12 R311, R312; 18 R568; 19 R504). -/
def MovesTime : Instr → Bool
  | .timeSet _ | .timeStep _ | .secondBoundary | .powerOnRelease | .powerDown => true
  | _ => false

end Sys2Proof
end

