-- ==== Sys2Proof/WellFormed.lean ====
section
/-! DEFINITION. Which commands are well formed: operands that fit the access, message or event that carries them. Most operands are
bounded by their types; the checks here are the rest. A command that is not well formed is none that the surroundings can send. -/

namespace Sys2Proof

/-- A frame at a MAC is no longer than a jumbo frame with room to spare; counts of codewords are those of one report. -/
def Arrival.wf : Arrival → Bool
  | .frame bytes _ => decide (bytes.length ≤ 16384)
  | .codewords c u s => decide (c < 2 ^ 32 ∧ u < 2 ^ 32 ∧ s < 2 ^ 32)
  | .start _ b _ _ => decide (b.length ≤ 16384)
  | .cont _ _ b _ _ => decide (b.length ≤ 16384)
  | .overrun | .cutOff | .verify | .verifyResponse => true

/-- The fields of a BIND fit the bytes that carry them (04 R94); a value out of the field's range is sent and refused with FIELD (04 R95). -/
def BindReq.wf (b : BindReq) : Bool :=
  decide (b.handle < 256 ∧ b.mask < 256 ∧ b.slot < 65536 ∧ b.fault < 256 ∧ b.scope < 256 ∧ b.cntBase < 2 ^ 32 ∧ b.cntCount < 2 ^ 32)

/-- An address of a connection has 4 or 16 bytes. -/
def addrOk (v6 : Bool) (a : List Byte) : Bool := decide (a.length = if v6 then 16 else 4)

/-- The fields of a hand-over fit (09 R226). -/
def TcpState.wf (x : TcpState) : Bool :=
  addrOk x.v6 x.laddr && addrOk x.v6 x.raddr && decide (x.lport < 65536 ∧ x.rport < 65536 ∧ x.una < 2 ^ 32 ∧ x.nxt < 2 ^ 32 ∧ x.rcv < 2 ^ 32)

/-- The fields of a queue pair's request fit (09 R229). -/
def QpReq.wf (x : QpReq) : Bool :=
  addrOk x.v6 x.laddr && addrOk x.v6 x.raddr && decide (x.dqpn < 2 ^ 24 ∧ x.spsn < 2 ^ 24 ∧ x.epsn < 2 ^ 24)

/-- The MAC filter of a Set MAC Address command has a number of the standard. -/
def NcsiReq.wf : NcsiReq → Bool
  | .setMac slot _ _ => decide (1 ≤ slot ∧ slot < 256)
  | .clearInitial | .selectPackage | .deselectPackage | .enableChannel | .disableChannel | .resetChannel | .enableTx | .disableTx
  | .aenEnable _ | .getLink | .enableBroadcast | .disableBroadcast | .info _ | .other _ => true

/-- A sensor number has 16 bits. -/
def PldmReq.wf : PldmReq → Bool
  | .sensorReading id _ => decide (id < 65536)
  | .stateReading id => decide (id < 65536)
  | .setTid _ | .getTid | .getVersion | .getTypes | .getCommands _ | .other _ _ => true

/-- A snapshot has 16 temperatures, 9 rails and 16 modules (20 R526). -/
def Readings.wf (r : Readings) : Bool := decide (r.temps.length ≤ 16 ∧ r.rails.length ≤ 9 ∧ r.modules.length ≤ 16)

/-- A template has 128 bytes (09 R216). -/
def TableReq.wf : TableReq → Bool
  | .template _ bytes => decide (bytes.length = 128)
  | .entry _ _ _ _ | .bank _ _ _ | .setting _ _ => true

/-- A message has at most 64 bytes (17 R465). -/
def MailSender.wf : MailSender → Bool
  | .fn _ => true
  | .cores _ body | .manager _ body => decide (body.length ≤ 64)

/-- How many objects of a kind the triple store has (18 R487). -/
def objectCount (kind : Fin 6) : Nat :=
  match kind with
  | 0 => 20 | 1 => 1 | 2 => 4 | 3 => 8192 | 4 => 2 | 5 => 1

/-- Whether a command is well formed. -/
def Instr.wf : Instr → Bool
  | .registerWrite _ _ _ width data _ => decide (width = .w8 ∨ data.toNat < 2 ^ 32)
  | .readClear _ _ _ len => decide (1 ≤ len ∧ len ≤ 4096)
  | .secondBoundary => true
  | .frameReceive _ a _ _ _ => a.wf
  | .homeSliceTake _ _ => true
  | .dataGrant _ line _ => decide (line < 2 ^ 29)
  | .snoop _ line _ => decide (line < 2 ^ 29)
  | .storeReloadDone _ => true
  | .contextWatchdog _ bad => bad.all (fun l => decide (l < 2 ^ 29))
  | .stallWatchdog _ bad => bad.all (fun l => decide (l < 2 ^ 29))
  | .retest _ => true
  | .retestDone _ _ => true
  | .engineWithdraw _ => true
  | .withdrawDone _ => true
  | .engineOnline _ => true
  | .engCommit => true
  | .taskDue _ _ => true
  | .taskStart _ => true
  | .resultArrival _ _ _ => true
  | .deferredTermination _ => true
  | .interruptTrap _ => true
  | .add _ _ _ _ => true
  | .sub _ _ _ _ => true
  | .and _ _ _ _ => true
  | .or _ _ _ _ => true
  | .xor _ _ _ _ => true
  | .andn _ _ _ _ => true
  | .shl _ _ _ _ => true
  | .shr _ _ _ _ => true
  | .sar _ _ _ _ => true
  | .rol _ _ _ _ => true
  | .minu _ _ _ _ => true
  | .maxu _ _ _ _ => true
  | .mul _ _ _ _ => true
  | .mulhu _ _ _ _ => true
  | .clz _ _ _ => true
  | .popc _ _ _ => true
  | .bswap _ _ _ => true
  | .divu _ _ _ _ => true
  | .remu _ _ _ _ => true
  | .addi _ _ _ _ => true
  | .andi _ _ _ _ => true
  | .ori _ _ _ _ => true
  | .xori _ _ _ _ => true
  | .shli _ _ _ _ => true
  | .shri _ _ _ _ => true
  | .sari _ _ _ _ => true
  | .movi _ _ _ => true
  | .movk _ _ _ _ => true
  | .ext _ _ _ _ _ => true
  | .ins _ _ _ _ _ => true
  | .crc _ _ _ _ => true
  | .cmp _ _ _ _ _ => true
  | .cmpi _ _ _ _ _ => true
  | .plog _ _ _ _ _ => true
  | .sel _ _ _ _ _ => true
  | .assertP _ _ _ _ => true
  | .wld _ _ _ _ => true
  | .wst _ _ _ _ => true
  | .wldx _ _ _ _ _ => true
  | .wstx _ _ _ _ _ => true
  | .wget _ _ _ => true
  | .wput _ _ _ => true
  | .wbase _ _ => true
  | .hadj _ _ => true
  | .csum _ _ _ _ _ => true
  | .mdr _ _ _ => true
  | .mdw _ _ _ => true
  | .ld _ _ _ _ _ _ _ _ => true
  | .st _ _ _ _ _ _ _ => true
  | .amo _ _ _ _ _ _ _ => true
  | .br _ _ _ _ => true
  | .loop _ _ _ => true
  | .loopr _ _ _ => true
  | .brk _ _ _ => true
  | .lidx _ _ => true
  | .call _ _ => true
  | .ret _ => true
  | .jt _ _ _ => true
  | .jr _ _ => true
  | .lka _ _ _ _ _ _ _ => true
  | .lkaLate _ _ => true
  | .lkh _ _ _ _ _ _ _ => true
  | .lkc _ _ _ _ _ _ _ _ => true
  | .mtr _ _ _ _ _ => true
  | .cisOnward _ _ _ _ _ _ => true
  | .cisReturn _ _ _ _ _ => true
  | .tunEncapsulate _ _ _ _ => true
  | .tunDecapsulate _ _ _ _ => true
  | .tunMark _ _ _ _ => true
  | .rand _ _ _ => true
  | .await _ _ => true
  | .emit _ _ _ _ => true
  | .copy _ _ => true
  | .drop _ _ => true
  | .punt _ _ => true
  | .tdone _ _ => true
  | .cnt _ _ _ => true
  | .timeRead _ _ => true
  | .tarm _ _ _ _ _ => true
  | .trdy _ _ _ => true
  | .tcan _ _ _ _ => true
  | .trdyx _ _ _ _ => true
  | .tcanx _ _ _ _ => true
  | .ior _ _ _ _ => true
  | .iow _ _ _ _ => true
  | .csrr _ _ _ => true
  | .csrw _ _ _ => true
  | .eret _ => true
  | .wfe _ => true
  | .loaderLoad _ len image => decide (len < 2 ^ 32) && decide (image.length ≤ len)
  | .loaderBind _ b => b.wf
  | .loaderUnbind _ mask slot _ => decide (mask < 256 ∧ slot < 65536)
  | .loaderCommit _ => true
  | .loaderUnload _ _ => true
  | .loaderQuery _ _ => true
  | .imageFreed _ => true
  | .enrol _ _ _ => true
  | .revoke _ _ => true
  | .cntselWrite _ _ _ => true
  | .cntclr _ => true
  | .modeApply _ => true
  | .modeChangeDone _ => true
  | .portEnable _ _ => true
  | .linkUp _ => true
  | .linkDown _ => true
  | .fecSecond _ => true
  | .verifyTimer _ => true
  | .transmitStart _ _ => true
  | .preemption _ len => decide (64 ≤ len ∧ len ≤ 9600)
  | .transmitEnd _ => true
  | .hbmUnderrun _ => true
  | .expressUnderrun _ => true
  | .profileApply _ _ => true
  | .acsWrite _ _ _ _ => true
  | .acsInvalidate _ _ _ _ => true
  | .acsRead _ _ _ _ => true
  | .acsSearch _ _ _ _ _ => true
  | .acsNext _ _ _ _ => true
  | .acsSetwidth _ _ _ _ => true
  | .scrub _ _ _ _ => true
  | .areasReady => true
  | .tableDescriptor _ _ _ => true
  | .ageTick => true
  | .markingWrite => true
  | .sweepVisit _ _ => true
  | .tableDma _ _ _ _ _ => true
  | .lockRelease _ _ => true
  | .lockTimeout _ _ => true
  | .settleExpiry _ _ => true
  | .learnNotification _ => true
  | .dampExpiry _ _ => true
  | .dispatch => true
  | .redispatch _ => true
  | .collectorAccept _ _ => true
  | .templateCommit _ => true
  | .handOver _ _ state => state.wf
  | .tcpSegmentReceive _ => true
  | .delayedAck _ => true
  | .retransmitTimer _ => true
  | .queuePairCreate _ req => req.wf
  | .roceFrameReceive bytes _ => decide (bytes.length ≤ 16384)
  | .ackTimeout _ _ => true
  | .rdmaWorkRequest _ _ => true
  | .storageCommand _ _ _ => true
  | .nvmeQueueDoorbell _ _ _ cmds => decide (cmds.length ≤ 4096) && cmds.all (fun r => r.bufs.all (fun b => decide (b.1 < 2 ^ 64)))
  | .remoteCompletion => true
  | .ccEnClear _ => true
  | .ccShn _ _ => true
  | .shutdownComplete _ => true
  | .personalityAssign _ vf namespaces => decide (vf.val % 4096 ≠ 0) && decide (namespaces.length ≤ 16)
  | .chunkBoundary _ _ => true
  | .returnLate => true
  | .jobComplete _ => true
  | .merge _ => true
  | .katRun _ _ => true
  | .session _ hostKey _ => decide (hostKey.length = 96)
  | .keyLoad _ _ blob => decide (blob.length ≤ 64)
  | .generate _ _ attrs => decide (attrs.length ≤ 32)
  | .keyExport _ _ _ _ => true
  | .keyImport _ _ blob => decide (blob.length ≤ 128)
  | .retire _ _ => true
  | .retiringDrain _ => true
  | .keyQuery _ _ _ => true
  | .cert _ _ => true
  | .rootgen _ => true
  | .tamperAck _ => true
  | .tamperCfg _ _ => true
  | .setRtc _ _ => true
  | .zeroiseAll _ => true
  | .entropyTestFail => true
  | .drbgReseed _ => true
  | .tamperInput _ => true
  | .meshMismatch => true
  | .aclkStop => true
  | .batteryLoss => true
  | .batlow _ => true
  | .classBufferRequest _ _ => true
  | .refill => true
  | .nodeRead _ _ _ => true
  | .nodeWrite _ _ _ => true
  | .timeSet _ => true
  | .timeStep _ => true
  | .rateWrite _ _ => true
  | .tnowloRead _ => true
  | .ppsOutEnd => true
  | .ppsIn => true
  | .txtsaRead _ _ => true
  | .gateChange _ => true
  | .bermStart _ _ len => decide (len ≤ 9600)
  | .sluiceChange _ => true
  | .sluiceCancel _ => true
  | .takeOver _ => true
  | .copyBackDone _ => true
  | .setup _ _ buffer entries => decide (buffer.length ≤ 66112 ∧ entries.length ≤ 16)
  | .admQuery _ _ _ => true
  | .epochq _ => true
  | .activationComplete => true
  | .revalidation => true
  | .heartbeatSend _ => true
  | .heartbeatMiss _ => true
  | .resyncEnd _ => true
  | .ilkOutPeriod => true
  | .ilkInPulse _ => true
  | .ilkInLost => true
  | .inbandLost => true
  | .roleDecision => true
  | .hostLinkUp _ rate width _ _ => decide (1 ≤ rate ∧ rate ≤ 6) && [1, 2, 4, 8, 16].contains width
  | .hostLinkDown _ => true
  | .linkReset _ _ => true
  | .perstRelease _ => true
  | .configRequest _ _ => true
  | .urRequest _ => true
  | .expansionRomRead _ _ len => decide (1 ≤ len ∧ len ≤ 4096)
  | .completionArrival _ _ _ _ _ _ => true
  | .completionTimeout _ _ => true
  | .translationCompletion _ page answer => decide (page < 2 ^ 52) && answer.all (fun a => decide (a < 2 ^ 52))
  | .atsInvalidation _ page => page.all (fun p => decide (p < 2 ^ 52))
  | .initiateFlr _ => true
  | .flrComplete _ => true
  | .d3hotEntry _ => true
  | .d0Return _ => true
  | .vectorUnmask _ _ => true
  | .cxlSnoop line _ => decide (line < 2 ^ 58)
  | .globalObservation _ _ => true
  | .cacheEnableClear => true
  | .writeBackInvalidate => true
  | .submissionTailDoorbell _ slot _ => decide (slot < 262144)
  | .receiveTailDoorbell _ slot _ => decide (slot < 262144)
  | .completionHeadDoorbell _ slot _ => decide (slot < 262144)
  | .contextWrite _ _ _ => true
  | .contextEnable _ _ _ => true
  | .contextDisable _ _ _ => true
  | .contextRead _ _ _ => true
  | .disableDone _ _ => true
  | .entryFetch _ _ units _ => decide (units.length ≤ 1024)
  | .descriptorStart _ payload => decide (payload.length ≤ 262144)
  | .dmaBurst _ _ => true
  | .transmitCompletion => true
  | .completionWrite => true
  | .coalesceTimer _ => true
  | .isolationTimer _ => true
  | .channelStop _ _ => true
  | .channelStart _ _ => true
  | .send who => who.wf
  | .withdraw _ _ => true
  | .pop _ => true
  | .secureSend _ => true
  | .secureWithdraw _ _ => true
  | .securePop _ => true
  | .controlServicePickup => true
  | .grant _ body => decide (body.length ≤ 60)
  | .limits _ body => decide (body.length ≤ 60)
  | .resourcesQuery _ body => decide (body.length ≤ 60)
  | .tablesRequest _ req _ => req.wf
  | .pairCheck _ _ => true
  | .reactionDeadline => true
  | .lockstepMismatch _ => true
  | .mgtLockstepMismatch => true
  | .mgtRestartDone => true
  | .gateComparator _ _ => true
  | .controlHeartbeatMiss _ => true
  | .clockMonitor _ _ => true
  | .supplyMonitor _ _ => true
  | .supplyNearLimit _ => true
  | .temperatureSample _ temp => decide (-2048 ≤ temp ∧ temp < 2048)
  | .throttleEnd => true
  | .hwCopyCompare kind inst _ => decide (inst < objectCount kind)
  | .objectScan kind inst _ _ _ => decide (inst < objectCount kind)
  | .psclr _ _ => true
  | .polclr _ _ => true
  | .fclrDevice _ => true
  | .fclrRelease _ => true
  | .inject _ _ _ => true
  | .maskWrite _ _ _ => true
  | .recaRead _ => true
  | .randccRead _ => true
  | .powerOnRelease => true
  | .readyBitSet _ _ => true
  | .selfTestFail _ _ => true
  | .topResetWarm _ => true
  | .wrstN => true
  | .warmResetComplete => true
  | .referenceExcursion _ => true
  | .frequencyMeasure freqs _ => decide (freqs.length = 14)
  | .calCommit _ => true
  | .calCommitTimeout => true
  | .ncsiCommand _ req => req.wf
  | .ncsiPassthrough _ frame => decide (60 ≤ frame.length ∧ frame.length ≤ 1518)
  | .sidebandLost => true
  | .mctpMessage _ _ => true
  | .pldmRequest _ req => req.wf
  | .vendorWarmReset _ => true
  | .vendorSnapshotRequest _ readings => readings.wf
  | .vendorSnapshotRead _ _ block => decide (block < 65536)
  | .snapreq _ readings => readings.wf
  | .snapshotPeriod readings => readings.wf
  | .shareWindow _ _ _ _ => true
  | .requestUpdate _ _ => true
  | .verifyComplete _ => true
  | .applyComplete _ => true
  | .activateFirmware _ _ => true
  | .otpProg _ => true
  | .busStuck _ _ => true
  | .moduleBusProbe _ lines => decide (lines.length ≤ 32)
  | .mbsRetry _ _ => true
  | .segmentRetry _ _ _ => true
  | .presenceChange _ _ => true
  | .presenceScan _ => true
  | .scanSettle => true
  | .modulePoll _ _ => true
  | .powerDown => true
  | .vbatApplication => true
  | .rnrTimer _ => true
  | .controllerEnable _ => true
  | .controlCoreReturn _ _ => true

end Sys2Proof
end

