-- ==== Sys2Proof/Certificates/Slice0/Obligations.lean ====
section
/-! DEFINITION. The statements for the provers. Where a statement names values that a command's effect is made of, it does so by
the operations of the model that stand for the rule cited: `wr` writes a register field, `raise` raises an event, `setCtx` replaces
a context. A statement that reads `exec c s = .next { s with dev := … }` fixes the whole next state, so it is the command's frame
as well: what it does not name is unchanged. -/

open Sys2Proof Sys2Proof.Machine

/-! ## Pueri engines (chapters 02 to 04) -/

/-- R67: the integer instructions on two registers. A context that issues writes the result to rd and goes to its next instruction;
nothing else changes. Writes to g0 are discarded and g0 reads as zero (R57), in `wg` and `rg`. -/
def Obligations.IntegerRegisterResults : Prop :=
  ∀ (s : State) (x : CtxId) (rd ra rb : Reg), s.dev.issues x { regs := [rd.val, ra.val, rb.val] } = true →
    let c := s.dev.ctx x
    let a := c.rg ra
    let b := c.rg rb
    let gives := fun (i : Instr) (v : Word) => exec i s = .next { s with dev := s.dev.setCtx x (c.wg rd v).next }
    gives (.add x rd ra rb) (a + b) ∧ gives (.sub x rd ra rb) (a - b) ∧ gives (.and x rd ra rb) (a &&& b) ∧
    gives (.or x rd ra rb) (a ||| b) ∧ gives (.xor x rd ra rb) (a ^^^ b) ∧ gives (.andn x rd ra rb) (a &&& ~~~b) ∧
    gives (.shl x rd ra rb) (a <<< (b.toNat % 64)) ∧ gives (.shr x rd ra rb) (a >>> (b.toNat % 64)) ∧
    gives (.sar x rd ra rb) (a.sshiftRight (b.toNat % 64)) ∧ gives (.rol x rd ra rb) (a.rotateLeft (b.toNat % 64)) ∧
    gives (.minu x rd ra rb) (if a.toNat < b.toNat then a else b) ∧ gives (.maxu x rd ra rb) (if a.toNat < b.toNat then b else a) ∧
    gives (.mul x rd ra rb) (a * b) ∧ gives (.mulhu x rd ra rb) (BitVec.ofNat 64 (a.toNat * b.toNat / 2 ^ 64)) ∧
    gives (.crc x rd ra rb) ((crc32c ((c.rg rd).setWidth 32) (leBytes 8 a.toNat ++ leBytes 8 b.toNat)).setWidth 64)

/-- R67, R68: the integer and bit-field instructions on one register or an immediate, and SEL. Immediates of ADDI and MOVI are
sign-extended, those of ANDI, ORI and XORI zero-extended. -/
def Obligations.IntegerImmediateResults : Prop :=
  ∀ (s : State) (x : CtxId) (rd ra rb : Reg) (imm : BitVec 16) (sh pos len1 : Fin 64) (h : Fin 4) (p : Pred),
    s.dev.issues x { regs := [rd.val, ra.val, rb.val] } = true →
    let c := s.dev.ctx x
    let a := c.rg ra
    let m := fun (n : Nat) => (BitVec.ofNat 64 (2 ^ n - 1) : Word)
    let gives := fun (i : Instr) (v : Word) => exec i s = .next { s with dev := s.dev.setCtx x (c.wg rd v).next }
    gives (.clz x rd ra) (clz a) ∧ gives (.popc x rd ra) (popc a) ∧ gives (.bswap x rd ra) (BitVec.ofNat 64 (beNat (leBytes 8 a.toNat))) ∧
    gives (.addi x rd ra imm) (a + imm.signExtend 64) ∧ gives (.andi x rd ra imm) (a &&& imm.setWidth 64) ∧
    gives (.ori x rd ra imm) (a ||| imm.setWidth 64) ∧ gives (.xori x rd ra imm) (a ^^^ imm.setWidth 64) ∧
    gives (.shli x rd ra sh) (a <<< sh.val) ∧ gives (.shri x rd ra sh) (a >>> sh.val) ∧ gives (.sari x rd ra sh) (a.sshiftRight sh.val) ∧
    gives (.movi x rd imm) (imm.signExtend 64) ∧
    gives (.movk x rd h imm) ((c.rg rd &&& ~~~((0xFFFF : Word) <<< (16 * h.val))) ||| (imm.setWidth 64 <<< (16 * h.val))) ∧
    gives (.ext x rd ra pos len1) ((a >>> pos.val) &&& m (len1.val + 1)) ∧
    gives (.ins x rd ra pos len1) ((c.rg rd &&& ~~~(m (len1.val + 1) <<< pos.val)) ||| ((a &&& m (len1.val + 1)) <<< pos.val)) ∧
    gives (.sel x rd ra rb p) (if c.rp p then a else c.rg rb)

/-- R68: CMP, CMPI and PLOG write their predicate and nothing else; ASSERT goes on where its condition does not hold. -/
def Obligations.PredicateResults : Prop :=
  ∀ (s : State) (x : CtxId) (pd pa pb : Pred) (cond : Cond) (ra rb : Reg) (imm : BitVec 15) (tt : BitVec 4) (n : Bool) (code : BitVec 22),
    s.dev.issues x { regs := [ra.val, rb.val] } = true →
    let c := s.dev.ctx x
    let gives := fun (i : Instr) (v : Bool) => exec i s = .next { s with dev := s.dev.setCtx x (c.wp pd v).next }
    gives (.cmp x pd cond ra rb) (condHolds cond (c.rg ra) (c.rg rb)) ∧
    gives (.cmpi x pd cond ra imm) (condHolds cond (c.rg ra) (imm.signExtend 64)) ∧
    gives (.plog x pd pa pb tt) (tt.getLsbD (2 * (c.rp pa).toNat + (c.rp pb).toNat)) ∧
    (c.taken pa n = true → exec (.assertP x pa n code) s = .next { s with dev := s.dev.setCtx x c.next }) ∧
    (c.taken pa n = false → exec (.assertP x pa n code) s = .next { s with dev := s.dev.fault x (faultAssert + 256 * (code.toNat % 256)) })

/-- R69: the window instructions of an engine context. A load takes its bytes in network order, a store writes the low bytes in
network order; the position is S + B + offset, and S + ra for CSUM. -/
def Obligations.WindowResults : Prop :=
  ∀ (s : State) (x : CtxId) (rd ra : Reg) (off : Fin 128) (sz : Fin 4) (i : Fin 16),
    isCore x = false → s.dev.issues x { regs := [rd.val, ra.val], header := true } = true →
    let c := s.dev.ctx x
    let n := szBytes sz
    let at_ := c.s + c.b + off.val
    let load := fun (i : Instr) (p n : Nat) =>
      exec i s = .next { s with dev := s.dev.setCtx x (c.wg rd (BitVec.ofNat 64 (beNat (c.hdrBytes p n)))).next }
    let store := fun (i : Instr) (p n : Nat) (v : Word) =>
      exec i s = .next { s with dev := s.dev.setCtx x { c with hdr := putBytes c.hdr p (beBytes n v.toNat) }.next }
    (at_ + n ≤ 640 → load (.wld x rd off sz) at_ n) ∧
    (at_ + n ≤ c.e → store (.wst x ra off sz) at_ n (c.rg ra)) ∧
    (at_ + (c.rg ra).toNat + n ≤ 640 → load (.wldx x rd ra off sz) (c.s + c.b + (c.rg ra).toNat + off.val) n) ∧
    (at_ + (c.rg ra).toNat + n ≤ c.e → store (.wstx x rd ra off sz) (c.s + c.b + (c.rg ra).toNat + off.val) n (c.rg rd)) ∧
    (c.s + c.b + 8 * i.val + 8 ≤ 640 → load (.wget x rd i) (c.s + c.b + 8 * i.val) 8) ∧
    (c.s + c.b + 8 * i.val + 8 ≤ c.e → store (.wput x ra i) (c.s + c.b + 8 * i.val) 8 (c.rg ra)) ∧
    ((c.rg ra).toNat % 512 ≤ 504 → exec (.wbase x ra) s = .next { s with dev := s.dev.setCtx x { c with b := (c.rg ra).toNat % 512 }.next }) ∧
    (0 ≤ c.s + signedOf (c.rg ra).toNat 10 → c.s + signedOf (c.rg ra).toNat 10 ≤ c.e →
      exec (.hadj x ra) s = .next { s with dev := s.dev.setCtx x (Ctx.next { c with
        s := (c.s + signedOf (c.rg ra).toNat 10).toNat
        pkt := c.pkt.map (fun p => { p with len := ((p.len - signedOf (c.rg ra).toNat 10) % 2 ^ 19).toNat }) }) }) ∧
    (c.s + (c.rg ra).toNat + (off.val + 1 + 128 * sz.val) ≤ 640 →
      exec (.csum x rd ra off sz) s = .next { s with dev := s.dev.setCtx x (c.wg rd (BitVec.ofNat 64
        (onesSum 0 (c.hdrBytes (c.s + (c.rg ra).toNat) (off.val + 1 + 128 * sz.val))))).next })

/-- R60, R69: where a window instruction reaches beyond the window, the context takes the window fault 02h: a read at or beyond 640, a
write at or beyond E, a WBASE above 504. R71: a scratch access that is not aligned or leaves the scratch is an address fault, and so is any on a control core (R86). -/
def Obligations.AccessFaults : Prop :=
  (∀ (s : State) (x : CtxId) (rd ra : Reg) (off : Fin 128) (sz : Fin 4),
      isCore x = false → s.dev.issues x { regs := [rd.val, ra.val], header := true } = true →
      let c := s.dev.ctx x
      let n := szBytes sz
      let at_ := c.s + c.b + off.val
      let faults := fun (i : Instr) => exec i s = .next { s with dev := s.dev.fault x faultWindow }
      (640 < at_ + n → faults (.wld x rd off sz)) ∧ (c.e < at_ + n → faults (.wst x ra off sz)) ∧
      (504 < (c.rg ra).toNat % 512 → faults (.wbase x ra))) ∧
  (∀ (s : State) (x : CtxId) (rd ra : Reg) (sz : Fin 4) (sx : Bool) (imm : BitVec 11),
      let c := s.dev.ctx x
      let n := szBytes sz
      let o := (c.rg ra + imm.signExtend 64).toNat
      s.dev.issues x { regs := [rd.val, ra.val], scratch := (o, n) } = true → (isCore x = true ∨ 0x2000 < o + n ∨ o % n ≠ 0) →
      exec (.ld x rd ra 0 sz sx imm .good) s = .next { s with dev := s.dev.fault x faultAddress } ∧
      exec (.st x rd ra 0 sz imm .good) s = .next { s with dev := s.dev.fault x faultAddress })

/-- R70: MDR reads a metadata field, MDW writes CLASS, COLOUR (3h stores 2h) or MARK of the packet. R71: LD and ST of context scratch, on good memory: an aligned access within 0000h to 1FFFh. -/
def Obligations.MetadataAndScratch : Prop :=
  (∀ (s : State) (x : CtxId) (rd ra : Reg) (field : Fin 32) (p : Packet), isCore x = false →
      s.dev.issues x { regs := [rd.val, ra.val], header := true } = true →
      let c := s.dev.ctx x
      let v := (c.rg ra).toNat
      c.pkt = some p →
      (∀ w, c.meta field = some w → exec (.mdr x rd field) s = .next { s with dev := s.dev.setCtx x (c.wg rd (BitVec.ofNat 64 w)).next }) ∧
      exec (.mdw x ra 4) s = .next { s with dev := s.dev.setCtx x { c with pkt := some { p with cls := v % 8 } }.next } ∧
      exec (.mdw x ra 5) s =
        .next { s with dev := s.dev.setCtx x { c with pkt := some { p with colour := if v % 4 = 3 then 2 else v % 4 } }.next } ∧
      exec (.mdw x ra 13) s = .next { s with dev := s.dev.setCtx x { c with pkt := some { p with mark := v % 2 ^ 32 } }.next }) ∧
  (∀ (s : State) (x : CtxId) (rd ra : Reg) (sz : Fin 4) (sx : Bool) (imm : BitVec 11),
      let c := s.dev.ctx x
      let n := szBytes sz
      let o := (c.rg ra + imm.signExtend 64).toNat
      isCore x = false → s.dev.issues x { regs := [rd.val, ra.val], scratch := (o, n) } = true → o + n ≤ 0x2000 → o % n = 0 →
      exec (.ld x rd ra 0 sz sx imm .good) s =
        .next { s with dev := s.dev.setCtx x (c.wg rd (loadValue (c.scrBytes o n) sx)).next } ∧
      exec (.st x rd ra 0 sz imm .good) s =
        .next { s with dev := s.dev.setCtx x (c.scrPuts o (leBytes n (c.rg rd).toNat)).next })

/-- R73, R74, R75: control flow of an engine context. BR not taken goes on; taken, it goes to a later target that no fault of R73
meets. LOOP pushes a loop of at most two, and goes on past a body of no words (the model's choice, log entry 12); LIDX reads the innermost index; CALL pushes the next word and RET returns to it; JT goes to the
entry its register picks. -/
def Obligations.ControlFlow : Prop :=
  ∀ (s : State) (x : CtxId) (rd ra : Reg) (p : Pred) (n : Bool) (off : BitVec 22) (cnt fidx : BitVec 8) (bodyEnd : BitVec 18) (table : Fin 32),
    isCore x = false → s.dev.issues x { regs := [rd.val, ra.val] } = true →
    let c := s.dev.ctx x
    let goes := fun (i : Instr) (c' : Ctx) => exec i s = .next { s with dev := s.dev.setCtx x c' }
    let target := unsignedOf (c.pc + off.toInt) 18
    (c.taken p n = false → goes (.br x p n off) c.next) ∧
    (c.taken p n = true → controlFaults c (s.dev.imageOf x).code target = false → goes (.br x p n off) { c with pc := target }) ∧
    (c.taken p n = true → controlFaults c (s.dev.imageOf x).code target = true →
      exec (.br x p n off) s = .next { s with dev := s.dev.fault x faultControl }) ∧
    (cnt ≠ 0 → c.loops.length < 2 → bodyEnd = 0 → goes (.loop x cnt bodyEnd) c.next) ∧
    (cnt ≠ 0 → c.loops.length < 2 → bodyEnd ≠ 0 → goes (.loop x cnt bodyEnd) { c with
      pc := c.pc + 1
      loops := { left := cnt.toNat - 1, index := 0, first := c.pc + 1, last := c.pc + bodyEnd.toNat } :: c.loops }) ∧
    (∀ l ls, c.loops = l :: ls →
      goes (.lidx x rd) (c.wg rd (BitVec.ofNat 64 l.index)).next ∧
      (c.taken p n = true → goes (.brk x p n) { c with pc := l.last, loops := ls }.next)) ∧
    (∀ f, c.calls.length < 4 → (s.dev.imageOf x).ftab[fidx.toNat]? = some f →
      goes (.call x fidx) { c with pc := f.1, calls := (c.pc + 1) :: c.calls }) ∧
    (∀ r rs, c.calls = r :: rs → goes (.ret x) { c with pc := r - 1, calls := rs }.next) ∧
    (∀ ts, (s.dev.imageOf x).jtabs[table.val]? = some ts →
      let t := ts.getD (if (c.rg ra).toNat < ts.length then (c.rg ra).toNat else 0) 0
      controlFaults c (s.dev.imageOf x).code t = false → goes (.jt x ra table) { c with pc := t })

/-- R86, R87: what only the control profile has. DIVU and REMU with a zero divisor give all ones and the dividend; LOOPR skips its body on
a count of zero; JR takes a word number; CSRW of TVEC stores it and CSRR reads it; ERET goes on at EPC with interrupts enabled; WFE goes on
where an enabled line is pending, else waits. R87: a fault of a control core traps: EPC holds the pc of the instruction, CAUSE the code, interrupts are off, and the core runs from
TVEC; an enabled interrupt that is pending does the same between instructions, with bit 63 of CAUSE set. A read of TIME lags network time by
from 2 to 6 ns, how far being a free value (19 R510, log entry 37). -/
def Obligations.ControlCores : Prop :=
  (∀ (s : State) (x : CtxId) (rd ra rb : Reg) (bodyEnd : BitVec 18),
      isCore x = true → s.dev.issues x { regs := [rd.val, ra.val, rb.val] } = true →
      let c := s.dev.ctx x
      let j := x.val - 1536
      let r := s.dev.csr j
      let a := c.rg ra
      let b := c.rg rb
      let goes := fun (i : Instr) (c' : Ctx) => exec i s = .next { s with dev := s.dev.setCtx x c' }
      goes (.divu x rd ra rb) (c.wg rd (if b = 0 then BitVec.allOnes 64 else a / b)).next ∧
      goes (.remu x rd ra rb) (c.wg rd (if b = 0 then a else a % b)).next ∧
      (a.toNat % 2 ^ 32 = 0 → goes (.loopr x ra bodyEnd) { c with pc := c.pc + bodyEnd.toNat }.next) ∧
      (a.toNat % 2 ^ 32 ≠ 0 → c.loops.length < 2 → bodyEnd ≠ 0 → goes (.loopr x ra bodyEnd) { c with
        pc := c.pc + 1
        loops := { left := a.toNat % 2 ^ 32 - 1, index := 0, first := c.pc + 1, last := c.pc + bodyEnd.toNat } :: c.loops }) ∧
      goes (.jr x ra) { c with pc := a.toNat % 2 ^ 18 } ∧
      goes (.csrr x rd 0x011) (c.wg rd r.tvec).next ∧
      exec (.csrr x rd 0x002) s = .next { s with dev := s.dev.drawn.setCtx x (c.wg rd (s.dev.readTime s.time).tsin).next } ∧
      exec (.csrw x ra 0x011) s = .next { s with dev := (s.dev.setCsr j { r with tvec := a }).setCtx x c.next } ∧
      exec (.csrw x ra 0x015) s = .next { s with dev := (s.dev.setCsr j { r with irqpend := r.irqpend &&& ~~~a }).setCtx x c.next } ∧
      exec (.eret x) s =
        .next { s with dev := (s.dev.setCsr j { r with ie := true }).setCtx x { c with pc := r.epc.toNat % 2 ^ 18 } } ∧
      (r.irqen &&& r.irqpend ≠ 0 → goes (.wfe x) c.next) ∧
      (r.irqen &&& r.irqpend = 0 → goes (.wfe x) { c with st := .wait, waitOn := .event })) ∧
  (∀ (s : State) (x : CtxId) (core : Fin 12), isCore x = true → s.dev.issues x {} = true →
      let c := s.dev.ctx x
      let r := s.dev.csr (x.val - 1536)
      let saved : Csr := { r with epc := BitVec.ofNat 64 c.pc, cause := BitVec.ofNat 64 faultStack, ie := false }
      let trapped : Ctx := { c with pc := r.tvec.toNat % 2 ^ 18, st := .run, waitOn := .nothing }
      (c.calls = [] → exec (.ret x) s = .next { s with dev := (s.dev.setCsr (x.val - 1536) saved).setCtx x trapped }) ∧
      (x.val = 1536 + core.val → r.ie = true → r.irqen &&& r.irqpend ≠ 0 → c.waitOn = .nothing → ∃ t, exec (.interruptTrap core) s = .next t ∧
        (t.dev.csr core).epc = BitVec.ofNat 64 c.pc ∧ (t.dev.csr core).ie = false ∧ (t.dev.csr core).cause.getLsbD 63 = true ∧
        (t.dev.ctx x).pc = r.tvec.toNat % 2 ^ 18))


/-- R65, R72, R81: an asynchronous instruction whose ticket is free is taken: the ticket becomes busy with what it waits for, and the
context goes on. An AMO queues its request at the home slice of its address in the atomic region; TRDYX and TCANX carry the handle to
its bay. AWAIT goes on where the ticket is free and waits where it is busy. RESULT_ARRIVAL writes the result to the ticket's register,
frees the ticket and wakes a context that waits for it; a result that a context waiting to end has outstanding is discarded (R82). R65: an
asynchronous instruction that names a busy ticket takes the ticket fault 06h. -/
def Obligations.AsyncInstructions : Prop :=
  (∀ (s : State) (x : CtxId) (rd ra rb : Reg) (k : Tick) (fn : Fin 8) (wide : Bool) (race : CancelRace) (a off : Nat) (bytes : List Byte) (v : Word),
      let d := s.dev
      let c := d.ctx x
      let t := c.tk k
      let gives := fun (i : Instr) (y : Dev) => exec i s = .next { s with dev := y }
      let takes := fun (i : Instr) (y : Dev) (t : Ticket) => gives i (y.setCtx x ((y.ctx x).setTk k { t with busy := true }).next)
      let h := (c.rg ra).toNat % 2 ^ 32
      let far : Req := { who := requester x, line := a / 64, kind := .atomic x k (fn.val + (if wide then 8 else 0)) a (c.rg rb) (c.rg rd) }
      (d.issues x { regs := [rd.val, ra.val, rb.val] } = true → t.busy = false → fn ≠ 7 → d.atomAddr (c.rg ra).toNat (if wide then 8 else 4) = some a →
        takes (.amo x rd ra rb k fn wide) (d.setCoh { d.eng.coh with reqs := d.eng.coh.reqs ++ [far] }) { rd := rd, pend := .atSlice }) ∧
      (d.issues x { regs := [rd.val, ra.val] } = true → t.busy = false → takes (.trdyx x rd ra k) d { rd := rd, pend := .atTask false h }) ∧
      (d.issues x { regs := [rd.val, ra.val] } = true → t.busy = false → takes (.tcanx x rd ra k) d { rd := rd, pend := .atTask true h }) ∧
      (d.issues x {} = true → t.busy = false → gives (.await x k) (d.setCtx x c.next)) ∧
      (d.issues x {} = true → t.busy = true → gives (.await x k) (d.setCtx x { c with st := .wait, waitOn := .await k })) ∧
      (t.busy = true → d.eng.strays = [] → c.ending = false →
        (t.pend = .value v → gives (.resultArrival x k race) (d.setCtx x (((c.wg t.rd v).setTk k {}).wake k))) ∧
        (t.pend = .search v → gives (.resultArrival x k race) (d.setCtx x (((c.wg t.rd v).setTk k {}).wake k))) ∧
        (t.pend = .toScratch v off bytes →
          gives (.resultArrival x k race) (d.setCtx x ((((c.scrPuts off bytes).wg t.rd v).setTk k {}).wake k)))) ∧
      (t.busy = true → d.eng.strays = [] → c.ending = true → t.pend = .value v →
        gives (.resultArrival x k race) (d.setCtx x (c.setTk k {})))) ∧
  (∀ (s : State) (x : CtxId) (rd ra rb : Reg) (k : Tick) (fn : Fin 8) (wide : Bool) (profile : Fin 32) (table : Fin 16)
      (f : AcsFind) (ecc : ReadEcc),
      s.dev.atIssue x = true → s.dev.unassigned x = false → ((s.dev.ctx x).tk k).busy = true →
      ∀ i ∈ [Instr.amo x rd ra rb k fn wide, .trdyx x rd ra k, .tcanx x rd ra k, .lka x rd ra k profile f f,
        .lkh x rd ra rb k table ecc, .lkc x rd ra rb k table true ecc, .mtr x rd ra rb k, .tunEncapsulate x rd ra k,
        .tunDecapsulate x rd ra k, .tunMark x rd ra k],
        exec i s = .next { s with dev := s.dev.fault x faultTicket })

/-- R49, R81: the task instructions. TARM arms the lowest free entry of its bay within the polder's quota, with 64 bytes of scratch,
and gives the handle; TRDY and TCAN act on an entry of the own bay and give the status; TASK_DUE makes a due entry READY;
TASK_START starts the oldest READY task of a bay, unless a packet takes its context next (08 R213), g1 holding its handle and scratch its
argument. -/
def Obligations.TaskResults : Prop :=
  ∀ (s : State) (x : CtxId) (rd ra rb : Reg) (idx : Byte) (race : CancelRace) (bay : Fin 12) (entry : Fin 4096) (pc i due key y : Nat),
    let d := s.dev
    let c := d.ctx x
    let gives := fun (i : Instr) (y : Dev) => exec i s = .next { s with dev := y }
    let a := (c.rg ra).toNat
    let h := a % 2 ^ 32
    let pol := d.progPolder c
    let mine := 4096 * (x.val / 128) + i
    let armed : Task := { st := .armed, gen := (d.taskAt mine).gen, pipe := c.pipe, slot := c.slot, entry := pc, image := c.image,
                          epoch := c.epoch, arg := c.scrBytes a 64,
                          due := if (c.rg rb).toNat = 0 then none else some (s.time.toNs + (c.rg rb).toNat),
                          target := if d.rd VIR.PTCQ_EN pol = 1 then some (d.rd VIR.PTCQ_RING pol) else none,
                          owner := pol, bind := c.bind }
    let t := d.taskAt key
    let started : Ctx := { task := some key, image := t.image, pipe := t.pipe, slot := t.slot, epoch := t.epoch, bind := t.bind, pc := t.entry }
    let run := d.setTask key { t with st := .running }
    let left := { run with eng := { run.eng with readyQ := run.eng.readyQ.filter (fun k => decide (k ≠ key)) } }
    (isCore x = false → d.issues x { regs := [rd.val, ra.val, rb.val], scratch := (a, 64) } = true → a + 64 ≤ 0x2000 →
      (d.imageOf x).ttab[idx.toNat]? = some pc → d.rd VIR.PUSE_TASKS pol < d.rd VIR.PID_TASKQ pol →
      d.freeEntryOf (x.val / 128) = some i →
      gives (.tarm x rd ra rb idx) (((d.setTask mine armed).wr VIR.PUSE_TASKS pol (d.rd VIR.PUSE_TASKS pol + 1)).setCtx x
        (c.wg rd (BitVec.ofNat 64 (taskHandle mine armed.gen))).next)) ∧
    (isCore x = false → d.issues x { regs := [rd.val, ra.val] } = true → foreignBay x h = false →
      gives (.trdy x rd ra) ((d.makeReady h).1.setCtx x (c.wg rd (BitVec.ofNat 64 (d.makeReady h).2)).next) ∧
      gives (.tcan x rd ra race) ((d.cancelTask s.time x c.age h race).1.setCtx x (c.wg rd (BitVec.ofNat 64 (d.cancelTask s.time x c.age h race).2)).next)) ∧
    ((d.taskAt (4096 * bay.val + entry.val)).st = .armed → (d.taskAt (4096 * bay.val + entry.val)).due = some due → due ≤ s.time.toNs →
      gives (.taskDue bay entry) (d.readyTask (4096 * bay.val + entry.val))) ∧
    (d.eng.readyQ.find? (fun k => decide (k / 4096 = bay.val)) = some key → d.taskPlace bay = some y →
      (d.choices d.pipeOrder []).any (fun e => decide (d.idleCtx e.2 = some y)) = false → gives (.taskStart bay) (left.runCtx y ((started.wg 1 (BitVec.ofNat 64 (taskHandle key t.gen))).scrPuts 0 t.arg)))

/-- R78, R82; 08 R206: the ends of a program. With every ticket free, and within twice the verified bound, the engine is marked by the
context cycles of the run and the context holds its result; with a ticket busy the context waits, and ends when the last ticket is free. -/
def Obligations.TerminationResults : Prop :=
  ∀ (s : State) (x : CtxId) (ra : Reg) (f1 f2 : Bool) (reason : Byte) (p : Packet) (h : Nat) (r : Retire),
    isCore x = false →
    let d := s.dev
    let c := d.ctx x
    let gives := fun (i : Instr) (y : Dev) => exec i s = .next { s with dev := y }
    let v := (c.rg ra).toNat
    let ends := fun (i : Instr) (r : Retire) =>
      (c.ticketsFree = true → c.cycles ≤ 2 * d.boundOf c → gives i ((d.slowMark s.time (x / 8) c.cycles (d.boundOf c)).hold x c r)) ∧
      (c.ticketsFree = false → gives i (d.setCtx x { c with st := .wait, waitOn := .terminate r }))
    (d.issues x { regs := [ra.val] } = true → c.pkt = some p →
      (d.targetOk c.bind p.polder v = true → ends (.emit x ra f1 f2) (.emit v (bitNat f1 + 2 * bitNat f2))) ∧
      (d.targetOk c.bind p.polder v = false → gives (.emit x ra f1 f2) (d.fault x faultEmit)) ∧
      ends (.drop x reason) (.drop reason.toNat) ∧ ends (.punt x reason) (.punt reason.toNat)) ∧
    (d.issues x { regs := [ra.val] } = true → c.task = some h → ends (.tdone x ra) (.done (c.rg ra))) ∧
    (c.st = .wait → c.waitOn = .terminate r → c.ticketsFree = true → c.cycles ≤ 2 * d.boundOf c →
      gives (.deferredTermination x) ((d.slowMark s.time (x / 8) c.cycles (d.boundOf c)).hold x c r))

/-- R79, R80: COPY hands a copy of the packet as it stands to its target and counts it; a bad target drops it and counts that. CNT adds
one packet and ra's bytes to a counter of the slot's range, both saturating. TIME gives network time in the format of TSIN, from 2 to 6 ns behind (19 R510; how
far is a free value, log entry 37). -/
def Obligations.PostedResults : Prop :=
  ∀ (s : State) (x : CtxId) (rd ra rb : Reg) (p : Packet), s.dev.issues x { regs := [rd.val, ra.val, rb.val] } = true →
    let d := s.dev
    let c := d.ctx x
    let gives := fun (i : Instr) (y : Dev) => exec i s = .next { s with dev := y }
    let v := (c.rg ra).toNat
    let q : Packet := { p with txring := none, resv := 0, share := none, onward := [], twoStep := false, oneStep := false }
    let k := c.bind.cntBase + v
    let sat := fun (n : Nat) => min n (2 ^ 64 - 1)
    let counted : Eng := { d.eng with
      cntPkts := put 0 d.eng.cntPkts k (sat (look 0 d.eng.cntPkts k + 1))
      cntBytes := put 0 d.eng.cntBytes k (sat (look 0 d.eng.cntBytes k + (c.rg rb).toNat)) }
    (isCore x = false → s.dev.issues x { regs := [ra.val], header := true } = true → c.packet = some p → p.skipCopies ≤ c.copies → c.copies < 4 →
      (d.targetOk c.bind p.polder v = true →
        gives (.copy x ra) ((d.handOver s.time (tgtKind v) (tgtNumber v) q).setCtx x { c with copies := c.copies + 1, sent := c.sent + 1 }.next)) ∧
      (d.targetOk c.bind p.polder v = false →
        gives (.copy x ra) ((d.bump PGM.COPYDROP_COUNT).setCtx x { c with copies := c.copies + 1 }.next))) ∧
    (v < c.bind.cntCount → gives (.cnt x ra rb) ({ d with eng := counted }.setCtx x c.next)) ∧
    gives (.timeRead x rd) (d.drawn.setCtx x (c.wg rd (d.readTime s.time).tsin).next)

/-- R38, R40, R43, R46: LD and ST in the coherent window. An access that hits its engine's cache is performed; one that misses waits for
a grant; one in the atomic region goes to the home slice. Offsets outside the window, or not aligned, are address faults. R41 to R44: the home slices and caches. HOME_SLICE_TAKE serves a writeback first, else the next request in rotation, whose line L2 then holds; a far access or atomic is performed there; SNOOP takes the
line from a cache that neither misses on it nor has its grant on the way; DATA_GRANT puts the granted line into its cache and completes the access that missed. -/
def Obligations.CoherentMemory : Prop :=
  (∀ (s : State) (x : CtxId) (rd ra : Reg) (sz : Fin 4) (sx : Bool) (imm : BitVec 11) (a : Nat),
      s.dev.issues x { regs := [rd.val, ra.val] } = true →
      let d := s.dev
      let c := d.ctx x
      let m := d.eng.coh
      let gives := fun (i : Instr) (y : Dev) => exec i s = .next { s with dev := y }
      let n := szBytes sz
      let o := (c.rg ra + imm.signExtend 64).toNat
      let ld : MemOp := { ctx := x, store := false, addr := a, size := n, sx := sx, rd := rd, value := 0 }
      let st : MemOp := { ctx := x, store := true, addr := a, size := n, sx := false, rd := 0, value := c.rg rd }
      let waits := d.setCtx x { c with st := .wait, waitOn := .memory }
      let line := (m.cacheLine (requester x) (a / 64)).st
      (d.cacheAddr o n = some a →
        (hits line false = true → gives (.ld x rd ra 1 sz sx imm .good) (waits.accessHit ld)) ∧
        (hits line true = true → gives (.st x rd ra 1 sz imm .good) (waits.accessHit st)) ∧
        (hits line false = false → gives (.ld x rd ra 1 sz sx imm .good) (waits.setCoh (m.miss ld))) ∧
        (hits line true = false → gives (.st x rd ra 1 sz imm .good) (waits.setCoh (m.miss st)))) ∧
      (d.atomAddr o n = some a →
        gives (.ld x rd ra 2 sz sx imm .good) (waits.setCoh { m with reqs := m.reqs ++ [{ who := requester x, line := a / 64, kind := .far ld }] }) ∧
        gives (.st x rd ra 2 sz imm .good) (waits.setCoh { m with reqs := m.reqs ++ [{ who := requester x, line := a / 64, kind := .far st }] })) ∧
      (d.cacheAddr o n = none →
        gives (.ld x rd ra 1 sz sx imm .good) (d.fault x faultAddress) ∧ gives (.st x rd ra 1 sz imm .good) (d.fault x faultAddress)) ∧
      (d.atomAddr o n = none →
        gives (.ld x rd ra 2 sz sx imm .good) (d.fault x faultAddress) ∧ gives (.st x rd ra 2 sz imm .good) (d.fault x faultAddress)) ∧
      gives (.st x rd ra 3 sz imm .good) (d.fault x faultAddress)) ∧
  (∀ (s : State) (slice : Fin 24) (who : Fin 204) (line : Nat) (r : Req) (g : Grant) (op : MemOp) (x k fn a : Nat) (v w : Word) (wb0 : Writeback),
      let d := s.dev
      let m := d.eng.coh
      let gives := fun (i : Instr) (y : Dev) => exec i s = .next { s with dev := y }
      let wb := m.wbs.find? (fun w => decide (homeSlice w.line = slice.val))
      let served := (if m.l2.contains r.line then d else d.drawn).setCoh
        ({ m with reqs := m.reqs.erase r, rot := put 0 m.rot slice ((r.who + 1) % 204) }.allocate r.line d.freeVal.toNat)
      let mine := fun (o : MemOp) => decide (requester o.ctx = who.val ∧ o.addr / 64 = line)
      let held : Coh := { m with grants := m.grants.erase g, misses := m.misses.filter (fun o => !mine o) }
      let filled := d.setCoh (held.setCacheLine who line { st := g.st, poison := false, bytes := putBytes [] 0 (m.bytesAt (64 * line) 64) })
      (wb = some wb0 → gives (.homeSliceTake slice .good) (d.setCoh ({ m with wbs := m.wbs.erase wb0 }.takeWriteback wb0))) ∧
      (wb = none → m.nextReq slice = some r → (∀ o, r.kind ≠ .far o) → (∀ x k f a u v, r.kind ≠ .atomic x k f a u v) →
        gives (.homeSliceTake slice .good) (served.setCoh (served.eng.coh.takeRequest r))) ∧
      (wb = none → m.nextReq slice = some r → r.kind = .far op → gives (.homeSliceTake slice .good) (served.farAccess r)) ∧
      (wb = none → m.nextReq slice = some r → r.kind = .atomic x k fn a v w → gives (.homeSliceTake slice .good) (served.farAccess r)) ∧
      (m.snoops.contains (who.val, line, false) = true → m.holdsSnoop who line = false →
        gives (.snoop who line .invalidate) (d.setCoh ({ m with snoops := m.snoops.erase (who.val, line, false) }.answerSnoop who line))) ∧
      (m.grants.find? (fun g => decide (g.who = who.val ∧ g.line = line)) = some g → m.held = [] → (m.dirLine line).poison = false →
        (m.caches.filter (fun e => decide (e.1 % 204 = who.val ∧ e.1 / 204 % 64 = line % 64 ∧ e.1 / 204 ≠ line))).length < 4 →
        m.misses.filter mine = [op] → gives (.dataGrant who line .good) (filled.accessHit op)))

/-- R47, R51, R53, R54, R56: the life of an engine. ENG_COMMIT accepts a window of at most 8 GiB within 32 GiB. A context beyond its bound
and an engine that stalls fail their engine, with EVT 3.0 and EVT 3.1. RETEST tests an engine that is offline or failed, and its end brings it
online or fails it, with EVT 3.8; a withdrawn engine is failed with cause 5h once idle and can be brought back; the reload of a store ends. -/
def Obligations.EngineLife : Prop :=
  ∀ (s : State) (x : Fin 1536) (n : Fin 192) (pass : Bool) (bay : Fin 12) (bad : List Nat),
    let d := s.dev
    let gives := fun (i : Instr) (y : Dev) => exec i s = .next { s with dev := y }
    let st := d.rd ENG.ESTAT_STATE n
    (d.rd ENG.STATUS_COMMITTED = 0 → d.rd ENG.COH_BASE_BASE + d.rd ENG.COH_SIZE_SIZE ≤ 32 → d.rd ENG.COH_SIZE_SIZE ≤ 8 →
      d.rd ENG.COH_SIZE_ATOM ≤ 256 → d.rd ENG.COH_SIZE_ATOM ≤ d.rd ENG.COH_SIZE_SIZE * 1024 →
      gives .engCommit ((d.wr ENG.STATUS_CERR 0 0).wr ENG.STATUS_COMMITTED 0 1)) ∧
    (d.engineServes (x / 8) = true → (d.ctx x).st = .run → 2 * d.boundOf (d.ctx x) ≤ (d.ctx x).cycles → gives (.contextWatchdog x bad) (d.failEngine s.time (x / 8) 0 (some (ev 3 0)) bad)) ∧
    (∀ c < 8, d.engineServes n = true → (d.ctx (8 * n + c)).st = .run → gives (.stallWatchdog n bad) (d.failEngine s.time n 2 (some (ev 3 1)) bad)) ∧
    (st = engOffline ∨ st = engFailed → gives (.retest n) (d.setEngine n engRetest 0)) ∧
    (st = engRetest → gives (.retestDone n pass)
      ((if pass then (d.setEngine n engOnline 0).revalidate 1 else d.setEngine n engFailed 4).raise s.time (ev 3 8) n)) ∧
    (d.engineServes n = true → d.eng.withdraw.contains n.val = false →
      gives (.engineWithdraw n) { d with eng := { d.eng with withdraw := n.val :: d.eng.withdraw } }) ∧
    (d.eng.withdraw.contains n.val = true → (∀ c < 8, (d.ctx (8 * n + c)).st = .idle) → gives (.withdrawDone n)
      ((({ d with eng := { d.eng with withdraw := d.eng.withdraw.filter (· ≠ n.val) } }).setEngine n engFailed 5).revalidate 1)) ∧
    (st = engFailed → d.rd ENG.ESTAT_CAUSE n = 5 → gives (.engineOnline n) ((d.setEngine n engOnline 0).revalidate 1)) ∧
    (d.rd ENG.BSTAT_RELOAD bay = 1 → d.prog.loading = none → gives (.storeReloadDone bay)
      ((List.range 16).foldl (fun (y : Dev) i =>
        if y.rd ENG.ESTAT_STATE (16 * bay + i) = engFailed ∧ y.rd ENG.ESTAT_CAUSE (16 * bay + i) = 3 then
          (y.setEngine (16 * bay + i) engOnline 0).revalidate 1 else y)
        ((d.wr ENG.BSTAT_RELOAD bay 0).wr ENG.BSTAT_STORE_OK bay 1)))

/-! ## Parser, associative search, forwarding tables (chapters 06, 07) -/

/-- R150, R159 to R165: the associative-search commands. PROFILE_APPLY brings a staged profile into force, or refuses it with EVT 6.4. While no
command of the writer is BUSY and no WRITE runs in the pipeline, a command runs at once: the owner of a bank writes, invalidates and
sets the width of it, and any other writer is answered NOT_OWNER; any writer reads and searches. A WRITE leaves its entry invalid until
the next idle TCLK sets its valid bit (log entry 16). A command of a writer that is BUSY is ignored and counted. SCRUB rewrites an entry
that differs from its shadow, with EVT 6.2. -/
def Obligations.AcsCommandResults : Prop :=
  ∀ (s : State) (w : Writer) (pipe : Fin 4) (n : Fin 32) (bank : Fin 64) (index : Fin 2048) (width : Fin 4) (f1 f2 : AcsFind) (q : LastSearch),
    let d := s.dev
    let gives := fun (i : Instr) (y : Dev) => exec i s = .next { s with dev := y }
    let v := 4 * w.view + pipe.val
    let k := 32 * pipe.val + n.val
    let staged : Profile := { en := decide (d.rd ACS.PCTL_EN k = 1), fmt := d.rd ACS.PCTL_KEYFMT k, banks := d.stagedBanks pipe n, cust := d.rd ACS.PCUST_EXT k }
    let bits := 160 * d.bankUnits pipe bank
    let written : AcsEntry := {
      valid := false, val := d.staged640 ACS.STGVAL_VAL w pipe % 2 ^ bits, mask := d.staged640 ACS.STGMASK_MASK w pipe % 2 ^ bits,
      act := storedAct (d.rd ACS.STGACT_ACT v), actx := d.rd ACS.STGACTX_ACTX v }
    let p := d.profile pipe n
    let key := d.staged640 ACS.STGVAL_VAL w pipe % 2 ^ (160 * fmtUnits p.fmt)
    let turn : Dev := { d with acs := { d.acs with rot := put 0 d.acs.rot pipe (turnAfter w) } }
    let e := turn.acsEntry pipe bank index
    let ends := fun (y : Dev) (code : Nat) => (y.wr ACS.CMDSTAT_RESULT v code).wr ACS.CMDSTAT_BUSY v 0
    let read := (List.range 10).foldl (fun (y : Dev) j => (y.wr ACS.STGVAL_VAL (40 * w.view + 10 * pipe + j) (bitsOf e.val (64 * j) 64)).wr
      ACS.STGMASK_MASK (40 * w.view + 10 * pipe + j) (bitsOf e.mask (64 * j) 64)) turn
    let placed := (turn.setAcsEntry pipe bank index written).acsTouched pipe bank
    (0 < d.rd ACS.PCTL_NBANKS k → d.rd ACS.PCTL_NBANKS k ≤ 16 → repeats (d.stagedBanks pipe n) = false → d.rd ACS.PCTL_KEYFMT k < 5 →
      (∀ b ∈ d.stagedBanks pipe n, d.bankUnits pipe b = fmtUnits (d.rd ACS.PCTL_KEYFMT k)) →
      gives (.profileApply pipe n) (({ d with acs := { d.acs with profiles := put {} d.acs.profiles k staged } }).wr ACS.PCTL_ERR k 0)) ∧
    (d.rd ACS.PCTL_NBANKS k = 0 →
      gives (.profileApply pipe n) ((d.wr ACS.PCTL_ERR k 1).raise s.time (ev 6 4) (n.val + pipe.val * 2 ^ 20))) ∧
    (d.rd ACS.CMDSTAT_BUSY v = 1 → ∀ i ∈ [Instr.acsWrite w pipe bank index, .acsInvalidate w pipe bank index, .acsRead w pipe bank index,
        .acsSearch w pipe n f1 f2, .acsNext w pipe f1 f2, .acsSetwidth w pipe bank width], gives i (d.bump ACS.CMDSTAT_IGNORED v)) ∧
    (d.rd ACS.CMDSTAT_BUSY v ≠ 1 → look none d.acs.running pipe = none →
      (d.ownsBank w pipe bank = true → index.val < d.bankEntries pipe bank →
        (w = .control ∨ bitsOf (d.rd ACS.STGACT_ACT v) 32 20 = 0 → gives (.acsWrite w pipe bank index)
          (({ placed with acs := { placed.acs with running := put none placed.acs.running pipe (some (w.view, bank.val, index.val)) } }).wr
            ACS.CMDSTAT_BUSY v 1)) ∧
        gives (.acsInvalidate w pipe bank index) (ends ((turn.setAcsEntry pipe bank index { e with valid := false }).acsTouched pipe bank) 0)) ∧
      (d.ownsBank w pipe bank = false →
        gives (.acsWrite w pipe bank index) (ends turn 1) ∧ gives (.acsInvalidate w pipe bank index) (ends turn 1) ∧
        gives (.acsSetwidth w pipe bank width) (ends turn 1)) ∧
      (index.val < d.bankEntries pipe bank → gives (.acsRead w pipe bank index)
        (ends (((read.wr ACS.STGACT_ACT v e.act).wr ACS.STGACTX_ACTX v e.actx).wr ACS.CMDSTAT_VALID v (bitNat e.valid)) 0)) ∧
      (p.en = true → gives (.acsSearch w pipe n .good .good)
        (((turn.wr ACS.CMDSTAT_CHANGED v 0).postMatch w pipe n key
          (((turn.wr ACS.CMDSTAT_CHANGED v 0).firstMatch pipe p key 0).map (fun x => (x.1, x.2.1)))).wr ACS.CMDSTAT_BUSY v 0)) ∧
      (look none d.acs.searches v = some q → (d.profile pipe q.profile).en = true → gives (.acsNext w pipe .good .good)
        ((turn.postMatch w pipe q.profile q.key
          ((turn.firstMatch pipe (d.profile pipe q.profile) q.key q.place).map (fun x => (x.1, x.2.1)))).wr ACS.CMDSTAT_BUSY v 0)) ∧
      (look none d.acs.searches v = none → gives (.acsNext w pipe f1 f2) (ends turn 5)) ∧
      (d.ownsBank w pipe bank = true → d.acs.entries = [] → (∀ m < 32, (d.profile pipe m).en = false) → width.val < 3 →
        gives (.acsSetwidth w pipe bank width)
          (ends (if bank.val < 32 then turn.wr ACS.BANKW0_W pipe (setBits (d.rd ACS.BANKW0_W pipe) (2 * bank.val) 2 width)
            else turn.wr ACS.BANKW1_W pipe (setBits (d.rd ACS.BANKW1_W pipe) (2 * (bank.val - 32)) 2 width)) 0))) ∧
    ((d.acsEntry pipe bank index).valid = true → gives (.scrub pipe bank index true)
      ((d.acsFinding s.time ACS.SCRUBFIX_COUNT (ev 6 2) pipe bank index).acsSick pipe bank index false))

/-- R77, R151, R156, R174, R178: the lookups of a program, with good ECC outcomes. LKA of an enabled profile returns bit 63 and ACT of
the first match, or zero; LKH returns the entry found to scratch with its bucket, or zeros; LKC finds a connection, or returns zero, or,
where it may create one, creates it. A search that starts late returns bit 62 and is counted. -/
def Obligations.LookupResults : Prop :=
  ∀ (s : State) (x : CtxId) (rd ra rb : Reg) (k : Tick) (n : Fin 32) (table : Fin 16) (b i place bk e : Nat) (v : Word) (create : Bool),
    let d := s.dev
    let c := d.ctx x
    let p := c.pipeline
    let takes := fun (i : Instr) (y : Dev) (t : Ticket) =>
      exec i s = .next { s with dev := y.setCtx x ((y.ctx x).setTk k { t with busy := true }).next }
    let q := d.profile p n
    let len := 20 * fmtUnits q.fmt
    let o := (c.rg ra).toNat
    let eo := (c.rg rb).toNat
    let keyLen := d.rd FWD.TBL_KEYLEN (16 * p + table)
    let key := c.scrBytes o keyLen
    let read := d.noteBarred s.time (d.tblArea p table) (d.bucketsOf p table key).1
    let made := read.create s.time p table key ((c.pkt.map (fun q => q.polder)).getD 0) ((c.pkt.map (fun q => q.iport)).getD 0)
      ((c.pkt.map (fun q => q.tsin)).getD 0)
    let found := fun (w : Word) (e : Nat) => ({ rd := rd, scratch := (eo, 64), pend := .toScratch w eo (leBytes 64 e) } : Ticket)
    (isCore x = false → (c.tk k).busy = false →
      (d.issues x { regs := [rd.val, ra.val], scratch := (o, len) } = true → o + len ≤ 0x2000 →
        (q.en = false → takes (.lka x rd ra k n .good .good) d { rd := rd, pend := .search 0 }) ∧
        (q.en = true → d.firstMatch p q (leNat (c.scrBytes o len)) 0 = some (b, i, place) → takes (.lka x rd ra k n .good .good) d
          { rd := rd, pend := .search ((1#64 <<< 63) ||| BitVec.ofNat 64 ((d.acsEntry p b i).act % 2 ^ 62)) }) ∧
        (q.en = true → d.firstMatch p q (leNat (c.scrBytes o len)) 0 = none → takes (.lka x rd ra k n .good .good) d
          { rd := rd, pend := .search 0 })) ∧
      (d.issues x { regs := [rd.val, ra.val, rb.val], scratch := (eo, 64), scratch2 := (o, keyLen) } = true → eo + 64 ≤ 0x2000 → eo % 64 = 0 →
        o + keyLen ≤ 0x2000 → d.rd FWD.TBL_EN (16 * p + table) = 1 →
        (d.find p table key = (bk, some e) →
          takes (.lkh x rd ra rb k table {}) (read.mark p table bk e) (found ((1#64 <<< 63) ||| BitVec.ofNat 64 bk) e) ∧
          takes (.lkc x rd ra rb k table create {}) (read.mark p table bk e) (found (1#64 <<< 63) e)) ∧
        (d.find p table key = (bk, none) →
          takes (.lkh x rd ra rb k table {}) read (found (BitVec.ofNat 64 bk) 0) ∧
          takes (.lkc x rd ra rb k table false {}) read (found 0 0) ∧
          (d.rd FWD.TBL_KIND (16 * p + table) = 1 →
            takes (.lkc x rd ra rb k table true {}) made.1 (found (1#64 <<< made.2.1) made.2.2.2))))) ∧
    ((c.tk k).busy = true → (c.tk k).pend = .search v → exec (.lkaLate x k) s = .next { s with dev :=
      ((d.setCtx x (c.setTk k { c.tk k with pend := .value (1#64 <<< 62) })).bump ACS.LKALATE_COUNT p).raiseSec s.time (ev 6 3) p (p * 2 ^ 20) })

/-- R170, R171, R179, R180, R183, R184: forwarding tables. The placed areas are cleared once; a refused descriptor is disabled with
EVT 7.6; the tick of FWD.NOW counts; a posted marking reaches its entry; the sweeper clears HIT, then marks, then removes an entry; a
table-DMA command holds its bucket's lock until it completes or is abandoned with EVT 7.4, and waits while the bucket is locked. R188,
R190: learning. A pending key whose settle window has passed is posted to its pipeline's learn ring and leaves the pending
memory; the policy takes the notification at the head of the ring and, for a first sighting of a key, writes the entry; a damped
entry is removed with EVT 7.3 once DAMPTIME has passed. -/
def Obligations.ForwardingAndLearning : Prop :=
  (∀ (s : State) (pipe : Fin 4) (t : Fin 16) (desc : TableDesc) (area : Fin 5) (bucket : Fin 16777216) (data : BitVec 512) (mask : Byte)
      (cmpv : Option Bool) (p n b mode tick : Nat) (l : TblLock) (rest : List (Nat × Nat × Nat × Nat)),
      let d := s.dev
      let gives := fun (i : Instr) (y : Dev) => exec i s = .next { s with dev := y }
      let e := d.bucket area bucket
      let taken : TblLock := { area := area, bucket := bucket, copy := e }
      let k := 16 * pipe.val + t.val
      let a0 := area.val
      let cmd : TblCmd := { area := area, bucket := bucket, data := data.toNat, mask := mask, cmpv := cmpv }
      (d.rd FWD.CFG_READY = 0 → gives .areasReady (({ d with fwd := { d.fwd with buckets := [], locks := [], marks := [] } }).wr FWD.CFG_READY 0 1)) ∧
      (d.descRefused pipe t desc = true →
        gives (.tableDescriptor pipe t desc) (((d.wr FWD.TBL_EN k 0).wr FWD.TBL_ERR k 1).raise s.time (ev 7 6) (t.val + pipe.val * 2 ^ 24))) ∧
      (d.descRefused pipe t desc = false → gives (.tableDescriptor pipe t desc)
        (((((((((((d.wr FWD.TBL_EN k (bitNat desc.en)).wr FWD.TBL_KIND k (bitNat desc.kind)).wr FWD.TBL_AGEMODE k desc.agemode).wr FWD.TBL_KEYLEN k
          desc.keylen).wr FWD.TBL_SIZE k desc.size).wr FWD.TBL_ERR k 0).wr FWD.TBL_BASE k desc.base).wr FWD.TSEED_SEED1 k desc.seed1.toNat).wr
          FWD.TSEED_SEED2 k desc.seed2.toNat).wr FWD.TAGE_AGELIM k desc.agelim).wr FWD.TAGE_SWEEP k desc.sweep)) ∧
      gives .ageTick (d.wr FWD.NOW_TICK 0 (d.rd FWD.NOW_TICK + 1)) ∧
      (d.fwd.marks = (a0, b, mode, tick) :: rest → eValid (d.bucket area b) = true → d.lockOf area b = none → gives .markingWrite
        (({ d with fwd := { d.fwd with marks := rest } }).setBucket area b
          (if mode = 1 then setBits (d.bucket area b) 16 16 tick else setBit (d.bucket area b) 4 true))) ∧
      (d.agingTable area bucket = some (p, n) → d.lockOf area bucket = none → eValid e = true → eStatic e = false → eDamp e = false →
        (d.rd FWD.TBL_AGEMODE (16 * p + n) = 1 → d.rd FWD.TAGE_AGELIM (16 * p + n) ≤ (d.rd FWD.NOW_TICK + 2 ^ 16 - eAge e) % 2 ^ 16 →
          gives (.sweepVisit area bucket) (d.ageOut s.time area p n bucket)) ∧
        (d.rd FWD.TBL_AGEMODE (16 * p + n) = 2 →
          gives (.sweepVisit area bucket) (if eHit e then d.setBucket area bucket (setBit (setBit e 4 false) 5 false)
            else if eClr1 e then d.ageOut s.time area p n bucket else d.setBucket area bucket (setBit e 5 true)))) ∧
      (d.bucketBarred area bucket = false → d.lockOf area bucket = none → (d.fwd.locks.filter (fun l => decide (l.area = a0))).length < 64 →
        (cmpv = none ∨ cmpv = some (eValid e) → gives (.tableDma area bucket data mask cmpv)
          (({ d with fwd := { d.fwd with locks := d.fwd.locks ++ [taken] } }).setBucket area bucket (maskedWords e data.toNat mask))) ∧
        (cmpv = some (!eValid e) → gives (.tableDma area bucket data mask cmpv) (d.send (.message 7 [area, bucket, 1])))) ∧
      (d.lockOf area bucket = some l →
        (d.bucketBarred area bucket = false →
          gives (.tableDma area bucket data mask cmpv) { d with fwd := { d.fwd with dmaWait := d.fwd.dmaWait ++ [cmd] } }) ∧
        gives (.lockRelease area bucket) ((d.unlock area bucket).send (.message 7 [area, bucket, 0])).dmaNext ∧
        gives (.lockTimeout area bucket)
          ((((((d.setBucket area bucket l.copy).unlock area bucket).bump FWD.LOCKTIMEOUT_COUNT (if a0 < 4 then a0 else 0)).raise s.time (ev 7 4)
            (bucket.val + a0 * 2 ^ 24)).send (.message 7 [area, bucket, 2])).dmaNext))) ∧
  (∀ (s : State) (pipe : Fin 4) (n : Fin 256) (area : Fin 5) (bucket : Fin 16777216) (x : PendLearn) (y : Dev) (since : Nat) (who : Nat × Nat × Nat),
      let d := s.dev
      let gives := fun (i : Instr) (y : Dev) => exec i s = .next { s with dev := y }
      let freed := d.setPend pipe ((d.pendOf pipe).eraseIdx n)
      let seen := (d.hringPeek s.time (learnRing pipe)).1
      let us := (d.hringPeek s.time (learnRing pipe)).2
      let u0 := us.getD 0 0
      let key := leBytes (seen.rd FWD.TBL_KEYLEN (16 * pipe.val + bitsOf u0 4 4)) (us.getD 2 0 % 2 ^ 64 + us.getD 3 0 % 2 ^ 64 * 2 ^ 64)
      let e := d.bucket area bucket
      ((d.pendOf pipe)[n.val]? = some x → x.first + d.rd LRN.CFG_SETTLE * 1000 ≤ s.time.toNs →
        (freed.hringPush s.time (learnRing pipe) (learnUnits pipe x (freed.bucketsOf pipe x.table x.key).1) = some y →
          gives (.settleExpiry pipe n) (y.bump LRN.NOTIF_COUNT pipe)) ∧
        (freed.hringPush s.time (learnRing pipe) (learnUnits pipe x (freed.bucketsOf pipe x.table x.key).1) = none →
          gives (.settleExpiry pipe n) (freed.learnSpill s.time pipe))) ∧
      (d.hringEmpty (learnRing pipe) = false → u0.testBit 10 = false → u0.testBit 11 = false → (seen.hringPop (learnRing pipe)).rd LRN.POLICY_SPREAD = 0 →
        gives (.learnNotification pipe)
          ((seen.hringPop (learnRing pipe)).learnEntry s.time pipe (bitsOf u0 4 4) (bitsOf u0 16 5) (bitsOf u0 64 13) key false).1) ∧
      (d.fwd.damped.find? (fun e => decide (e.1 = area.val ∧ e.2.1 = bucket.val)) = some (who.1, who.2.1, since) →
        since + d.rd LRN.POLICY_DAMPTIME * 1000000 ≤ s.time.toNs → d.lockOf area bucket = none → eValid e = true → eDamp e = true →
        gives (.dampExpiry area bucket)
          ((({ d with fwd := { d.fwd with damped := d.fwd.damped.filter (fun x => decide (x.1 ≠ area.val ∨ x.2.1 ≠ bucket.val)) } }).setBucket area bucket
            (setBit e 0 false)).raise s.time (ev 7 3) (bucket.val + area.val * 2 ^ 24) (some (ePolder e)))))

/-! ## Program loading (chapter 04) -/

/-- R92, R94 to R96, R103 to R105, R107, R108, R571: the program loader. LOAD places a verified image at the lowest free run under the lowest
free handle, answered at once or, while a bay reloads its store copy, when that reload has ended; BIND and UNBIND stage; COMMIT puts what is staged in force under the next epoch with EVT 4.1; UNLOAD drains an image,
which is freed once nothing uses it; ENROL and REVOKE mark a signing key; a count is selected, latched and cleared. The result codes of
ENROL and REVOKE are free values, and the layout of an answer is the model's (log entry 24). -/
def Obligations.LoaderResults : Prop :=
  ∀ (s : State) (pf : Pf) (len b i : Nat) (image : List Byte) (req : BindReq) (handle : Byte) (idx : Fin 4) (hash : BitVec 384)
    (kind : Fin 4) (index : BitVec 20) (mask slot : Nat), s.dev.loaderServes pf = true →
    let d := s.dev
    let gives := fun (i : Instr) (y : Dev) => exec i s = .next { s with dev := y }
    let img := slice image 0 (min len 0x80000)
    let v := verifyImage img len d.keyHashOf
    let n := v.prog.ins.length
    let loaded : Image := {
      st := .resident, words := n, base := b, bound := v.bound, issue := v.issue, keyidx := leAt img 7 1, entry := v.prog.entry
      code := leWords n (img.drop (leAt img 12 4)), ftab := v.prog.ftab, jtabs := v.prog.jtabs, ttab := v.prog.ttab, cntN := leAt img 44 4 }
    let bound : Slot := {
      handle := req.handle, fault := req.fault, fallback := req.fallback.toNat, scope := req.scope, owner := pf, cntBase := req.cntBase, cntCount := req.cntCount }
    let h := handle.toNat
    let x := d.image h
    let e := d.rd PGM.EPOCH_EPOCH + 1
    let committed := (d.staged pf).foldl (fun (y : Dev) z => match z.bind with
      | some b => y.setSlot (slotKey z.pipe z.slot) { b with epoch := e }
      | none => (y.setSlot (slotKey z.pipe z.slot) { epoch := e }).ownSlot (slotKey z.pipe z.slot) none) (d.setStaged pf [])
    (v.code = 0 → d.reloading = false → (d.runStarts.filter (fun b => d.runFree b n)).foldl (fun (x : Option Nat) b => some (match x with | some y => min y b | none => b)) none = some b →
      (List.range 255).find? (fun i => decide ((d.image (i + 1)).st = .free)) = some i →
      gives (.loaderLoad pf len image) ((d.setImage (i + 1) loaded).loaderAnswer s.time pf 1 0 (i + 1) v.bound v.issue)) ∧
    (v.code = 0 → d.reloading = true → (d.runStarts.filter (fun b => d.runFree b n)).foldl (fun (x : Option Nat) b => some (match x with | some y => min y b | none => b)) none = some b →
      (List.range 255).find? (fun i => decide ((d.image (i + 1)).st = .free)) = some i →
      gives (.loaderLoad pf len image) { d with prog := { d.prog with loading := some ⟨pf, i + 1, loaded⟩ } }) ∧
    (v.code ≠ 0 → gives (.loaderLoad pf len image) (d.loaderAnswer s.time pf 1 v.code 0 v.bound v.issue v.word)) ∧
    (d.bindFails pf req.mask req.slot req.scope req.fault req.zeroOk (some req.handle) = 0 →
      gives (.loaderBind pf req) ((d.stage pf req.mask req.slot (some bound)).loaderAnswer s.time pf 2 0 req.handle)) ∧
    (d.bindFails pf mask slot 0 0 true none = 0 →
      gives (.loaderUnbind pf mask slot true) ((d.stage pf mask slot none).loaderAnswer s.time pf 3 0 0)) ∧
    (d.commitFails (d.staged pf) = 0 → gives (.loaderCommit pf)
      (((committed.wr PGM.EPOCH_EPOCH 0 e).raise s.time (ev 4 1) e (some (4096 * pf.val))).loaderAnswer s.time pf 4 0 0)) ∧
    (x.st ≠ .free → d.imageBound h = false → d.staged 0 = [] → d.staged 1 = [] →
      gives (.loaderUnload pf handle) ((d.setImage h { x with st := .draining }).loaderAnswer s.time pf 5 0 h)) ∧
    (x.st ≠ .free → gives (.loaderQuery pf (.image handle)) (d.loaderAnswer s.time pf 6 0 h x.bound x.issue 0
      (leBytes 4 (d.rd PGM.IMGA_STATE h) ++ leBytes 4 x.words ++ leBytes 4 x.base ++ leBytes 4 x.keyidx))) ∧
    (x.st = .draining → d.imageUsed h = false → gives (.imageFreed handle) (d.setImage h {})) ∧
    (idx ≠ 0 → d.rdBit PGM.KEYSTAT_ENROLLED 0 idx = false → gives (.enrol pf idx hash) ((({ d with prog := { d.prog with
      keyHash := put none d.prog.keyHash idx (some hash.toNat) } }.wrBit PGM.KEYSTAT_ENROLLED 0 idx true).drawn).answerKey pf (leBytes 1 d.freeVal.toNat))) ∧
    gives (.revoke pf idx) ((d.wrBit PGM.KEYSTAT_REVOKED 0 idx true).drawn.answerKey pf (leBytes 1 d.freeVal.toNat)) ∧
    gives (.cntselWrite pf kind index) (d.selectCount pf kind index.toNat) ∧
    (d.selected pf (d.rd PGM.CNTSEL_KIND pf) (d.rd PGM.CNTSEL_INDEX pf) = some 0 → gives (.cntclr pf) { d with eng := { d.eng with
      cntPkts := put 0 d.eng.cntPkts (d.rd PGM.CNTSEL_INDEX pf) 0, cntBytes := put 0 d.eng.cntBytes (d.rd PGM.CNTSEL_INDEX pf) 0 } })

/-! ## Ports (chapter 05) -/

/-- R112 to R114, R117: the modes of the lane groups. An allowed APPLY of a block whose ports are disabled starts a change and resets
the lanes; one that is not allowed is refused with EVT 5.22. The end of a change puts the mode in force. A port is enabled. R117, R119, R124, R126, R135: links. A link that comes up trains its lanes, shows its speed and raises the port's event; one that goes
down ends its frames, counts a frame it cuts off as a frame with a wrong FCS, and does the same; a redundant path on it fails. The end of a FEC second judges the symbol errors. Verification tries three times, then fails with EVT 5.19. -/
def Obligations.PortsAndLinks : Prop :=
  (∀ (s : State) (port : Fin 16) (g : Fin 4) (lt : Bool) (m : Nat),
      let d := s.dev
      let gives := fun (i : Instr) (y : Dev) => exec i s = .next { s with dev := y }
      let gr := port.val / 4
      let mode := d.rd PRT.MODE_GMODE port
      let gs := d.affected gr mode
      let running := d.wr PRT.MODE_STATE port 1
      let news := d.affected g m
      let put1 := ((d.putMode g m).commit (news.map (fun k => (2, k)))).wr PRT.MODE_STATE (4 * g) 0
      let aside := d.wr PRT.MODE_STATE (4 * g) 0
      let put2 := { put1 with mac := { put1.mac with applying := put 0 put1.mac.applying g 0 } }
      let fresh := (List.range 16).foldl (fun (y : Dev) n => if news.contains (n / 4) then (y.freshPort n).showLineInc n else y) put2
      (port.val % 4 = 0 → d.applyRuns gr = false →
        ((d.modeRefused port mode = false → (∀ n < 16, gs.contains (n / 4) = true → d.rd PRT.CTL_EN n = 0) →
          gives (.modeApply port) (({ running with mac := { running.mac with applying := put 0 running.mac.applying gr (mode + 1) } }).resetLanes gs)) ∧
        (d.modeRefused port mode = true → gives (.modeApply port) ((d.wr PRT.MODE_STATE port 2).raise s.time (ev 5 22) (gr * 4))))) ∧
      (look 0 d.mac.applying g = m + 1 → ¬ (g.val % 2 = 1 ∧ d.groupMode g = 4) →
        gives (.modeChangeDone g) (((news.foldl (fun (y : Dev) k => y.wrBit CLK.RGSTAT_INRESET 0 (12 + k) false) fresh).undoPairs).showPaths s.time)) ∧
      (look 0 d.mac.applying g = m + 1 → g.val % 2 = 1 → d.groupMode g = 4 →
        gives (.modeChangeDone g) (({ aside with mac := { aside.mac with applying := put 0 aside.mac.applying g 0 } } : Dev).undoPairs.showPaths s.time)) ∧
      (d.portExists port = true → d.ready port = true →
        gives (.portEnable port lt) (((d.wr PRT.CTL_LT port (if lt then 1 else 0)).wr PRT.CTL_EN port 1).commit [(2, port / 4)]))) ∧
  (∀ (s : State) (port : Fin 16),
      let d := s.dev
      let gives := fun (i : Instr) (y : Dev) => exec i s = .next { s with dev := y }
      let p := d.port port
      let trained := (List.range (d.portLanes port)).foldl (fun (y : Dev) k => y.trainLane (port + k)) d
      let up := ((trained.wr PRT.STATUS_LINK port 1).wr PRT.STATUS_ALIGN port 1).wr PRT.STATUS_SPEED port (d.portSpeed port)
      let passed := d.setPort port { p with symbols := 0 }
      let asks := (up.wr PRT.STATUS_PVERIFY port 1).setPort port { up.port port with tries := 1 }
      let cut := if p.rxOpen.isSome then (d.endFrames port).bump PRT.RXFCS_COUNT port else d.endFrames port
      let still := cut.setPort port { cut.port port with tries := 0, rxOpen := none, looped := [] }
      let down := (((still.wr PRT.STATUS_LINK port 0).wr PRT.STATUS_ALIGN port 0).wr PRT.STATUS_SPEED port 0).wr PRT.STATUS_PVERIFY port 0
      let fallen := ((down.linkAen port).raise s.time (ev 5 port) port).revalidate 5
      let failed := (d.wr PRT.STATUS_PVERIFY port 3).raise s.time (ev 5 19) port
      (d.portExists port = true → d.rd PRT.CTL_EN port = 1 → d.linkUp port = false → d.portDark port = false →
        d.rd PRT.PREEMPT_VERIFY port = 0 →
        gives (.linkUp port) ((((up.wr PRT.STATUS_PVERIFY port 0).linkAen port).raise s.time (ev 5 port) port).revalidate 5)) ∧
      (d.portExists port = true → d.rd PRT.CTL_EN port = 1 → d.linkUp port = false → d.portDark port = false →
        d.rd PRT.PREEMPT_VERIFY port = 1 →
        gives (.linkUp port) ((((asks.toLine port (.verify port false) .verify).linkAen port).raise s.time (ev 5 port) port).revalidate 5)) ∧
      (d.linkUp port = true → fallen.pathOf port = none → gives (.linkDown port) fallen) ∧
      (∀ i, d.linkUp port = true → fallen.pathOf port = some i →
        gives (.linkDown port) ((fallen.setPathSt i { fallen.pathSt i with upAll := false, hbDue := false }).failPath s.time i)) ∧
      (d.rd PRT.FECTHR_SYMTHR port ≠ 0 → d.rd PRT.FECTHR_SYMTHR port < p.symbols →
        gives (.fecSecond port) ((passed.wr PRT.STATUS_FECHI port 1).raiseSec s.time (ev 5 16) port port)) ∧
      (p.symbols ≤ d.rd PRT.FECTHR_SYMTHR port → gives (.fecSecond port) (passed.wr PRT.STATUS_FECHI port 0)) ∧
      (d.rd PRT.STATUS_PVERIFY port = 1 → d.linkUp port = true → p.tries < 3 →
        gives (.verifyTimer port) ((d.setPort port { p with tries := p.tries + 1 }).toLine port (.verify port false) .verify)) ∧
      (d.rd PRT.STATUS_PVERIFY port = 1 → d.linkUp port = true → 3 ≤ p.tries →
        gives (.verifyTimer port) (if d.timedContract port then failed.revalidate 5 else failed)))

/-- R116, R118, R120 to R122, R126, R135: what arrives at a port that has no loopback. A frame too short, too long or with a wrong FCS is
counted and dropped; a good frame goes on with its time of arrival; the fragments of a preempted frame are put together and the whole is
judged as a frame; a continuation without a frame, with another frame number or count, or with a wrong check is counted with EVT 5.20;
an overrun raises EVT 5.23; a verify request is answered, and a response ends verification; code words are counted. -/
def Obligations.ReceiveResults : Prop :=
  ∀ (s : State) (port : Fin 16) (f1 f2 : AcsFind) (ecc : FrameEcc) (bs : List Byte) (ok more : Bool) (good symbols : Nat) (num count : Fin 4) (x : RxOpen),
    let d := s.dev
    let gives := fun (a : Arrival) (y : Dev) => exec (.frameReceive port a f1 f2 ecc) s = .next { s with dev := y }
    let shut := d.setOpen port none
    let bad := fun (y : Dev) => ((y.bump PRT.RXREASM_COUNT port).raiseSec s.time (ev 5 20) port port).pathError s.time port
    let judged := fun (y : Dev) (t : Nat) (b : List Byte) (fine : Bool) =>
      if b.length + 4 < 64 then y.bump PRT.RXRUNT_COUNT port
      else if y.rd PRT.MAXLEN_LEN port < b.length + 4 then y.bump PRT.RXOVERSIZE_COUNT port
      else if fine then y.goodFrame s.time port t b f1 f2 ecc
      else (y.bump PRT.RXFCS_COUNT port).pathError s.time port
    d.portExists port = true → d.linkUp port = true → d.rd PRT.CTL_LOOP port = 0 →
    gives (.frame bs ok) (judged d (d.rxTime s.time port) bs ok) ∧
    ((d.port port).rxOpen = none →
      gives (.start num bs false ok) (judged d (d.rxTime s.time port) bs ok) ∧
      gives (.start num bs true true) (d.setOpen port (some { num := num, bytes := bs, ts := d.rxTime s.time port })) ∧
      gives (.start num bs true false) (bad d) ∧
      gives (.cont num count bs more ok) (bad d)) ∧
    ((d.port port).rxOpen = some x →
      gives (.start num bs true true) ((bad shut).setOpen port (some { num := num, bytes := bs, ts := d.rxTime s.time port })) ∧
      (num.val ≠ x.num ∨ count.val ≠ x.next → gives (.cont num count bs more ok) (bad shut)) ∧
      (num.val = x.num → count.val = x.next →
        gives (.cont num count bs false ok) (judged shut x.ts (x.bytes ++ bs) ok) ∧
        gives (.cont num count bs true false) (bad shut) ∧
        gives (.cont num count bs true true) (shut.setOpen port (some { x with next := (x.next + 1) % 4, bytes := x.bytes ++ bs })))) ∧
    gives .overrun ((d.bump PRT.RXOVERRUN_COUNT port).raiseSec s.time (ev 5 23) port port) ∧
    gives .cutOff ((shut.bump PRT.RXFCS_COUNT port).pathError s.time port) ∧
    gives .verify (d.send (.verify port true)) ∧
    (d.rd PRT.STATUS_PVERIFY port = 1 → gives .verifyResponse (d.wr PRT.STATUS_PVERIFY port 2)) ∧
    (let counted := ((d.bump PRT.FECCW_COUNT port good).bump PRT.FECSYM_COUNT port symbols).bump PRT.FECUNC_COUNT port 0
     gives (.codewords good 0 symbols) (counted.setPort port { counted.port port with symbols := (counted.port port).symbols + symbols }))

/-- R123, R125, R128, R129, R134: a MAC's transmit side. An idle line takes the frame of the highest class that may start, charges its class and sends it with
its time stamp, resumes the rest of a preempted frame, or drops a frame longer than MAXLEN; an express frame
preempts one that is divisible; a frame that ends is counted and its packet leaves; an underrun ends the frame with the wrong FCS and
is counted, raising CUR for a frame from HBM. -/
def Obligations.TransmitResults : Prop :=
  ∀ (s : State) (port : Fin 16) (crcOk : Bool) (c len : Nat) (p : Packet) (t : TxFrame),
    let d := s.dev
    let gives := fun (i : Instr) (y : Dev) => exec i s = .next { s with dev := y }
    let idle := d.portExists port = true ∧ d.portSafe port = false ∧ (d.port port).tx = none
    let trimmed := (List.range 8).foldl (fun (y : Dev) c => y.trimClass s.time port c 2) (d.quarRemove port)
    let bs := trimmed.leaving port p
    let frame : TxFrame := { pkt := p, cls := c, bytes := bs, preempt := trimmed.preemptClass port c, ts := trimmed.txTime s.time port }
    let taken := trimmed.setClassBuf port c ((trimmed.classBuf port c).drop 1)
    let charged := taken.chargeClass port c (bs.length + 4)
    let stamped := charged.oneStep s.time port frame.ts p bs
    let ended := (d.setPort port { d.port port with tx := none }).toLine port (.frame port t.bytes true) (.frame t.bytes true)
    let counted := ((ended.bump PRT.TXFRAMES_COUNT port).bump PRT.TXOCTETS_COUNT port (t.bytes.length + 4)).bump PRT.TXCLASS_COUNT (8 * port + t.cls)
    let under := ((d.setPort port { d.port port with tx := none, clean := 0 }).spoil port t).bump PRT.TXUNDERRUN_HBM port
    let expr := ((d.setPort port { d.port port with tx := none }).spoil port t).bump PRT.TXUNDERRUN_EXP port
    (idle → trimmed.linkUp port = true → trimmed.nextStart s.time port = some (c, .head p) → bs.length + 4 ≤ trimmed.rd PRT.MAXLEN_LEN port →
      gives (.transmitStart port true) ((stamped.1.takeBase port).onWire port { frame with bytes := stamped.2 }) ∧
      gives (.transmitStart port false) (((charged.takeBase port).spoil port frame).payloadFailure s.time (some port))) ∧
    (idle → trimmed.linkUp port = true → trimmed.nextStart s.time port = some (c, .head p) → trimmed.rd PRT.MAXLEN_LEN port < bs.length + 4 →
      gives (.transmitStart port crcOk) ((taken.bump PRT.TXDISCARD_COUNT port).macDone frame false none)) ∧
    (idle → trimmed.linkUp port = true → trimmed.nextStart s.time port = some (c, .resume t) →
      gives (.transmitStart port crcOk) ((trimmed.setPort port { trimmed.port port with held := none }).onWire port t)) ∧
    (idle → trimmed.linkUp port = true → trimmed.nextStart s.time port = none → gives (.transmitStart port crcOk) trimmed) ∧
    ((d.port port).tx = some t →
      (d.divisible port len t = true → (∃ k < 8, d.preemptClass port k = false ∧ (d.startOf s.time port k).isSome = true) →
        gives (.preemption port len) (d.cutFrame port len t)) ∧
      (t.pkt.place ≠ .hbm → gives (.transmitEnd port) ((counted.capture s.time port t).macDone t true (d.completionTs t))) ∧
      (t.pkt.place = .hbm →
        gives (.transmitEnd port) (((counted.cleanFrame port).capture s.time port t).macDone t true (d.completionTs t)) ∧
        gives (.hbmUnderrun port) ((under.wr PRT.TXCT_CUR port (min (under.rd PRT.TXCT_CUR port + 256) (under.rd PRT.MAXLEN_LEN port))).raiseSec
          s.time (ev 5 17) port port)) ∧
      (t.pkt.place = .express → t.beat = false →
        gives (.expressUnderrun port) ((expr.raiseSec s.time (ev 5 18) port port).payloadFailure s.time (some port))))

/-! ## Dispatch and collection (chapter 08) -/

/-- R198, R200, R203, R207, R208, R210: in one PCLK each pipeline in turn dispatches the packet it is to take next to the engine it
chooses; a packet whose slot holds no program is dropped with EVT 4.2, and one without an engine waits, with EVT 8.6 where no bay of its
mask serves. No engine is chosen twice in one PCLK. A packet of a failed engine is dispatched again before the queues. The collector takes
at most 12 bay inputs and 4 shared ones; one retirement alone is accepted, and so is what a control core hands over. That DISPATCH
is one PCLK of all four pipelines is the model's choice (log entry 33). -/
def Obligations.DispatchResults : Prop :=
  ∀ (s : State) (pipe : Fin 4) (p : Packet) (q : DispatchQueue) (n : Nat) (front back : List Nat) (inject : Option Injection) (seq : Option (Fin 4)),
    let d := s.dev
    let k := pipe.val
    let gives := fun (i : Instr) (y : Dev) => exec i s = .next { s with dev := y }
    let others := fun (y : Dev) (l : List Nat) => l.foldl (fun (z : Dev) j => z.ordinaryWaits j) y
    let turn := fun (y : Dev) (f : Nat) => ({ y with dsp := { y.dsp with first := f } } : Dev)
    let here := (others d front).ordinaryWaits k
    let b := d.slotOf k p
    let dropped := fun (y : Dev) (z : DispatchQueue) =>
      (((y.takeNext k z).bump PGM.NOSLOT_COUNT).raise s.time (ev 4 2) (p.slot + k * 256) (some p.polder)).freePacket p
    let faulted := match seq with
      | some e => d.seqFault s.time e
      | none => d
    let dj := (match inject with
      | some j => faulted.takeInjection s.time j
      | none => faulted).judgeFaults s.time
    let xs := dj.eligibleRets
    let moved := { dj.peak DSP.BACKLOG_PEAK 0 0 with dsp := { dj.dsp with colRot := (dj.dsp.colRot + 1) % 12 } }
    ((d.choices d.pipeOrder []).map (fun e => e.2)).Nodup ∧
    (d.pipeOrder = front ++ k :: back → (∀ j < 4, j ≠ k → d.dispatchNext j = none) → d.dispatchNext k = some (q, p) →
      (b.handle = 0 → gives .dispatch (turn (others (dropped here q) back) d.dsp.first)) ∧
      (b.handle ≠ 0 → d.chooseEngine k = some n → gives .dispatch (turn (others ((here.takeNext k q).startPacket n p b) back) ((k + 1) % 4))) ∧
      (b.handle ≠ 0 → d.chooseEngine k = none →
        gives .dispatch (turn (others (if d.noEngine k then here.raise s.time (ev 8 6) k else here) back) d.dsp.first))) ∧
    (d.dispatchNext k = some (.again, p) →
      (b.handle = 0 → gives (.redispatch pipe) (dropped (d.ordinaryWaits k) .again)) ∧
      (b.handle ≠ 0 → d.chooseEngine k = some n → gives (.redispatch pipe) (((d.ordinaryWaits k).takeNext k .again).startPacket n p b)) ∧
      (b.handle ≠ 0 → d.chooseEngine k = none → gives (.redispatch pipe)
        (if d.noEngine k then (d.ordinaryWaits k).raise s.time (ev 8 6) k else d.ordinaryWaits k))) ∧
    ((bayInputs xs).length ≤ 12 ∧ (sharedInputs dj.dsp.colRot 4 (xs.filter (fun x => !(bayInputs xs).contains x))).length ≤ 4) ∧
    (xs = [] → (∀ j < 12, look none dj.dsp.coreRet j = none) → gives (.collectorAccept inject seq) moved) ∧
    (∀ x, xs = [x] → (∀ j < 12, look none dj.dsp.coreRet j = none) → bayOf x < 12 → (∀ r, (dj.ctx x).packet = some r → r.tag = none) →
      gives (.collectorAccept inject seq)
        (({ dj.peak DSP.BACKLOG_PEAK 0 1 with dsp := { dj.dsp with colRot := (dj.dsp.colRot + 1) % 12 } } : Dev).acceptCtx s.time x true)) ∧
    (∀ j < 12, xs = [] → (look none dj.dsp.coreRet j).isSome = true → (∀ i < 12, i ≠ j → look none dj.dsp.coreRet i = none) →
      gives (.collectorAccept inject seq) ((moved : Dev).acceptCore s.time j))

/-! ## Tunnels and storage (chapter 09) -/

/-- R216 to R218, R220 to R222: a staged template that is well formed is stored, with its counters; one that is not is refused with EVT 9.0.
The TUN instructions lock the header and hold the rewritten one for their ticket; an encapsulation that succeeds advances its
template's counters; one that fails gives its status, is counted and leaves the template as it is. -/
def Obligations.TunnelResults : Prop :=
  ∀ (s : State) (n : Fin 16384) (x : CtxId) (rd ra : Reg) (k : Tick),
    let d := s.dev
    let c := d.ctx x
    let a := (c.rg ra).toNat
    let gives := fun (i : Instr) (y : Dev) => exec i s = .next { s with dev := y }
    let takes := fun (i : Instr) (y : Dev) (r : TunResult) => gives i (y.setCtx x ((y.ctx x).setTk k
      { rd := rd, header := true, pend := .toHeader (r.value c.s) r.s r.bytes r.eg r.tag r.late r.parse, busy := true }).next)
    let failed := fun (st : Nat) => (d.bump TUN.ERR_COUNT).wr TUN.ERR_LAST 0 st
    let t : Template := { bytes := d.staged128 }
    let stored : Template := { t with idctr := beAt t.bytes (t.l3off + 4) 2, seqctr := if t.gre then beAt t.bytes t.greSeq 4 else 0 }
    let named := d.wr TUN.TCMD_TMPL 0 n
    let e := d.template (a % 16384)
    let r := c.encapsulate e (bitsOf a 16 16)
    let used : Template := { e with
      idctr := if e.flag 0 then e.idctr else (e.idctr + 1) % 65536
      seqctr := if e.gre && e.flag 5 then (e.seqctr + 1) % 2 ^ 32 else e.seqctr }
    let opened := d.decapsulate c e (a.testBit 16)
    (t.ok = false → gives (.templateCommit n) (named.raise s.time (ev 9 0) n)) ∧
    (t.ok = true → t.type ≠ 0 → (named.template n).type = 0 → gives (.templateCommit n)
      (({ named with tmpl := put {} named.tmpl n stored }).wr TUN.TSTATUS_VALID 0 (named.rd TUN.TSTATUS_VALID + 1 - 0))) ∧
    (isCore x = false → (c.tk k).busy = false → d.issues x { regs := [rd.val, ra.val], header := true } = true →
      (r.status = 0 → takes (.tunEncapsulate x rd ra k) (({ d with tmpl := put {} d.tmpl (a % 16384) used }).bump TUN.ENCAP_COUNT) r) ∧
      (r.status ≠ 0 → r.status ≠ 7 → takes (.tunEncapsulate x rd ra k) (failed r.status) r) ∧
      (opened.status = 0 → takes (.tunDecapsulate x rd ra k) (d.bump TUN.DECAP_COUNT) opened) ∧
      (opened.status ≠ 0 → opened.status ≠ 7 → takes (.tunDecapsulate x rd ra k) (failed opened.status) opened) ∧
      ((c.mark a).status = 0 → takes (.tunMark x rd ra k) d (c.mark a)) ∧
      ((c.mark a).status ≠ 0 → (c.mark a).status ≠ 7 → takes (.tunMark x rd ra k) (failed (c.mark a).status) (c.mark a)))

/-- R226, R229, R239: a connection comes to the transport unit under the lowest free number, owned by its function; a queue pair is
created under the lowest free number, while its memory regions fit; with none free, EVT 9.5. R227 to R229, R238: TCP and RDMA in the
transport unit. The segment that is next is processed, handed to its ring when the connection is offloaded no longer, or dropped when its
checksum is wrong; an ACK delayed by 200 µs is sent; a retransmission timer that has run RTO doubles it, up to 60 s, and shrinks the
window to one segment, or fails the connection after MAXRETX; a RoCEv2 frame with a wrong ICRC is counted, one for no queue pair that is
up is dropped, and an ACK, READ data and a request take their effect; an ACK timer that has run 4.096 µs × 2^T sends again from the oldest packet
while retries are left, else the queue pair fails; a work request is posted, or completed with status 7 where its queue pair does not
take it. The MAC layer's readings of a segment and of a frame follow RFC 793 and the RoCEv2 annex (log entry 26). -/
def Obligations.TransportUnit : Prop :=
  (∀ (s : State) (fn : Fn) (st : TcpState) (req : QpReq) (c q : Nat), s.dev.answerRoom fn = true →
      let d := s.dev
      let gives := fun (i : Instr) (y : Dev) => exec i s = .next { s with dev := y }
      let fresh : Conn := { recover := (st.una + 2 ^ 32 - 1) % 2 ^ 32 }
      let taken := ((d.wr STO.TCONN_STATE c 2).wr STO.TCONN_POLDER c fn).setConn c { fresh with p := st, rto := d.rtoOf st.srtt st.rttvar }
      let pair : Qp := { used := true, polder := fn, p := req, spsn := req.spsn % 2 ^ 24, epsn := req.epsn % 2 ^ 24, retry := req.retry, rnr := req.rnr }
      (d.freeConn = some c → d.ownsRing fn kRx st.ring = true → d.queuePolder st.queue = some fn.val → d.rd STO.TCONN_STATE c = 0 →
        gives (.handOver fn none st) ((taken.wr STO.CONNSTAT_TCP 0 (d.rd STO.CONNSTAT_TCP + 1)).storageAnswer fn c)) ∧
      (d.freeConn = none → gives (.handOver fn none st) ((d.raise s.time (ev 9 5) 0 (some fn)).storageAnswer fn 0)) ∧
      ((List.range 65536).find? (fun q => !(d.qp q).used) = some q → d.ownsRing fn kRx req.ring = true → d.ownsRing fn kCq req.cq = true →
        d.queuePolder req.queue = some fn.val → (d.sto.qps.map (fun e => e.2.p.regions.length)).sum + req.regions.length ≤ 1048576 → (req.mtu = 1024 ∨ req.mtu = 2048 ∨ req.mtu = 4096) → 1 ≤ req.t → req.t ≤ 31 → req.retry ≤ 7 →
        req.rnr ≤ 7 → gives (.queuePairCreate fn req) (((d.setQp q pair).wr STO.CONNSTAT_RC 0 (d.rd STO.CONNSTAT_RC + 1)).storageAnswer fn q))) ∧
  (∀ (s : State) (conn : Fin 16384) (p : Packet) (ps : List Packet) (g : SentSeg) (gs : List SentSeg) (frame : RoceFrame)
      (bytes read data : List Byte) (qpn : Fin 65536) (ring : Fin 262144) (e : SubEntry) (t : Nat),
      let d := s.dev
      let gives := fun (i : Instr) (y : Dev) => exec i s = .next { s with dev := y }
      let rest : Dev := { d with sto := { d.sto with segs := put [] d.sto.segs conn ps } }
      let left := rest.leave p true none
      let x := d.conn conn
      let half := max (x.flight / 2) (2 * x.p.mss)
      let slowed : Conn := { x with
        rto := min (2 * x.rto) 60000000, fast := false, dups := 0, recover := x.p.nxt, p := { x.p with ssthresh := half, cwnd := x.p.mss } }
      let q := d.qp qpn
      let y := d.ring kSub ring
      let u := fun (i : Nat) => e.words.getD i 0
      let n := bitsOf (u 0) 32 16
      let w : Wr := { ring := ring, pos := e.pos, opc := bitsOf (u 0) 8 8, signal := (u 0).testBit 16, imm := bitsOf (u 0) 64 32,
                      wrid := bitsOf (u 1) 0 64, laddr := bitsOf (u 2) 0 64, len := bitsOf (u 2) 64 32, raddr := bitsOf (u 3) 0 64,
                      rkey := bitsOf (u 3) 64 32 }
      (x.nextSegment (look [] d.sto.segs conn) = some (p, ps) → p.onward = [] →
        (d.offloaded conn = true → tcpSound p.bytes = true →
          gives (.tcpSegmentReceive conn) (left.tcpSegment s.time conn (readSegment p.bytes))) ∧
        (d.offloaded conn = true → tcpSound p.bytes = false → gives (.tcpSegmentReceive conn) left) ∧
        (d.offloaded conn = false → gives (.tcpSegmentReceive conn) (rest.rxDeliver s.time x.p.ring p))) ∧
      (d.offloaded conn = true → x.ackAt = some t → t + 200000 ≤ d.uptime → gives (.delayedAck conn) (d.tcpAck s.time conn)) ∧
      (d.offloaded conn = true → x.sent = g :: gs → x.timer = some t → t + 1000 * x.rto ≤ d.uptime → d.ackWaits conn g = false →
        (g.retx < d.rd STO.TCPCFG_MAXRETX → gives (.retransmitTimer conn) ((d.setConn conn slowed).tcpResend s.time conn)) ∧
        (d.rd STO.TCPCFG_MAXRETX ≤ g.retx → gives (.retransmitTimer conn) (d.failConn s.time conn))) ∧
      (readRoce bytes = some frame →
        (frame.icrcOk = false → gives (.roceFrameReceive bytes read) (d.bump STO.ICRCERR_COUNT)) ∧
        (frame.icrcOk = true → frame.opcode < 32 → (d.qp frame.qpn).up = false → gives (.roceFrameReceive bytes read) d) ∧
        (frame.icrcOk = true → 32 ≤ frame.opcode → frame.opcode ≠ 0x81 → gives (.roceFrameReceive bytes read) (d.bump STO.BADOPC_COUNT)) ∧
        (frame.icrcOk = true → frame.opcode = 0x81 → (d.qp frame.qpn).up = true → gives (.roceFrameReceive bytes read) (d.cnpArrives frame.qpn)) ∧
        (frame.icrcOk = true → (d.qp frame.qpn).up = true →
          let y := if frame.ce then d.congestion s.time frame.qpn else d
          (frame.opcode = 0x11 → gives (.roceFrameReceive bytes read) (y.roceAcked s.time frame.qpn frame.psn frame.syndrome)) ∧
          (0x0D ≤ frame.opcode → frame.opcode ≤ 0x10 → gives (.roceFrameReceive bytes read) (y.roceReadData s.time frame.qpn frame)) ∧
          (frame.opcode < 0x0D → gives (.roceFrameReceive bytes read) (y.roceRequest s.time frame.qpn frame read)))) ∧
      (q.up = true → q.wrs ≠ [] → q.rnrWait = false → q.since + 4096 * 2 ^ q.p.t ≤ d.uptime →
        (0 < q.retry → gives (.ackTimeout qpn false) ((d.setQp qpn { q with retry := q.retry - 1 }).goBack s.time qpn q.oldest)) ∧
        (q.retry = 0 → gives (.ackTimeout qpn false) (d.failQp s.time qpn 0x0A))) ∧
      (q.up = true → q.rnrWait = true → q.rnr = 0 → gives (.rnrTimer qpn) (d.failQp s.time qpn 0x0A)) ∧
      (q.up = true → q.rnrWait = true → 0 < q.rnr →
        gives (.rnrTimer qpn) ((d.setQp qpn { q with rnrWait := false, rnr := if q.p.rnr = 7 then 7 else q.rnr - 1 }).goBack s.time qpn q.oldest)) ∧
      (y.nextEntry = some e → y.mode = 3 → (d.qp n).up = true → (d.qp n).polder = y.polder →
        (w.opc ≠ 4 → gives (.rdmaWorkRequest ring data) ((d.setRing kSub ring (y.start e.pos)).wrPost s.time n { w with data := slice data 0 w.len })) ∧
        (w.opc = 4 → ((d.qp n).wrs.filter (fun v => decide (v.opc = 4))).length < 16 →
          gives (.rdmaWorkRequest ring data) ((d.setRing kSub ring (y.start e.pos)).wrPost s.time n { w with data := [] }))) ∧
      (y.nextEntry = some e → y.mode = 3 → ((d.qp n).up = false ∨ (d.qp n).polder ≠ y.polder) →
        gives (.rdmaWorkRequest ring data) ((d.setRing kSub ring (y.start e.pos)).wrDone n w 7)))

/-- R231 to R234, R236, R238: the NVMe personality and the storage rings. A doorbell of a queue in use takes its value and executes the
commands it makes known; the controller is enabled, stopped and shut down, which ends once no command is outstanding or after 500 ms; a personality is assigned to a function that does not
exist yet; a storage entry becomes a job on its connection; a completion ends its job. -/
def Obligations.StorageResults : Prop :=
  ∀ (s : State) (fn vf : Fn) (pf : Pf) (index : Fin 256) (value : BitVec 32) (cmds : List NvRead) (shn : Fin 4) (ns : List NsReq) (ring : Fin 262144)
    (bufs : List (Nat × Nat)) (data : List Byte) (job v cqe : Nat) (more : List (Nat × Nat × List Byte)) (j : NvJob) (e : SubEntry),
    let d := s.dev
    let gives := fun (i : Instr) (y : Dev) => exec i s = .next { s with dev := y }
    let n := index.val / 2
    let cq := decide (index.val % 2 = 1)
    let x := d.ctl fn
    let q := x.queue n cq
    let v0 := bitsOf value.toNat 0 16
    let y := d.ring kSub ring
    let u := e.words.getD 0 0
    let conn := (u.testBit 8, bitsOf u 32 16)
    let asked : NvJob := { src := .ring ring e.pos, conn := conn, sqe := entrySqe e.words, data := data, bufs := bufs, polder := y.polder, len := max data.length ((bufs.map (fun b => b.2)).sum) }
    let begun := d.setRing kSub ring (y.start e.pos)
    let given := (((d.wr STO.PVF_FUNC v vf).wr STO.PVF_EN v 1).wr STO.PVF_NSCOUNT v ns.length)
    let counted := given.wr STO.PERSONA_COUNT 0 (given.rd STO.PERSONA_COUNT + 1)
    (d.memAnswers fn = true → (d.personaOf fn).isSome = true →
      (x.en = true → q.used = true → v0 < q.size → cq = true →
        gives (.nvmeQueueDoorbell fn index value cmds) ((d.setCtl fn (x.setQueue n true { q with head := v0 })).nvDrain fn n q.wait.length)) ∧
      (x.en = true → q.used = true → v0 < q.size → cq = false → gives (.nvmeQueueDoorbell fn index value cmds)
        ((cmds.take ((v0 + q.size - q.head) % q.size)).foldl (fun (y : Dev) r => y.nvExec s.time fn n r) (d.setCtl fn (x.setQueue n false { q with tail := v0 })))) ∧
      (x.en = false → gives (.controllerEnable fn) (d.setCtl fn x.enable)) ∧
      gives (.ccEnClear fn) (d.nvStop fn) ∧
      gives (.ccShn fn shn) (d.setCtl fn (x.shutdown shn d.uptime))) ∧
    ((d.personaOf fn).isSome = true →
      (∀ m ∈ d.sto.cmds, ∀ c : NvCmd, m.2 = some c → c.vf ≠ fn.val) ∨ x.stopAt + 500000000 ≤ d.uptime →
      gives (.shutdownComplete fn) (d.setCtl fn { x with rdy := x.rdy && x.en, shst := if x.shst = 1 then 2 else x.shst })) ∧
    (d.memAnswers fn = false → gives (.nvmeQueueDoorbell fn index value cmds) (d.urAnswer s.time fn) ∧
      gives (.controllerEnable fn) (d.urAnswer s.time fn) ∧ gives (.ccEnClear fn) (d.urAnswer s.time fn) ∧ gives (.ccShn fn shn) (d.urAnswer s.time fn)) ∧
    (d.answerRoom (4096 * pf.val) = true → d.personaOf vf = none → d.fnExists vf = false → pfOf vf = pf → vf.val % 4096 ≠ 0 →
      (List.range 1024).find? (fun v => decide (d.rd STO.PVF_EN v = 0)) = some v → ns.all (d.nsOk pf) = true → (ns.map (fun s => s.nsid)).Nodup →
      gives (.personalityAssign pf vf ns)
        ((counted.setCtl vf { counted.ctl vf with ns := ns.foldl (fun t s => Tbl.insert t s.nsid (some s)) [] }).storageAnswer (4096 * pf.val) v)) ∧
    (y.nextEntry = some e → y.mode = 2 →
      (begun.connPolder conn = y.polder → gives (.storageCommand ring bufs data) (begun.newJob s.time asked)) ∧
      (begun.connPolder conn ≠ y.polder → gives (.storageCommand ring bufs data)
        (((begun.bump STO.TTE_COUNT).raise s.time (ev 9 4) (connInfo conn) (some y.polder)).jobDone 0 asked tteEntry []))) ∧
    (d.sto.arrived = (job, cqe, data) :: more → look none d.sto.jobs job = some j →
      gives .remoteCompletion (({ d with sto := { d.sto with arrived := more } } : Dev).jobDone job j cqe data))

/-! ## Cipher (chapter 10) -/

/-- R243 to R245, R248, R251, R253 to R255, R258, R260, R267, R270: cipher jobs. A CIS whose descriptor is refused returns its status; one that is accepted
takes a job number and, where it seals under the slot's counter, the counter; an idle core takes the job that is next at a chunk boundary, goes
on with one it suspended, or fetches the key of a new one, masked and with what the key store's read finds; a completed job answers its
ticket or keeps its result for its packet; a return job that waits too long is LATE; a core whose tests fail is withdrawn. The end of an onward job: it merges into the
packet that waits for it, in the packet's own order; one that failed drops its packet and is counted, with EVT 10.3 at most once per second; a
RETIRING slot with no open job is emptied. -/
def Obligations.CipherJobs : Prop :=
  (∀ (s : State) (x : CtxId) (rd ra rb : Reg) (k : Tick) (core : Fin 32) (n : Nat) (ns : List Nat) (j : Job) (ecc : Ecc),
      let d := s.dev
      let c := d.ctx x
      let gives := fun (i : Instr) (y : Dev) => exec i s = .next { s with dev := y }
      let o := (c.rg ra).toNat
      let q := readDesc (c.scrBytes o 64)
      let slot := (c.rg rb).toNat % 131072
      let counted := fun (e : Ecc) => (d.setCtx x { c with cis := c.cis + 1 }).slotEcc s.time slot e
      let key := fun (y : Dev) => if (c.rg rb).toNat < 131072 then y.key slot else ({} : KeySlot)
      let len := c.e - c.s + (match c.pkt with | some p => p.tail.length | none => 0)
      let lane := if (c.pkt.map (fun p => decide (p.contract ≠ 0))).getD false then 1 else 2
      let status := fun (y : Dev) (onward : Bool) =>
        y.cisStatus q (key y) onward c.pkt.isSome ((c.pkt.map y.growsFrame).getD false) len (y.progPolder c) (if onward then lane else 0)
      let accepted := fun (y : Dev) (queue : Nat) =>
        (if q.enc && decide (q.nsrc = 1) then y.setKey slot { key y with counter := (key y).counter + 1 } else y).acceptJob (c.makeJob x k slot queue q (key y))
      let marked := fun (y : Dev) (m : Nat) =>
        (y.setCtx x { y.ctx x with pkt := (y.ctx x).pkt.map (fun p => { p with onward := p.onward ++ [m] }) }).bump CIP.ONWARD_COUNT
      let takes := fun (i : Instr) (y : Dev) (t : Ticket) => gives i (y.setCtx x ((y.ctx x).setTk k { t with busy := true }).next)
      let y := d.core core
      let held := (match y.run with | some m => [m] | none => []) ++ y.susp.filter (· ≠ n)
      let given := d.setCore core { run := some n, susp := held }
      let idle := d.setCore core { y with run := none }
      let rest := d.setCipQueue 0 ns
      (scratchOk x o 64 = true → o % 64 = 0 → (c.pkt.isSome = true → c.cis < 4) → (c.tk k).busy = false →
        (d.issues x { regs := [rd.val, ra.val, rb.val], header := true, scratch := (o, 64),
                      scratch2 := if q.fromScr then (q.start, q.dlen + q.tagLen) else (0, 0), scratch3 := (q.rdst, q.outLen) } = true →
          (status (counted .good) false ≠ 0 → takes (.cisReturn x rd ra rb k) ((counted .good).cisRefused s.time (status (counted .good) false) 0 slot)
            { rd := rd, pend := .value (BitVec.ofNat 64 (status (counted .good) false)) }) ∧
          (status (counted .good) false = 0 → takes (.cisReturn x rd ra rb k) (accepted (counted .good) 0)
            { rd := rd, scratch := (q.rdst, q.outLen), pend := .atCipher (counted .good).cip.next })) ∧
        (d.issues x { regs := [rd.val, ra.val, rb.val], header := true, scratch := (o, 64) } = true →
          (status (counted ecc) true ≠ 0 → takes (.cisOnward x rd ra rb k ecc) ((counted ecc).cisRefused s.time (status (counted ecc) true) lane slot)
            { rd := rd, pend := .value (BitVec.ofNat 64 (status (counted ecc) true)) }) ∧
          (status (counted ecc) true = 0 → takes (.cisOnward x rd ra rb k ecc) (marked (accepted (counted ecc) lane) (counted ecc).cip.next)
            { rd := rd, pend := .value 0 }))) ∧
      (d.coreOnline core = true → d.nextJob core = some n →
        (y.susp.contains n = true → gives (.chunkBoundary core ecc) given) ∧
        (y.susp.contains n = false → gives (.chunkBoundary core ecc)
          (((given.setCipQueue (d.queueOf n) ((given.cipQueue (d.queueOf n)).filter (· ≠ n))).roomInQueue (d.queueOf n)).keyFetch s.time core n ecc))) ∧
      (d.cipQueue 0 = n :: ns → rest.job n = some j → ((rest.ctx j.ctx).tk j.tick).pend = .atCipher n →
        gives .returnLate ((((rest.setCtx j.ctx ((rest.ctx j.ctx).setTk j.tick { (rest.ctx j.ctx).tk j.tick with pend := .value 2 })).setJob n none).bump
          CIP.LATE_COUNT).raiseSec s.time (ev 10 2) 0 (j.ctx / 128))) ∧
      (y.run = some n → idle.job n = some j →
        (j.own = .program → j.queue = 0 → gives (.jobComplete core) (idle.returnDone n j)) ∧
        (j.own = .program → j.queue ≠ 0 → gives (.jobComplete core) (idle.setJob n (if idle.jobWanted n then some j.done else none))) ∧
        (∀ m, j.own = .sealRecord m → (idle.conn m).txJobs.contains n = true →
          gives (.jobComplete core) ((idle.setJob n (some j.done)).recordsDone s.time m true (idle.conn m).txJobs.length)) ∧
        (∀ m, j.own = .openRecord m → (idle.conn m).rxJobs.contains n = true →
          gives (.jobComplete core) ((idle.setJob n (some j.done)).recordsDone s.time m false (idle.conn m).rxJobs.length)) ∧
        (∀ m v, j.own = .unit m → look none idle.sto.cmds m = some v → v.units.contains n = true →
          gives (.jobComplete core) ((idle.setJob n (some j.done)).unitsDone s.time m))) ∧
      gives (.katRun core true) d ∧
      (d.coreOnline core = true → gives (.katRun core false) (d.katFail s.time core))) ∧
  (∀ (s : State) (job : Nat) (j : Job) (out tag : List Byte) (esp next st : Nat) (slot : Fin 131072),
      let d := s.dev
      let gives := fun (i : Instr) (y : Dev) => exec i s = .next { s with dev := y }
      let due := fun (p : Packet) => decide (p.onward.head? = some job)
      let d0 := d.setJob job none
      let f := fun (p : Packet) => if due p then p.merge j out tag esp next else p
      let rings := (d0.rng.rxWait.filter (fun e => e.2.any due)).map (fun e => e.1)
      let served := fun (y : Dev) => rings.foldl (fun (w : Dev) r => w.rxServe s.time r (look [] w.rng.rxWait r).length) y
      let through := fun (g : List Packet → List Packet) => ({ d0 with
        sch := { d0.sch with queues := Tbl.mapKept [] (fun _ l => g l) d0.sch.queues }
        rng := { d0.rng with rxWait := Tbl.mapKept [] (fun _ l => g l) d0.rng.rxWait }
        sto := { d0.sto with segs := Tbl.mapKept [] (fun _ l => g l) d0.sto.segs } } : Dev)
      let gone := d0.sch.queues.flatMap (fun e => e.2.filter due)
      let lost := d0.rng.rxWait.flatMap (fun e => e.2.filter due) ++ d0.sto.segs.flatMap (fun e => e.2.filter due)
      let dropped := lost.foldl Dev.freePacket (gone.foldl (fun (w : Dev) p => (w.freePacket p).freeEntry p) (through (fun l => l.filter (fun p => !due p))))
      let stays := fun (z : Nat × Option Job) => match z.2 with
        | some i => i.slot ≠ slot.val ∨ i.result.isSome = true ∨ i.fail.isSome = true
        | none => True
      (d.job job = some j →
        (d.sch.queues.any (fun e => e.2.any due) = true ∨ d.rng.rxWait.any (fun e => e.2.any due) = true ∨ d.sto.segs.any (fun e => e.2.any due) = true) →
        (j.fail = none → j.result = some (out, tag, esp, next) → gives (.merge job) (served (through (fun l => l.map f)))) ∧
        (j.fail = some st → j.result = none → d.cip.cores.any (fun e => decide (e.2.run = some job) || e.2.susp.contains job) = false →
          (d.cipQueue j.queue).contains job = false → gives (.merge job)
          (served ((dropped.bump (if st = 6 then CIP.ONFAIL_AUTH else CIP.ONFAIL_OTHER)).raiseSec s.time (ev 10 3) 0 st
            ((gone ++ lost).head?.map (fun p => p.polder)))))) ∧
      ((d.key slot).st = 2 → (∀ z ∈ d.cip.jobs, stays z) → gives (.retiringDrain slot) (d.setKey slot {})))
/-- R258 to R264, R277: the key loader. It serves the requests of the two PFs in turn. A session gives a fresh transport key and a signed
reply; LOAD, GENERATE and IMPORT put a key into an EMPTY slot in the polder's range, or answer why not; EXPORT seals a slot under the root
key; RETIRE makes a slot RETIRING; QUERY and CERT reply. A request that an alarm or an entropy failure met is aborted. The layout of the
QUERY reply is the model's (log entry 24), and the algorithms are those of the standards the rules name (log entry 8). -/
def Obligations.KeyLoaderResults : Prop :=
  ∀ (s : State) (pf : Pf) (slot : Fin 131072) (hostKey blob attrs : List Byte) (reply : Word) (e : Nat × Nat) (ecc : Ecc),
    s.dev.keyTurn pf = true →
    let d : Dev := { s.dev with cip := { s.dev.cip with keyRot := 1 - pf.val, keyMet := 0 } }
    let gives := fun (i : Instr) (y : Dev) => exec i s = .next { s with dev := y }
    let answers := fun (i : Instr) (y : Dev) (req code : Nat) => gives i (y.keyAnswer s.time pf req code)
    let x := d.key slot
    let n := look 0 d.cip.sessNo pf + 1
    let drawn := sessionOf (d.drawWords 18).2 pf n (slice hostKey 0 96)
    let masked := (((d.drawWords 18).1).drawMask 32).1.drbgRequest s.time 12
    let opened : Dev := { masked with cip := { masked.cip with
      sess := put none masked.cip.sess pf (some (n, drawn.1)), sessNo := put 0 masked.cip.sessNo pf n } }
    let a := slice attrs 0 32
    let made := (((d.drawWords 8).1).drbgRequest s.time 12).loadKey pf slot (a ++ leBytes 64 ((d.drawWords 8).2 % 2 ^ keyBits (leAt a 0 1)))
    let k := d.bat.rootKey
    let read := d.slotEcc s.time slot ecc
    let y := read.key slot
    let nonce := leBytes 12 (read.drawWords 2).2
    let ct := cipherText algGcm256 true read.bat.rootKey nonce y.plain
    let sealed := exportHeader ++ nonce ++ ct ++ cipherTag algGcm256 read.bat.rootKey nonce exportHeader ct
    let bn := slice blob 16 12
    let bc := slice blob 28 96
    let back := d.loadKey pf slot (cipherText algGcm256 false k bn bc)
    let met := s.dev.cip.keyMet
    (met ≠ keyTampered →
      (d.drbgStopped 12 = false →
        answers (.session pf hostKey reply) ((opened.wr (if pf.val = 0 then KEY.STATUS_SESS0 else KEY.STATUS_SESS1) 0 1).keyReply pf reply
          (drawn.2.1 ++ leBytes 4 n ++ drawn.2.2)) 1 0 ∧
        (met ≠ keyEntropy → d.tampered = false → answers (.generate pf slot attrs) made.1 3 made.2)) ∧
      (d.drbgStopped 12 = true → answers (.session pf hostKey reply) d 1 keyEntropy ∧
        (met ≠ keyEntropy → d.tampered = false → answers (.generate pf slot attrs) d 3 keyEntropy)) ∧
      (read.mayNameKey pf slot = true → read.armed = true → y.exp = true → (y.dirs % 2 = 0 ∨ y.alg = 5) → read.drbgStopped 12 = false →
        answers (.keyExport pf slot reply ecc) (((read.drawWords 2).1.drbgRequest s.time 12).keyReply pf reply sealed) 4 0) ∧
      (read.mayNameKey pf slot = true → read.armed = true → (y.exp = false ∨ (y.dirs % 2 = 1 ∧ y.alg ≠ 5)) →
        answers (.keyExport pf slot reply ecc) read 4 keyNoExport) ∧
      (read.mayNameKey pf slot = true → read.armed = false → answers (.keyExport pf slot reply ecc) read 4 keyNoRoot) ∧
      (read.mayNameKey pf slot = false → answers (.keyExport pf slot reply ecc) read 4 keyBadSlot) ∧
      (d.tampered = false →
        (look none d.cip.sess pf = some e → match keyUnwrap (leBytes 32 e.2) (slice blob 0 104) with
          | some plain => answers (.keyLoad pf slot blob) (d.loadKey pf slot plain).1 2 (d.loadKey pf slot plain).2
          | none => answers (.keyLoad pf slot blob) d 2 keyUnwrapFails) ∧
        (look none d.cip.sess pf = none → answers (.keyLoad pf slot blob) d 2 keyNoSession) ∧
        (d.armed = true → slice blob 0 16 = exportHeader →
          (let sound := slice blob 124 16 = cipherTag algGcm256 k bn exportHeader bc
           answers (.keyImport pf slot blob) (if sound then back.1 else d) 5 (if sound then back.2 else keyUnwrapFails))) ∧
        (d.armed = true → slice blob 0 16 ≠ exportHeader → answers (.keyImport pf slot blob) d 5 keyUnwrapFails) ∧
        (d.armed = false → answers (.keyImport pf slot blob) d 5 keyNoRoot)) ∧
      (d.tampered = true → answers (.keyLoad pf slot blob) d 2 keyTampered ∧ answers (.keyImport pf slot blob) d 5 keyTampered ∧
        (met ≠ keyEntropy → answers (.generate pf slot attrs) d 3 keyTampered))) ∧
    (met = keyTampered → answers (.session pf hostKey reply) d 1 keyTampered ∧ answers (.keyLoad pf slot blob) d 2 keyTampered ∧
      answers (.generate pf slot attrs) d 3 keyTampered ∧ answers (.keyExport pf slot reply ecc) d 4 keyTampered ∧
      answers (.keyImport pf slot blob) d 5 keyTampered) ∧
    (met = keyEntropy → answers (.generate pf slot attrs) d 3 keyEntropy) ∧
    (d.mayNameKey pf slot = true → answers (.retire pf slot) (d.setKey slot { x with st := 2 }) 6 0) ∧
    (d.mayNameKey pf slot = false → answers (.retire pf slot) d 6 keyBadSlot) ∧
    (x.st ≠ 0 → d.keyInRange pf x.owner slot = true →
      answers (.keyQuery pf slot reply) (d.keyReply pf reply (x.plain.take 32 ++ leBytes 8 x.st ++ leBytes 8 x.counter)) 7 0) ∧
    (x.st ≠ 0 → d.keyInRange pf x.owner slot = false → answers (.keyQuery pf slot reply) d 7 keyBadSlot) ∧
    answers (.cert pf reply) (d.keyReply pf reply Config.certificate) 8 0

/-- R261, R268, R269, R271 to R276, R279: the battery domain and the random-number source. ROOTGEN arms a domain that is UNINIT; an enabled tamper input, a
mesh mismatch, a stopped ACLK and ZEROISE_ALL are alarms, while the domain has a supply; TAMPER_ACK returns to UNINIT; the configuration
is locked by its LOCK bit; the clock is set; the battery's loss is seen only without main supplies, and its low voltage only with them, with
EVT 10.12 at most once an hour. A stopped instance gives zero, counted; random draws are free values. -/
def Obligations.SecurityStateResults : Prop :=
  ∀ (s : State) (pf : Pf) (tcfg : BitVec 16) (rtc : BitVec 47) (inputs : BitVec 4) (x : CtxId) (rd : Reg) (k : Tick) (inst : Fin 14),
    let d := s.dev
    let c := d.ctx x
    let gives := fun (i : Instr) (y : Dev) => exec i s = .next { s with dev := y }
    let turned : Dev := { d with cip := { d.cip with keyRot := 1 - pf.val, keyMet := 0 } }
    let answers := fun (i : Instr) (y : Dev) (req code : Nat) => gives i (y.keyAnswer s.time pf req code)
    let takes := fun (i : Instr) (y : Dev) (t : Ticket) => gives i (y.setCtx x ((y.ctx x).setTk k { t with busy := true }).next)
    let root := turned.drawWords 4
    let rooted : Dev := { root.1 with bat := { root.1.bat with rootKey := root.2 } }
    let v := tcfg.toNat
    let clock : Dev := { turned with bat := { turned.bat with part := 0 } }
    let unseq : Dev := { turned with bat := { turned.bat with seq := 0 } }
    let alarmed := turned.alarm s.time 64
    let low := fun (b : Bool) => ({ d with bat := { d.bat with low := b } } : Dev)
    let powered := fun (y : Dev) => ({ y with bat := { y.bat with vbat := true } } : Dev)
    (d.keyTurn pf = true →
      (pf.val = 0 →
        (turned.rd BAT.STATE_ST = 0 → answers (.rootgen pf) (rooted.wr BAT.STATE_ST 0 1) 9 0) ∧
        (turned.rd BAT.STATE_ST ≠ 0 → answers (.rootgen pf) turned 9 keyState) ∧
        (turned.tampered = true → answers (.tamperAck pf) ((unseq.wr BAT.STATE_ST 0 0).wr CIP.STATUS_TAMPER 0 0) 10 0) ∧
        (turned.tampered = false → answers (.tamperAck pf) turned 10 keyState) ∧
        (turned.rd BAT.TCFG_LOCK ≠ 1 → answers (.tamperCfg pf tcfg) (((((turned.wr BAT.TCFG_EN 0 (bitsOf v 0 4)).wr BAT.TCFG_POL 0 (bitsOf v 4 4)).wr
          BAT.TCFG_MESHEN 0 (bitsOf v 8 1)).wr BAT.TCFG_ACLKMON 0 (bitsOf v 9 1)).wr BAT.TCFG_LOCK 0 (bitsOf v 15 1)) 11 0) ∧
        (turned.rd BAT.TCFG_LOCK = 1 → answers (.tamperCfg pf tcfg) turned 11 keyState) ∧
        answers (.setRtc pf rtc) (((clock.wr BAT.RTC_SUB 0 (rtc.toNat % 2 ^ 15)).wr BAT.RTC_SEC 0 (rtc.toNat / 2 ^ 15)).wr BAT.STATE_RTCVALID 0 1) 12 0) ∧
      (pf.val ≠ 0 → answers (.rootgen pf) turned 9 keyNotPermitted ∧ answers (.tamperAck pf) turned 10 keyNotPermitted ∧
        answers (.tamperCfg pf tcfg) turned 11 keyNotPermitted ∧ answers (.setRtc pf rtc) turned 12 keyNotPermitted) ∧
      answers (.zeroiseAll pf) { alarmed with cip := { alarmed.cip with keyMet := 0 } } 13 0) ∧
    (d.batRuns = true →
      (inputs.toNat &&& d.rd BAT.TCFG_EN ≠ 0 → gives (.tamperInput inputs) (d.alarm s.time (inputs.toNat &&& d.rd BAT.TCFG_EN))) ∧
      (d.rd BAT.TCFG_MESHEN = 1 → gives .meshMismatch (d.alarm s.time 16)) ∧
      (d.rd BAT.TCFG_ACLKMON = 1 → gives .aclkStop (d.alarm s.time 32))) ∧
    (inputs.toNat &&& d.rd BAT.TCFG_EN = 0 → gives (.tamperInput inputs) d) ∧
    (d.bat.main = false → gives .batteryLoss { d.batStart true with bat := { (d.batStart true).bat with vbat := false } } ∧
      (∀ b, gives (.batlow b) ((low b).wr BAT.STATE_BATLOW 0 0)) ∧
      (d.bat.vbat = false → gives .vbatApplication (powered (d.batStart d.bat.lost)))) ∧
    (d.bat.main = true → gives .batteryLoss d ∧ gives (.batlow true) (((low true).wr BAT.STATE_BATLOW 0 1).raiseHour s.time (ev 10 12) 0) ∧
      gives (.batlow false) ((low false).wr BAT.STATE_BATLOW 0 0) ∧
      (d.bat.vbat = false → gives .vbatApplication (powered d))) ∧
    (d.rd CIP.ENTSTAT_OK ≠ 0 → gives .entropyTestFail (((d.wr CIP.ENTSTAT_OK 0 0).raise s.time (ev 10 7)).meetKey keyEntropy)) ∧
    (d.rd CIP.ENTSTAT_OK = 1 → gives (.drbgReseed inst) { d with cip := { d.cip with drbg := put 0 d.cip.drbg inst 0 } }) ∧
    (d.rd CIP.ENTSTAT_OK = 0 → d.drbgStopped inst = false → gives (.drbgReseed inst) ((d.wrBit CIP.DRBG_STOPPED 0 inst true).raise s.time (ev 10 8) inst)) ∧
    (d.memAnswers (4096 * pf.val) = true → d.drbgStopped 13 = true → gives (.randccRead pf) (d.send (.readData (4096 * pf.val) 0))) ∧
    (d.memAnswers (4096 * pf.val) = true → d.drbgStopped 13 = false → gives (.randccRead pf)
      (((d.drawn.wr CIP.RANDCC_VALUE 0 d.freeVal.toNat).drbgRequest s.time 13).send (.readData (4096 * pf.val) d.freeVal))) ∧
    (d.issues x { regs := [rd.val] } = true → (c.tk k).busy = false →
      (d.drbgStopped (if isCore x then 13 else x / 128) = true → takes (.rand x rd k) (d.bump CIP.RANDZERO_COUNT) { rd := rd, pend := .value 0 }) ∧
      (d.drbgStopped (if isCore x then 13 else x / 128) = false →
        takes (.rand x rd k) (d.drawn.drbgRequest s.time (if isCore x then 13 else x / 128)) { rd := rd, pend := .value d.freeVal }))

/-! ## Scheduling, policing, network time (chapters 11, 12) -/

/-- R285, R288, R290, R292, R293, R303, R305, R309: the scheduler. REFILL puts every written record in force and refills its shapers; a class
buffer with room takes the frame that the slice selects, charged along its path; a node command waits for the scheduler, or is counted where one of its writer waits; at its
turn a record is read, or written when it passes and refused with EVT 11.2 when it does not; MTR colours by a policer and returns the
colour. That a waiting command runs at an idle TCLK is the model's choice (log entry 20). -/
def Obligations.SchedulerResults : Prop :=
  ∀ (s : State) (w : Writer) (lvl : Fin 8) (n : Fin 262144) (port : Fin 16) (cls : Fin 8) (f : Found) (p : Packet) (x : CtxId) (rd ra rb : Reg) (k : Tick),
    let d := s.dev
    let gives := fun (i : Instr) (y : Dev) => exec i s = .next { s with dev := y }
    let e := d.quarRemove port
    let top := e.node 0 port
    let amount := chargeOf (e.sendWire port p) (e.ovh port)
    let paid := ((e.sendWire port p + e.ovh port) * 4096,
      (0, port.val, top.committedOk) :: f.path.map (fun z => (z.lvl, z.node, z.committed)))
    let asked := fun (o : Nat) => ({ op := o, lvl := lvl, node := n } : NodeCmd)
    let waits := fun (o : Nat) => ({ d with sch := { d.sch with waiting := put none d.sch.waiting w.view (some (asked o)) } } : Dev).wr SCH.NSTAT_BUSY w.view 1
    let turn : Dev := { d with sch := { d.sch with waiting := put none d.sch.waiting w.view none, cmdRot := turnAfter w } }
    let rec_ := turn.stagedRec w
    let code := turn.nodeResult w lvl n rec_
    let coded := turn.wr SCH.NSTAT_RESULT w.view code
    let old := coded.node lvl n
    let c := d.ctx x
    let a := (c.rg ra).toNat
    let m := d.police s.time (a % 2 ^ 17) (c.rg rb).toNat (bitsOf a 17 2)
    gives .refill { d with sch := { d.sch with nodes := d.sch.nodes.mapKept {} (fun k x => x.atRefill (k / 2 ^ 20)
      (decide (k / 2 ^ 20 = lvlClass) && !d.gateOpen s.time (k % 2 ^ 20 / 8) (k % 2 ^ 20 % 8))) } } ∧
    (d.rd SCH.NSTAT_BUSY w.view = 1 →
      gives (.nodeWrite w lvl n) (d.bump SCH.NSTAT_IGNORED w.view) ∧ gives (.nodeRead w lvl n) (d.bump SCH.NSTAT_IGNORED w.view)) ∧
    (d.rd SCH.NSTAT_BUSY w.view ≠ 1 → gives (.nodeWrite w lvl n) (waits 2) ∧ gives (.nodeRead w lvl n) (waits 1)) ∧
    (code = 0 → d.nodeRun s.time w (asked 2) = (coded.setNode lvl n
      { old with wrote := rec_, fresh := rec_.enabled lvl && (old.fresh || !old.wrote.enabled lvl) }).wr SCH.NSTAT_BUSY w.view 0) ∧
    (code ≠ 0 → d.nodeRun s.time w (asked 2) =
      (coded.raise s.time (ev 11 2) (n.val + lvl.val * 2 ^ 18 + code * 2 ^ 21) (writerPolder w)).wr SCH.NSTAT_BUSY w.view 0) ∧
    (nodeExists lvl n = true → d.nodeRun s.time w (asked 1) =
      (((turn.nodeWords lvl n).zipIdx.foldl (fun (y : Dev) z => y.wr SCH.NSTG_DATA (8 * w.view + z.2) z.1) turn).wr SCH.NSTAT_RESULT w.view 0).wr
        SCH.NSTAT_BUSY w.view 0) ∧
    (e.portExists port = true → e.linkUp port = true → (e.classBuf port cls).length < 2 → top.inForce.en = true → top.peakOk = true →
      e.select cls port 4 0 port = some f → e.readyHead f.queue = some p → gives (.classBufferRequest port cls)
        (((((e.setNode 0 port (top.charge amount top.committedOk)).applyPath cls amount port f.path).takeHead f.queue port cls paid).settleDeficits
          cls port f.path).trimClass s.time port cls 2)) ∧
    (d.issues x { regs := [rd.val, ra.val, rb.val] } = true → (c.tk k).busy = false → gives (.mtr x rd ra rb k)
      (m.1.setCtx x ((m.1.ctx x).setTk k { rd := rd, pend := .value (BitVec.ofNat 64 m.2), busy := true }).next))

/-- R311 to R314, R332, R568: network time. The owner sets it and steps it, which counts, and raises EVT 12.0, and is ignored where the
result is no legal time; the boundary of a second moves it on; the rate is clamped; a read of TNOWLO gives the time 2 to 6 ns before and latches its seconds for its PF; PPS_IN
latches time with EVT 12.1. An owner's write by the other PF is not obeyed. -/
def Obligations.NetworkTimeResults : Prop :=
  ∀ (s : State) (pf : Pf) (rate : BitVec 32) (fn : Fn) (port : Fin 16) (e : TwoStep) (rest : List TwoStep),
    let d := s.dev
    let gives := fun (i : Instr) (y : Dev) => exec i s = .next { s with dev := y }
    let step : Int := s.time.toNs + signedOf (d.rd SLU.TOFF_OFF) 32
    let next := (s.time.sec + 1) % 2 ^ 48
    let taken := (((d.setPort port { d.port port with twoStep := rest }).wr SLU.TXTSSTAT_COUNT port rest.length).wr SLU.TXTSB_SEC port e.sec).wr
      SLU.TXTSB_FRAC port e.frac
    (d.ownsTime pf = true →
      (d.rd SLU.TSETLO_NS ≤ 999999999 → exec (.timeSet pf) s =
        .next (s.moved { sec := d.rd SLU.TSETHI_SEC % 2 ^ 48, ns := d.rd SLU.TSETLO_NS, frac := 0 } 1)) ∧
      (999999999 < d.rd SLU.TSETLO_NS → gives (.timeSet pf) (d.bump SLU.TSTAT_IGNORED)) ∧
      (0 ≤ step → step ≤ 281474976710655999999999 → exec (.timeStep pf) s =
        .next (s.moved { sec := step.toNat / 1000000000, ns := step.toNat % 1000000000, frac := s.time.frac } 2)) ∧
      (step < 0 → gives (.timeStep pf) (d.bump SLU.TSTAT_IGNORED)) ∧
      (-549755813 ≤ rate.toInt → rate.toInt ≤ 549755813 →
        gives (.rateWrite pf rate) ((d.wr SLU.TRATE_RATE 0 (unsignedOf rate.toInt 32)).wr SLU.TSTAT_CLAMP 0 0)) ∧
      (549755813 < rate.toInt → gives (.rateWrite pf rate) ((d.wr SLU.TRATE_RATE 0 549755813).wr SLU.TSTAT_CLAMP 0 1))) ∧
    (d.ownsTime pf = false → gives (.timeSet pf) (d.notOwner s.time pf) ∧ gives (.timeStep pf) (d.notOwner s.time pf) ∧
      gives (.rateWrite pf rate) (d.notOwner s.time pf)) ∧
    (∃ t, exec .secondBoundary s = .next t ∧ t.time = { sec := next, ns := 0, frac := 0 } ∧ t.pending = s.pending ∧ t.dev = (s.newSecond next).dev) ∧
    gives (.tnowloRead pf) ((d.drawn.wr SLU.TNOWHI_SEC pf (d.readTime s.time).sec).send
      (.readData (4096 * pf.val) (BitVec.ofNat 64 (d.readTime s.time).lowWord))) ∧
    gives .ppsIn ((((d.wr SLU.PPSCAP_NS 0 s.time.ns).wr SLU.PPSCAP_SEC 0 s.time.sec).wr SLU.TSTAT_PPSV 0 1).raise s.time (ev 12 1)) ∧
    (d.slu.pps = true → gives .ppsOutEnd (({ d with slu := { d.slu with pps := false } } : Dev).send (.pin 0 false))) ∧
    ((d.port port).twoStep = e :: rest → gives (.txtsaRead fn port) (taken.send (.readData fn (BitVec.ofNat 64 (e.mark % 2 ^ 32 + e.ns * 2 ^ 32))))) ∧
    ((d.port port).twoStep = [] → gives (.txtsaRead fn port) (d.send (.readData fn (BitVec.allOnes 64))))

/-- R321, R325, R328 to R330: the sluices. An accepted change is pending with its time, one that fails its checks is refused with EVT 12.4; a
pending change is withdrawn while it is 5 µs away, and comes into force at its time; the list of a set is copied back; an entry of the
list sets gates and hold; a berm that begins is noted, and cuts the frame of its class that is divisible. -/
def Obligations.SluiceResults : Prop :=
  ∀ (s : State) (port : Fin 16) (c : Fin 8) (len close : Nat) (n : Pending) (l : GateList),
    let d := s.dev
    let gives := fun (i : Instr) (y : Dev) => exec i s = .next { s with dev := y }
    let x := d.sluice port
    let t0 := d.takeOverTime s.time port
    let mode := d.rd SLU.PCTL_MODE port
    let asked : Pending := { mode := if mode = 3 then 0 else mode, fset := d.rd SLU.PCTL_FSET port, lena := decide (d.rd SLU.PCTL_LENAWARE port = 1), t0 := t0 }
    let passed := d.wr SLU.PSTAT_RESULT port 0
    let noted := d.setSluice port { x with inBerm := put 0 x.inBerm c close }
    (d.changeResult port = 0 → gives (.sluiceChange port) ((((passed.setSluice port { passed.sluice port with next := some asked }).wr
      SLU.PSTAT_PENDING port 1).wr SLU.PT0LO_NS port (t0 % 1000000000)).wr SLU.PT0HI_SEC port (t0 / 1000000000))) ∧
    (d.changeResult port ≠ 0 → gives (.sluiceChange port) ((d.wr SLU.PSTAT_RESULT port (d.changeResult port)).raise s.time (ev 12 4) port)) ∧
    (x.next = some n →
      (s.time.toNs / 8 * 8 + 5000 ≤ n.t0 →
        gives (.sluiceCancel port) (((d.setSluice port { x with next := none }).wr SLU.PSTAT_PENDING port 0).raise s.time (ev 12 6) port)) ∧
      (n.t0 < s.time.toNs / 8 * 8 + 5000 → gives (.sluiceCancel port) ((d.wr SLU.PSTAT_RESULT port 4).raise s.time (ev 12 4) port)) ∧
      (n.t0 ≤ s.time.toNs → gives (.takeOver port) (d.takeOver s.time port))) ∧
    (d.rd SLU.PSTAT_COPYING port = 1 → gives (.copyBackDone port)
      ((bankFields.foldl (fun (y : Dev) f => y.copyField f.2.1 f.1 (f.2.2 * x.fset) f.2.2) d).wr SLU.PSTAT_COPYING port 0)) ∧
    (d.running port = some l → gives (.gateChange port) (d.enterGate port s.time.toNs)) ∧
    (d.inBerm port c (d.txTime s.time port / 65536) = some close → (noted.bermPreemptable port c = false ∨ (noted.port port).tx = none) →
      gives (.bermStart port (some c) len) noted) ∧
    (∀ t, d.inBerm port c (d.txTime s.time port / 65536) = some close → noted.bermPreemptable port c = true → (noted.port port).tx = some t →
      t.cls = c → noted.divisible port len t = true → gives (.bermStart port (some c) len) (noted.cutFrame port len t))

/-! ## Admission and redundancy (chapters 13, 14) -/

/-- R336, R347 to R350, R359: admission. A set-up is read and waits its turn, the oldest first; with 16 waiting it is refused as QUEUE_FULL. One
whose compile ends on what it began with is answered: one that is refused changes no contract and raises EVT 13.1 with its reply; one that is
accepted is in force under the next epoch, with EVT 13.0. A compile whose basis changed begins again, and fails as EPOCH after three returns.
Contracts whose time has come are ACTIVE; a query of an own contract and of the epoch is answered; a revalidation that changes nothing raises
EVT 13.5. That a compile ends at an idle TCLK is the model's choice (log entry 28). -/
def Obligations.AdmissionResults : Prop :=
  ∀ (s : State) (fn : Fn) (reply : Word) (buffer : List Byte) (entries : List (List Nat)) (q : SetupReq) (qs : List SetupReq) (k : Compile)
    (contract : Fin 1048576) (v : AdmVerdict) (cause : Nat) (rest : List Nat),
    s.dev.answerRoom fn = true → s.dev.rd ADM.STATUS_READY = 1 →
    let d := s.dev
    let gives := fun (i : Instr) (y : Dev) => exec i s = .next { s with dev := y }
    let n := contract.val
    let c := d.contract n
    let left : Dev := { d with adm := { d.adm with waiting := d.adm.waiting.filter (fun w => decide (s.time.toNs < w.2)) } }
    let due := d.adm.waiting.filter (fun w => decide (w.2 ≤ s.time.toNs))
    let judged : Dev := { d with adm := { d.adm with revalidate := rest } }.raise s.time (ev 13 5) cause
    let asked := readSetup fn reply buffer entries
    let full := d.raise s.time (ev 13 6) 0 (some fn.val)
    let queued := ({ d with adm := { d.adm with queue := d.adm.queue ++ [asked] } } : Dev).showQueue
    let compiles := fun (y : Dev) (a : SetupReq) (l : List SetupReq) =>
      ({ y with adm := { y.adm with compiling := some { req := a, basis := y.setupBasis }, queue := l } } : Dev).showQueue
    let idle : Dev := { d with adm := { d.adm with compiling := none } }
    let refused := fun (y : Dev) (a : SetupReq) (w : AdmVerdict) (b : List (Nat × List Nat)) =>
      ((y.bump ADM.REFUSED_COUNT).raise s.time (ev 13 1) (w.code + w.idx % 256 * 256) (some a.fn)).admResult a.fn a.reply w (y.rd ADM.EPOCH_EPOCH)
        (y.rd ADM.ACT_SEC * 1000000000 + y.rd ADM.ACT_NS) b
    (d.adm.queue.length < 16 → d.adm.compiling = none → queued.adm.queue = q :: qs → gives (.setup fn reply buffer entries) (compiles queued q qs)) ∧
    (d.adm.queue.length < 16 → d.adm.compiling = some k → gives (.setup fn reply buffer entries) queued) ∧
    (16 ≤ d.adm.queue.length → gives (.setup fn reply buffer entries) (refused full asked { code := admQueueFull } [])) ∧
    (d.adm.compiling = some k → k.req.gone = false → d.adm.revalidate = [] →
      (k.basis = d.setupBasis →
        (idle.judge s.time k.req.fn k.req.ok k.req.records k.req.lists none = some v →
          d.admTick s.time = ((refused idle k.req v (idle.setupBounds s.time k.req.records k.req.lists)).showQueue).admStart) ∧
        (idle.judge s.time k.req.fn k.req.ok k.req.records k.req.lists none = none →
          d.admTick s.time = ((idle.commitSetup s.time k.req.fn k.req.reply k.req.records k.req.lists).showQueue).admStart)) ∧
      (k.basis ≠ d.setupBasis → k.returns < 3 →
        d.admTick s.time = { d with adm := { d.adm with compiling := some { k with basis := d.setupBasis, returns := k.returns + 1 } } }) ∧
      (k.basis ≠ d.setupBasis → 3 ≤ k.returns → idle.judge s.time k.req.fn k.req.ok k.req.records k.req.lists (some admEpoch) = some v →
        d.admTick s.time = ((refused idle k.req v (idle.setupBounds s.time k.req.records k.req.lists)).showQueue).admStart)) ∧
    gives .activationComplete (due.foldl (fun (y : Dev) w => if y.rd ADM.CSTAT_STATE w.1 = 1 then y.wr ADM.CSTAT_STATE w.1 2 else y) left) ∧
    (0 < n → n < 65536 → d.isContract n = true → ownsPolder fn c.rcd.polder = true → gives (.admQuery fn contract reply)
      ((d.hostWrite fn reply.toNat (c.rcd.encode ++ slice (leBytes 4 n ++ c.bounds.flatMap (leBytes 4) ++ leBytes 4 c.total) 0 64)).answer fn 2 (leBytes 1 0))) ∧
    (0 < n → n < 65536 → d.isContract n = true → ownsPolder fn c.rcd.polder = false →
      gives (.admQuery fn contract reply) (d.answer fn 2 (leBytes 1 admPermitted))) ∧
    ((n = 0 ∨ 65535 < n ∨ d.isContract n = false) → gives (.admQuery fn contract reply) (d.answer fn 2 (leBytes 1 admNumber))) ∧
    gives (.epochq fn) (d.answer fn 2 (leBytes 4 0 ++ leBytes 4 (d.rd ADM.EPOCH_EPOCH) ++ leBytes 4 (d.rd ADM.ACT_NS) ++ leBytes 4 (d.rd ADM.ACT_SEC))) ∧
    (d.adm.revalidate = cause :: rest → judged.passAt (judged.judged.map (fun n => (n, (judged.contract n).rcd.rate))) = true →
      gives .revalidation (((judged.ratesAfter judged.judged).foldl (fun (y : Dev) e => y.setContractRate s.time cause e.1 e.2) judged).showContracts))

/-- R377 to R380, R385 to R387: the path pairs and the partner interlock. A heartbeat becomes due; a miss fails its path while the other path is
heard, and counts as the partner's loss with EVT 14.11 while neither is; a path leaves RESYNC with EVT 14.2 once RSYNC heartbeat intervals have passed; ILK_OUT carries the role as its high time; a route that is lost reads LOST; a standby that
hears no partner takes the proxy role, and of two proxies the one with PRIO 1 leaves it. -/
def Obligations.RedundancyResults : Prop :=
  ∀ (s : State) (path : Fin 4) (high t : Nat),
    let d := s.dev
    let gives := fun (i : Instr) (y : Dev) => exec i s = .next { s with dev := y }
    let n := d.pathPort path
    let missed := (d.bump DUP.PHB_MISS n).setPathSt path { d.pathSt path with run := 0 }
    (d.pairOn (path / 2) = true → d.pathState path ≠ pathDisabled → d.portSafe n = false → d.linkUp n = true →
      gives (.heartbeatSend path) (d.setPathSt path { d.pathSt path with hbDue := true })) ∧
    (d.pairOn (path / 2) = true → d.supervised path = true → d.missed s.time path = true → (missed.pathSt (otherPath path)).heard = some t → s.time.toNs < t + missed.missTime →
      gives (.heartbeatMiss path) (missed.failPath s.time path)) ∧
    (d.pairOn (path / 2) = true → d.supervised path = true → d.missed s.time path = true →
      (∀ t, (missed.pathSt (otherPath path)).heard = some t → t + missed.missTime ≤ s.time.toNs) →
      (missed.rd DUP.PSTAT_PEERLOST (path / 2) ≠ 1 →
        gives (.heartbeatMiss path) ((missed.wr DUP.PSTAT_PEERLOST (path / 2) 1).raise s.time (ev 14 11) (path / 2))) ∧
      (missed.rd DUP.PSTAT_PEERLOST (path / 2) = 1 → gives (.heartbeatMiss path) missed)) ∧
    (d.pathState path = pathResync → (d.pathSt path).since + max 1 (d.rd DUP.QCFG_RSYNC) * d.rd DUP.CFG_HBINT * 1000 ≤ s.time.toNs →
      gives (.resyncEnd path) (((d.enterPath s.time path pathUp).raise s.time (ev 14 2) (d.pathPort path)).revalidate 5)) ∧
    (d.rd DUP.ILK_EN = 1 → d.devSafe = false →
      gives .ilkOutPeriod (d.send (.message 8 [if d.rd DUP.ILK_ROLE = 1 then 150 else 50]))) ∧
    gives (.ilkInPulse high) (d.wr DUP.ILK_CABLE 0 (if 100 ≤ high then 2 else 1)) ∧
    ((d.wr DUP.ILK_CABLE 0 0).rd DUP.ILK_INBAND = 0 → gives .ilkInLost (d.wr DUP.ILK_CABLE 0 0)) ∧
    ((d.wr DUP.ILK_INBAND 0 0).rd DUP.ILK_CABLE ≠ 0 → gives .inbandLost ((d.wr DUP.ILK_INBAND 0 0).raiseSec s.time (ev 14 9) 1 1)) ∧
    (d.rd DUP.ILK_EN = 1 →
      (d.rd DUP.ILK_ROLE = 0 → d.eligible = true → d.rd DUP.ILK_CABLE = 0 → d.rd DUP.ILK_INBAND = 0 → gives .roleDecision (d.takeProxy s.time)) ∧
      (d.rd DUP.ILK_ROLE = 1 → d.rd DUP.ILK_PRIO = 1 → d.rd DUP.ILK_CABLE = 2 → d.dup.partnerPrio ≠ some 1 → gives .roleDecision (d.leaveProxy s.time 0)) ∧
      (d.rd DUP.ILK_ROLE = 1 → d.rd DUP.ILK_CABLE = 2 → d.dup.partnerPrio = some (d.rd DUP.ILK_PRIO) →
        gives .roleDecision ((d.leaveProxy s.time 2).raise s.time (ev 14 10))))
/-! ## Host links, functions, the device's requests (chapter 15) -/

/-- R392 to R394, R407, R408, R411, R417, R422: links. A released link trains and shows rate, width and figure with its event, and EVT 15.2 where
it stays below its mode; a figure that changes makes admission revalidate; PERST# is released; a link that goes down, or is reset, is reset as R408 says, counted or not. -/
def Obligations.HostLinkResults : Prop :=
  ∀ (s : State) (l : Fin 2) (rate width : Nat) (flit cxl : Bool),
    let d := s.dev
    let gives := fun (i : Instr) (y : Dev) => exec i s = .next { s with dev := y }
    let shown := ((((d.wr HIF.LSTAT_UP l 1).wr HIF.LSTAT_RATE l rate).wr HIF.LSTAT_WIDTH l width).wr HIF.LSTAT_FIGURE l
      (linkFigure width rate)).wr HIF.LSTAT_FLIT l (if rate = 6 || flit then 1 else 0)
    let chosen := if l.val = 0 then shown.wr HIF.CXLSTAT_CXL 0 (if cxl && decide (d.rd HIF.CFG_CXLEN = 1 ∧ rate = 6) then 1 else 0) else shown
    let live : Dev := { chosen with hif := { chosen.hif with inReset := put false chosen.hif.inReset l false } }
    let up := (live.raise s.time (ev 15 l)).figureChanged (d.rd HIF.LSTAT_FIGURE l) l
    let down := d.linkReset s.time l
    let held : Dev := { down with hif := { down.hif with perst := put false down.hif.perst l false } }
    let freed : Dev := { d with hif := { d.hif with perst := put false d.hif.perst l true } }
    (d.rd HIF.LSTAT_UP l = 0 → look false d.hif.perst l = true → 1 ≤ rate → rate ≤ 6 → width ∈ [1, 2, 4, 8, 16] → width ≤ d.linkLanes l →
      (rate = 6 → width = d.linkLanes l → gives (.hostLinkUp l rate width flit cxl) up) ∧
      (rate < 6 ∨ width < d.linkLanes l → gives (.hostLinkUp l rate width flit cxl) ((up.bump HIF.LDOWN_DEGRADE l).raise s.time (ev 15 2) l))) ∧
    (d.linkPresent l = true → gives (.perstRelease l) (freed.wr HIF.LSTAT_PRESENT l 1)) ∧
    (d.rd HIF.LSTAT_UP l = 1 →
      gives (.hostLinkDown l) ((down.bump HIF.LDOWN_DOWN l).raise s.time (ev 15 l)) ∧
      (d.linkPresent l = true → gives (.linkReset l true) (held.raise s.time (ev 15 l)) ∧ gives (.linkReset l false) (down.raise s.time (ev 15 l))))

/-- R396, R402, R406 to R409, R412: requests to a function. One that does not exist answers UR, one in FLR configuration requests with RRS;
otherwise configuration writes take effect, and reads answer the identities of R396 and a free value elsewhere; an FLR enters, with its VFs, and EVT 15.7, and ends with EVT 15.8; D3hot
is entered and left; the ROM answers within a block and refuses what crosses one; a vector whose mask is cleared sends what is pending. -/
def Obligations.FunctionResults : Prop :=
  ∀ (s : State) (fn : Fn) (dw : Fin 1024) (on : Bool) (code : Fin 3) (req : CfgReq) (off : Fin 1048576) (len : Nat) (vec : Fin 2048),
    let d := s.dev
    let gives := fun (i : Instr) (y : Dev) => exec i s = .next { s with dev := y }
    let x := d.fn fn
    let e := look {} x.vecs vec
    let opened := d.setFn fn { x with vecs := put {} x.vecs vec { e with masked := false } }
    let entered := (d.resetFns fn).foldl (fun (y : Dev) f => if (y.fn f).inFlr then y else y.flrEnter f) d
    let ended := (((d.resetFns fn).filter (fun f => (d.fn f).inFlr)).reverse).foldl (fun (y : Dev) f => y.flrFinish s.time f) d
    gives (.urRequest fn) (d.urAnswer s.time fn) ∧
    (d.fnExists fn = false → gives (.configRequest fn req) (d.urAnswer s.time fn) ∧ gives (.initiateFlr fn) (d.urAnswer s.time fn) ∧
      gives (.d3hotEntry fn) (d.urAnswer s.time fn) ∧ gives (.d0Return fn) (d.urAnswer s.time fn)) ∧
    (d.fnExists fn = true → x.inFlr = true → gives (.configRequest fn req) (d.send (.message 4 [fn])) ∧ gives (.initiateFlr fn) (d.send (.message 4 [fn]))) ∧
    (d.fnExists fn = true → x.inFlr = false →
      (d.ready (38 + linkOf fn) = true →
        (fn.val % 4096 = 0 → gives (.configRequest fn (.read 0)) (d.send (.readData fn (BitVec.ofNat 64 (d.rd HIF.ID_VID + 0x16040000))))) ∧
        gives (.configRequest fn (.read 11)) (d.send (.readData fn (BitVec.ofNat 64 (d.rd HIF.ID_SSVID + 65536 * d.rd HIF.ID_SSID)))) ∧
        (fn.val % 4096 ≠ 0 → gives (.configRequest fn (.read 0)) (d.drawn.send (.readData fn (d.freeVal &&& 0xFFFFFFFF)))) ∧
        gives (.configRequest fn (.read 2)) (d.send (.readData fn (BitVec.ofNat 64
          (d.rd HIF.ID_REV + 0x100 * (if (d.personaOf fn).isSome then 0x10802 else 0x20000))))) ∧
        (dw.val ≠ 0 → dw.val ≠ 2 → dw.val ≠ 11 → gives (.configRequest fn (.read dw)) (d.drawn.send (.readData fn (d.freeVal &&& 0xFFFFFFFF)))) ∧
        gives (.configRequest fn (.aspmL1 on)) (d.setFn fn { x with aspmL1 := on }) ∧
        gives (.configRequest fn (.memEnable on)) (d.setFn fn { x with memEnable := on }) ∧
        gives (.configRequest fn (.busMaster on)) (d.setFn fn { x with busMaster := on }) ∧
        gives (.configRequest fn (.maxPayload code)) (d.setFn fn { x with payload := code.val }) ∧
        gives (.configRequest fn (.msixMask on)) ((d.setFn fn { x with msixMask := on }).sendPending fn) ∧
        gives (.initiateFlr fn) (((entered.showFlr.wr HIF.FLRSTAT_LASTFN 0 fn).bump HIF.FLRSTAT_COUNT).raise s.time (ev 15 7) 0 (some fn.val))) ∧
      gives (.d3hotEntry fn) (d.setFn fn { x with d3hot := true }) ∧
      (x.d3hot = true → gives (.d0Return fn) ((d.setFn fn { x with d3hot := false }).inboxVector fn)) ∧
      (x.d3hot = false → gives (.d0Return fn) d)) ∧
    (x.inFlr = true →
      (fn.val = 4096 * linkOf fn → gives (.flrComplete fn) ((ended.showExists (linkOf fn)).raise s.time (ev 15 8) 0 (some fn.val))) ∧
      (fn.val ≠ 4096 * linkOf fn → (d.fn (4096 * linkOf fn)).inFlr = false → gives (.flrComplete fn) (ended.raise s.time (ev 15 8) 0 (some fn.val))) ∧
      (fn.val ≠ 4096 * linkOf fn → (d.fn (4096 * linkOf fn)).inFlr = true → gives (.flrComplete fn) d)) ∧
    (d.memAnswers fn = true → fn.val % 4096 = 0 → x.romEnable = true → 1 ≤ len → off.val % 64 + len ≤ 64 →
      gives (.expansionRomRead fn off len) (d.send (.reply fn ((List.range len).map (fun i => d.romByte (off + i)))))) ∧
    (64 < off.val % 64 + len → gives (.expansionRomRead fn off len) (d.urAnswer s.time fn)) ∧
    (d.memAnswers fn = true → x.romEnable = false → gives (.expansionRomRead fn off len) (d.urAnswer s.time fn)) ∧
    (d.memAnswers fn = true → vec.val < d.rd VIR.PVEC_VECTORS fn → look false x.pba vec = false →
      gives (.vectorUnmask fn vec) (d.setFn fn { x with vecs := put {} x.vecs vec { e with masked := false } })) ∧
    (d.memAnswers fn = true → vec.val < d.rd VIR.PVEC_VECTORS fn → look false x.pba vec = true → gives (.vectorUnmask fn vec)
      ((opened.setFn fn { opened.fn fn with pba := put false x.pba vec false }).vector fn vec)) ∧
    (d.memAnswers fn = false → gives (.vectorUnmask fn vec) (d.urAnswer s.time fn))

/-- R399 to R401, R403, R404, R418 to R420: what comes back to the device. A completion that succeeds counts its bytes; one that fails, or that has not
come when its function's time has run, is counted, logged and fails its descriptor; one that answers nothing is logged; a translation is held and
releases the accesses that wait for it, and is dropped by an invalidation; a snoop drops a line or keeps it shared; an observation is
counted off, and the last sends the ring's vector; the cache is emptied with EVT 15.10. -/
def Obligations.HostRequestResults : Prop :=
  ∀ (s : State) (l : Fin 2) (tag : Fin 16384) (r : HostRead) (st : CplStatus) (f1 f2 : AcsFind) (ecc : FrameEcc) (fn : Fn) (page a line t : Nat) (ring : Fin 131072),
    let d := s.dev
    let gives := fun (i : Instr) (y : Dev) => exec i s = .next { s with dev := y }
    let less := d.dropRead l tag
    let got := less.bump DMA.BYTES_COUNT r.group r.len
    let x := d.ring kCq ring
    let answered : Dev := { d with hif := { d.hif with xlWait := d.hif.xlWait.filter (· ≠ (fn.val, page)) } }
    let cached : Dev := { answered with hif := { answered.hif with atc := answered.hif.atc ++ [(fn.val, page, a)] } }
    let asked := d.bump HIF.ATC_INVREQ (linkOf fn)
    let dropped : Dev := { asked with hif := { asked.hif with atc := asked.hif.atc.filter (fun e => !(decide (e.1 = fn.val) && (false || decide (some e.2.1 = some page)))) } }
    let snooped := d.bump HIF.CXLSNP_COUNT
    let released : Dev := { snooped with hif := { snooped.hif with lines := snooped.hif.lines.filter (fun e => decide (e.1 ≠ line)) } }
    let seen : Dev := { d with rng := { d.rng with cpls := d.rng.cpls.map (fun e => if e.2.2.tag = t then (e.1, e.2.1, { e.2.2 with gos := e.2.2.gos - 1 }) else e) } }
    (d.readOf l tag = none →
      (st ≠ .malformed → gives (.completionArrival l tag st f1 f2 ecc) (d.aerLog (4096 * l.val) .unexpected)) ∧
      gives (.completionArrival l tag .malformed f1 f2 ecc) ((d.aerLog (4096 * l.val) .malformed).raise s.time (ev 15 6) l) ∧
      gives (.completionTimeout l tag) d) ∧
    (d.readOf l tag = some r → (d.fn r.fn).inFlr = false → r.dead = false →
      (got.chanDone r.group r.chan = false → gives (.completionArrival l tag .ok f1 f2 ecc) got) ∧
      (got.chanDone r.group r.chan = true → gives (.completionArrival l tag .ok f1 f2 ecc) (got.readsDone s.time r.group r.chan f1 f2 ecc)) ∧
      (st ≠ .ok → st ≠ .malformed → gives (.completionArrival l tag st f1 f2 ecc)
        ((((less.bump HIF.CTO_CPLERR l).raiseSec s.time (ev 15 4) l l (some r.fn)).readError s.time l r.fn st).payloadFails s.time r.group r.chan r.ring r.pos)) ∧
      gives (.completionArrival l tag .malformed f1 f2 ecc) ((d.aerLog r.fn .malformed).raise s.time (ev 15 6) l) ∧
      ((d.fn r.fn).ctoOff = false → r.since + timeoutNs (d.fn r.fn).ctoValue ≤ d.eng.tclks → gives (.completionTimeout l tag)
        ((((less.bump HIF.CTO_TIMEOUT l).raiseSec s.time (ev 15 3) l l (some r.fn)).aerLog r.fn .timeout).payloadFails s.time r.group r.chan r.ring r.pos)) ∧
      ((d.fn r.fn).ctoOff = true → gives (.completionTimeout l tag) d)) ∧
    (d.hif.xlWait.contains (fn.val, page) = true → (d.atcOf (linkOf fn)).length < 16384 →
      gives (.translationCompletion fn page (some a)) ((cached.showAtc (linkOf fn)).releaseHeld fn page)) ∧
    gives (.atsInvalidation fn (some page)) ((dropped.showAtc (linkOf fn)).send (.message 3 [fn, page])) ∧
    (d.hif.lines.any (fun e => decide (e.1 = line)) = true →
      gives (.cxlSnoop line .cur) (snooped.send (.message 6 [line, 2])) ∧
      gives (.cxlSnoop line .inv) (released.showLines.send (.message 6 [line, 1])) ∧
      gives (.cxlSnoop line .data) (released.showLines.send (.message 6 [line, 1]))) ∧
    (d.hif.lines.any (fun e => decide (e.1 = line)) = false → gives (.cxlSnoop line .inv) (snooped.send (.message 6 [line, 0]))) ∧
    gives (.globalObservation (some t) ring) seen ∧
    (x.gos = 1 → x.vecWait = true → (∀ h ∈ d.hif.held, h.1 ≠ x.polder) → gives (.globalObservation none ring) ((d.setRing kCq ring { x with gos := 0, vecWait := false }).vector x.polder x.vector)) ∧
    (x.gos ≠ 1 → gives (.globalObservation none ring) (d.setRing kCq ring { x with gos := x.gos - 1 })) ∧
    (d.rd HIF.CXLSTAT_CACHEEN = 1 → gives .cacheEnableClear ((d.wr HIF.CXLSTAT_CACHEEN 0 0).dropAllLines s.time)) ∧
    (d.rd HIF.CXLSTAT_CXL = 1 → gives .writeBackInvalidate (d.dropAllLines s.time))

/-! ## Rings and DMA (chapter 16) -/

/-- R429, R430, R432 to R434, R437, R445 to R447: rings. A doorbell that fails its checks is counted with EVT 1.24, a stale one is counted, any other moves
its index; a context command waits for the ring unit, or is counted where one of its writer waits, and at its turn ends with its result; a stopping
ring with nothing outstanding is DISABLED with EVT 1.29; a failed fetch puts its ring in ERROR. That a waiting command runs at an idle TCLK is the
model's choice (log entry 35). -/
def Obligations.RingResults : Prop :=
  ∀ (s : State) (fn : Fn) (slot : Nat) (v : Word) (w : Writer) (kind : Fin 4) (n : Fin 262144) (k : Fin 3) (f : Fin 2) (code : Nat) (units : List (BitVec 128)),
    let d := s.dev
    let gives := fun (i : Instr) (y : Dev) => exec i s = .next { s with dev := y }
    let x := d.ring (dbKind v) (dbRing v)
    let all := fun (y : Dev) => gives (.submissionTailDoorbell fn slot v) y ∧ gives (.receiveTailDoorbell fn slot v) y ∧ gives (.completionHeadDoorbell fn slot v) y
    let read := { x with head := x.dbPos v }
    let q := d.ring kind n
    let z := d.ring k n
    let asked := fun (o : Nat) => ({ op := o, kind := kind, ring := n } : CtxCmd)
    let waits := fun (o : Nat) => ({ d with rng := { d.rng with ctxWait := put none d.rng.ctxWait w.view (some (asked o)) } } : Dev).wr RNG.CSTAT_BUSY w.view 1
    let turn : Dev := { d with rng := { d.rng with ctxWait := put none d.rng.ctxWait w.view none, ctxRot := turnAfter w } }
    let ends := fun (o : Nat) (y : Dev) (c : Nat) => d.ctxRun s.time w (asked o) =
      ((if c = 0 then y.wr RNG.CSTAT_RESULT w.view c else (y.wr RNG.CSTAT_RESULT w.view c).raise s.time (ev 1 31) (ringInfo kind n) (writerPolder w)).wr
        RNG.CSTAT_BUSY w.view 0)
    let failed := d.ringError s.time f n 4 (d.ring f n).fetch
    (d.memAnswers fn = false → all (d.urAnswer s.time fn)) ∧
    (d.memAnswers fn = true → d.dbValid fn slot v = false → all (((d.bump RNG.DBINVALID_COUNT).wr RNG.DBINVALID_LASTRING 0 (dbRing v)).raiseSec
      s.time (ev 1 24) 0 (ringInfo (dbKind v) (dbRing v)) (some fn.val))) ∧
    (d.memAnswers fn = true → d.dbValid fn slot v = true →
      (x.dbStale v = true → all (d.bump RNG.DBSTALE_COUNT)) ∧
      (x.dbStale v = false → dbKind v ≠ 2 → all (d.setRing (dbKind v) (dbRing v) { x with tail := x.dbPos v, stalled := false })) ∧
      (x.dbStale v = false → dbKind v = 2 → dbArm v = false →
        all ((d.setRing 2 (dbRing v) { read with unread := x.unread.filter (fun e => decide (0 < read.dist read.head e ∧ read.dist read.head e ≤ read.used)) }).drainOverflow
          (dbRing v) (x.overflow.length + x.notices.length)))) ∧
    (d.rd RNG.CSTAT_BUSY w.view = 1 → let ignored := d.bump RNG.CSTAT_IGNORED w.view
      gives (.contextWrite w kind n) ignored ∧ gives (.contextEnable w kind n) ignored ∧ gives (.contextDisable w kind n) ignored ∧
        gives (.contextRead w kind n) ignored) ∧
    (d.rd RNG.CSTAT_BUSY w.view ≠ 1 →
      gives (.contextWrite w kind n) (waits 1) ∧ gives (.contextEnable w kind n) (waits 2) ∧ gives (.contextDisable w kind n) (waits 3) ∧
        gives (.contextRead w kind n) (waits 4)) ∧
    (kind = 3 ∨ ringCount kind ≤ n.val → code ∈ [1, 2, 3, 4] → ends code turn 2) ∧
    (kind ≠ 3 → n.val < ringCount kind → turn.mayCommand w kind n = false → code ∈ [1, 2, 3, 4] → ends code turn 1) ∧
    (4 < code → ends code turn 5) ∧
    (kind ≠ 3 → n.val < ringCount kind → turn.mayCommand w kind n = true →
      ends 1 (turn.ctxWrite w kind n).1 (turn.ctxWrite w kind n).2 ∧
      (q.st = .disabled → ends 3 turn 4) ∧
      (q.st ≠ .disabled → ends 1 turn 4 ∧ ends 2 turn 4) ∧
      (q.st = .disabled → q.fieldsOk kind = false → ends 2 turn 3) ∧
      (q.st = .disabled → q.fieldsOk kind = true → q.cxlc = false → kind = 2 → ends 2 (turn.setRing kind n { q with
          st := .enabled, head := 0, tail := 0, fetch := 0, stalled := false, subs := [], bufs := [],
          armed := false, since := 0, unread := [], overflow := [], notices := [], lost := 0 }) 0) ∧
      (q.st = .disabled → q.fieldsOk kind = true → q.cxlc = false → kind = 0 → (d.ring kCq q.cq).st = .enabled → (d.ring kCq q.cq).polder = q.polder →
        ends 2 (turn.setRing kind n { q with
          st := .enabled, head := 0, tail := 0, fetch := 0, stalled := false, subs := [], bufs := [],
          armed := false, since := 0, unread := [], overflow := [], notices := [], lost := 0 }) 0) ∧
      (q.st = .error → (kind = 2 → d.namers n = []) →
        ends 3 (((turn.abandonRing (ringKey kind n)).dropWaiting (ringKey kind n)).setRing kind n { q with st := .stopping, subs := [], bufs := [] }) 0) ∧
      ends 4 (turn.ctxRead w kind n).1 0) ∧
    (z.st = .stopping → z.subs = [] → d.rng.cpls = [] → gives (.disableDone k n)
      ((d.setRing k n { z with st := .disabled, overflow := [], notices := [] }).raise s.time (ev 1 29) (ringInfo k n) (d.ringPolder k n))) ∧
    ((d.ring f n).st = .enabled → (d.ring f n).stalled = false → (f.val = 0 → (d.ring kCq (d.ring f n).cq).overflow = []) →
      d.needsTranslation (d.ring f n).polder ((d.ring f n).unitAddr (d.ring f n).fetch) = false → gives (.entryFetch f n units false)
      (if f.val = 1 then failed.rxServe s.time n (look [] failed.rng.rxWait n).length else failed))

/-- R440 to R448, R455: descriptors and completions. The next completion that may be written reaches its ring; the coalescing time sends a vector, and a completion
ring that stayed full for ISOLMS is isolated; a channel stops and starts; the channel served next issues a request; a packet that left completes its entry; a
free channel takes the next descriptor. -/
def Obligations.DmaResults : Prop :=
  ∀ (s : State) (ring : Fin 131072) (g : Fin 4) (c : Fin 32) (ch : Nat) (crcOk : Bool) (payload : List Byte) (r key : Nat) (cpl : Completion)
    (t : TxLeft) (ts : List TxLeft) (q : Desc) (e : SubEntry),
    let d := s.dev
    let gives := fun (i : Instr) (y : Dev) => exec i s = .next { s with dev := y }
    let x := d.ring kCq ring
    let taken : Dev := { d with rng := { d.rng with cpls := d.rng.cpls.filter (fun e => decide (e.2.2.tag ≠ cpl.tag)) } }
    let rest : Dev := { d with rng := { d.rng with left := ts } }
    let done := (rest.ring kSub t.ring).finish t.pos
    let found : Dev := { d with rng := { d.rng with waiting := dropDesc q d.rng.waiting } }
    (nextWritable [] d.rng.cpls = some (r, key, cpl) → gives .completionWrite (taken.postCpl s.time r key cpl)) ∧
    (x.armed = true → 0 < x.since → x.firstAt + 1000 * x.cusec ≤ d.eng.tclks → gives (.coalesceTimer ring) (d.ringVector ring)) ∧
    (x.armed = false → gives (.coalesceTimer ring) d) ∧
    (x.st = .enabled → x.overflow ≠ [] → x.fullAt + 1000000 * d.rd RNG.CFG_ISOLMS ≤ d.eng.tclks → gives (.isolationTimer ring) (d.isolate s.time ring)) ∧
    gives (.channelStop g c) (d.setChan g c { d.chan g c with stop := true }) ∧
    gives (.channelStart g c) (d.setChan g c { d.chan g c with stop := false }) ∧
    (d.nextChan g = some ch → gives (.dmaBurst g crcOk) (d.burst s.time g ch crcOk)) ∧
    (d.rng.left = t :: ts → (rest.ring kSub t.ring).subs.find? (fun e => decide (e.pos = t.pos)) = none → gives .transmitCompletion rest) ∧
    (d.rng.left = t :: ts → (rest.ring kSub t.ring).subs.find? (fun e => decide (e.pos = t.pos)) = some e → (e.words.getD 0 0).testBit 9 = false →
      gives .transmitCompletion ((rest.setRing kSub t.ring done).queueCpl done.cq (ringKey kSub t.ring) { units :=
        [cplUnit0 2 2 t.status t.ring (done.posField done.head) t.mark, (t.ts.getD (0, 0)).1 + (t.ts.getD (0, 0)).2 * 2 ^ 64 + t.len * 2 ^ 80] })) ∧
    (d.nextDesc g = some q → (List.range 32).find? (fun n => (d.chan g n).desc.isNone && !(d.chan g n).stop) = some ch →
      gives (.descriptorStart g payload) (found.startDesc g ch q payload))
/-! ## Mailboxes and resources (chapter 17) -/

/-- R464 to R470, R472, R473: messages. SEND queues the staged body under the next SEQ or ends with its code; WITHDRAW takes a message back; POP
takes the oldest, with another interrupt while more wait; the secure channels do the same for the key loader; the control service picks
up by rotating order. A function that does not answer is told UR. R473: the control cores send to the management controller on their
private channel, up to 16 messages, and each takes back or picks up as a function does; MBX.CMSTAT shows what waits. -/
def Obligations.MailboxResults : Prop :=
  ∀ (s : State) (fn : Fn) (wseq : BitVec 16) (pf : Pf) (r code : Nat) (m : Msg) (ms : List Msg),
    let d := s.dev
    let gives := fun (i : Instr) (y : Dev) => exec i s = .next { s with dev := y }
    let seqOf := fun (a b : Nat) => look 0 d.mbx.count (chanKey a b) % 65536
    let body := (List.range 8).flatMap (fun j => leBytes 8 (d.rd MBX.TXDATA_DATA (8 * fn + j)))
    let own := 4096 * pf.val
    let secret := (List.range 8).flatMap (fun j => leBytes 8 (d.rd MBX.STXDATA_DATA (8 * own + j)))
    let left := (d.setInbox fn ms).showInbox fn
    let back := d.withdrawFrom fn r wseq.toNat
    let secureBack := d.withdrawFrom own idKeys wseq.toNat
    (d.memAnswers fn = false → gives (.send (.fn fn)) (d.urAnswer s.time fn) ∧ gives (.withdraw (.fn fn) wseq) (d.urAnswer s.time fn) ∧ gives (.pop (.fn fn)) (d.urAnswer s.time fn)) ∧
    (d.memAnswers fn = true →
      (d.txTarget fn = .error code → gives (.send (.fn fn)) (d.wr MBX.TXSTAT_RESULT fn code) ∧ gives (.withdraw (.fn fn) wseq) (d.wr MBX.TXSTAT_RESULT fn code)) ∧
      (d.txTarget fn = .ok r →
        (16 ≤ d.pendingOn fn r → gives (.send (.fn fn)) (d.wr MBX.TXSTAT_RESULT fn 1)) ∧
        (d.pendingOn fn r < 16 → gives (.send (.fn fn))
          ((((d.wr MBX.TXSTAT_RESULT fn 0).wr MBX.TXSTAT_SEQ fn (seqOf fn r)).post fn r (d.rd MBX.TXENV_SERVICE fn) body).showSent fn)) ∧
        gives (.withdraw (.fn fn) wseq) ((back.1.wr MBX.TXSTAT_RESULT fn back.2).showSent fn)) ∧
      (d.inboxOf fn = [] → gives (.pop (.fn fn)) d) ∧
      (d.inboxOf fn = m :: ms → m.sender = idControl → left.rd MBX.IRQ_EN fn = 0 →
        gives (.pop (.fn fn)) (left.refill fn (look [] left.mbx.overflow fn).length))) ∧
    (d.memAnswers own = true →
      (d.rd MBX.STXENV_SERVICE own ≠ 8 → gives (.secureSend pf) (d.wr MBX.STXSTAT_RESULT own 7)) ∧
      (d.rd MBX.STXENV_SERVICE own = 8 → 16 ≤ d.pendingOn own idKeys → gives (.secureSend pf) (d.wr MBX.STXSTAT_RESULT own 1)) ∧
      (d.rd MBX.STXENV_SERVICE own = 8 → d.pendingOn own idKeys < 16 → gives (.secureSend pf)
        (((d.wr MBX.STXSTAT_RESULT own 0).wr MBX.STXSTAT_SEQ own (seqOf own idKeys)).post own idKeys 8 secret)) ∧
      gives (.secureWithdraw pf wseq) (secureBack.1.wr MBX.STXSTAT_RESULT own secureBack.2) ∧
      (d.inboxOf (8196 + pf.val) = m :: ms → gives (.securePop pf) ((d.setInbox (8196 + pf.val) ms).showSecure pf)) ∧
      (d.inboxOf (8196 + pf.val) = [] → gives (.securePop pf) d)) ∧
    (∀ (svc : Byte) (text : List Byte),
      (d.cmActs idCores = true → svc ≠ 8 → d.pendingOn idCores idManager < 16 → gives (.send (.cores svc text))
        (((d.cmResult idCores (0, seqOf idCores idManager)).post idCores idManager svc.toNat text).showCm)) ∧
      (d.cmActs idCores = true → svc ≠ 8 → 16 ≤ d.pendingOn idCores idManager → gives (.send (.cores svc text)) (d.cmResult idCores (1, 0))) ∧
      (d.cmActs idManager = true → svc ≠ 8 → d.pendingOn idManager idCores < 16 → gives (.send (.manager svc text))
        (((d.cmResult idManager (0, seqOf idManager idCores)).post idManager idCores svc.toNat text).showCm)) ∧
      (d.cmActs idManager = true → svc ≠ 8 → 16 ≤ d.pendingOn idManager idCores → gives (.send (.manager svc text)) (d.cmResult idManager (1, 0)))) ∧
    (d.cmActs idManager = true → d.inboxOf idManager = m :: ms → gives (.pop .manager) ((d.setInbox idManager ms).showCm)) ∧
    (d.cmActs idCores = true →
      (d.inboxOf idCores = m :: ms → gives (.pop .cores) ((d.setInbox idCores ms).showCm)) ∧
      (let took := d.withdrawFrom idCores idManager wseq.toNat
       gives (.withdraw .cores wseq) ((took.1.cmResult idCores (took.2, wseq.toNat)).showCm))) ∧
    (d.inboxOf idControl = [] → gives .controlServicePickup d) ∧
    (d.inboxOf idControl = [m] → d.pickupRoom m.sender = true → d.serving = true → gives .controlServicePickup
      (({ (d.setInbox idControl []) with mbx := { (d.setInbox idControl []).mbx with work := d.mbx.work ++ [m], rot := m.sender + 1 } } : Dev).showSent m.sender))

/-- R459 to R462: resources. A request that fails the checks that all share is answered with its code, and EVT 2.2 names it; a GRANT that
passes writes the polder's record, LIMITS its peak rate, weight and limits, both with EVT 2.1; QUERY returns words 0 to 12. -/
def Obligations.ResourceResults : Prop :=
  ∀ (s : State) (fn : Fn) (body : List Byte),
    s.dev.answerRoom fn = true →
    let d := s.dev
    let gives := fun (i : Instr) (y : Dev) => exec i s = .next { s with dev := y }
    let g := readGrant body
    let p := leAt body 2 2
    let peak := leAt body 8 8
    let weight := leAt body 16 2
    let rate := leAt body 24 8
    let count := leAt body 32 2
    let refused := fun (code res : Nat) => (((d.bump VIR.REFUSED_COUNT).wr VIR.REFUSED_LAST 0 res).raise s.time (ev 2 2) (res + code * 256) (some fn.val)).answer fn 3 (leBytes 1 res)
    let done := fun (y : Dev) (code target : Nat) => ((y.commit [(3, target)]).raise s.time (ev 2 1) (code * 256) (some target)).answer fn 3 (leBytes 1 0)
    let limited := (((d.wr VIR.PPEAK_RATE p peak).wr VIR.PCTL_WEIGHT p weight).wr VIR.PCRLIM_RATE p rate).wr VIR.PCTL_CNLIM p count
    (d.resTarget fn body 1 g.target grantBytes ≠ 0 → gives (.grant fn body) (refused 1 (d.resTarget fn body 1 g.target grantBytes))) ∧
    (d.resTarget fn body 1 g.target grantBytes = 0 → (2 ^ 20 ≤ g.pasid ∨ leAt body 56 4 % 2 ^ 31 / 2 ^ 17 ≠ 0) →
      gives (.grant fn body) (refused 1 resFormat)) ∧
    (d.resTarget fn body 1 g.target grantBytes = 0 → g.pasid < 2 ^ 20 → leAt body 56 4 % 2 ^ 31 / 2 ^ 17 = 0 →
      (d.grantRange g = false → gives (.grant fn body) (refused 1 resRange)) ∧
      (d.grantRange g = true → d.grantBusy g = true → gives (.grant fn body) (refused 1 resBusy)) ∧
      (d.grantRange g = true → d.grantBusy g = false → gives (.grant fn body) (done (d.writeGrant g) 1 g.target))) ∧
    (d.resTarget fn body 2 p limitsBytes ≠ 0 → gives (.limits fn body) (refused 2 (d.resTarget fn body 2 p limitsBytes))) ∧
    (d.resTarget fn body 2 p limitsBytes = 0 →
      (weight = 0 ∨ 4095 < weight → gives (.limits fn body) (refused 2 resFormat)) ∧
      (1 ≤ weight → weight ≤ 4095 →
        (rate ≠ 0 → rate < d.rd VIR.PCRUSE_RATE p → gives (.limits fn body) (refused 2 resLimit)) ∧
        (count ≠ 0 → count < d.rd VIR.PUSE_CONTRACTS p → gives (.limits fn body) (refused 2 resLimit)) ∧
        ((rate = 0 ∨ d.rd VIR.PCRUSE_RATE p ≤ rate) → (count = 0 ∨ d.rd VIR.PUSE_CONTRACTS p ≤ count) → gives (.limits fn body) (done (limited.writeL2 p peak weight) 2 p)))) ∧
    (d.resTarget fn body 3 p queryBytes ≠ 0 → gives (.resourcesQuery fn body) (refused 3 (d.resTarget fn body 3 p queryBytes))) ∧
    (d.resTarget fn body 3 p queryBytes = 0 → gives (.resourcesQuery fn body)
      ((d.hostWrite fn peak ((d.polderWords p).flatMap (leBytes 8))).answer fn 3 (leBytes 1 0)))
/-! ## The Dikewarden (chapters 18, 22) -/

/-- R479 to R483, R553, R558, R559 and the table of mechanisms: what is detected. A pair that agrees signals and one that
disagrees stops, the reaction block acts when neither has signalled for 4 ACLK, a
control core is isolated and returns, the management controller restarts, a gate comparator stops a port, a clock domain its ports, its polders
or the device, a supply the device, temperature above the warning threshold throttles, until it has been
below the resume threshold for 10 ms, and one at the critical threshold stops the device. -/
def Obligations.DetectionResults : Prop :=
  ∀ (s : State) (core : Fin 12) (port : Fin 16) (dom : Fin 14) (rail : Fin 9) (sensor : Fin 16) (temp : Int) (pair : Fin 2),
    let d := s.dev
    let gives := fun (i : Instr) (y : Dev) => exec i s = .next { s with dev := y }
    let stopped := ((d.wr DKW.STATUS_PAIRA 0 1).wr DKW.STATUS_DEGRADED 0 1).raise s.time (ev 0 2)
    let out := (d.setCtx (1536 + core.val) {}).setCsr core {}
    let isolated : Dev := { out with dkw := { out.dkw with coresOut := core.val :: out.dkw.coresOut } }
    let back : Dev := { d with dkw := { d.dkw with coresOut := d.dkw.coresOut.filter (· ≠ core.val) } }
    let unlocked := (d.wrBit CLK.STATUS_LOCK 0 dom false).setPresent 12 dom true
    let noClock := unlocked.raise s.time (ev 0 6) dom
    let noSupply := (d.setPresent 13 rail true).raise s.time (ev 0 7) rail
    let badGate := (d.setPresent 8 port true).raise s.time (ev 0 4) port
    let limits := d.thresholds
    let measured : Dev := if limits.2.2 ≤ temp then { d with dkw := { d.dkw with hotAt := d.eng.tclks } } else d
    let warned := measured.raise s.time (ev 1 5) sensor
    let hot := ((((measured.raise s.time (ev 1 5) sensor).setThrottle true).raise s.time (ev 1 6)).revalidate 3)
    let cooler : Dev := { hot with dkw := { hot.dkw with present := hot.dkw.present.filter (fun c => decide (c.1 ≠ 14)) } }
    (d.rd (if pair = 0 then DKW.STATUS_PAIRA else DKW.STATUS_PAIRB) ≠ 1 →
      gives (.pairCheck pair true) { d with dkw := { d.dkw with signalAt := d.eng.tclks } }) ∧
    (d.rd (if pair = 0 then DKW.STATUS_PAIRA else DKW.STATUS_PAIRB) = 1 → gives (.pairCheck pair true) d ∧ gives (.pairCheck pair false) d) ∧
    (d.rd DKW.STATUS_PAIRA = 0 → d.rd DKW.STATUS_PAIRB = 0 → gives (.pairCheck 0 false) stopped) ∧
    (d.rd DKW.STATUS_PAIRA = 0 → d.rd DKW.STATUS_PAIRB = 1 → gives (.pairCheck 0 false) ((stopped.wr DKW.STATUS_SECOND 0 1).routeEvent s.time (ev 0 23) 3 none)) ∧
    (d.devSafe = true → gives .reactionDeadline d) ∧
    (d.eng.tclks < d.dkw.signalAt + 122071 → gives .reactionDeadline d) ∧
    (d.devSafe = false → d.dkw.signalAt + 122071 ≤ d.eng.tclks → gives .reactionDeadline ((d.detected s.time 4 (ev 0 19) 4).safeDevice s.time (4, 4))) ∧
    (d.dkw.coresOut.contains core.val = true →
      gives (.lockstepMismatch core) d ∧ gives (.controlHeartbeatMiss core) d ∧ gives (.controlCoreReturn core false) d ∧
      gives (.controlCoreReturn core true) (((back.repaired 1 core).repaired 11 core).setCtx (1536 + core.val) { st := .run })) ∧
    (d.dkw.coresOut.contains core.val = false →
      gives (.lockstepMismatch core) (isolated.raise s.time (ev 0 0) core) ∧ gives (.controlHeartbeatMiss core) (isolated.raise s.time (ev 0 5) core)) ∧
    (d.dkw.mgtDown = true → gives .mgtLockstepMismatch d) ∧
    (d.dkw.mgtDown = false → gives .mgtLockstepMismatch (d.mgtFails s.time)) ∧
    gives (.gateComparator port true) (d.setPresent 8 port false) ∧
    (d.dkw.present.contains (8, port.val) = false → gives (.gateComparator port false) (badGate.safePort s.time (8, port.val) port)) ∧
    gives (.clockMonitor dom true) ((d.wrBit CLK.STATUS_LOCK 0 dom true).setPresent 12 dom false) ∧
    (d.dkw.present.contains (12, dom.val) = false →
      (dom.val < 7 ∨ dom.val = 13 → gives (.clockMonitor dom false) (noClock.safeDevice s.time (12, dom.val))) ∧
      (dom.val = 7 ∨ dom.val = 8 → gives (.clockMonitor dom false)
        ((noClock.linkPolders (dom.val - 7)).foldl (fun y p => y.safePolder s.time (12, dom.val) p) noClock)) ∧
      (9 ≤ dom.val → dom.val ≤ 12 → gives (.clockMonitor dom false)
        ((List.range 4).foldl (fun y i => y.safePort s.time (12, dom.val) (4 * (dom.val - 9) + i)) noClock))) ∧
    gives (.supplyMonitor rail true) (d.setPresent 13 rail false) ∧
    (d.dkw.present.contains (13, rail.val) = false → gives (.supplyMonitor rail false) (noSupply.safeDevice s.time (13, rail.val))) ∧
    gives (.supplyNearLimit rail) (d.raiseSec s.time (ev 1 8) rail rail) ∧
    (limits.1 ≤ temp → temp < limits.2.1 → d.dkw.throttled = false → warned.dkw.throttled = false →
      gives (.temperatureSample sensor temp) cooler) ∧
    (limits.2.1 ≤ temp → warned.dkw.throttled = true → (∀ c ∈ warned.dkw.present, c.1 ≠ 14) → gives (.temperatureSample sensor temp)
      (((warned.setPresent 14 sensor true).raise s.time (ev 0 8) sensor).safeDevice s.time (14, sensor))) ∧
    (d.dkw.throttled = true → d.eng.tclks < d.dkw.hotAt + 10000000 → gives .throttleEnd d) ∧
    (d.dkw.throttled = true → d.dkw.hotAt + 10000000 ≤ d.eng.tclks → gives .throttleEnd (((d.setThrottle false).raise s.time (ev 1 7)).revalidate 3)) ∧
    (d.dkw.throttled = false → gives .throttleEnd d)

/-- R484, R485, R488 to R490: the triple store and release. Three copies that agree, or the majority of three, is the content; a hardware copy that
differs is rewritten with EVT 0.13; a safe state ends by its command when its cause is clear, else EVT 0.26 refuses it, and FAULT_N is released
only when nothing remains. -/
def Obligations.ReleaseResults : Prop :=
  ∀ (s : State) (kind : Fin 6) (inst : Nat) (vs found : List Nat) (ports : BitVec 16) (pf : Pf) (polder : Fn),
    let d := s.dev
    let gives := fun (i : Instr) (y : Dev) => exec i s = .next { s with dev := y }
    let v := d.objContent kind inst
    let repaired : Dev := { d with dkw := { d.dkw with objs := put none d.dkw.objs (objKey kind inst) (some v) } }
    let fixed := ((d.putContent kind inst v).bump DKW.TSTAT_HWFIX).raise s.time (ev 0 13) (objInfo kind inst) (objPolder kind inst)
    let ns := (List.range 16).filter (fun n => ports.getLsbD n && d.portSafe n)
    let cause : Nat × Nat := look (0, 0) d.dkw.polCause polder
    let ended := d.wrBit DKW.POLSAFE_MAP (polder / 64) (polder % 64) false
    let freed : Dev := { ended with dkw := { ended.dkw with polCause := put (0, 0) d.dkw.polCause polder (0, 0) } }
    let freely := (List.range 16).filter (fun n => decide (look (0, 0) d.dkw.portCause n = (0, 0)))
    let lifted : Dev := { d.wr DKW.STATUS_DEVSAFE 0 0 with dkw := { d.dkw with devCause := (0, 0) } }
    let trained := freely.foldl (fun y n => y.freePort s.time n) lifted
    let shown := (List.range 128).foldl (fun y n => y.wr DKW.POLSAFE_MAP n
      (((List.range 64).filter (fun j => decide (look (0, 0) d.dkw.polCause (64 * n + j) ≠ (0, 0)))).map (fun j => 2 ^ j)).sum) trained
    let reset : Dev := { d with dkw := { d.dkw with causeSet := false } }
    let cleared := ((((reset.wr DKW.CAUSE_SOURCE 0 0).wr DKW.CAUSE_SM 0 0).wr DKW.CAUSE_INFO 0 0).wr DKW.FTIME_NS 0 0).wr DKW.FTIME_SEC 0 0
    gives (.objectScan kind inst .intact .intact .intact) d ∧
    (vs ≠ v → gives (.objectScan kind inst .intact .intact (.holds vs))
      ((repaired.bump DKW.TSTAT_REPAIRS).raise s.time (ev 0 10) (objInfo kind inst) (objPolder kind inst))) ∧
    gives (.objectScan kind inst .intact .eccFails .intact)
      ((repaired.bump DKW.TSTAT_REPAIRS).raise s.time (ev 0 10) (objInfo kind inst) (objPolder kind inst)) ∧
    gives (.hwCopyCompare kind inst (some v)) d ∧
    (found ≠ v → gives (.hwCopyCompare kind inst (some found)) (fixed.hwRewritten s.time kind inst)) ∧
    (ns ≠ [] → d.devSafe = true → gives (.psclr 0 ports) (d.refuseRelease s.time d.dkw.devCause.1)) ∧
    (ns ≠ [] → d.devSafe = false → ns.find? (fun n => d.causeStands (look (0, 0) d.dkw.portCause n)) = none →
      gives (.psclr 0 ports) ((ns.foldl (fun y n => y.freePort s.time n) d).released s.time ((ns.map (fun n => 2 ^ (n + 4))).sum) none)) ∧
    gives (.psclr 1 ports) d ∧
    (pfOf polder = pf.val → d.polSafe polder = true → d.devSafe = false →
      (d.causeStands cause = true → gives (.polclr pf polder) (d.refuseRelease s.time cause.1)) ∧
      (d.causeStands cause = false → freed.dkw.polCause.any (fun e => decide (e.2 = cause)) = true →
        gives (.polclr pf polder) (freed.released s.time 1 (some polder.val)))) ∧
    (d.polSafe polder = false → gives (.polclr pf polder) d) ∧
    (d.devSafe = true → d.causeStands d.dkw.devCause = true → gives (.fclrDevice 0) (d.refuseRelease s.time d.dkw.devCause.1)) ∧
    (d.devSafe = true → d.causeStands d.dkw.devCause = false → gives (.fclrDevice 0) ((shown.repaired d.dkw.devCause.1 d.dkw.devCause.2).released s.time
      (2 + (freely.map (fun n => 2 ^ (n + 4))).sum) none)) ∧
    gives (.fclrDevice 1) d ∧ gives (.fclrRelease 1) d ∧
    (d.anySafe = true → d.dkw.present = [] → gives (.fclrRelease 0) (d.refuseRelease s.time d.dkw.devCause.1)) ∧
    (d.anySafe = false → d.dkw.present = [] → d.rd DKW.SMSTAT_FAILED = 0 → d.ready 36 = true → d.rd DKW.STATUS_FAULTN ≠ 0 →
      gives (.fclrRelease 0) (((cleared.wr DKW.STATUS_FAULTN 0 0).send (.pin 1 true)).raise s.time (ev 0 22)))
/-! ## Events, resets, clocks (chapters 18, 19) -/

/-- R495 to R499, R522: the event unit. A mask is written, with a vector when a masked bit rises; a read of RECA takes the oldest
record or reads ones; INJECT raises EVT 0.27 and runs the mechanism; the management controller is back in service. R516, R518, R520: references and trims. An input that leaves its limits is counted with EVT 1.2; the frequencies measured are shown; PF 0 locks
the trims, and without a commit they are zero and locked. -/
def Obligations.EventsAndClocks : Prop :=
  (∀ (s : State) (pf : Pf) (group : Fin 16) (value : BitVec 32) (sm : Fin 32) (inst : Nat) (r : EvRecord) (rs : List EvRecord),
      let d := s.dev
      let gives := fun (i : Instr) (y : Dev) => exec i s = .next { s with dev := y }
      let i := 16 * pf.val + group.val
      let masked := d.wr EVT.MASK_BITS i value.toNat
      let before := d.rd EVT.PEND_BITS i &&& d.rd EVT.MASK_BITS i
      let after := masked.rd EVT.PEND_BITS i &&& masked.rd EVT.MASK_BITS i
      let less0 : Dev := { d with evt := { d.evt with recs0 := rs } }
      let taken := ((less0.wr EVT.RECB_NS 0 (r.time.toNat % 2 ^ 32)).wr EVT.RECB_SEC 0 (r.time.toNat / 2 ^ 32)).send (.readData 0 (BitVec.ofNat 64 r.reca))
      let restarted := ({ d with dkw := { d.dkw with mgtDown := false } } : Dev).repaired 2 0
      let serving := (((restarted.wrBit CLK.RGSTAT_INRESET 0 4 false).bump MGT.STATUS_RESTARTS).wr MGT.STATUS_READY 0 1).wrBit TOP.READY_BITS 0 37 true
      (before ||| after = before → gives (.maskWrite pf group value) masked) ∧
      (before ||| after ≠ before → gives (.maskWrite pf group value) (masked.vector (4096 * pf.val) (masked.rd EVT.VEC_VECTOR i))) ∧
      (d.evt.recs0 = r :: rs → gives (.recaRead 0) taken) ∧
      (d.evt.recs0 = [] → gives (.recaRead 0) (d.send (.readData 0 (BitVec.allOnes 64)))) ∧
      (d.evt.recs1 = [] → gives (.recaRead 1) (d.send (.readData 4096 (BitVec.allOnes 64)))) ∧
      (d.rd DKW.SMSTAT_INJEN = 1 → 1 ≤ sm.val → sm.val ≤ 15 → gives (.inject pf sm inst) ((d.raise s.time (ev 0 27) sm).testFault s.time sm inst)) ∧
      (d.rd DKW.SMSTAT_INJEN = 0 ∨ sm.val = 0 ∨ 15 < sm.val → gives (.inject pf sm inst) d) ∧
      (d.dkw.mgtDown = true → gives .mgtRestartDone (serving.raise s.time (ev 1 0) 37)) ∧
      (d.dkw.mgtDown = false → gives .mgtRestartDone d)) ∧
  (∀ (s : State) (freqs : List (BitVec 32)) (refs : BitVec 4),
      let d := s.dev
      let gives := fun (i : Instr) (y : Dev) => exec i s = .next { s with dev := y }
      let shown := ((freqs.take 14).zipIdx).foldl (fun (y : Dev) e => y.wr CLK.FREQ_KHZ e.2 e.1.toNat) d
      let clear := fun (y : Dev) (u e : Fld) (i : Nat) => (y.wr u i 0).wr e i (e.coldValue i)
      let temps := (List.range 16).foldl (fun (y : Dev) i => clear y CAL.TM_USER CAL.TM_EFF i) d
      let rails := (List.range 9).foldl (fun (y : Dev) i => clear y CAL.VM_USER CAL.VM_EFF i) temps
      gives (.referenceExcursion 0) (((d.wr CLK.REFSTAT_NET 0 0).bump CLK.REFERR_COUNT).raiseSec s.time (ev 1 2) 0 0) ∧
      gives (.referenceExcursion 1) (((d.wr CLK.REFSTAT_PCIE 0 0).bump CLK.REFERR_COUNT).raiseSec s.time (ev 1 2) 1 1) ∧
      gives (.referenceExcursion 2) (((d.wr CLK.REFSTAT_SYS 0 0).bump CLK.REFERR_COUNT).raiseSec s.time (ev 1 2) 2 2) ∧
      gives (.referenceExcursion 3) (((d.wr CLK.REFSTAT_XTAL 0 0).bump CLK.REFERR_COUNT).raiseSec s.time (ev 1 2) 3 3) ∧
      gives (.frequencyMeasure freqs refs) ((((shown.wr CLK.REFSTAT_NET 0 (bitNat (refs.getLsbD 0))).wr CLK.REFSTAT_PCIE 0 (bitNat (refs.getLsbD 1))).wr
        CLK.REFSTAT_SYS 0 (bitNat (refs.getLsbD 2))).wr CLK.REFSTAT_XTAL 0 (bitNat (refs.getLsbD 3))) ∧
      gives (.calCommit 0) (d.wr CAL.STATUS_COMMITTED 0 1) ∧ gives (.calCommit 1) d ∧
      (d.rd CAL.STATUS_COMMITTED = 1 → gives .calCommitTimeout d) ∧
      (d.eng.tclks < 250000000 → gives .calCommitTimeout d) ∧
      (d.rd CAL.STATUS_COMMITTED = 0 → 250000000 ≤ d.eng.tclks → gives .calCommitTimeout (rails.wr CAL.STATUS_COMMITTED 0 1)))

/-- R500 to R506, R511, R517, R523, R538: resets and bring-up. Power-on release takes the cold state and starts; power down keeps what the battery keeps;
a warm reset by PF 0, pin, sideband or activation silences and restarts, and one during another only adds its cause; EVT 1.3 ends it; a function
whose needs are met sets its ready bit with EVT 1.0, one that fails its test TOP.FAILED with EVT 1.1. -/
def Obligations.ResetResults : Prop :=
  ∀ (s : State) (bit : Fin 40) (cores : BitVec 32) (sms : BitVec 16) (via : Via) (self : Bool),
    let d := s.dev
    let gives := fun (i : Instr) (y : Dev) => exec i s = .next { s with dev := y }
    let fresh : Dev := { d.coldState with bat := { d.coldState.bat with main := true } }
    let dead : Dev := { d.coldState with bat := { d.coldState.bat with main := false } }
    let awake := ((fresh.leaveReset [1, 2]).send (.pin 1 false)).send (.message 8 [0])
    let ready := ((d.wrBit TOP.READY_BITS 0 bit true).leaveReset (groupsOf bit)).putInService s.time bit cores
    let failed := ((d.wrBit TOP.FAILED_BITS 0 bit true).leaveReset (groupsOf bit)).raise s.time (ev 1 1) bit
    let finished : Dev := { d with warming := false }
    exec .powerOnRelease s = .next { s with dev := awake.startUp {}, time := {} } ∧
    exec .powerDown s = .next { s with dev := (if dead.bat.vbat then dead else dead.batStart true).send (.message 14 []), time := {} } ∧
    ((d.fn 0).inFlr = false → gives (.topResetWarm 0) (d.warmReset s.time TOP.RSTCAUSE_PF0)) ∧
    gives (.topResetWarm 1) d ∧
    gives .wrstN (d.warmReset s.time TOP.RSTCAUSE_PIN) ∧
    (d.warming = true → gives .wrstN (d.wr TOP.RSTCAUSE_PIN 0 1)) ∧
    (d.dkw.mgtDown = false → d.viaUp via = true → d.ready 37 = true →
      (d.inRecovery = false → gives (.vendorWarmReset via) ((d.mctpReply via 0x7E [1, 0]).warmReset s.time TOP.RSTCAUSE_MGT)) ∧
      (d.inRecovery = true → gives (.vendorWarmReset via) (d.mgtRefuse s.time)) ∧
      (d.rd MGT.FWUPD_STATE ≠ 4 → gives (.activateFirmware via self) (d.mctpReply via 1 [5, 0x1A, 0x80])) ∧
      (d.rd MGT.FWUPD_STATE = 4 →
        gives (.activateFirmware via true) ((d.mctpReply via 1 [5, 0x1A, 0]).warmReset s.time TOP.RSTCAUSE_MGT) ∧
        gives (.activateFirmware via false) ((d.mctpReply via 1 [5, 0x1A, 0]).wr MGT.FWUPD_STATE 0 0))) ∧
    (d.warming = true → (∀ l < 2, d.linkPresent l = true → d.ready (38 + l) = true) → gives .warmResetComplete ((finished.bump TOP.WARMCNT_COUNT).raise s.time (ev 1 3))) ∧
    (d.warming = false → gives .warmResetComplete d) ∧
    (d.ready bit = false → d.rdBit TOP.FAILED_BITS 0 bit = false → d.hasFunction bit = true →
      (d.needsMet bit = true → bit.val ≠ 33 ∨ cores ≠ 0 → gives (.readyBitSet bit cores) (ready.raise s.time (ev 1 0) bit)) ∧
      (d.needsMet bit = false → gives (.readyBitSet bit cores) d) ∧
      (bit.val ≠ 36 → gives (.selfTestFail bit sms) failed) ∧
      (bit.val = 36 → sms.toNat / 2 ≠ 0 → gives (.selfTestFail bit sms) (((failed.wr DKW.SMSTAT_FAILED 0 (sms.toNat / 2)).raise s.time (ev 0 24)
        (2 * (sms.toNat / 2))).assertFault s.time)))

/-! ## Management (chapter 20) -/

/-- R522 to R526: the sideband. While the controller serves, NC-SI commands of the list act on their channel and are answered and others refused with
EVT 1.21; a pass-through frame is dropped and counted while its channel is off; MCTP, PLDM and vendor requests are answered; a snapshot
is latched on request and when its period has run, and read by blocks. -/
def Obligations.SidebandResults : Prop :=
  ∀ (s : State) (n : Fin 16) (byte : BitVec 8) (frame : List Byte) (via : Via) (rs : Readings) (pf : Pf) (set : Fin 2) (block : Nat),
    let d := s.dev
    let gives := fun (i : Instr) (y : Dev) => exec i s = .next { s with dev := y }
    let ch : Fin 32 := ⟨n.val, by omega⟩
    let sel : Dev := { d with mgt := { d.mgt with pkgSel := true } }
    let c := d.ncsi n
    let restarted : Dev := { d with mgt := { d.mgt with periodAt := d.eng.tclks } }
    let reading := fun (on : Bool) => ({ d with mgt := { d.mgt with reading := if on then some set.val else none } } : Dev).wr MGT.SNAPSTAT_READING 0 (bitNat on)
    gives .sidebandLost ((d.bump MGT.SIDEBAND_LOST).raise s.time (ev 1 20)) ∧
    (d.mgtServes = false → gives (.ncsiCommand ch (.other byte)) d ∧ gives (.ncsiPassthrough n frame) d ∧ gives (.snapshotPeriod rs) d ∧
      gives (.snapreq pf rs) (d.bump TOP.NOTREADY_COUNT)) ∧
    (d.mgtServes = true →
      gives (.ncsiCommand ch (.other byte)) ((d.mgtRefuse s.time).ncsiReply n (.other byte) 3 0x7FFF) ∧
      gives (.ncsiCommand ch .selectPackage) (sel.ncsiReply n .selectPackage 0 0) ∧
      gives (.ncsiCommand ch .clearInitial) ((sel.setNcsi n { c with init := true }).ncsiReply n .clearInitial 0 0) ∧
      (c.init = false → gives (.ncsiCommand ch .enableTx) (sel.ncsiReply n .enableTx 1 1)) ∧
      (c.init = true →
        gives (.ncsiCommand ch .enableTx) ((sel.setNcsi n { c with enTx := true }).ncsiReply n .enableTx 0 0) ∧
        gives (.ncsiCommand ch .disableChannel) ((sel.setNcsi n { c with enCh := false }).ncsiReply n .disableChannel 0 0) ∧
        gives (.ncsiCommand ch .getLink) (sel.ncsiReply n .getLink 0 0 [d.rd PRT.STATUS_LINK n, d.rd PRT.STATUS_SPEED n]) ∧
        gives (.ncsiCommand ch .resetChannel) ((sel.setNcsi n {}).ncsiReply n .resetChannel 0 0)) ∧
      (frame ≠ [] → (d.rd MGT.NCSIQ_EN n = 0 ∨ c.enTx = false) → gives (.ncsiPassthrough n frame) (d.bump PRT.TXDISCARD_COUNT n)) ∧
      gives (.snapreq pf rs) (d.snapshot s.time rs) ∧
      (d.rd MGT.TELCFG_PERIOD = 0 → gives (.snapshotPeriod rs) d) ∧
      (d.rd MGT.TELCFG_PERIOD ≠ 0 → d.mgt.periodAt + d.rd MGT.TELCFG_PERIOD * 1000000 ≤ d.eng.tclks →
        gives (.snapshotPeriod rs) (restarted.snapshot s.time rs))) ∧
    (d.dkw.mgtDown = false → d.viaUp via = true →
      (d.inRecovery = true → gives (.mctpMessage via .getEid) (d.mgtRefuse s.time) ∧ gives (.pldmRequest via .getTid) (d.mgtRefuse s.time)) ∧
      (d.inRecovery = false → d.ready 37 = true →
        gives (.mctpMessage via .getEid) (d.mctpReply via 0 [2, 0, d.rd MGT.SIDEBAND_EID]) ∧
        (8 ≤ byte.toNat → byte.toNat < 255 → gives (.mctpMessage via (.setEid byte))
          ((d.wr MGT.SIDEBAND_EID 0 byte.toNat).mctpReply via 0 [1, 0, byte.toNat])) ∧
        gives (.mctpMessage via .tooLong) (d.mgtRefuse s.time) ∧
        gives (.pldmRequest via .getTid) (d.mctpReply via 1 [0, 2, 0, d.mgt.tid]) ∧
        gives (.vendorSnapshotRequest via rs) ((d.snapshot s.time rs).mctpReply via 0x7E [2, 0]) ∧
        (block < 1365 → gives (.vendorSnapshotRead via set block) ((reading true).mctpReply via 0x7E ([3, 0] ++ d.snapBlock set block))) ∧
        (block = 1365 → gives (.vendorSnapshotRead via set block) ((reading false).mctpReply via 0x7E ([3, 0] ++ d.snapBlock set block))) ∧
        (1366 ≤ block → gives (.vendorSnapshotRead via set block) ((d.mgtRefuse s.time).mctpReply via 0x7E [3, 2]))))

/-- R527, R528, R537 to R539: shares, updates, OTP. A window of 1 ms that has run shows its loads and judges its shares; an update starts, is verified, and is applied
with EVT 1.16, or ends with EVT 1.17; PF 0 programs the user OTP once. -/
def Obligations.UpdateResults : Prop :=
  ∀ (s : State) (a b c : ShareUse) (busy : Fin 101) (via : Via) (components : Nat) (x : FwReceived) (y : FwImage) (err : Nat),
    let d := s.dev
    let gives := fun (i : Instr) (y : Dev) => exec i s = .next { s with dev := y }
    let want := (d.rd MGT.CCSHARE_MBOX, d.rd MGT.CCSHARE_LEARN, d.rd MGT.CCSHARE_EXC)
    let share := d.mgt.shares.getD want
    let loads := (((d.wr MGT.CCLOAD_MBOX 0 a.got).wr MGT.CCLOAD_LEARN 0 b.got).wr MGT.CCLOAD_EXC 0 c.got).wr MGT.CCLOAD_BUSY 0 busy
    let judged := ((loads.judgeShare s.time MGT.CCSAT_MBOX 0 share.1 a).judgeShare s.time MGT.CCSAT_LEARN 1 share.2.1 b).judgeShare s.time MGT.CCSAT_EXC 2 share.2.2 c
    let next : Dev := { judged with mgt := { judged.mgt with shares := some want, windowAt := d.eng.tclks } }
    let idle : Dev := { d with mgt := { d.mgt with update := none } }
    let started := (((idle.wr MGT.FWUPD_STATE 0 1).wr MGT.FWUPD_SLOT 0 d.updateSlot).wr MGT.FWUPD_SOURCE 0 via).wr MGT.FWUPD_ERR 0 0
    let read := d.wr MGT.FWUPD_BYTES 0 (min x.bytes (2 ^ 32 - 1))
    let image : FwImage := { good := x.good, version := x.version.toNat, content := x.content }
    let held : Dev := { read with mgt := { read.mgt with update := some image } }
    let written := fun (ok : Bool) => ({ d with mgt := { d.mgt with update := none, flash := Tbl.insert d.mgt.flash (d.rd MGT.FWUPD_SLOT) { y with good := y.good && ok } } } : Dev)
    let otp : Dev := { d with mgt := { d.mgt with otp := some (d.rd MGT.OTPSTG_BIFMODE, d.rd MGT.OTPSTG_CXLEN, d.rd MGT.OTPSTG_SMBADDR) } }
    (d.mgt.windowAt + 1000000 ≤ d.eng.tclks → gives (.shareWindow a b c busy) next) ∧
    (d.eng.tclks < d.mgt.windowAt + 1000000 → gives (.shareWindow a b c busy) d) ∧
    (d.dkw.mgtDown = true → gives (.requestUpdate via components) d ∧ gives (.verifyComplete x) d) ∧
    (d.dkw.mgtDown = false → d.viaUp via = true → d.ready 37 = true →
      (components ≠ 1 → gives (.requestUpdate via components) ((d.mgtRefuse s.time).mctpReply via 1 [5, 0x10, 2])) ∧
      (1 ≤ d.rd MGT.FWUPD_STATE → d.rd MGT.FWUPD_STATE ≤ 4 → gives (.requestUpdate via 1) (d.mctpReply via 1 [5, 0x10, 0x81])) ∧
      (d.rd MGT.FWUPD_STATE = 0 → gives (.requestUpdate via 1) ((started.wr MGT.FWUPD_BYTES 0 0).mctpReply via 1 [5, 0x10, 0]))) ∧
    (d.dkw.mgtDown = false → d.rd MGT.FWUPD_STATE = 1 →
      (d.imageError x = some err → gives (.verifyComplete x) (((read.wr MGT.FWUPD_STATE 0 5).wr MGT.FWUPD_ERR 0 err).raise s.time (ev 1 17))) ∧
      (d.imageError x = none → gives (.verifyComplete x) (held.wr MGT.FWUPD_STATE 0 3))) ∧
    (d.mgt.update = some y → d.dkw.mgtDown = false → d.rd MGT.FWUPD_STATE = 3 →
      gives (.applyComplete true) (((written true).wr MGT.FWUPD_STATE 0 4).raise s.time (ev 1 16)) ∧
      gives (.applyComplete false) (((written false).wr MGT.FWUPD_STATE 0 5).wr MGT.FWUPD_ERR 0 4)) ∧
    (d.mgt.update = none → gives (.applyComplete true) d) ∧
    gives (.otpProg 1) d ∧
    (d.mgtServes = false → gives (.otpProg 0) (d.bump TOP.NOTREADY_COUNT)) ∧
    (d.mgtServes = true →
      (d.rd MGT.OTPSTG_PROGRAMMED = 0 → gives (.otpProg 0) (otp.wr MGT.OTPSTG_PROGRAMMED 0 1)) ∧
      (d.rd MGT.OTPSTG_PROGRAMMED = 1 → gives (.otpProg 0) (d.raiseSec s.time (ev 1 21) 0)))

/-- R532 to R536: the module bus. A stuck segment is clocked free with EVT 1.15 or opened with EVT 1.14; the probe and the retries look at lines again;
a change of a presence ball is latched, a scan begins on command or when SCANMS has run, and 10 ms later gives its result where nothing
changed; a module that answers is ready, one that has not answered 2 s after its scan is in state 3h. -/
def Obligations.ModuleBusResults : Prop :=
  ∀ (s : State) (seg : Fin 32) (line : SdaLine) (lines : List SdaLine) (cage : Fin 16) (present : Bool),
    let d := s.dev
    let gives := fun (i : Instr) (y : Dev) => exec i s = .next { s with dev := y }
    let latched := (d.wrBit MBS.PRSNOW_LEVEL 0 cage present).wrBit MBS.PRSLATCH_CHG 0 cage true
    let scan := fun (n : Nat) => ({ d with mgt := { d.mgt with scan1 := some (d.rd MBS.PRSNOW_LEVEL), rescans := n, settleAt := d.eng.tclks } } : Dev)
    let still := ((List.range 32).filter (fun k => decide (d.rd MBS.SEGCTL_OPEN k = 1))).map (fun k => 2 ^ k)
    (d.busServes = true → d.rd MBS.SEGCTL_OPEN seg = 0 →
      gives (.busStuck seg .clocked) (((d.bump MBS.SEGCTL_RECOV seg).bump MBS.RECOV_COUNT).raise s.time (ev 1 15) seg) ∧
      gives (.busStuck seg (.stuck false)) (((((d.wr MBS.SEGCTL_OPEN seg 1).wrBit MBS.STATUS_STUCK 0 seg true).bump MBS.RECOV_STUCKS).raise
        s.time (ev 1 14) seg).showCages) ∧
      gives (.segmentRetry 0 seg line) d) ∧
    (d.busServes = false → gives (.busStuck seg line) d ∧ gives (.moduleBusProbe true lines) d ∧ gives (.modulePoll cage .silent) d) ∧
    (d.busServes = true → gives (.moduleBusProbe true lines) (((d.wr MBS.STATUS_TRUNK 0 1).wr MBS.STATUS_STUCK 0 (2 ^ 32 - 1)).showCages)) ∧
    gives (.mbsRetry 1 false) d ∧ gives (.segmentRetry 1 seg line) d ∧
    (d.mgtServes = true → d.rd MBS.STATUS_TRUNK = 1 →
      gives (.mbsRetry 0 true) d ∧
      gives (.mbsRetry 0 false) (((d.wr MBS.STATUS_TRUNK 0 0).wr MBS.STATUS_STUCK 0 still.sum).showCages)) ∧
    (d.busServes = true → d.rd MBS.SEGCTL_OPEN seg = 1 → gives (.segmentRetry 0 seg line)
      ((((d.wr MBS.SEGCTL_OPEN seg 0).wrBit MBS.STATUS_STUCK 0 seg false).showCages).recoverSegment s.time seg line)) ∧
    (d.rdBit MBS.PRSNOW_LEVEL 0 cage = present → gives (.presenceChange cage present) d) ∧
    (d.rdBit MBS.PRSNOW_LEVEL 0 cage ≠ present → gives (.presenceChange cage present) latched) ∧
    gives (.presenceScan (some 1)) d ∧
    (d.mgtServes = true → d.mgt.scan1 = none →
      (d.scanDue = true → let begun := scan 0
        gives (.presenceScan none) ((({ begun with mgt := { begun.mgt with scanAt := d.eng.tclks } } : Dev).wr MBS.PRSLATCH_CHG 0 0).wr MBS.SCAN_ATTEMPTS 0 0)) ∧
      (d.scanDue = false → gives (.presenceScan none) d) ∧
      gives (.presenceScan (some 0)) (((scan 0).wr MBS.PRSLATCH_CHG 0 0).wr MBS.SCAN_ATTEMPTS 0 0)) ∧
    (d.mgt.scan1 = none → gives .scanSettle d) ∧
    (d.eng.tclks < d.mgt.settleAt + 10000000 → gives .scanSettle d) ∧
    (d.mgtServes = true → d.mgt.scan1 ≠ none → d.mgt.settleAt + 10000000 ≤ d.eng.tclks →
      (d.rd MBS.PRSLATCH_CHG = 0 → gives .scanSettle (d.scanResult s.time (d.rd MBS.PRSNOW_LEVEL))) ∧
      (d.rd MBS.PRSLATCH_CHG ≠ 0 → d.mgt.rescans < 3 → gives .scanSettle ((d.wr MBS.SCAN_CDS 0 1).scanStart (d.mgt.rescans + 1)))) ∧
    (d.busServes = true → d.rd MBS.CAGE_EN cage ≠ 0 → 1 ≤ d.rd MBS.CAGE_STATE cage → d.rd MBS.CAGE_STATE cage < 4 →
      (d.rd MBS.CAGE_STATE cage = 1 → look 0 d.mgt.stableAt cage + 2000000000 ≤ d.eng.tclks → gives (.modulePoll cage .silent) (d.setCage cage 3)) ∧
      (d.rd MBS.CAGE_STATE cage = 1 → d.eng.tclks < look 0 d.mgt.stableAt cage + 2000000000 → gives (.modulePoll cage .silent) d) ∧
      (d.rd MBS.CAGE_STATE cage ≠ 1 → gives (.modulePoll cage .silent) d) ∧
      gives (.modulePoll cage .answers) ((d.setCage cage 2).send (.message 13 [cage.val, 1 - d.rd PRT.CTL_EN (d.rd MBS.CAGE_PORT cage),
        look 0 d.mac.mode (d.rd MBS.CAGE_PORT cage / 4)])))

/-! ## Registers (00_scope, chapters 3, 15, 17, 23) -/

/-- R11, R12, R15, R86, R402, R466, R502, R564 to R567: register accesses. A write and a read of 4 or 8 bytes of a PF reach the register, are refused with UR where
nothing answers, and are discarded and counted where the block is not ready; a write that arrives poisoned, with a wrong ECRC or malformed is dropped and logged; a control core reads and writes device registers; a request
for tables is served and answered, with a free result byte. -/
def Obligations.RegisterResults : Prop :=
  ∀ (s : State) (fn : Fn) (bar : Bar) (off : Fin 268435456) (len : Nat) (data : Word) (width : Width) (x : CtxId) (rd ra : Reg) (imm : BitVec 11) (o : Nat)
    (pf : Pf) (req : TableReq),
    let d := s.dev
    let gives := fun (i : Instr) (y : Dev) => exec i s = .next { s with dev := y }
    let r := d.busRead s.time (some fn.val) (off / 8 * 8) (off % 8 * 8) (8 * len)
    let c := d.ctx x
    let io := d.busRead s.time none o 0 64
    let told := fun (y : Dev) => y.drawn.answer (4096 * pf.val) 4 (leBytes 1 y.freeVal.toNat)
    (gives (.registerWrite fn bar off width data .poisoned) (d.aerLog fn .poisoned) ∧ gives (.registerWrite fn bar off width data .ecrc) (d.aerLog fn .ecrc) ∧
      gives (.registerWrite fn bar off width data .malformed) ((d.aerLog fn .malformed).raise s.time (ev 15 6) (linkOf fn))) ∧
    (d.answersAt fn bar off = false → gives (.registerWrite fn bar off width data .good) (d.urAnswer s.time fn) ∧ gives (.readClear fn bar off len) (d.urAnswer s.time fn)) ∧
    (d.answersAt fn .bar0 off = true → fn.val % 4096 = 0 → isDoorbell off = false →
      ((blockAt off).isSome = true → d.blockReady off = true →
        (off.val % 8 = 0 → gives (.registerWrite fn .bar0 off .w8 data .good) (d.busWrite s.time (some fn.val) (off / 8 * 8) (off % 8 * 8) 64 data.toNat)) ∧
        (off.val % 4 = 0 → gives (.registerWrite fn .bar0 off .w4 data .good) (d.busWrite s.time (some fn.val) (off / 8 * 8) (off % 8 * 8) 32 (data.toNat % 2 ^ 32))) ∧
        (1 ≤ len → off.val % 8 + len ≤ 8 → gives (.readClear fn .bar0 off len)
          (r.1.send (.readData fn (BitVec.ofNat 64 (bitsOf r.2 (off % 8 * 8) (8 * len)))))) ∧
        (8 < off.val % 8 + len → gives (.readClear fn .bar0 off len) (d.urAnswer s.time fn))) ∧
      ((blockAt off).isSome = true → d.blockReady off = false → off.val % 8 = 0 → gives (.registerWrite fn .bar0 off .w8 data .good) (d.bump TOP.NOTREADY_COUNT)) ∧
      (blockAt off = none → gives (.registerWrite fn .bar0 off .w8 data .good) (d.urAnswer s.time fn))) ∧
    (d.issues x { regs := [rd.val, ra.val] } = true → isCore x = true →
      (ioOffset c ra imm = none → gives (.ior x rd ra imm) (d.fault x faultAddress) ∧ gives (.iow x rd ra imm) (d.fault x faultAddress)) ∧
      (ioOffset c ra imm = some o →
        gives (.ior x rd ra imm) (io.1.setCtx x (c.wg rd (BitVec.ofNat 64 io.2)).next) ∧
        gives (.iow x rd ra imm) ((d.busWrite s.time none o 0 64 (c.rg rd).toNat).setCtx x c.next))) ∧
    (d.answerRoom (4096 * pf.val) = false → gives (.tablesRequest pf req true) d) ∧
    (d.answerRoom (4096 * pf.val) = true →
      gives (.tablesRequest pf req true) (told (d.serveTables s.time req)) ∧ gives (.tablesRequest pf req false) (told d))
/-! ## The block as a whole -/

/-- A step takes the command at the front of the queue and runs it with the queue's rest; with an empty queue one TCLK of network time
passes (DESIGN CHOICE, log entry 3). -/
def Obligations.StepRunsFront : Prop :=
  (∀ (c : Instr) (rest : List Instr) (s : State), s.pending = c :: rest → step s = exec c { s with pending := rest }) ∧
  (∀ s : State, s.pending = [] → step s = .next s.tick)

/-- Every command of the table, in every state and with every operand, has an effect: it answers a next state, and leaves the queue
as it found it. -/
def Obligations.EveryCommandRuns : Prop := ∀ (c : Instr) (s : State), ∃ t, exec c s = .next t ∧ t.pending = s.pending

/-- R311, R312, R504, R568: network time runs by itself. No command but SET, STEP, the second's boundary, power-on and power-down changes it;
a warm reset and an FLR leave it as it is. -/
def Obligations.TimeRunsOn : Prop := ∀ (c : Instr) (s t : State), exec c s = .next t → MovesTime c = false → t.time = s.time

/-- R10: network time has 48 bits of seconds, nanoseconds from 0 to 999,999,999, and its timestamps a 16-bit fraction. From every state where it
is so, every step leaves it so. -/
def Obligations.NetworkTimeStaysLegal : Prop :=
  ∀ s t : State, LegalTime s.time → step s = .next t →
    LegalTime t.time ∧ t.time.sec < 2 ^ 48 ∧ t.time.ns ≤ 999999999 ∧ t.time.ns < 2 ^ 32 ∧ t.time.frac16 < 2 ^ 16

/-- R311: network time never falls back. Whatever a step runs but SET, STEP, power-on and power-down, the time after it is not before
the time before it, short of the end of its range; a step that runs no command adds exactly what a TCLK adds, the rate trim included. -/
def Obligations.NetworkTimeNeverFallsBack : Prop :=
  ∀ s t : State, LegalTime s.time → s.time.sec + 1 < 2 ^ 48 →
    (∀ c rest, s.pending = c :: rest → MovesTime c = false ∨ c = .secondBoundary) → step s = .next t →
    timeUnits s.time ≤ timeUnits t.time ∧ LegalTime t.time ∧
    (s.pending = [] → timeUnits t.time = timeUnits s.time + s.dev.tclkStep ∧ timeUnits s.time < timeUnits t.time)

/-- R17: the state after reset. Every field of the map holds its value of column Cold, nothing waits, network time is zero and legal, no memory
byte is listed. What OTP and the battery domain hold then is the model's (DESIGN CHOICE, log entries 1 and 2). -/
def Obligations.ResetState : Prop :=
  (∀ f ∈ allFields, ∀ i, State.reset.dev.rd f i = f.coldValue i) ∧ State.reset.pending = [] ∧
  State.reset.time = { sec := 0, ns := 0, frac := 0 } ∧ LegalTime State.reset.time ∧ Memory.wf State.reset.dev.eng.coh.mem = true

/-- R11, R12: the register store. A field instance reads as written, cut to its width; every other field of the map and every other instance
reads as before; bytes and numbers are little-endian. -/
def Obligations.RegisterStore : Prop :=
  (∀ (d : Dev) (f : Fld) (i v : Nat), (d.wr f i v).rd f i = v % 2 ^ f.w) ∧
  (∀ (d : Dev) (f g : Fld) (i j v : Nat), f ∈ allFields → g ∈ allFields → f.id ≠ g.id ∨ i ≠ j → (d.wr f i v).rd g j = d.rd g j) ∧
  (∀ f ∈ allFields, ∀ g ∈ allFields, f.id = g.id → f = g) ∧
  (∀ n v : Nat, leNat (leBytes n v) = v % 256 ^ n) ∧
  (∀ (n v i : Nat), i < n → (leBytes n v).getD i 0 = BitVec.ofNat 8 (v / 256 ^ i))

/-- R16: a counter stops at its largest value and never wraps, and one that is cleared starts again from zero. -/
def Obligations.CountersSaturate : Prop :=
  ∀ (d : Dev) (f : Fld) (i n : Nat), d.rd f i ≤ 2 ^ f.w - 1 →
    (d.bump f i n).rd f i = min (d.rd f i + n) (2 ^ f.w - 1) ∧ d.rd f i ≤ (d.bump f i n).rd f i ∧
    (d.rd f i = 2 ^ f.w - 1 → (d.bump f i n).rd f i = 2 ^ f.w - 1) ∧ (d.wr f i 0).rd f i = 0 ∧
    ((d.wr f i 0).bump f i n).rd f i = min n (2 ^ f.w - 1)

/-- R75: the call stack has four entries. CALL pushes the next word and leaves the loop stack, so a loop of the function is the second
level; RET pops it and goes there, and leaves the loop stack unless the CALL ended a loop's body; a fifth CALL, and a RET on an empty
stack, raise a stack fault. -/
def Obligations.CallStack : Prop :=
  ∀ (s : State) (x : CtxId) (fidx : BitVec 8) (f : Nat × Nat), isCore x = false → s.dev.issues x {} = true →
    let c := s.dev.ctx x
    let faults := fun (i : Instr) => exec i s = .next { s with dev := s.dev.fault x faultStack }
    (s.dev.imageOf x).ftab[fidx.toNat]? = some f →
    (4 ≤ c.calls.length → faults (.call x fidx)) ∧ (c.calls = [] → faults (.ret x)) ∧
    (c.calls.length < 4 → ∃ c', exec (.call x fidx) s = .next { s with dev := s.dev.setCtx x c' } ∧
      c'.calls = (c.pc + 1) :: c.calls ∧ c'.calls.length ≤ 4 ∧ c'.loops = c.loops ∧ c'.pc = f.1) ∧
    (∀ r rs, c.calls = r :: rs → ∃ c', exec (.ret x) s = .next { s with dev := s.dev.setCtx x c' } ∧ c'.calls = rs ∧
      (0 < r → r < 2 ^ 18 → (∀ l ls, c.loops = l :: ls → l.last ≠ r - 1) → c'.pc = r ∧ c'.loops = c.loops))

/-- R37, R71: stores. A scratch store of an engine writes its bytes, little-endian, and leaves every other byte of the scratch, every other
context, the coherent memory and every register of the map as they were; a store and a load to the atomic region change no byte until
the home slice takes them; a write to memory changes its own bytes alone and keeps the canonical form. -/
def Obligations.StoreFrame : Prop :=
  (∀ (s : State) (x : CtxId) (rs ra : Reg) (sz : Fin 4) (imm : BitVec 11),
    let c := s.dev.ctx x
    let n := szBytes sz
    let o := memOffset (c.rg ra) imm
    isCore x = false → s.dev.issues x { regs := [rs.val, ra.val], scratch := (o, n) } = true → o + n ≤ 0x2000 → o % n = 0 →
    ∃ t, exec (.st x rs ra 0 sz imm .good) s = .next t ∧ (t.dev.ctx x).scrBytes o n = leBytes n (c.rg rs).toNat ∧
      (∀ p, p < 0x2000 → p < o ∨ o + n ≤ p → (t.dev.ctx x).scrByte p = c.scrByte p) ∧
      (∀ y, y ≠ x.val → t.dev.ctx y = s.dev.ctx y) ∧ t.dev.eng.coh = s.dev.eng.coh ∧ t.dev.regs = s.dev.regs ∧
      (t.dev.ctx x).g = c.g ∧ (t.dev.ctx x).p = c.p) ∧
  (∀ (s t : State) (x : CtxId) (rs ra : Reg) (sz : Fin 4) (imm : BitVec 11) (a : Nat),
    s.dev.atomAddr (memOffset ((s.dev.ctx x).rg ra) imm) (szBytes sz) = some a →
    exec (.st x rs ra 2 sz imm .good) s = .next t → ∀ b, t.dev.eng.coh.byte b = s.dev.eng.coh.byte b) ∧
  (∀ (m : Coh) (a b : Nat) (bs : List Byte), (b < a ∨ a + bs.length ≤ b → (m.write a bs).byte b = m.byte b) ∧
    (∀ i, i < bs.length → (m.write a bs).byte (a + i) = bs.getD i 0) ∧ (Memory.wf m.mem = true → Memory.wf (m.write a bs).mem = true))

/-- R430, R433: rings of other functions. Whatever value a function writes to a doorbell, no ring that is not its own changes. -/
def Obligations.DoorbellIsolation : Prop :=
  ∀ (s t : State) (fn : Fn) (slot : Nat) (v : Word) (kind : Fin 3) (n : Fin 262144) (c : Instr),
    s.dev.ownsRing fn kind n = false →
    c ∈ [.submissionTailDoorbell fn slot v, .receiveTailDoorbell fn slot v, .completionHeadDoorbell fn slot v] →
    exec c s = .next t → t.dev.ring kind n = s.dev.ring kind n

/-- R57: no state is shared between contexts. An instruction of one context that computes in its registers leaves every other context, the
coherent memory, every register of the map and what the device sends as they were, whether it issues, waits or its context is not running
(the word at the context's pc assigned: an unassigned word is an illegal instruction). -/
def Obligations.EngineFrame : Prop :=
  ∀ (s t : State) (x : CtxId) (rd ra rb : Reg) (imm : BitVec 16) (sh pos len1 : Fin 64) (h : Fin 4) (pd pa pb : Pred) (tt : BitVec 4) (cond : Cond)
    (imm15 : BitVec 15) (c : Instr),
    c ∈ [.add x rd ra rb, .sub x rd ra rb, .and x rd ra rb, .or x rd ra rb, .xor x rd ra rb, .andn x rd ra rb, .shl x rd ra rb, .shr x rd ra rb,
      .sar x rd ra rb, .rol x rd ra rb, .minu x rd ra rb, .maxu x rd ra rb, .mul x rd ra rb, .mulhu x rd ra rb, .crc x rd ra rb, .clz x rd ra,
      .popc x rd ra, .bswap x rd ra, .addi x rd ra imm, .andi x rd ra imm, .ori x rd ra imm, .xori x rd ra imm, .shli x rd ra sh, .shri x rd ra sh,
      .sari x rd ra sh, .movi x rd imm, .movk x rd h imm, .ext x rd ra pos len1, .ins x rd ra pos len1, .sel x rd ra rb pa, .cmp x pd cond ra rb,
      .cmpi x pd cond ra imm15, .plog x pd pa pb tt] →
    s.dev.unassigned x = false → exec c s = .next t →
    (∀ y, y ≠ x.val → t.dev.ctx y = s.dev.ctx y) ∧ t.dev.eng.coh = s.dev.eng.coh ∧ t.dev.regs = s.dev.regs ∧ t.dev.out = s.dev.out ∧
    (∀ r, r ≠ rd.val → (t.dev.ctx x).rg r = (s.dev.ctx x).rg r) ∧ (t.dev.ctx x).rg 0 = 0 ∧ (t.dev.ctx x).scratch = (s.dev.ctx x).scratch ∧
    (t.dev.ctx x).calls = (s.dev.ctx x).calls ∧ (t.dev.ctx x).hdr = (s.dev.ctx x).hdr
end

