-- ==== Sys2Proof/Laws/Dispatch.lean ====
section
/-! SUPPORT. What `exec` is at each command: the command's meaning. -/

namespace Sys2Proof.Laws

open Sys2Proof.Machine

@[simp] theorem exec_registerWrite (fn : Fn) (bar : Bar) (off : Fin 268435456) (width : Width) (data : Word) (tlp : TlpCheck) (s : State) : exec (.registerWrite fn bar off width data tlp) s = execRegisterWrite fn bar off width data tlp s := rfl
@[simp] theorem exec_readClear (fn : Fn) (bar : Bar) (off : Fin 268435456) (len : Nat) (s : State) : exec (.readClear fn bar off len) s = execReadClear fn bar off len s := rfl
@[simp] theorem exec_secondBoundary (s : State) : exec (.secondBoundary) s = execSecondBoundary s := rfl
@[simp] theorem exec_frameReceive (port : Fin 16) (a : Arrival) (f1 f2 : AcsFind) (ecc : FrameEcc) (s : State) : exec (.frameReceive port a f1 f2 ecc) s = execFrameReceive port a f1 f2 ecc s := rfl
@[simp] theorem exec_homeSliceTake (slice : Fin 24) (ecc : Ecc) (s : State) : exec (.homeSliceTake slice ecc) s = execHomeSliceTake slice ecc s := rfl
@[simp] theorem exec_dataGrant (who : Fin 204) (line : Nat) (ecc : Ecc) (s : State) : exec (.dataGrant who line ecc) s = execDataGrant who line ecc s := rfl
@[simp] theorem exec_snoop (who : Fin 204) (line : Nat) (kind : SnoopKind) (s : State) : exec (.snoop who line kind) s = execSnoop who line kind s := rfl
@[simp] theorem exec_storeReloadDone (bay : Fin 12) (s : State) : exec (.storeReloadDone bay) s = execStoreReloadDone bay s := rfl
@[simp] theorem exec_contextWatchdog (x : Fin 1536) (bad : List Nat) (s : State) : exec (.contextWatchdog x bad) s = execContextWatchdog x bad s := rfl
@[simp] theorem exec_stallWatchdog (n : Fin 192) (bad : List Nat) (s : State) : exec (.stallWatchdog n bad) s = execStallWatchdog n bad s := rfl
@[simp] theorem exec_retest (n : Fin 192) (s : State) : exec (.retest n) s = execRetest n s := rfl
@[simp] theorem exec_retestDone (n : Fin 192) (pass : Bool) (s : State) : exec (.retestDone n pass) s = execRetestDone n pass s := rfl
@[simp] theorem exec_engineWithdraw (n : Fin 192) (s : State) : exec (.engineWithdraw n) s = execEngineWithdraw n s := rfl
@[simp] theorem exec_withdrawDone (n : Fin 192) (s : State) : exec (.withdrawDone n) s = execWithdrawDone n s := rfl
@[simp] theorem exec_engineOnline (n : Fin 192) (s : State) : exec (.engineOnline n) s = execEngineOnline n s := rfl
@[simp] theorem exec_engCommit (s : State) : exec (.engCommit) s = execEngCommit s := rfl
@[simp] theorem exec_taskDue (bay : Fin 12) (entry : Fin 4096) (s : State) : exec (.taskDue bay entry) s = execTaskDue bay entry s := rfl
@[simp] theorem exec_taskStart (bay : Fin 12) (s : State) : exec (.taskStart bay) s = execTaskStart bay s := rfl
@[simp] theorem exec_resultArrival (x : CtxId) (k : Tick) (race : CancelRace) (s : State) : exec (.resultArrival x k race) s = execResultArrival x k race s := rfl
@[simp] theorem exec_deferredTermination (x : CtxId) (s : State) : exec (.deferredTermination x) s = execDeferredTermination x s := rfl
@[simp] theorem exec_interruptTrap (core : Fin 12) (s : State) : exec (.interruptTrap core) s = execInterruptTrap core s := rfl
@[simp] theorem exec_add (x : CtxId) (rd ra rb : Reg) (s : State) : exec (.add x rd ra rb) s = execAdd x rd ra rb s := rfl
@[simp] theorem exec_sub (x : CtxId) (rd ra rb : Reg) (s : State) : exec (.sub x rd ra rb) s = execSub x rd ra rb s := rfl
@[simp] theorem exec_and (x : CtxId) (rd ra rb : Reg) (s : State) : exec (.and x rd ra rb) s = execAnd x rd ra rb s := rfl
@[simp] theorem exec_or (x : CtxId) (rd ra rb : Reg) (s : State) : exec (.or x rd ra rb) s = execOr x rd ra rb s := rfl
@[simp] theorem exec_xor (x : CtxId) (rd ra rb : Reg) (s : State) : exec (.xor x rd ra rb) s = execXor x rd ra rb s := rfl
@[simp] theorem exec_andn (x : CtxId) (rd ra rb : Reg) (s : State) : exec (.andn x rd ra rb) s = execAndn x rd ra rb s := rfl
@[simp] theorem exec_shl (x : CtxId) (rd ra rb : Reg) (s : State) : exec (.shl x rd ra rb) s = execShl x rd ra rb s := rfl
@[simp] theorem exec_shr (x : CtxId) (rd ra rb : Reg) (s : State) : exec (.shr x rd ra rb) s = execShr x rd ra rb s := rfl
@[simp] theorem exec_sar (x : CtxId) (rd ra rb : Reg) (s : State) : exec (.sar x rd ra rb) s = execSar x rd ra rb s := rfl
@[simp] theorem exec_rol (x : CtxId) (rd ra rb : Reg) (s : State) : exec (.rol x rd ra rb) s = execRol x rd ra rb s := rfl
@[simp] theorem exec_minu (x : CtxId) (rd ra rb : Reg) (s : State) : exec (.minu x rd ra rb) s = execMinu x rd ra rb s := rfl
@[simp] theorem exec_maxu (x : CtxId) (rd ra rb : Reg) (s : State) : exec (.maxu x rd ra rb) s = execMaxu x rd ra rb s := rfl
@[simp] theorem exec_mul (x : CtxId) (rd ra rb : Reg) (s : State) : exec (.mul x rd ra rb) s = execMul x rd ra rb s := rfl
@[simp] theorem exec_mulhu (x : CtxId) (rd ra rb : Reg) (s : State) : exec (.mulhu x rd ra rb) s = execMulhu x rd ra rb s := rfl
@[simp] theorem exec_clz (x : CtxId) (rd ra : Reg) (s : State) : exec (.clz x rd ra) s = execClz x rd ra s := rfl
@[simp] theorem exec_popc (x : CtxId) (rd ra : Reg) (s : State) : exec (.popc x rd ra) s = execPopc x rd ra s := rfl
@[simp] theorem exec_bswap (x : CtxId) (rd ra : Reg) (s : State) : exec (.bswap x rd ra) s = execBswap x rd ra s := rfl
@[simp] theorem exec_divu (x : CtxId) (rd ra rb : Reg) (s : State) : exec (.divu x rd ra rb) s = execDivu x rd ra rb s := rfl
@[simp] theorem exec_remu (x : CtxId) (rd ra rb : Reg) (s : State) : exec (.remu x rd ra rb) s = execRemu x rd ra rb s := rfl
@[simp] theorem exec_addi (x : CtxId) (rd ra : Reg) (imm : BitVec 16) (s : State) : exec (.addi x rd ra imm) s = execAddi x rd ra imm s := rfl
@[simp] theorem exec_andi (x : CtxId) (rd ra : Reg) (imm : BitVec 16) (s : State) : exec (.andi x rd ra imm) s = execAndi x rd ra imm s := rfl
@[simp] theorem exec_ori (x : CtxId) (rd ra : Reg) (imm : BitVec 16) (s : State) : exec (.ori x rd ra imm) s = execOri x rd ra imm s := rfl
@[simp] theorem exec_xori (x : CtxId) (rd ra : Reg) (imm : BitVec 16) (s : State) : exec (.xori x rd ra imm) s = execXori x rd ra imm s := rfl
@[simp] theorem exec_shli (x : CtxId) (rd ra : Reg) (sh : Fin 64) (s : State) : exec (.shli x rd ra sh) s = execShli x rd ra sh s := rfl
@[simp] theorem exec_shri (x : CtxId) (rd ra : Reg) (sh : Fin 64) (s : State) : exec (.shri x rd ra sh) s = execShri x rd ra sh s := rfl
@[simp] theorem exec_sari (x : CtxId) (rd ra : Reg) (sh : Fin 64) (s : State) : exec (.sari x rd ra sh) s = execSari x rd ra sh s := rfl
@[simp] theorem exec_movi (x : CtxId) (rd : Reg) (imm : BitVec 16) (s : State) : exec (.movi x rd imm) s = execMovi x rd imm s := rfl
@[simp] theorem exec_movk (x : CtxId) (rd : Reg) (h : Fin 4) (imm : BitVec 16) (s : State) : exec (.movk x rd h imm) s = execMovk x rd h imm s := rfl
@[simp] theorem exec_ext (x : CtxId) (rd ra : Reg) (pos len1 : Fin 64) (s : State) : exec (.ext x rd ra pos len1) s = execExt x rd ra pos len1 s := rfl
@[simp] theorem exec_ins (x : CtxId) (rd ra : Reg) (pos len1 : Fin 64) (s : State) : exec (.ins x rd ra pos len1) s = execIns x rd ra pos len1 s := rfl
@[simp] theorem exec_crc (x : CtxId) (rd ra rb : Reg) (s : State) : exec (.crc x rd ra rb) s = execCrc x rd ra rb s := rfl
@[simp] theorem exec_cmp (x : CtxId) (pd : Pred) (cond : Cond) (ra rb : Reg) (s : State) : exec (.cmp x pd cond ra rb) s = execCmp x pd cond ra rb s := rfl
@[simp] theorem exec_cmpi (x : CtxId) (pd : Pred) (cond : Cond) (ra : Reg) (imm : BitVec 15) (s : State) : exec (.cmpi x pd cond ra imm) s = execCmpi x pd cond ra imm s := rfl
@[simp] theorem exec_plog (x : CtxId) (pd pa pb : Pred) (tt : BitVec 4) (s : State) : exec (.plog x pd pa pb tt) s = execPlog x pd pa pb tt s := rfl
@[simp] theorem exec_sel (x : CtxId) (rd ra rb : Reg) (p : Pred) (s : State) : exec (.sel x rd ra rb p) s = execSel x rd ra rb p s := rfl
@[simp] theorem exec_assertP (x : CtxId) (p : Pred) (n : Bool) (code : BitVec 22) (s : State) : exec (.assertP x p n code) s = execAssert x p n code s := rfl
@[simp] theorem exec_wld (x : CtxId) (rd : Reg) (off : Fin 128) (sz : Fin 4) (s : State) : exec (.wld x rd off sz) s = execWld x rd off sz s := rfl
@[simp] theorem exec_wst (x : CtxId) (ra : Reg) (off : Fin 128) (sz : Fin 4) (s : State) : exec (.wst x ra off sz) s = execWst x ra off sz s := rfl
@[simp] theorem exec_wldx (x : CtxId) (rd ra : Reg) (off : Fin 128) (sz : Fin 4) (s : State) : exec (.wldx x rd ra off sz) s = execWldx x rd ra off sz s := rfl
@[simp] theorem exec_wstx (x : CtxId) (rd ra : Reg) (off : Fin 128) (sz : Fin 4) (s : State) : exec (.wstx x rd ra off sz) s = execWstx x rd ra off sz s := rfl
@[simp] theorem exec_wget (x : CtxId) (rd : Reg) (win : Fin 16) (s : State) : exec (.wget x rd win) s = execWget x rd win s := rfl
@[simp] theorem exec_wput (x : CtxId) (ra : Reg) (win : Fin 16) (s : State) : exec (.wput x ra win) s = execWput x ra win s := rfl
@[simp] theorem exec_wbase (x : CtxId) (ra : Reg) (s : State) : exec (.wbase x ra) s = execWbase x ra s := rfl
@[simp] theorem exec_hadj (x : CtxId) (ra : Reg) (s : State) : exec (.hadj x ra) s = execHadj x ra s := rfl
@[simp] theorem exec_csum (x : CtxId) (rd ra : Reg) (off : Fin 128) (sz : Fin 4) (s : State) : exec (.csum x rd ra off sz) s = execCsum x rd ra off sz s := rfl
@[simp] theorem exec_mdr (x : CtxId) (rd : Reg) (field : Fin 32) (s : State) : exec (.mdr x rd field) s = execMdr x rd field s := rfl
@[simp] theorem exec_mdw (x : CtxId) (ra : Reg) (field : Fin 32) (s : State) : exec (.mdw x ra field) s = execMdw x ra field s := rfl
@[simp] theorem exec_ld (x : CtxId) (rd ra : Reg) (sp : Fin 4) (sz : Fin 4) (sx : Bool) (imm : BitVec 11) (ecc : Ecc) (s : State) : exec (.ld x rd ra sp sz sx imm ecc) s = execLd x rd ra sp sz sx imm ecc s := rfl
@[simp] theorem exec_st (x : CtxId) (rs ra : Reg) (sp : Fin 4) (sz : Fin 4) (imm : BitVec 11) (ecc : Ecc) (s : State) : exec (.st x rs ra sp sz imm ecc) s = execSt x rs ra sp sz imm ecc s := rfl
@[simp] theorem exec_amo (x : CtxId) (rd ra rb : Reg) (k : Tick) (fn : Fin 8) (wide : Bool) (s : State) : exec (.amo x rd ra rb k fn wide) s = execAmo x rd ra rb k fn wide s := rfl
@[simp] theorem exec_br (x : CtxId) (p : Pred) (n : Bool) (off : BitVec 22) (s : State) : exec (.br x p n off) s = execBr x p n off s := rfl
@[simp] theorem exec_loop (x : CtxId) (cnt : BitVec 8) (bodyEnd : BitVec 18) (s : State) : exec (.loop x cnt bodyEnd) s = execLoop x cnt bodyEnd s := rfl
@[simp] theorem exec_loopr (x : CtxId) (ra : Reg) (bodyEnd : BitVec 18) (s : State) : exec (.loopr x ra bodyEnd) s = execLoopr x ra bodyEnd s := rfl
@[simp] theorem exec_brk (x : CtxId) (p : Pred) (n : Bool) (s : State) : exec (.brk x p n) s = execBreak x p n s := rfl
@[simp] theorem exec_lidx (x : CtxId) (rd : Reg) (s : State) : exec (.lidx x rd) s = execLidx x rd s := rfl
@[simp] theorem exec_call (x : CtxId) (fidx : BitVec 8) (s : State) : exec (.call x fidx) s = execCall x fidx s := rfl
@[simp] theorem exec_ret (x : CtxId) (s : State) : exec (.ret x) s = execRet x s := rfl
@[simp] theorem exec_jt (x : CtxId) (ra : Reg) (table : Fin 32) (s : State) : exec (.jt x ra table) s = execJt x ra table s := rfl
@[simp] theorem exec_jr (x : CtxId) (ra : Reg) (s : State) : exec (.jr x ra) s = execJr x ra s := rfl
@[simp] theorem exec_lka (x : CtxId) (rd ra : Reg) (k : Tick) (profile : Fin 32) (f1 f2 : AcsFind) (s : State) : exec (.lka x rd ra k profile f1 f2) s = execLka x rd ra k profile f1 f2 s := rfl
@[simp] theorem exec_lkaLate (x : CtxId) (k : Tick) (s : State) : exec (.lkaLate x k) s = execLkaLate x k s := rfl
@[simp] theorem exec_lkh (x : CtxId) (rd ra rb : Reg) (k : Tick) (table : Fin 16) (ecc : ReadEcc) (s : State) : exec (.lkh x rd ra rb k table ecc) s = execLkh x rd ra rb k table ecc s := rfl
@[simp] theorem exec_lkc (x : CtxId) (rd ra rb : Reg) (k : Tick) (table : Fin 16) (create : Bool) (ecc : ReadEcc) (s : State) : exec (.lkc x rd ra rb k table create ecc) s = execLkc x rd ra rb k table create ecc s := rfl
@[simp] theorem exec_mtr (x : CtxId) (rd ra rb : Reg) (k : Tick) (s : State) : exec (.mtr x rd ra rb k) s = execMtr x rd ra rb k s := rfl
@[simp] theorem exec_cisOnward (x : CtxId) (rd ra rb : Reg) (k : Tick) (ecc : Ecc) (s : State) : exec (.cisOnward x rd ra rb k ecc) s = execCisOnward x rd ra rb k ecc s := rfl
@[simp] theorem exec_cisReturn (x : CtxId) (rd ra rb : Reg) (k : Tick) (s : State) : exec (.cisReturn x rd ra rb k) s = execCisReturn x rd ra rb k s := rfl
@[simp] theorem exec_tunEncapsulate (x : CtxId) (rd ra : Reg) (k : Tick) (s : State) : exec (.tunEncapsulate x rd ra k) s = execTunEncapsulate x rd ra k s := rfl
@[simp] theorem exec_tunDecapsulate (x : CtxId) (rd ra : Reg) (k : Tick) (s : State) : exec (.tunDecapsulate x rd ra k) s = execTunDecapsulate x rd ra k s := rfl
@[simp] theorem exec_tunMark (x : CtxId) (rd ra : Reg) (k : Tick) (s : State) : exec (.tunMark x rd ra k) s = execTunMark x rd ra k s := rfl
@[simp] theorem exec_rand (x : CtxId) (rd : Reg) (k : Tick) (s : State) : exec (.rand x rd k) s = execRand x rd k s := rfl
@[simp] theorem exec_await (x : CtxId) (k : Tick) (s : State) : exec (.await x k) s = execAwait x k s := rfl
@[simp] theorem exec_emit (x : CtxId) (ra : Reg) (twoStep oneStep : Bool) (s : State) : exec (.emit x ra twoStep oneStep) s = execEmit x ra twoStep oneStep s := rfl
@[simp] theorem exec_copy (x : CtxId) (ra : Reg) (s : State) : exec (.copy x ra) s = execCopy x ra s := rfl
@[simp] theorem exec_drop (x : CtxId) (reason : Byte) (s : State) : exec (.drop x reason) s = execDrop x reason s := rfl
@[simp] theorem exec_punt (x : CtxId) (code : Byte) (s : State) : exec (.punt x code) s = execPunt x code s := rfl
@[simp] theorem exec_tdone (x : CtxId) (ra : Reg) (s : State) : exec (.tdone x ra) s = execTdone x ra s := rfl
@[simp] theorem exec_cnt (x : CtxId) (ra rb : Reg) (s : State) : exec (.cnt x ra rb) s = execCnt x ra rb s := rfl
@[simp] theorem exec_timeRead (x : CtxId) (rd : Reg) (s : State) : exec (.timeRead x rd) s = execTime x rd s := rfl
@[simp] theorem exec_tarm (x : CtxId) (rd ra rb : Reg) (idx : Byte) (s : State) : exec (.tarm x rd ra rb idx) s = execTarm x rd ra rb idx s := rfl
@[simp] theorem exec_trdy (x : CtxId) (rd ra : Reg) (s : State) : exec (.trdy x rd ra) s = execTrdy x rd ra s := rfl
@[simp] theorem exec_tcan (x : CtxId) (rd ra : Reg) (race : CancelRace) (s : State) : exec (.tcan x rd ra race) s = execTcan x rd ra race s := rfl
@[simp] theorem exec_trdyx (x : CtxId) (rd ra : Reg) (k : Tick) (s : State) : exec (.trdyx x rd ra k) s = execTrdyx x rd ra k s := rfl
@[simp] theorem exec_tcanx (x : CtxId) (rd ra : Reg) (k : Tick) (s : State) : exec (.tcanx x rd ra k) s = execTcanx x rd ra k s := rfl
@[simp] theorem exec_ior (x : CtxId) (rd ra : Reg) (imm : BitVec 11) (s : State) : exec (.ior x rd ra imm) s = execIor x rd ra imm s := rfl
@[simp] theorem exec_iow (x : CtxId) (rs ra : Reg) (imm : BitVec 11) (s : State) : exec (.iow x rs ra imm) s = execIow x rs ra imm s := rfl
@[simp] theorem exec_csrr (x : CtxId) (rd : Reg) (csr : BitVec 12) (s : State) : exec (.csrr x rd csr) s = execCsrr x rd csr s := rfl
@[simp] theorem exec_csrw (x : CtxId) (ra : Reg) (csr : BitVec 12) (s : State) : exec (.csrw x ra csr) s = execCsrw x ra csr s := rfl
@[simp] theorem exec_eret (x : CtxId) (s : State) : exec (.eret x) s = execEret x s := rfl
@[simp] theorem exec_wfe (x : CtxId) (s : State) : exec (.wfe x) s = execWfe x s := rfl
@[simp] theorem exec_loaderLoad (pf : Pf) (len : Nat) (image : List Byte) (s : State) : exec (.loaderLoad pf len image) s = execLoaderLoad pf len image s := rfl
@[simp] theorem exec_loaderBind (pf : Pf) (b : BindReq) (s : State) : exec (.loaderBind pf b) s = execLoaderBind pf b s := rfl
@[simp] theorem exec_loaderUnbind (pf : Pf) (mask slot : Nat) (zeroOk : Bool) (s : State) : exec (.loaderUnbind pf mask slot zeroOk) s = execLoaderUnbind pf mask slot zeroOk s := rfl
@[simp] theorem exec_loaderCommit (pf : Pf) (s : State) : exec (.loaderCommit pf) s = execLoaderCommit pf s := rfl
@[simp] theorem exec_loaderUnload (pf : Pf) (handle : Byte) (s : State) : exec (.loaderUnload pf handle) s = execLoaderUnload pf handle s := rfl
@[simp] theorem exec_loaderQuery (pf : Pf) (what : QueryOf) (s : State) : exec (.loaderQuery pf what) s = execLoaderQuery pf what s := rfl
@[simp] theorem exec_imageFreed (handle : Byte) (s : State) : exec (.imageFreed handle) s = execImageFreed handle s := rfl
@[simp] theorem exec_enrol (pf : Pf) (idx : Fin 4) (hash : BitVec 384) (s : State) : exec (.enrol pf idx hash) s = execEnrol pf idx hash s := rfl
@[simp] theorem exec_revoke (pf : Pf) (idx : Fin 4) (s : State) : exec (.revoke pf idx) s = execRevoke pf idx s := rfl
@[simp] theorem exec_cntselWrite (pf : Pf) (kind : Fin 4) (index : BitVec 20) (s : State) : exec (.cntselWrite pf kind index) s = execCntselWrite pf kind index s := rfl
@[simp] theorem exec_cntclr (pf : Pf) (s : State) : exec (.cntclr pf) s = execCntclr pf s := rfl
@[simp] theorem exec_modeApply (port : Fin 16) (s : State) : exec (.modeApply port) s = execModeApply port s := rfl
@[simp] theorem exec_modeChangeDone (group : Fin 4) (s : State) : exec (.modeChangeDone group) s = execModeChangeDone group s := rfl
@[simp] theorem exec_portEnable (port : Fin 16) (lt : Bool) (s : State) : exec (.portEnable port lt) s = execPortEnable port lt s := rfl
@[simp] theorem exec_linkUp (port : Fin 16) (s : State) : exec (.linkUp port) s = execLinkUp port s := rfl
@[simp] theorem exec_linkDown (port : Fin 16) (s : State) : exec (.linkDown port) s = execLinkDown port s := rfl
@[simp] theorem exec_fecSecond (port : Fin 16) (s : State) : exec (.fecSecond port) s = execFecSecond port s := rfl
@[simp] theorem exec_verifyTimer (port : Fin 16) (s : State) : exec (.verifyTimer port) s = execVerifyTimer port s := rfl
@[simp] theorem exec_transmitStart (port : Fin 16) (crcOk : Bool) (s : State) : exec (.transmitStart port crcOk) s = execTransmitStart port crcOk s := rfl
@[simp] theorem exec_preemption (port : Fin 16) (len : Nat) (s : State) : exec (.preemption port len) s = execPreemption port len s := rfl
@[simp] theorem exec_transmitEnd (port : Fin 16) (s : State) : exec (.transmitEnd port) s = execTransmitEnd port s := rfl
@[simp] theorem exec_hbmUnderrun (port : Fin 16) (s : State) : exec (.hbmUnderrun port) s = execHbmUnderrun port s := rfl
@[simp] theorem exec_expressUnderrun (port : Fin 16) (s : State) : exec (.expressUnderrun port) s = execExpressUnderrun port s := rfl
@[simp] theorem exec_profileApply (pipe : Fin 4) (n : Fin 32) (s : State) : exec (.profileApply pipe n) s = execProfileApply pipe n s := rfl
@[simp] theorem exec_acsWrite (w : Writer) (pipe : Fin 4) (bank : Fin 64) (index : Fin 2048) (s : State) : exec (.acsWrite w pipe bank index) s = execAcsWrite w pipe bank index s := rfl
@[simp] theorem exec_acsInvalidate (w : Writer) (pipe : Fin 4) (bank : Fin 64) (index : Fin 2048) (s : State) : exec (.acsInvalidate w pipe bank index) s = execAcsInvalidate w pipe bank index s := rfl
@[simp] theorem exec_acsRead (w : Writer) (pipe : Fin 4) (bank : Fin 64) (index : Fin 2048) (s : State) : exec (.acsRead w pipe bank index) s = execAcsRead w pipe bank index s := rfl
@[simp] theorem exec_acsSearch (w : Writer) (pipe : Fin 4) (profile : Fin 32) (f1 f2 : AcsFind) (s : State) : exec (.acsSearch w pipe profile f1 f2) s = execAcsSearch w pipe profile f1 f2 s := rfl
@[simp] theorem exec_acsNext (w : Writer) (pipe : Fin 4) (f1 f2 : AcsFind) (s : State) : exec (.acsNext w pipe f1 f2) s = execAcsNext w pipe f1 f2 s := rfl
@[simp] theorem exec_acsSetwidth (w : Writer) (pipe : Fin 4) (bank : Fin 64) (width : Fin 4) (s : State) : exec (.acsSetwidth w pipe bank width) s = execAcsSetwidth w pipe bank width s := rfl
@[simp] theorem exec_scrub (pipe : Fin 4) (bank : Fin 64) (index : Fin 2048) (differs : Bool) (s : State) : exec (.scrub pipe bank index differs) s = execScrub pipe bank index differs s := rfl
@[simp] theorem exec_areasReady (s : State) : exec (.areasReady) s = execAreasReady s := rfl
@[simp] theorem exec_tableDescriptor (pipe : Fin 4) (t : Fin 16) (desc : TableDesc) (s : State) : exec (.tableDescriptor pipe t desc) s = execTableDescriptor pipe t desc s := rfl
@[simp] theorem exec_ageTick (s : State) : exec (.ageTick) s = execAgeTick s := rfl
@[simp] theorem exec_markingWrite (s : State) : exec (.markingWrite) s = execMarkingWrite s := rfl
@[simp] theorem exec_sweepVisit (area : Fin 5) (bucket : Fin 16777216) (s : State) : exec (.sweepVisit area bucket) s = execSweepVisit area bucket s := rfl
@[simp] theorem exec_tableDma (area : Fin 5) (bucket : Fin 16777216) (data : BitVec 512) (mask : Byte) (cmpv : Option Bool) (s : State) : exec (.tableDma area bucket data mask cmpv) s = execTableDma area bucket data mask cmpv s := rfl
@[simp] theorem exec_lockRelease (area : Fin 5) (bucket : Fin 16777216) (s : State) : exec (.lockRelease area bucket) s = execLockRelease area bucket s := rfl
@[simp] theorem exec_lockTimeout (area : Fin 5) (bucket : Fin 16777216) (s : State) : exec (.lockTimeout area bucket) s = execLockTimeout area bucket s := rfl
@[simp] theorem exec_settleExpiry (pipe : Fin 4) (n : Fin 256) (s : State) : exec (.settleExpiry pipe n) s = execSettleExpiry pipe n s := rfl
@[simp] theorem exec_learnNotification (pipe : Fin 4) (s : State) : exec (.learnNotification pipe) s = execLearnNotification pipe s := rfl
@[simp] theorem exec_dampExpiry (area : Fin 5) (bucket : Fin 16777216) (s : State) : exec (.dampExpiry area bucket) s = execDampExpiry area bucket s := rfl
@[simp] theorem exec_dispatch (s : State) : exec (.dispatch) s = execDispatch s := rfl
@[simp] theorem exec_redispatch (pipe : Fin 4) (s : State) : exec (.redispatch pipe) s = execRedispatch pipe s := rfl
@[simp] theorem exec_collectorAccept (inject : Option Injection) (seq : Option (Fin 4)) (s : State) : exec (.collectorAccept inject seq) s = execCollectorAccept inject seq s := rfl
@[simp] theorem exec_templateCommit (n : Fin 16384) (s : State) : exec (.templateCommit n) s = execTemplateCommit n s := rfl
@[simp] theorem exec_handOver (fn : Fn) (conn : Option (Fin 16384)) (state : TcpState) (s : State) : exec (.handOver fn conn state) s = execHandOver fn conn state s := rfl
@[simp] theorem exec_tcpSegmentReceive (conn : Fin 16384) (s : State) : exec (.tcpSegmentReceive conn) s = execTcpSegmentReceive conn s := rfl
@[simp] theorem exec_delayedAck (conn : Fin 16384) (s : State) : exec (.delayedAck conn) s = execDelayedAck conn s := rfl
@[simp] theorem exec_retransmitTimer (conn : Fin 16384) (s : State) : exec (.retransmitTimer conn) s = execRetransmitTimer conn s := rfl
@[simp] theorem exec_queuePairCreate (fn : Fn) (req : QpReq) (s : State) : exec (.queuePairCreate fn req) s = execQueuePairCreate fn req s := rfl
@[simp] theorem exec_roceFrameReceive (bytes read : List Byte) (s : State) : exec (.roceFrameReceive bytes read) s = execRoceFrameReceive bytes read s := rfl
@[simp] theorem exec_ackTimeout (qpn : Fin 65536) (covered : Bool) (s : State) : exec (.ackTimeout qpn covered) s = execAckTimeout qpn covered s := rfl
@[simp] theorem exec_rdmaWorkRequest (ring : Fin 262144) (data : List Byte) (s : State) : exec (.rdmaWorkRequest ring data) s = execRdmaWorkRequest ring data s := rfl
@[simp] theorem exec_storageCommand (ring : Fin 262144) (bufs : List (Nat × Nat)) (data : List Byte) (s : State) : exec (.storageCommand ring bufs data) s = execStorageCommand ring bufs data s := rfl
@[simp] theorem exec_nvmeQueueDoorbell (fn : Fn) (index : Fin 256) (value : BitVec 32) (cmds : List NvRead) (s : State) : exec (.nvmeQueueDoorbell fn index value cmds) s = execNvmeQueueDoorbell fn index value cmds s := rfl
@[simp] theorem exec_remoteCompletion (s : State) : exec (.remoteCompletion) s = execRemoteCompletion s := rfl
@[simp] theorem exec_ccEnClear (fn : Fn) (s : State) : exec (.ccEnClear fn) s = execCcEnClear fn s := rfl
@[simp] theorem exec_ccShn (fn : Fn) (shn : Fin 4) (s : State) : exec (.ccShn fn shn) s = execCcShn fn shn s := rfl
@[simp] theorem exec_shutdownComplete (fn : Fn) (s : State) : exec (.shutdownComplete fn) s = execShutdownComplete fn s := rfl
@[simp] theorem exec_personalityAssign (pf : Pf) (vf : Fn) (namespaces : List NsReq) (s : State) : exec (.personalityAssign pf vf namespaces) s = execPersonalityAssign pf vf namespaces s := rfl
@[simp] theorem exec_chunkBoundary (core : Fin 32) (ecc : Ecc) (s : State) : exec (.chunkBoundary core ecc) s = execChunkBoundary core ecc s := rfl
@[simp] theorem exec_returnLate (s : State) : exec (.returnLate) s = execReturnLate s := rfl
@[simp] theorem exec_jobComplete (core : Fin 32) (s : State) : exec (.jobComplete core) s = execJobComplete core s := rfl
@[simp] theorem exec_merge (job : Nat) (s : State) : exec (.merge job) s = execMerge job s := rfl
@[simp] theorem exec_katRun (core : Fin 32) (pass : Bool) (s : State) : exec (.katRun core pass) s = execKatRun core pass s := rfl
@[simp] theorem exec_session (pf : Pf) (hostKey : List Byte) (reply : Word) (s : State) : exec (.session pf hostKey reply) s = execSession pf hostKey reply s := rfl
@[simp] theorem exec_keyLoad (pf : Pf) (slot : Fin 131072) (blob : List Byte) (s : State) : exec (.keyLoad pf slot blob) s = execKeyLoad pf slot blob s := rfl
@[simp] theorem exec_generate (pf : Pf) (slot : Fin 131072) (attrs : List Byte) (s : State) : exec (.generate pf slot attrs) s = execGenerate pf slot attrs s := rfl
@[simp] theorem exec_keyExport (pf : Pf) (slot : Fin 131072) (reply : Word) (ecc : Ecc) (s : State) : exec (.keyExport pf slot reply ecc) s = execExport pf slot reply ecc s := rfl
@[simp] theorem exec_keyImport (pf : Pf) (slot : Fin 131072) (blob : List Byte) (s : State) : exec (.keyImport pf slot blob) s = execImport pf slot blob s := rfl
@[simp] theorem exec_retire (pf : Pf) (slot : Fin 131072) (s : State) : exec (.retire pf slot) s = execRetire pf slot s := rfl
@[simp] theorem exec_retiringDrain (slot : Fin 131072) (s : State) : exec (.retiringDrain slot) s = execRetiringDrain slot s := rfl
@[simp] theorem exec_keyQuery (pf : Pf) (slot : Fin 131072) (reply : Word) (s : State) : exec (.keyQuery pf slot reply) s = execKeyQuery pf slot reply s := rfl
@[simp] theorem exec_cert (pf : Pf) (reply : Word) (s : State) : exec (.cert pf reply) s = execCert pf reply s := rfl
@[simp] theorem exec_rootgen (pf : Pf) (s : State) : exec (.rootgen pf) s = execRootgen pf s := rfl
@[simp] theorem exec_tamperAck (pf : Pf) (s : State) : exec (.tamperAck pf) s = execTamperAck pf s := rfl
@[simp] theorem exec_tamperCfg (pf : Pf) (tcfg : BitVec 16) (s : State) : exec (.tamperCfg pf tcfg) s = execTamperCfg pf tcfg s := rfl
@[simp] theorem exec_setRtc (pf : Pf) (rtc : BitVec 47) (s : State) : exec (.setRtc pf rtc) s = execSetRtc pf rtc s := rfl
@[simp] theorem exec_zeroiseAll (pf : Pf) (s : State) : exec (.zeroiseAll pf) s = execZeroiseAll pf s := rfl
@[simp] theorem exec_entropyTestFail (s : State) : exec (.entropyTestFail) s = execEntropyTestFail s := rfl
@[simp] theorem exec_drbgReseed (inst : Fin 14) (s : State) : exec (.drbgReseed inst) s = execDrbgReseed inst s := rfl
@[simp] theorem exec_tamperInput (inputs : BitVec 4) (s : State) : exec (.tamperInput inputs) s = execTamperInput inputs s := rfl
@[simp] theorem exec_meshMismatch (s : State) : exec (.meshMismatch) s = execMeshMismatch s := rfl
@[simp] theorem exec_aclkStop (s : State) : exec (.aclkStop) s = execAclkStop s := rfl
@[simp] theorem exec_batteryLoss (s : State) : exec (.batteryLoss) s = execBatteryLoss s := rfl
@[simp] theorem exec_batlow (low : Bool) (s : State) : exec (.batlow low) s = execBatlow low s := rfl
@[simp] theorem exec_classBufferRequest (port : Fin 16) (cls : Fin 8) (s : State) : exec (.classBufferRequest port cls) s = execClassBufferRequest port cls s := rfl
@[simp] theorem exec_refill (s : State) : exec (.refill) s = execRefill s := rfl
@[simp] theorem exec_nodeRead (w : Writer) (lvl : Fin 8) (n : Fin 262144) (s : State) : exec (.nodeRead w lvl n) s = execNodeRead w lvl n s := rfl
@[simp] theorem exec_nodeWrite (w : Writer) (lvl : Fin 8) (n : Fin 262144) (s : State) : exec (.nodeWrite w lvl n) s = execNodeWrite w lvl n s := rfl
@[simp] theorem exec_timeSet (pf : Pf) (s : State) : exec (.timeSet pf) s = execTimeSet pf s := rfl
@[simp] theorem exec_timeStep (pf : Pf) (s : State) : exec (.timeStep pf) s = execTimeStep pf s := rfl
@[simp] theorem exec_rateWrite (pf : Pf) (rate : BitVec 32) (s : State) : exec (.rateWrite pf rate) s = execRateWrite pf rate s := rfl
@[simp] theorem exec_tnowloRead (pf : Pf) (s : State) : exec (.tnowloRead pf) s = execTnowloRead pf s := rfl
@[simp] theorem exec_ppsOutEnd (s : State) : exec (.ppsOutEnd) s = execPpsOutEnd s := rfl
@[simp] theorem exec_ppsIn (s : State) : exec (.ppsIn) s = execPpsIn s := rfl
@[simp] theorem exec_txtsaRead (fn : Fn) (port : Fin 16) (s : State) : exec (.txtsaRead fn port) s = execTxtsaRead fn port s := rfl
@[simp] theorem exec_gateChange (port : Fin 16) (s : State) : exec (.gateChange port) s = execGateChange port s := rfl
@[simp] theorem exec_bermStart (port : Fin 16) (cls : Option (Fin 8)) (len : Nat) (s : State) : exec (.bermStart port cls len) s = execBermStart port cls len s := rfl
@[simp] theorem exec_sluiceChange (port : Fin 16) (s : State) : exec (.sluiceChange port) s = execSluiceChange port s := rfl
@[simp] theorem exec_sluiceCancel (port : Fin 16) (s : State) : exec (.sluiceCancel port) s = execSluiceCancel port s := rfl
@[simp] theorem exec_takeOver (port : Fin 16) (s : State) : exec (.takeOver port) s = execTakeOver port s := rfl
@[simp] theorem exec_copyBackDone (port : Fin 16) (s : State) : exec (.copyBackDone port) s = execCopyBackDone port s := rfl
@[simp] theorem exec_setup (fn : Fn) (reply : Word) (buffer : List Byte) (entries : List (List Nat)) (s : State) : exec (.setup fn reply buffer entries) s = execSetup fn reply buffer entries s := rfl
@[simp] theorem exec_admQuery (fn : Fn) (contract : Fin 1048576) (reply : Word) (s : State) : exec (.admQuery fn contract reply) s = execAdmQuery fn contract reply s := rfl
@[simp] theorem exec_epochq (fn : Fn) (s : State) : exec (.epochq fn) s = execEpochq fn s := rfl
@[simp] theorem exec_activationComplete (s : State) : exec (.activationComplete) s = execActivationComplete s := rfl
@[simp] theorem exec_revalidation (s : State) : exec (.revalidation) s = execRevalidation s := rfl
@[simp] theorem exec_heartbeatSend (path : Fin 4) (s : State) : exec (.heartbeatSend path) s = execHeartbeatSend path s := rfl
@[simp] theorem exec_heartbeatMiss (path : Fin 4) (s : State) : exec (.heartbeatMiss path) s = execHeartbeatMiss path s := rfl
@[simp] theorem exec_resyncEnd (path : Fin 4) (s : State) : exec (.resyncEnd path) s = execResyncEnd path s := rfl
@[simp] theorem exec_ilkOutPeriod (s : State) : exec (.ilkOutPeriod) s = execIlkOutPeriod s := rfl
@[simp] theorem exec_ilkInPulse (high : Nat) (s : State) : exec (.ilkInPulse high) s = execIlkInPulse high s := rfl
@[simp] theorem exec_ilkInLost (s : State) : exec (.ilkInLost) s = execIlkInLost s := rfl
@[simp] theorem exec_inbandLost (s : State) : exec (.inbandLost) s = execInbandLost s := rfl
@[simp] theorem exec_roleDecision (s : State) : exec (.roleDecision) s = execRoleDecision s := rfl
@[simp] theorem exec_hostLinkUp (l : Fin 2) (rate width : Nat) (flit cxl : Bool) (s : State) : exec (.hostLinkUp l rate width flit cxl) s = execHostLinkUp l rate width flit cxl s := rfl
@[simp] theorem exec_hostLinkDown (l : Fin 2) (s : State) : exec (.hostLinkDown l) s = execHostLinkDown l s := rfl
@[simp] theorem exec_linkReset (l : Fin 2) (perst : Bool) (s : State) : exec (.linkReset l perst) s = execLinkReset l perst s := rfl
@[simp] theorem exec_perstRelease (l : Fin 2) (s : State) : exec (.perstRelease l) s = execPerstRelease l s := rfl
@[simp] theorem exec_configRequest (fn : Fn) (req : CfgReq) (s : State) : exec (.configRequest fn req) s = execConfigRequest fn req s := rfl
@[simp] theorem exec_urRequest (fn : Fn) (s : State) : exec (.urRequest fn) s = execUrRequest fn s := rfl
@[simp] theorem exec_expansionRomRead (fn : Fn) (off : Fin 1048576) (len : Nat) (s : State) : exec (.expansionRomRead fn off len) s = execExpansionRomRead fn off len s := rfl
@[simp] theorem exec_completionArrival (l : Fin 2) (tag : Fin 16384) (status : CplStatus) (f1 f2 : AcsFind) (ecc : FrameEcc) (s : State) : exec (.completionArrival l tag status f1 f2 ecc) s = execCompletionArrival l tag status f1 f2 ecc s := rfl
@[simp] theorem exec_completionTimeout (l : Fin 2) (tag : Fin 16384) (s : State) : exec (.completionTimeout l tag) s = execCompletionTimeout l tag s := rfl
@[simp] theorem exec_translationCompletion (fn : Fn) (page : Nat) (answer : Option Nat) (s : State) : exec (.translationCompletion fn page answer) s = execTranslationCompletion fn page answer s := rfl
@[simp] theorem exec_atsInvalidation (fn : Fn) (page : Option Nat) (s : State) : exec (.atsInvalidation fn page) s = execAtsInvalidation fn page s := rfl
@[simp] theorem exec_initiateFlr (fn : Fn) (s : State) : exec (.initiateFlr fn) s = execInitiateFlr fn s := rfl
@[simp] theorem exec_flrComplete (fn : Fn) (s : State) : exec (.flrComplete fn) s = execFlrComplete fn s := rfl
@[simp] theorem exec_d3hotEntry (fn : Fn) (s : State) : exec (.d3hotEntry fn) s = execD3hotEntry fn s := rfl
@[simp] theorem exec_d0Return (fn : Fn) (s : State) : exec (.d0Return fn) s = execD0Return fn s := rfl
@[simp] theorem exec_vectorUnmask (fn : Fn) (vec : Fin 2048) (s : State) : exec (.vectorUnmask fn vec) s = execVectorUnmask fn vec s := rfl
@[simp] theorem exec_cxlSnoop (line : Nat) (kind : CxlSnoop) (s : State) : exec (.cxlSnoop line kind) s = execCxlSnoop line kind s := rfl
@[simp] theorem exec_globalObservation (cpl : Option Nat) (ring : Fin 131072) (s : State) : exec (.globalObservation cpl ring) s = execGlobalObservation cpl ring s := rfl
@[simp] theorem exec_cacheEnableClear (s : State) : exec (.cacheEnableClear) s = execCacheEnableClear s := rfl
@[simp] theorem exec_writeBackInvalidate (s : State) : exec (.writeBackInvalidate) s = execWriteBackInvalidate s := rfl
@[simp] theorem exec_submissionTailDoorbell (fn : Fn) (slot : Nat) (value : Word) (s : State) : exec (.submissionTailDoorbell fn slot value) s = execSubmissionTailDoorbell fn slot value s := rfl
@[simp] theorem exec_receiveTailDoorbell (fn : Fn) (slot : Nat) (value : Word) (s : State) : exec (.receiveTailDoorbell fn slot value) s = execReceiveTailDoorbell fn slot value s := rfl
@[simp] theorem exec_completionHeadDoorbell (fn : Fn) (slot : Nat) (value : Word) (s : State) : exec (.completionHeadDoorbell fn slot value) s = execCompletionHeadDoorbell fn slot value s := rfl
@[simp] theorem exec_contextWrite (w : Writer) (kind : Fin 4) (ring : Fin 262144) (s : State) : exec (.contextWrite w kind ring) s = execContextWrite w kind ring s := rfl
@[simp] theorem exec_contextEnable (w : Writer) (kind : Fin 4) (ring : Fin 262144) (s : State) : exec (.contextEnable w kind ring) s = execContextEnable w kind ring s := rfl
@[simp] theorem exec_contextDisable (w : Writer) (kind : Fin 4) (ring : Fin 262144) (s : State) : exec (.contextDisable w kind ring) s = execContextDisable w kind ring s := rfl
@[simp] theorem exec_contextRead (w : Writer) (kind : Fin 4) (ring : Fin 262144) (s : State) : exec (.contextRead w kind ring) s = execContextRead w kind ring s := rfl
@[simp] theorem exec_disableDone (kind : Fin 3) (ring : Fin 262144) (s : State) : exec (.disableDone kind ring) s = execDisableDone kind ring s := rfl
@[simp] theorem exec_entryFetch (kind : Fin 2) (ring : Fin 262144) (units : List (BitVec 128)) (ok : Bool) (s : State) : exec (.entryFetch kind ring units ok) s = execEntryFetch kind ring units ok s := rfl
@[simp] theorem exec_descriptorStart (g : Fin 4) (payload : List Byte) (s : State) : exec (.descriptorStart g payload) s = execDescriptorStart g payload s := rfl
@[simp] theorem exec_dmaBurst (g : Fin 4) (crcOk : Bool) (s : State) : exec (.dmaBurst g crcOk) s = execDmaBurst g crcOk s := rfl
@[simp] theorem exec_transmitCompletion (s : State) : exec (.transmitCompletion) s = execTransmitCompletion s := rfl
@[simp] theorem exec_completionWrite (s : State) : exec (.completionWrite) s = execCompletionWrite s := rfl
@[simp] theorem exec_coalesceTimer (ring : Fin 131072) (s : State) : exec (.coalesceTimer ring) s = execCoalesceTimer ring s := rfl
@[simp] theorem exec_isolationTimer (ring : Fin 131072) (s : State) : exec (.isolationTimer ring) s = execIsolationTimer ring s := rfl
@[simp] theorem exec_channelStop (g : Fin 4) (c : Fin 32) (s : State) : exec (.channelStop g c) s = execChannelStop g c s := rfl
@[simp] theorem exec_channelStart (g : Fin 4) (c : Fin 32) (s : State) : exec (.channelStart g c) s = execChannelStart g c s := rfl
@[simp] theorem exec_send (who : MailSender) (s : State) : exec (.send who) s = execSend who s := rfl
@[simp] theorem exec_withdraw (who : MailParty) (wseq : BitVec 16) (s : State) : exec (.withdraw who wseq) s = execWithdraw who wseq s := rfl
@[simp] theorem exec_pop (who : MailParty) (s : State) : exec (.pop who) s = execPop who s := rfl
@[simp] theorem exec_secureSend (pf : Pf) (s : State) : exec (.secureSend pf) s = execSecureSend pf s := rfl
@[simp] theorem exec_secureWithdraw (pf : Pf) (wseq : BitVec 16) (s : State) : exec (.secureWithdraw pf wseq) s = execSecureWithdraw pf wseq s := rfl
@[simp] theorem exec_securePop (pf : Pf) (s : State) : exec (.securePop pf) s = execSecurePop pf s := rfl
@[simp] theorem exec_controlServicePickup (s : State) : exec (.controlServicePickup) s = execControlServicePickup s := rfl
@[simp] theorem exec_grant (fn : Fn) (body : List Byte) (s : State) : exec (.grant fn body) s = execGrant fn body s := rfl
@[simp] theorem exec_limits (fn : Fn) (body : List Byte) (s : State) : exec (.limits fn body) s = execLimits fn body s := rfl
@[simp] theorem exec_resourcesQuery (fn : Fn) (body : List Byte) (s : State) : exec (.resourcesQuery fn body) s = execResourcesQuery fn body s := rfl
@[simp] theorem exec_tablesRequest (pf : Pf) (req : TableReq) (accepted : Bool) (s : State) : exec (.tablesRequest pf req accepted) s = execTablesRequest pf req accepted s := rfl
@[simp] theorem exec_pairCheck (pair : Fin 2) (agree : Bool) (s : State) : exec (.pairCheck pair agree) s = execPairCheck pair agree s := rfl
@[simp] theorem exec_reactionDeadline (s : State) : exec (.reactionDeadline) s = execReactionDeadline s := rfl
@[simp] theorem exec_lockstepMismatch (core : Fin 12) (s : State) : exec (.lockstepMismatch core) s = execLockstepMismatch core s := rfl
@[simp] theorem exec_mgtLockstepMismatch (s : State) : exec (.mgtLockstepMismatch) s = execMgtLockstepMismatch s := rfl
@[simp] theorem exec_mgtRestartDone (s : State) : exec (.mgtRestartDone) s = execMgtRestartDone s := rfl
@[simp] theorem exec_gateComparator (port : Fin 16) (equal : Bool) (s : State) : exec (.gateComparator port equal) s = execGateComparator port equal s := rfl
@[simp] theorem exec_controlHeartbeatMiss (core : Fin 12) (s : State) : exec (.controlHeartbeatMiss core) s = execControlHeartbeatMiss core s := rfl
@[simp] theorem exec_clockMonitor (dom : Fin 14) (inRange : Bool) (s : State) : exec (.clockMonitor dom inRange) s = execClockMonitor dom inRange s := rfl
@[simp] theorem exec_supplyMonitor (rail : Fin 9) (inRange : Bool) (s : State) : exec (.supplyMonitor rail inRange) s = execSupplyMonitor rail inRange s := rfl
@[simp] theorem exec_supplyNearLimit (rail : Fin 9) (s : State) : exec (.supplyNearLimit rail) s = execSupplyNearLimit rail s := rfl
@[simp] theorem exec_temperatureSample (sensor : Fin 16) (temp : Int) (s : State) : exec (.temperatureSample sensor temp) s = execTemperatureSample sensor temp s := rfl
@[simp] theorem exec_throttleEnd (s : State) : exec (.throttleEnd) s = execThrottleEnd s := rfl
@[simp] theorem exec_hwCopyCompare (kind : Fin 6) (inst : Nat) (found : Option (List Nat)) (s : State) : exec (.hwCopyCompare kind inst found) s = execHwCopyCompare kind inst found s := rfl
@[simp] theorem exec_objectScan (kind : Fin 6) (inst : Nat) (a b c : Copy) (s : State) : exec (.objectScan kind inst a b c) s = execObjectScan kind inst a b c s := rfl
@[simp] theorem exec_psclr (pf : Pf) (ports : BitVec 16) (s : State) : exec (.psclr pf ports) s = execPsclr pf ports s := rfl
@[simp] theorem exec_polclr (pf : Pf) (polder : Fn) (s : State) : exec (.polclr pf polder) s = execPolclr pf polder s := rfl
@[simp] theorem exec_fclrDevice (pf : Pf) (s : State) : exec (.fclrDevice pf) s = execFclrDevice pf s := rfl
@[simp] theorem exec_fclrRelease (pf : Pf) (s : State) : exec (.fclrRelease pf) s = execFclrRelease pf s := rfl
@[simp] theorem exec_inject (pf : Pf) (sm : Fin 32) (inst : Nat) (s : State) : exec (.inject pf sm inst) s = execInject pf sm inst s := rfl
@[simp] theorem exec_maskWrite (pf : Pf) (group : Fin 16) (value : BitVec 32) (s : State) : exec (.maskWrite pf group value) s = execMaskWrite pf group value s := rfl
@[simp] theorem exec_recaRead (pf : Pf) (s : State) : exec (.recaRead pf) s = execRecaRead pf s := rfl
@[simp] theorem exec_randccRead (pf : Pf) (s : State) : exec (.randccRead pf) s = execRandccRead pf s := rfl
@[simp] theorem exec_powerOnRelease (s : State) : exec (.powerOnRelease) s = execPowerOnRelease s := rfl
@[simp] theorem exec_readyBitSet (bit : Fin 40) (cores : BitVec 32) (s : State) : exec (.readyBitSet bit cores) s = execReadyBitSet bit cores s := rfl
@[simp] theorem exec_selfTestFail (bit : Fin 40) (sms : BitVec 16) (s : State) : exec (.selfTestFail bit sms) s = execSelfTestFail bit sms s := rfl
@[simp] theorem exec_topResetWarm (pf : Pf) (s : State) : exec (.topResetWarm pf) s = execTopResetWarm pf s := rfl
@[simp] theorem exec_wrstN (s : State) : exec (.wrstN) s = execWrstN s := rfl
@[simp] theorem exec_warmResetComplete (s : State) : exec (.warmResetComplete) s = execWarmResetComplete s := rfl
@[simp] theorem exec_referenceExcursion (input : Fin 4) (s : State) : exec (.referenceExcursion input) s = execReferenceExcursion input s := rfl
@[simp] theorem exec_frequencyMeasure (freqs : List (BitVec 32)) (refs : BitVec 4) (s : State) : exec (.frequencyMeasure freqs refs) s = execFrequencyMeasure freqs refs s := rfl
@[simp] theorem exec_calCommit (pf : Pf) (s : State) : exec (.calCommit pf) s = execCalCommit pf s := rfl
@[simp] theorem exec_calCommitTimeout (s : State) : exec (.calCommitTimeout) s = execCalCommitTimeout s := rfl
@[simp] theorem exec_ncsiCommand (channel : Fin 32) (req : NcsiReq) (s : State) : exec (.ncsiCommand channel req) s = execNcsiCommand channel req s := rfl
@[simp] theorem exec_ncsiPassthrough (channel : Fin 16) (frame : List Byte) (s : State) : exec (.ncsiPassthrough channel frame) s = execNcsiPassthrough channel frame s := rfl
@[simp] theorem exec_sidebandLost (s : State) : exec (.sidebandLost) s = execSidebandLost s := rfl
@[simp] theorem exec_mctpMessage (via : Via) (req : MctpReq) (s : State) : exec (.mctpMessage via req) s = execMctpMessage via req s := rfl
@[simp] theorem exec_pldmRequest (via : Via) (req : PldmReq) (s : State) : exec (.pldmRequest via req) s = execPldmRequest via req s := rfl
@[simp] theorem exec_vendorWarmReset (via : Via) (s : State) : exec (.vendorWarmReset via) s = execVendorWarmReset via s := rfl
@[simp] theorem exec_vendorSnapshotRequest (via : Via) (readings : Readings) (s : State) : exec (.vendorSnapshotRequest via readings) s = execVendorSnapshotRequest via readings s := rfl
@[simp] theorem exec_vendorSnapshotRead (via : Via) (set : Fin 2) (block : Nat) (s : State) : exec (.vendorSnapshotRead via set block) s = execVendorSnapshotRead via set block s := rfl
@[simp] theorem exec_snapreq (pf : Pf) (readings : Readings) (s : State) : exec (.snapreq pf readings) s = execSnapreq pf readings s := rfl
@[simp] theorem exec_snapshotPeriod (readings : Readings) (s : State) : exec (.snapshotPeriod readings) s = execSnapshotPeriod readings s := rfl
@[simp] theorem exec_shareWindow (mbox learn exc : ShareUse) (busy : Fin 101) (s : State) : exec (.shareWindow mbox learn exc busy) s = execShareWindow mbox learn exc busy s := rfl
@[simp] theorem exec_requestUpdate (via : Via) (components : Nat) (s : State) : exec (.requestUpdate via components) s = execRequestUpdate via components s := rfl
@[simp] theorem exec_verifyComplete (image : FwReceived) (s : State) : exec (.verifyComplete image) s = execVerifyComplete image s := rfl
@[simp] theorem exec_applyComplete (ok : Bool) (s : State) : exec (.applyComplete ok) s = execApplyComplete ok s := rfl
@[simp] theorem exec_activateFirmware (via : Via) (selfContained : Bool) (s : State) : exec (.activateFirmware via selfContained) s = execActivateFirmware via selfContained s := rfl
@[simp] theorem exec_otpProg (pf : Pf) (s : State) : exec (.otpProg pf) s = execOtpProg pf s := rfl
@[simp] theorem exec_busStuck (seg : Fin 32) (line : SdaLine) (s : State) : exec (.busStuck seg line) s = execBusStuck seg line s := rfl
@[simp] theorem exec_moduleBusProbe (trunkLow : Bool) (lines : List SdaLine) (s : State) : exec (.moduleBusProbe trunkLow lines) s = execModuleBusProbe trunkLow lines s := rfl
@[simp] theorem exec_mbsRetry (pf : Pf) (trunkLow : Bool) (s : State) : exec (.mbsRetry pf trunkLow) s = execMbsRetry pf trunkLow s := rfl
@[simp] theorem exec_segmentRetry (pf : Pf) (seg : Fin 32) (line : SdaLine) (s : State) : exec (.segmentRetry pf seg line) s = execSegmentRetry pf seg line s := rfl
@[simp] theorem exec_presenceChange (cage : Fin 16) (present : Bool) (s : State) : exec (.presenceChange cage present) s = execPresenceChange cage present s := rfl
@[simp] theorem exec_presenceScan (pf : Option Pf) (s : State) : exec (.presenceScan pf) s = execPresenceScan pf s := rfl
@[simp] theorem exec_scanSettle (s : State) : exec (.scanSettle) s = execScanSettle s := rfl
@[simp] theorem exec_modulePoll (cage : Fin 16) (answer : ModuleAnswer) (s : State) : exec (.modulePoll cage answer) s = execModulePoll cage answer s := rfl
@[simp] theorem exec_powerDown (s : State) : exec (.powerDown) s = execPowerDown s := rfl
@[simp] theorem exec_vbatApplication (s : State) : exec (.vbatApplication) s = execVbatApplication s := rfl
@[simp] theorem exec_rnrTimer (qpn : Fin 65536) (s : State) : exec (.rnrTimer qpn) s = execRnrTimer qpn s := rfl
@[simp] theorem exec_controllerEnable (fn : Fn) (s : State) : exec (.controllerEnable fn) s = execControllerEnable fn s := rfl
@[simp] theorem exec_controlCoreReturn (core : Fin 12) (pass : Bool) (s : State) : exec (.controlCoreReturn core pass) s = execControlCoreReturn core pass s := rfl

end Sys2Proof.Laws
end

