-- ==== Sys2Proof/Laws/Tbl.lean ====
section
/-! SUPPORT. The laws of sparse tables: what a table reads as after a change, in every table, and that every change keeps the
canonical form. -/

namespace Sys2Proof.Laws

open Sys2Proof.Machine

variable {α : Type}

/-- Reading the key just listed. -/
theorem look_insert_same {dflt : α} (v : α) (i : Nat) : ∀ t : Tbl α, look dflt (Tbl.insert t i v) i = v
  | [] => by simp [Tbl.insert, look]
  | (k, w) :: t => by
    simp only [Tbl.insert]
    split
    · simp [look]
    · split
      · simp [look]
      · rename_i _ h2
        simp [look, h2, look_insert_same v i t]

/-- Listing a key leaves every other key as it was. -/
theorem look_insert_other {dflt : α} (v : α) {i j : Nat} (h : j ≠ i) : ∀ t : Tbl α, look dflt (Tbl.insert t i v) j = look dflt t j
  | [] => by simp [Tbl.insert, look, h]
  | (k, w) :: t => by
    simp only [Tbl.insert]
    split
    · simp [look, h]
    · split
      · rename_i _ h2
        subst h2
        simp [look, h]
      · simp [look, look_insert_other v h t]

/-- Erasing a key leaves every other key as it was. -/
theorem look_erase_other {dflt : α} {i j : Nat} (h : j ≠ i) : ∀ t : Tbl α, look dflt (Tbl.erase t i) j = look dflt t j
  | [] => rfl
  | (k, w) :: t => by
    simp only [Tbl.erase]
    split
    · rename_i h2
      subst h2
      simp [look, h, look_erase_other h t]
    · simp [look, look_erase_other h t]

/-- An erased key reads as the default. -/
theorem look_erase_same {dflt : α} (i : Nat) : ∀ t : Tbl α, look dflt (Tbl.erase t i) i = dflt
  | [] => rfl
  | (k, w) :: t => by
    simp only [Tbl.erase]
    split
    · exact look_erase_same i t
    · rename_i h
      simp [look, h, look_erase_same i t]

theorem rising_mono {t : Tbl α} : ∀ {lo lo' : Nat}, lo' ≤ lo → Tbl.rising lo t = true → Tbl.rising lo' t = true := by
  cases t with
  | nil => intros; rfl
  | cons e t =>
    intro lo lo' h hr
    simp only [Tbl.rising, Bool.and_eq_true, decide_eq_true_eq] at hr ⊢
    exact ⟨Nat.le_trans h hr.1, hr.2⟩

theorem rising_insert (v : α) (i : Nat) : ∀ {lo : Nat} {t : Tbl α}, lo ≤ i → Tbl.rising lo t = true → Tbl.rising lo (Tbl.insert t i v) = true
  | _, [], hl, _ => by simp [Tbl.insert, Tbl.rising, hl]
  | lo, (k, w) :: t, hl, hr => by
    simp only [Tbl.rising, Bool.and_eq_true, decide_eq_true_eq] at hr
    simp only [Tbl.insert]
    split
    · simp only [Tbl.rising, Bool.and_eq_true, decide_eq_true_eq]
      exact ⟨hl, by omega, hr.2⟩
    · split
      · rename_i h1 h2
        subst h2
        simp [Tbl.rising, hr]
      · simp only [Tbl.rising, Bool.and_eq_true, decide_eq_true_eq]
        exact ⟨hr.1, rising_insert v i (by omega) hr.2⟩

theorem rising_erase (i : Nat) : ∀ {lo : Nat} {t : Tbl α}, Tbl.rising lo t = true → Tbl.rising lo (Tbl.erase t i) = true
  | _, [], _ => rfl
  | lo, (k, w) :: t, hr => by
    simp only [Tbl.rising, Bool.and_eq_true, decide_eq_true_eq] at hr
    simp only [Tbl.erase]
    split
    · exact rising_mono (by omega) (rising_erase i hr.2)
    · simp only [Tbl.rising, Bool.and_eq_true, decide_eq_true_eq]
      exact ⟨hr.1, rising_erase i hr.2⟩

theorem mem_insert {v : α} {i : Nat} {e : Nat × α} : ∀ {t : Tbl α}, e ∈ Tbl.insert t i v → e = (i, v) ∨ e ∈ t
  | [], h => by simpa [Tbl.insert] using h
  | (k, w) :: t, h => by
    simp only [Tbl.insert] at h
    split at h
    · simpa using h
    · split at h
      · rcases List.mem_cons.1 h with h | h
        · exact .inl h
        · exact .inr (List.mem_cons_of_mem _ h)
      · rcases List.mem_cons.1 h with h | h
        · exact .inr (h ▸ List.mem_cons_self ..)
        · rcases mem_insert h with h | h
          · exact .inl h
          · exact .inr (List.mem_cons_of_mem _ h)

theorem mem_erase {i : Nat} {e : Nat × α} : ∀ {t : Tbl α}, e ∈ Tbl.erase t i → e ∈ t
  | [], h => h
  | (k, w) :: t, h => by
    simp only [Tbl.erase] at h
    split at h
    · exact List.mem_cons_of_mem _ (mem_erase h)
    · rcases List.mem_cons.1 h with h | h
      · exact h ▸ List.mem_cons_self ..
      · exact List.mem_cons_of_mem _ (mem_erase h)

/-- What a table reads below its first key. -/
theorem look_below {dflt : α} : ∀ {t : Tbl α} {lo i : Nat}, Tbl.rising lo t = true → i < lo → look dflt t i = dflt
  | [], _, _, _, _ => rfl
  | (k, v) :: t, lo, i, hr, hi => by
    simp only [Tbl.rising, Bool.and_eq_true, decide_eq_true_eq] at hr
    have h : i ≠ k := by omega
    simp only [look, h, if_false]
    exact look_below hr.2 (by omega)

variable [DecidableEq α]

/-- A table reads, at the key just set, the value set. -/
@[simp] theorem look_put_same (dflt : α) (t : Tbl α) (i : Nat) (v : α) : look dflt (put dflt t i v) i = v := by
  unfold put
  split
  · rename_i hv
    rw [look_erase_same i t, hv]
  · exact look_insert_same v i t

/-- Setting a key leaves every other key as it was. -/
theorem look_put_other {dflt dflt' : α} (t : Tbl α) {i j : Nat} (v : α) (hj : j ≠ i) : look dflt' (put dflt t i v) j = look dflt' t j := by
  unfold put
  split
  · exact look_erase_other hj t
  · exact look_insert_other v hj t

/-- Setting a key keeps the canonical form. -/
theorem wf_put {dflt : α} {t : Tbl α} (h : Tbl.wf dflt t = true) (i : Nat) (v : α) : Tbl.wf dflt (put dflt t i v) = true := by
  simp only [Tbl.wf, Bool.and_eq_true, List.all_eq_true, decide_eq_true_eq] at h ⊢
  unfold put
  split
  · exact ⟨rising_erase i h.1, fun e he => h.2 e (mem_erase he)⟩
  · rename_i hv
    refine ⟨rising_insert v i (Nat.zero_le _) h.1, fun e he => ?_⟩
    rcases mem_insert he with rfl | he
    · exact hv
    · exact h.2 e he

/-- A table that lists nothing has the canonical form, and reads as the default everywhere. -/
theorem wf_nil (dflt : α) : Tbl.wf dflt ([] : Tbl α) = true := rfl

/-- Rewriting the listed values keeps the canonical form. -/
theorem rising_mapKept (dflt : α) (g : Nat → α → α) : ∀ {lo : Nat} {t : Tbl α}, Tbl.rising lo t = true →
    Tbl.rising lo (Tbl.mapKept dflt g t) = true
  | _, [], _ => rfl
  | lo, (k, v) :: t, hr => by
    simp only [Tbl.rising, Bool.and_eq_true, decide_eq_true_eq] at hr
    simp only [Tbl.mapKept]
    split
    · exact rising_mono (by omega) (rising_mapKept dflt g hr.2)
    · simp only [Tbl.rising, Bool.and_eq_true, decide_eq_true_eq]
      exact ⟨hr.1, rising_mapKept dflt g hr.2⟩

theorem all_mapKept (dflt : α) (g : Nat → α → α) : ∀ t : Tbl α, (Tbl.mapKept dflt g t).all (fun e => decide (e.2 ≠ dflt)) = true
  | [] => rfl
  | (k, v) :: t => by
    simp only [Tbl.mapKept]
    split
    · exact all_mapKept dflt g t
    · rename_i h
      simp only [List.all_cons, Bool.and_eq_true, decide_eq_true_eq]
      exact ⟨h, all_mapKept dflt g t⟩

theorem wf_mapKept {dflt : α} (g : Nat → α → α) {t : Tbl α} (h : Tbl.wf dflt t = true) : Tbl.wf dflt (Tbl.mapKept dflt g t) = true := by
  simp only [Tbl.wf, Bool.and_eq_true] at h ⊢
  exact ⟨rising_mapKept dflt g h.1, all_mapKept dflt g t⟩

/-- Two tables in canonical form that read alike everywhere are the same table. -/
theorem wf_ext {dflt : α} : ∀ {t u : Tbl α} {lo : Nat}, Tbl.rising lo t = true → Tbl.rising lo u = true →
    t.all (fun e => decide (e.2 ≠ dflt)) = true → u.all (fun e => decide (e.2 ≠ dflt)) = true →
    (∀ i, look dflt t i = look dflt u i) → t = u
  | [], [], _, _, _, _, _, _ => rfl
  | [], (k, v) :: u, lo, _, _, _, hu, h => by
    have := h k
    simp only [List.all_cons, Bool.and_eq_true, decide_eq_true_eq] at hu
    simp [look] at this
    exact absurd this.symm hu.1
  | (k, v) :: t, [], lo, _, _, ht, _, h => by
    have := h k
    simp only [List.all_cons, Bool.and_eq_true, decide_eq_true_eq] at ht
    simp [look] at this
    exact absurd this ht.1
  | (k, v) :: t, (k', v') :: u, lo, hrt, hru, ht, hu, h => by
    simp only [List.all_cons, Bool.and_eq_true, decide_eq_true_eq] at ht hu
    simp only [Tbl.rising, Bool.and_eq_true, decide_eq_true_eq] at hrt hru
    have hk : k = k' := by
      rcases Nat.lt_trichotomy k k' with hlt | heq | hgt
      · have := h k
        simp only [look, if_true, show k ≠ k' by omega, if_false] at this
        rw [look_below hru.2 (by omega)] at this
        exact absurd this ht.1
      · exact heq
      · have := h k'
        simp only [look, if_true, show k' ≠ k by omega, if_false] at this
        rw [look_below hrt.2 (by omega)] at this
        exact absurd this.symm hu.1
    subst hk
    have hv : v = v' := by simpa [look] using h k
    subst hv
    congr 1
    refine wf_ext hrt.2 hru.2 ht.2 hu.2 (fun i => ?_)
    by_cases hi : i < k + 1
    · rw [look_below hrt.2 hi, look_below hru.2 hi]
    · have := h i
      simpa [look, show i ≠ k by omega] using this

end Sys2Proof.Laws
end

