-- ==== Sys2Proof/Laws/State.lean ====
section
/-! SUPPORT. What the named updates of the device leave and what they set: one lemma per update and field, true by unfolding. -/

namespace Sys2Proof.Laws

open Sys2Proof.Machine

variable (d : Dev)

/-! ## Register fields -/

/-- A register field reads what was written to it, cut to its width. -/
@[simp] theorem rd_wr_same (f : Fld) (i v : Nat) : (d.wr f i v).rd f i = v % 2 ^ f.w := by
  simp [Dev.rd, Dev.wr]

/-- A write leaves every other field instance as it was. -/
theorem rd_wr_key {f g : Fld} {i j : Nat} (v : Nat) (h : g.key j ≠ f.key i) : (d.wr f i v).rd g j = d.rd g j := by
  simp only [Dev.rd, Dev.wr]
  exact look_put_other _ _ h

/-- Different fields, or different instances of one, have different keys. -/
theorem key_ne {f g : Fld} {i j : Nat} (hf : f.id < 1024) (hg : g.id < 1024) (h : f.id ≠ g.id ∨ i ≠ j) : g.key j ≠ f.key i := by
  unfold Fld.key
  omega

/-- A write leaves every other field of the map, and every other instance, as it was. -/
theorem rd_wr_other {f g : Fld} {i j : Nat} (v : Nat) (hf : f.id < 1024) (hg : g.id < 1024) (h : f.id ≠ g.id ∨ i ≠ j) :
    (d.wr f i v).rd g j = d.rd g j := rd_wr_key d v (key_ne hf hg h)


/-! ## `Dev.setAcsEntry` -/

@[simp] theorem setAcsEntry_regs (pipe bank index : Nat) (e : AcsEntry) : (d.setAcsEntry pipe bank index e).regs = d.regs := rfl
@[simp] theorem setAcsEntry_evt (pipe bank index : Nat) (e : AcsEntry) : (d.setAcsEntry pipe bank index e).evt = d.evt := rfl
@[simp] theorem setAcsEntry_eng (pipe bank index : Nat) (e : AcsEntry) : (d.setAcsEntry pipe bank index e).eng = d.eng := rfl
@[simp] theorem setAcsEntry_prog (pipe bank index : Nat) (e : AcsEntry) : (d.setAcsEntry pipe bank index e).prog = d.prog := rfl
@[simp] theorem setAcsEntry_dsp (pipe bank index : Nat) (e : AcsEntry) : (d.setAcsEntry pipe bank index e).dsp = d.dsp := rfl
@[simp] theorem setAcsEntry_rng (pipe bank index : Nat) (e : AcsEntry) : (d.setAcsEntry pipe bank index e).rng = d.rng := rfl
@[simp] theorem setAcsEntry_hif (pipe bank index : Nat) (e : AcsEntry) : (d.setAcsEntry pipe bank index e).hif = d.hif := rfl
@[simp] theorem setAcsEntry_mac (pipe bank index : Nat) (e : AcsEntry) : (d.setAcsEntry pipe bank index e).mac = d.mac := rfl
@[simp] theorem setAcsEntry_fwd (pipe bank index : Nat) (e : AcsEntry) : (d.setAcsEntry pipe bank index e).fwd = d.fwd := rfl
@[simp] theorem setAcsEntry_tmpl (pipe bank index : Nat) (e : AcsEntry) : (d.setAcsEntry pipe bank index e).tmpl = d.tmpl := rfl
@[simp] theorem setAcsEntry_sch (pipe bank index : Nat) (e : AcsEntry) : (d.setAcsEntry pipe bank index e).sch = d.sch := rfl
@[simp] theorem setAcsEntry_slu (pipe bank index : Nat) (e : AcsEntry) : (d.setAcsEntry pipe bank index e).slu = d.slu := rfl
@[simp] theorem setAcsEntry_adm (pipe bank index : Nat) (e : AcsEntry) : (d.setAcsEntry pipe bank index e).adm = d.adm := rfl
@[simp] theorem setAcsEntry_dup (pipe bank index : Nat) (e : AcsEntry) : (d.setAcsEntry pipe bank index e).dup = d.dup := rfl
@[simp] theorem setAcsEntry_mbx (pipe bank index : Nat) (e : AcsEntry) : (d.setAcsEntry pipe bank index e).mbx = d.mbx := rfl
@[simp] theorem setAcsEntry_cip (pipe bank index : Nat) (e : AcsEntry) : (d.setAcsEntry pipe bank index e).cip = d.cip := rfl
@[simp] theorem setAcsEntry_sto (pipe bank index : Nat) (e : AcsEntry) : (d.setAcsEntry pipe bank index e).sto = d.sto := rfl
@[simp] theorem setAcsEntry_bat (pipe bank index : Nat) (e : AcsEntry) : (d.setAcsEntry pipe bank index e).bat = d.bat := rfl
@[simp] theorem setAcsEntry_dkw (pipe bank index : Nat) (e : AcsEntry) : (d.setAcsEntry pipe bank index e).dkw = d.dkw := rfl
@[simp] theorem setAcsEntry_mgt (pipe bank index : Nat) (e : AcsEntry) : (d.setAcsEntry pipe bank index e).mgt = d.mgt := rfl
@[simp] theorem setAcsEntry_warming (pipe bank index : Nat) (e : AcsEntry) : (d.setAcsEntry pipe bank index e).warming = d.warming := rfl
@[simp] theorem setAcsEntry_free (pipe bank index : Nat) (e : AcsEntry) : (d.setAcsEntry pipe bank index e).free = d.free := rfl
@[simp] theorem setAcsEntry_out (pipe bank index : Nat) (e : AcsEntry) : (d.setAcsEntry pipe bank index e).out = d.out := rfl
@[simp] theorem setAcsEntry_acs_profiles (pipe bank index : Nat) (e : AcsEntry) : (d.setAcsEntry pipe bank index e).acs.profiles = d.acs.profiles := rfl
@[simp] theorem setAcsEntry_acs_searches (pipe bank index : Nat) (e : AcsEntry) : (d.setAcsEntry pipe bank index e).acs.searches = d.acs.searches := rfl
@[simp] theorem setAcsEntry_acs_waiting (pipe bank index : Nat) (e : AcsEntry) : (d.setAcsEntry pipe bank index e).acs.waiting = d.acs.waiting := rfl
@[simp] theorem setAcsEntry_acs_running (pipe bank index : Nat) (e : AcsEntry) : (d.setAcsEntry pipe bank index e).acs.running = d.acs.running := rfl
@[simp] theorem setAcsEntry_acs_rot (pipe bank index : Nat) (e : AcsEntry) : (d.setAcsEntry pipe bank index e).acs.rot = d.acs.rot := rfl
@[simp] theorem rd_setAcsEntry (pipe bank index : Nat) (e : AcsEntry) (f_ : Fld) (i_ : Nat) : (d.setAcsEntry pipe bank index e).rd f_ i_ = d.rd f_ i_ := rfl
@[simp] theorem ctx_setAcsEntry (pipe bank index : Nat) (e : AcsEntry) (x_ : Nat) : (d.setAcsEntry pipe bank index e).ctx x_ = d.ctx x_ := rfl
@[simp] theorem acsEntry_setAcsEntry_same (pipe bank index : Nat) (e : AcsEntry) : (d.setAcsEntry pipe bank index e).acsEntry pipe bank index = e := by
  simp [Dev.acsEntry, Dev.setAcsEntry]

/-! ## `Dev.setCore` -/

@[simp] theorem setCore_regs (c : Nat) (x : CipCore) : (d.setCore c x).regs = d.regs := rfl
@[simp] theorem setCore_evt (c : Nat) (x : CipCore) : (d.setCore c x).evt = d.evt := rfl
@[simp] theorem setCore_eng (c : Nat) (x : CipCore) : (d.setCore c x).eng = d.eng := rfl
@[simp] theorem setCore_prog (c : Nat) (x : CipCore) : (d.setCore c x).prog = d.prog := rfl
@[simp] theorem setCore_dsp (c : Nat) (x : CipCore) : (d.setCore c x).dsp = d.dsp := rfl
@[simp] theorem setCore_rng (c : Nat) (x : CipCore) : (d.setCore c x).rng = d.rng := rfl
@[simp] theorem setCore_hif (c : Nat) (x : CipCore) : (d.setCore c x).hif = d.hif := rfl
@[simp] theorem setCore_mac (c : Nat) (x : CipCore) : (d.setCore c x).mac = d.mac := rfl
@[simp] theorem setCore_acs (c : Nat) (x : CipCore) : (d.setCore c x).acs = d.acs := rfl
@[simp] theorem setCore_fwd (c : Nat) (x : CipCore) : (d.setCore c x).fwd = d.fwd := rfl
@[simp] theorem setCore_tmpl (c : Nat) (x : CipCore) : (d.setCore c x).tmpl = d.tmpl := rfl
@[simp] theorem setCore_sch (c : Nat) (x : CipCore) : (d.setCore c x).sch = d.sch := rfl
@[simp] theorem setCore_slu (c : Nat) (x : CipCore) : (d.setCore c x).slu = d.slu := rfl
@[simp] theorem setCore_adm (c : Nat) (x : CipCore) : (d.setCore c x).adm = d.adm := rfl
@[simp] theorem setCore_dup (c : Nat) (x : CipCore) : (d.setCore c x).dup = d.dup := rfl
@[simp] theorem setCore_mbx (c : Nat) (x : CipCore) : (d.setCore c x).mbx = d.mbx := rfl
@[simp] theorem setCore_sto (c : Nat) (x : CipCore) : (d.setCore c x).sto = d.sto := rfl
@[simp] theorem setCore_bat (c : Nat) (x : CipCore) : (d.setCore c x).bat = d.bat := rfl
@[simp] theorem setCore_dkw (c : Nat) (x : CipCore) : (d.setCore c x).dkw = d.dkw := rfl
@[simp] theorem setCore_mgt (c : Nat) (x : CipCore) : (d.setCore c x).mgt = d.mgt := rfl
@[simp] theorem setCore_warming (c : Nat) (x : CipCore) : (d.setCore c x).warming = d.warming := rfl
@[simp] theorem setCore_free (c : Nat) (x : CipCore) : (d.setCore c x).free = d.free := rfl
@[simp] theorem setCore_out (c : Nat) (x : CipCore) : (d.setCore c x).out = d.out := rfl
@[simp] theorem setCore_cip_slots (c : Nat) (x : CipCore) : (d.setCore c x).cip.slots = d.cip.slots := rfl
@[simp] theorem setCore_cip_jobs (c : Nat) (x : CipCore) : (d.setCore c x).cip.jobs = d.cip.jobs := rfl
@[simp] theorem setCore_cip_next (c : Nat) (x : CipCore) : (d.setCore c x).cip.next = d.cip.next := rfl
@[simp] theorem setCore_cip_queues (c : Nat) (x : CipCore) : (d.setCore c x).cip.queues = d.cip.queues := rfl
@[simp] theorem setCore_cip_later (c : Nat) (x : CipCore) : (d.setCore c x).cip.later = d.cip.later := rfl
@[simp] theorem setCore_cip_masks (c : Nat) (x : CipCore) : (d.setCore c x).cip.masks = d.cip.masks := rfl
@[simp] theorem setCore_cip_drbg (c : Nat) (x : CipCore) : (d.setCore c x).cip.drbg = d.cip.drbg := rfl
@[simp] theorem setCore_cip_keyRot (c : Nat) (x : CipCore) : (d.setCore c x).cip.keyRot = d.cip.keyRot := rfl
@[simp] theorem setCore_cip_keyMet (c : Nat) (x : CipCore) : (d.setCore c x).cip.keyMet = d.cip.keyMet := rfl
@[simp] theorem setCore_cip_sess (c : Nat) (x : CipCore) : (d.setCore c x).cip.sess = d.cip.sess := rfl
@[simp] theorem setCore_cip_sessNo (c : Nat) (x : CipCore) : (d.setCore c x).cip.sessNo = d.cip.sessNo := rfl
@[simp] theorem rd_setCore (c : Nat) (x : CipCore) (f_ : Fld) (i_ : Nat) : (d.setCore c x).rd f_ i_ = d.rd f_ i_ := rfl
@[simp] theorem ctx_setCore (c : Nat) (x : CipCore) (x_ : Nat) : (d.setCore c x).ctx x_ = d.ctx x_ := rfl
@[simp] theorem core_setCore_same (c : Nat) (x : CipCore) : (d.setCore c x).core c = x := by
  simp [Dev.core, Dev.setCore]
theorem core_setCore_other (c : Nat) (x : CipCore) {j_ : Nat} (h : j_ ≠ c) : (d.setCore c x).core j_ = d.core j_ := by
  simp only [Dev.core, Dev.setCore]
  exact look_put_other _ _ h

/-! ## `Dev.setCoh` -/

@[simp] theorem setCoh_regs (m : Coh) : (d.setCoh m).regs = d.regs := rfl
@[simp] theorem setCoh_evt (m : Coh) : (d.setCoh m).evt = d.evt := rfl
@[simp] theorem setCoh_prog (m : Coh) : (d.setCoh m).prog = d.prog := rfl
@[simp] theorem setCoh_dsp (m : Coh) : (d.setCoh m).dsp = d.dsp := rfl
@[simp] theorem setCoh_rng (m : Coh) : (d.setCoh m).rng = d.rng := rfl
@[simp] theorem setCoh_hif (m : Coh) : (d.setCoh m).hif = d.hif := rfl
@[simp] theorem setCoh_mac (m : Coh) : (d.setCoh m).mac = d.mac := rfl
@[simp] theorem setCoh_acs (m : Coh) : (d.setCoh m).acs = d.acs := rfl
@[simp] theorem setCoh_fwd (m : Coh) : (d.setCoh m).fwd = d.fwd := rfl
@[simp] theorem setCoh_tmpl (m : Coh) : (d.setCoh m).tmpl = d.tmpl := rfl
@[simp] theorem setCoh_sch (m : Coh) : (d.setCoh m).sch = d.sch := rfl
@[simp] theorem setCoh_slu (m : Coh) : (d.setCoh m).slu = d.slu := rfl
@[simp] theorem setCoh_adm (m : Coh) : (d.setCoh m).adm = d.adm := rfl
@[simp] theorem setCoh_dup (m : Coh) : (d.setCoh m).dup = d.dup := rfl
@[simp] theorem setCoh_mbx (m : Coh) : (d.setCoh m).mbx = d.mbx := rfl
@[simp] theorem setCoh_cip (m : Coh) : (d.setCoh m).cip = d.cip := rfl
@[simp] theorem setCoh_sto (m : Coh) : (d.setCoh m).sto = d.sto := rfl
@[simp] theorem setCoh_bat (m : Coh) : (d.setCoh m).bat = d.bat := rfl
@[simp] theorem setCoh_dkw (m : Coh) : (d.setCoh m).dkw = d.dkw := rfl
@[simp] theorem setCoh_mgt (m : Coh) : (d.setCoh m).mgt = d.mgt := rfl
@[simp] theorem setCoh_warming (m : Coh) : (d.setCoh m).warming = d.warming := rfl
@[simp] theorem setCoh_free (m : Coh) : (d.setCoh m).free = d.free := rfl
@[simp] theorem setCoh_out (m : Coh) : (d.setCoh m).out = d.out := rfl
@[simp] theorem setCoh_eng_ctxs (m : Coh) : (d.setCoh m).eng.ctxs = d.eng.ctxs := rfl
@[simp] theorem setCoh_eng_csrs (m : Coh) : (d.setCoh m).eng.csrs = d.eng.csrs := rfl
@[simp] theorem setCoh_eng_tasks (m : Coh) : (d.setCoh m).eng.tasks = d.eng.tasks := rfl
@[simp] theorem setCoh_eng_readyQ (m : Coh) : (d.setCoh m).eng.readyQ = d.eng.readyQ := rfl
@[simp] theorem setCoh_eng_withdraw (m : Coh) : (d.setCoh m).eng.withdraw = d.eng.withdraw := rfl
@[simp] theorem setCoh_eng_nextAge (m : Coh) : (d.setCoh m).eng.nextAge = d.eng.nextAge := rfl
@[simp] theorem setCoh_eng_beaten (m : Coh) : (d.setCoh m).eng.beaten = d.eng.beaten := rfl
@[simp] theorem setCoh_eng_strays (m : Coh) : (d.setCoh m).eng.strays = d.eng.strays := rfl
@[simp] theorem setCoh_eng_tclks (m : Coh) : (d.setCoh m).eng.tclks = d.eng.tclks := rfl
@[simp] theorem setCoh_eng_cntPkts (m : Coh) : (d.setCoh m).eng.cntPkts = d.eng.cntPkts := rfl
@[simp] theorem setCoh_eng_cntBytes (m : Coh) : (d.setCoh m).eng.cntBytes = d.eng.cntBytes := rfl
@[simp] theorem setCoh_eng_drops (m : Coh) : (d.setCoh m).eng.drops = d.eng.drops := rfl
@[simp] theorem rd_setCoh (m : Coh) (f_ : Fld) (i_ : Nat) : (d.setCoh m).rd f_ i_ = d.rd f_ i_ := rfl

/-! ## `Dev.ordinaryWaits` -/

@[simp] theorem ordinaryWaits_regs (k : Nat) : (d.ordinaryWaits k).regs = d.regs := rfl
@[simp] theorem ordinaryWaits_evt (k : Nat) : (d.ordinaryWaits k).evt = d.evt := rfl
@[simp] theorem ordinaryWaits_eng (k : Nat) : (d.ordinaryWaits k).eng = d.eng := rfl
@[simp] theorem ordinaryWaits_prog (k : Nat) : (d.ordinaryWaits k).prog = d.prog := rfl
@[simp] theorem ordinaryWaits_rng (k : Nat) : (d.ordinaryWaits k).rng = d.rng := rfl
@[simp] theorem ordinaryWaits_hif (k : Nat) : (d.ordinaryWaits k).hif = d.hif := rfl
@[simp] theorem ordinaryWaits_mac (k : Nat) : (d.ordinaryWaits k).mac = d.mac := rfl
@[simp] theorem ordinaryWaits_acs (k : Nat) : (d.ordinaryWaits k).acs = d.acs := rfl
@[simp] theorem ordinaryWaits_fwd (k : Nat) : (d.ordinaryWaits k).fwd = d.fwd := rfl
@[simp] theorem ordinaryWaits_tmpl (k : Nat) : (d.ordinaryWaits k).tmpl = d.tmpl := rfl
@[simp] theorem ordinaryWaits_sch (k : Nat) : (d.ordinaryWaits k).sch = d.sch := rfl
@[simp] theorem ordinaryWaits_slu (k : Nat) : (d.ordinaryWaits k).slu = d.slu := rfl
@[simp] theorem ordinaryWaits_adm (k : Nat) : (d.ordinaryWaits k).adm = d.adm := rfl
@[simp] theorem ordinaryWaits_dup (k : Nat) : (d.ordinaryWaits k).dup = d.dup := rfl
@[simp] theorem ordinaryWaits_mbx (k : Nat) : (d.ordinaryWaits k).mbx = d.mbx := rfl
@[simp] theorem ordinaryWaits_cip (k : Nat) : (d.ordinaryWaits k).cip = d.cip := rfl
@[simp] theorem ordinaryWaits_sto (k : Nat) : (d.ordinaryWaits k).sto = d.sto := rfl
@[simp] theorem ordinaryWaits_bat (k : Nat) : (d.ordinaryWaits k).bat = d.bat := rfl
@[simp] theorem ordinaryWaits_dkw (k : Nat) : (d.ordinaryWaits k).dkw = d.dkw := rfl
@[simp] theorem ordinaryWaits_mgt (k : Nat) : (d.ordinaryWaits k).mgt = d.mgt := rfl
@[simp] theorem ordinaryWaits_warming (k : Nat) : (d.ordinaryWaits k).warming = d.warming := rfl
@[simp] theorem ordinaryWaits_free (k : Nat) : (d.ordinaryWaits k).free = d.free := rfl
@[simp] theorem ordinaryWaits_out (k : Nat) : (d.ordinaryWaits k).out = d.out := rfl
@[simp] theorem ordinaryWaits_dsp_exprQ (k : Nat) : (d.ordinaryWaits k).dsp.exprQ = d.dsp.exprQ := rfl
@[simp] theorem ordinaryWaits_dsp_ordQ (k : Nat) : (d.ordinaryWaits k).dsp.ordQ = d.dsp.ordQ := rfl
@[simp] theorem ordinaryWaits_dsp_againQ (k : Nat) : (d.ordinaryWaits k).dsp.againQ = d.dsp.againQ := rfl
@[simp] theorem ordinaryWaits_dsp_first (k : Nat) : (d.ordinaryWaits k).dsp.first = d.dsp.first := rfl
@[simp] theorem ordinaryWaits_dsp_rot (k : Nat) : (d.ordinaryWaits k).dsp.rot = d.dsp.rot := rfl
@[simp] theorem ordinaryWaits_dsp_inflight (k : Nat) : (d.ordinaryWaits k).dsp.inflight = d.dsp.inflight := rfl
@[simp] theorem ordinaryWaits_dsp_seq (k : Nat) : (d.ordinaryWaits k).dsp.seq = d.dsp.seq := rfl
@[simp] theorem ordinaryWaits_dsp_colRot (k : Nat) : (d.ordinaryWaits k).dsp.colRot = d.dsp.colRot := rfl
@[simp] theorem ordinaryWaits_dsp_coreRot (k : Nat) : (d.ordinaryWaits k).dsp.coreRot = d.dsp.coreRot := rfl
@[simp] theorem ordinaryWaits_dsp_coreRet (k : Nat) : (d.ordinaryWaits k).dsp.coreRet = d.dsp.coreRet := rfl
@[simp] theorem ordinaryWaits_dsp_nextHold (k : Nat) : (d.ordinaryWaits k).dsp.nextHold = d.dsp.nextHold := rfl
@[simp] theorem rd_ordinaryWaits (k : Nat) (f_ : Fld) (i_ : Nat) : (d.ordinaryWaits k).rd f_ i_ = d.rd f_ i_ := rfl
@[simp] theorem ctx_ordinaryWaits (k : Nat) (x_ : Nat) : (d.ordinaryWaits k).ctx x_ = d.ctx x_ := rfl

/-! ## `Dev.setDupSource` -/

@[simp] theorem setDupSource_regs (n : Nat) (x : DupSource) : (d.setDupSource n x).regs = d.regs := rfl
@[simp] theorem setDupSource_evt (n : Nat) (x : DupSource) : (d.setDupSource n x).evt = d.evt := rfl
@[simp] theorem setDupSource_eng (n : Nat) (x : DupSource) : (d.setDupSource n x).eng = d.eng := rfl
@[simp] theorem setDupSource_prog (n : Nat) (x : DupSource) : (d.setDupSource n x).prog = d.prog := rfl
@[simp] theorem setDupSource_dsp (n : Nat) (x : DupSource) : (d.setDupSource n x).dsp = d.dsp := rfl
@[simp] theorem setDupSource_rng (n : Nat) (x : DupSource) : (d.setDupSource n x).rng = d.rng := rfl
@[simp] theorem setDupSource_hif (n : Nat) (x : DupSource) : (d.setDupSource n x).hif = d.hif := rfl
@[simp] theorem setDupSource_mac (n : Nat) (x : DupSource) : (d.setDupSource n x).mac = d.mac := rfl
@[simp] theorem setDupSource_acs (n : Nat) (x : DupSource) : (d.setDupSource n x).acs = d.acs := rfl
@[simp] theorem setDupSource_fwd (n : Nat) (x : DupSource) : (d.setDupSource n x).fwd = d.fwd := rfl
@[simp] theorem setDupSource_tmpl (n : Nat) (x : DupSource) : (d.setDupSource n x).tmpl = d.tmpl := rfl
@[simp] theorem setDupSource_sch (n : Nat) (x : DupSource) : (d.setDupSource n x).sch = d.sch := rfl
@[simp] theorem setDupSource_slu (n : Nat) (x : DupSource) : (d.setDupSource n x).slu = d.slu := rfl
@[simp] theorem setDupSource_adm (n : Nat) (x : DupSource) : (d.setDupSource n x).adm = d.adm := rfl
@[simp] theorem setDupSource_mbx (n : Nat) (x : DupSource) : (d.setDupSource n x).mbx = d.mbx := rfl
@[simp] theorem setDupSource_cip (n : Nat) (x : DupSource) : (d.setDupSource n x).cip = d.cip := rfl
@[simp] theorem setDupSource_sto (n : Nat) (x : DupSource) : (d.setDupSource n x).sto = d.sto := rfl
@[simp] theorem setDupSource_bat (n : Nat) (x : DupSource) : (d.setDupSource n x).bat = d.bat := rfl
@[simp] theorem setDupSource_dkw (n : Nat) (x : DupSource) : (d.setDupSource n x).dkw = d.dkw := rfl
@[simp] theorem setDupSource_mgt (n : Nat) (x : DupSource) : (d.setDupSource n x).mgt = d.mgt := rfl
@[simp] theorem setDupSource_warming (n : Nat) (x : DupSource) : (d.setDupSource n x).warming = d.warming := rfl
@[simp] theorem setDupSource_free (n : Nat) (x : DupSource) : (d.setDupSource n x).free = d.free := rfl
@[simp] theorem setDupSource_out (n : Nat) (x : DupSource) : (d.setDupSource n x).out = d.out := rfl
@[simp] theorem setDupSource_dup_txCtr (n : Nat) (x : DupSource) : (d.setDupSource n x).dup.txCtr = d.dup.txCtr := rfl
@[simp] theorem setDupSource_dup_path (n : Nat) (x : DupSource) : (d.setDupSource n x).dup.path = d.dup.path := rfl
@[simp] theorem setDupSource_dup_partnerEligible (n : Nat) (x : DupSource) : (d.setDupSource n x).dup.partnerEligible = d.dup.partnerEligible := rfl
@[simp] theorem setDupSource_dup_partnerPrio (n : Nat) (x : DupSource) : (d.setDupSource n x).dup.partnerPrio = d.dup.partnerPrio := rfl
@[simp] theorem setDupSource_dup_undone (n : Nat) (x : DupSource) : (d.setDupSource n x).dup.undone = d.dup.undone := rfl
@[simp] theorem rd_setDupSource (n : Nat) (x : DupSource) (f_ : Fld) (i_ : Nat) : (d.setDupSource n x).rd f_ i_ = d.rd f_ i_ := rfl
@[simp] theorem ctx_setDupSource (n : Nat) (x : DupSource) (x_ : Nat) : (d.setDupSource n x).ctx x_ = d.ctx x_ := rfl
@[simp] theorem dupSource_setDupSource_same (n : Nat) (x : DupSource) : (d.setDupSource n x).dupSource n = x := by
  simp [Dev.dupSource, Dev.setDupSource]
theorem dupSource_setDupSource_other (n : Nat) (x : DupSource) {j_ : Nat} (h : j_ ≠ n) : (d.setDupSource n x).dupSource j_ = d.dupSource j_ := by
  simp only [Dev.dupSource, Dev.setDupSource]
  exact look_put_other _ _ h

/-! ## `Dev.unlock` -/

@[simp] theorem unlock_regs (area b : Nat) : (d.unlock area b).regs = d.regs := rfl
@[simp] theorem unlock_evt (area b : Nat) : (d.unlock area b).evt = d.evt := rfl
@[simp] theorem unlock_eng (area b : Nat) : (d.unlock area b).eng = d.eng := rfl
@[simp] theorem unlock_prog (area b : Nat) : (d.unlock area b).prog = d.prog := rfl
@[simp] theorem unlock_dsp (area b : Nat) : (d.unlock area b).dsp = d.dsp := rfl
@[simp] theorem unlock_rng (area b : Nat) : (d.unlock area b).rng = d.rng := rfl
@[simp] theorem unlock_hif (area b : Nat) : (d.unlock area b).hif = d.hif := rfl
@[simp] theorem unlock_mac (area b : Nat) : (d.unlock area b).mac = d.mac := rfl
@[simp] theorem unlock_acs (area b : Nat) : (d.unlock area b).acs = d.acs := rfl
@[simp] theorem unlock_tmpl (area b : Nat) : (d.unlock area b).tmpl = d.tmpl := rfl
@[simp] theorem unlock_sch (area b : Nat) : (d.unlock area b).sch = d.sch := rfl
@[simp] theorem unlock_slu (area b : Nat) : (d.unlock area b).slu = d.slu := rfl
@[simp] theorem unlock_adm (area b : Nat) : (d.unlock area b).adm = d.adm := rfl
@[simp] theorem unlock_dup (area b : Nat) : (d.unlock area b).dup = d.dup := rfl
@[simp] theorem unlock_mbx (area b : Nat) : (d.unlock area b).mbx = d.mbx := rfl
@[simp] theorem unlock_cip (area b : Nat) : (d.unlock area b).cip = d.cip := rfl
@[simp] theorem unlock_sto (area b : Nat) : (d.unlock area b).sto = d.sto := rfl
@[simp] theorem unlock_bat (area b : Nat) : (d.unlock area b).bat = d.bat := rfl
@[simp] theorem unlock_dkw (area b : Nat) : (d.unlock area b).dkw = d.dkw := rfl
@[simp] theorem unlock_mgt (area b : Nat) : (d.unlock area b).mgt = d.mgt := rfl
@[simp] theorem unlock_warming (area b : Nat) : (d.unlock area b).warming = d.warming := rfl
@[simp] theorem unlock_free (area b : Nat) : (d.unlock area b).free = d.free := rfl
@[simp] theorem unlock_out (area b : Nat) : (d.unlock area b).out = d.out := rfl
@[simp] theorem unlock_fwd_buckets (area b : Nat) : (d.unlock area b).fwd.buckets = d.fwd.buckets := rfl
@[simp] theorem unlock_fwd_dmaWait (area b : Nat) : (d.unlock area b).fwd.dmaWait = d.fwd.dmaWait := rfl
@[simp] theorem unlock_fwd_marks (area b : Nat) : (d.unlock area b).fwd.marks = d.fwd.marks := rfl
@[simp] theorem unlock_fwd_pend (area b : Nat) : (d.unlock area b).fwd.pend = d.fwd.pend := rfl
@[simp] theorem unlock_fwd_moves (area b : Nat) : (d.unlock area b).fwd.moves = d.fwd.moves := rfl
@[simp] theorem unlock_fwd_damped (area b : Nat) : (d.unlock area b).fwd.damped = d.fwd.damped := rfl
@[simp] theorem rd_unlock (area b : Nat) (f_ : Fld) (i_ : Nat) : (d.unlock area b).rd f_ i_ = d.rd f_ i_ := rfl
@[simp] theorem ctx_unlock (area b : Nat) (x_ : Nat) : (d.unlock area b).ctx x_ = d.ctx x_ := rfl

/-! ## `Dev.setRing` -/

@[simp] theorem setRing_regs (kind r : Nat) (x : Ring) : (d.setRing kind r x).regs = d.regs := rfl
@[simp] theorem setRing_evt (kind r : Nat) (x : Ring) : (d.setRing kind r x).evt = d.evt := rfl
@[simp] theorem setRing_eng (kind r : Nat) (x : Ring) : (d.setRing kind r x).eng = d.eng := rfl
@[simp] theorem setRing_prog (kind r : Nat) (x : Ring) : (d.setRing kind r x).prog = d.prog := rfl
@[simp] theorem setRing_dsp (kind r : Nat) (x : Ring) : (d.setRing kind r x).dsp = d.dsp := rfl
@[simp] theorem setRing_hif (kind r : Nat) (x : Ring) : (d.setRing kind r x).hif = d.hif := rfl
@[simp] theorem setRing_mac (kind r : Nat) (x : Ring) : (d.setRing kind r x).mac = d.mac := rfl
@[simp] theorem setRing_acs (kind r : Nat) (x : Ring) : (d.setRing kind r x).acs = d.acs := rfl
@[simp] theorem setRing_fwd (kind r : Nat) (x : Ring) : (d.setRing kind r x).fwd = d.fwd := rfl
@[simp] theorem setRing_tmpl (kind r : Nat) (x : Ring) : (d.setRing kind r x).tmpl = d.tmpl := rfl
@[simp] theorem setRing_sch (kind r : Nat) (x : Ring) : (d.setRing kind r x).sch = d.sch := rfl
@[simp] theorem setRing_slu (kind r : Nat) (x : Ring) : (d.setRing kind r x).slu = d.slu := rfl
@[simp] theorem setRing_adm (kind r : Nat) (x : Ring) : (d.setRing kind r x).adm = d.adm := rfl
@[simp] theorem setRing_dup (kind r : Nat) (x : Ring) : (d.setRing kind r x).dup = d.dup := rfl
@[simp] theorem setRing_mbx (kind r : Nat) (x : Ring) : (d.setRing kind r x).mbx = d.mbx := rfl
@[simp] theorem setRing_cip (kind r : Nat) (x : Ring) : (d.setRing kind r x).cip = d.cip := rfl
@[simp] theorem setRing_sto (kind r : Nat) (x : Ring) : (d.setRing kind r x).sto = d.sto := rfl
@[simp] theorem setRing_bat (kind r : Nat) (x : Ring) : (d.setRing kind r x).bat = d.bat := rfl
@[simp] theorem setRing_dkw (kind r : Nat) (x : Ring) : (d.setRing kind r x).dkw = d.dkw := rfl
@[simp] theorem setRing_mgt (kind r : Nat) (x : Ring) : (d.setRing kind r x).mgt = d.mgt := rfl
@[simp] theorem setRing_warming (kind r : Nat) (x : Ring) : (d.setRing kind r x).warming = d.warming := rfl
@[simp] theorem setRing_free (kind r : Nat) (x : Ring) : (d.setRing kind r x).free = d.free := rfl
@[simp] theorem setRing_out (kind r : Nat) (x : Ring) : (d.setRing kind r x).out = d.out := rfl
@[simp] theorem setRing_rng_chans (kind r : Nat) (x : Ring) : (d.setRing kind r x).rng.chans = d.rng.chans := rfl
@[simp] theorem setRing_rng_waiting (kind r : Nat) (x : Ring) : (d.setRing kind r x).rng.waiting = d.rng.waiting := rfl
@[simp] theorem setRing_rng_rot (kind r : Nat) (x : Ring) : (d.setRing kind r x).rng.rot = d.rng.rot := rfl
@[simp] theorem setRing_rng_cpls (kind r : Nat) (x : Ring) : (d.setRing kind r x).rng.cpls = d.rng.cpls := rfl
@[simp] theorem setRing_rng_nextCpl (kind r : Nat) (x : Ring) : (d.setRing kind r x).rng.nextCpl = d.rng.nextCpl := rfl
@[simp] theorem setRing_rng_rxWait (kind r : Nat) (x : Ring) : (d.setRing kind r x).rng.rxWait = d.rng.rxWait := rfl
@[simp] theorem setRing_rng_left (kind r : Nat) (x : Ring) : (d.setRing kind r x).rng.left = d.rng.left := rfl
@[simp] theorem setRing_rng_ctxWait (kind r : Nat) (x : Ring) : (d.setRing kind r x).rng.ctxWait = d.rng.ctxWait := rfl
@[simp] theorem setRing_rng_ctxRot (kind r : Nat) (x : Ring) : (d.setRing kind r x).rng.ctxRot = d.rng.ctxRot := rfl
@[simp] theorem rd_setRing (kind r : Nat) (x : Ring) (f_ : Fld) (i_ : Nat) : (d.setRing kind r x).rd f_ i_ = d.rd f_ i_ := rfl
@[simp] theorem ctx_setRing (kind r : Nat) (x : Ring) (x_ : Nat) : (d.setRing kind r x).ctx x_ = d.ctx x_ := rfl
@[simp] theorem ring_setRing_same (kind r : Nat) (x : Ring) : (d.setRing kind r x).ring kind r = x := by
  simp [Dev.ring, Dev.setRing]

/-! ## `Dev.setNode` -/

@[simp] theorem setNode_regs (lvl n : Nat) (x : Node) : (d.setNode lvl n x).regs = d.regs := rfl
@[simp] theorem setNode_evt (lvl n : Nat) (x : Node) : (d.setNode lvl n x).evt = d.evt := rfl
@[simp] theorem setNode_eng (lvl n : Nat) (x : Node) : (d.setNode lvl n x).eng = d.eng := rfl
@[simp] theorem setNode_prog (lvl n : Nat) (x : Node) : (d.setNode lvl n x).prog = d.prog := rfl
@[simp] theorem setNode_dsp (lvl n : Nat) (x : Node) : (d.setNode lvl n x).dsp = d.dsp := rfl
@[simp] theorem setNode_rng (lvl n : Nat) (x : Node) : (d.setNode lvl n x).rng = d.rng := rfl
@[simp] theorem setNode_hif (lvl n : Nat) (x : Node) : (d.setNode lvl n x).hif = d.hif := rfl
@[simp] theorem setNode_mac (lvl n : Nat) (x : Node) : (d.setNode lvl n x).mac = d.mac := rfl
@[simp] theorem setNode_acs (lvl n : Nat) (x : Node) : (d.setNode lvl n x).acs = d.acs := rfl
@[simp] theorem setNode_fwd (lvl n : Nat) (x : Node) : (d.setNode lvl n x).fwd = d.fwd := rfl
@[simp] theorem setNode_tmpl (lvl n : Nat) (x : Node) : (d.setNode lvl n x).tmpl = d.tmpl := rfl
@[simp] theorem setNode_slu (lvl n : Nat) (x : Node) : (d.setNode lvl n x).slu = d.slu := rfl
@[simp] theorem setNode_adm (lvl n : Nat) (x : Node) : (d.setNode lvl n x).adm = d.adm := rfl
@[simp] theorem setNode_dup (lvl n : Nat) (x : Node) : (d.setNode lvl n x).dup = d.dup := rfl
@[simp] theorem setNode_mbx (lvl n : Nat) (x : Node) : (d.setNode lvl n x).mbx = d.mbx := rfl
@[simp] theorem setNode_cip (lvl n : Nat) (x : Node) : (d.setNode lvl n x).cip = d.cip := rfl
@[simp] theorem setNode_sto (lvl n : Nat) (x : Node) : (d.setNode lvl n x).sto = d.sto := rfl
@[simp] theorem setNode_bat (lvl n : Nat) (x : Node) : (d.setNode lvl n x).bat = d.bat := rfl
@[simp] theorem setNode_dkw (lvl n : Nat) (x : Node) : (d.setNode lvl n x).dkw = d.dkw := rfl
@[simp] theorem setNode_mgt (lvl n : Nat) (x : Node) : (d.setNode lvl n x).mgt = d.mgt := rfl
@[simp] theorem setNode_warming (lvl n : Nat) (x : Node) : (d.setNode lvl n x).warming = d.warming := rfl
@[simp] theorem setNode_free (lvl n : Nat) (x : Node) : (d.setNode lvl n x).free = d.free := rfl
@[simp] theorem setNode_out (lvl n : Nat) (x : Node) : (d.setNode lvl n x).out = d.out := rfl
@[simp] theorem setNode_sch_queues (lvl n : Nat) (x : Node) : (d.setNode lvl n x).sch.queues = d.sch.queues := rfl
@[simp] theorem setNode_sch_shared (lvl n : Nat) (x : Node) : (d.setNode lvl n x).sch.shared = d.sch.shared := rfl
@[simp] theorem setNode_sch_nextShare (lvl n : Nat) (x : Node) : (d.setNode lvl n x).sch.nextShare = d.sch.nextShare := rfl
@[simp] theorem setNode_sch_poolBe (lvl n : Nat) (x : Node) : (d.setNode lvl n x).sch.poolBe = d.sch.poolBe := rfl
@[simp] theorem setNode_sch_poolAdm (lvl n : Nat) (x : Node) : (d.setNode lvl n x).sch.poolAdm = d.sch.poolAdm := rfl
@[simp] theorem setNode_sch_waiting (lvl n : Nat) (x : Node) : (d.setNode lvl n x).sch.waiting = d.sch.waiting := rfl
@[simp] theorem setNode_sch_cmdRot (lvl n : Nat) (x : Node) : (d.setNode lvl n x).sch.cmdRot = d.sch.cmdRot := rfl
@[simp] theorem rd_setNode (lvl n : Nat) (x : Node) (f_ : Fld) (i_ : Nat) : (d.setNode lvl n x).rd f_ i_ = d.rd f_ i_ := rfl
@[simp] theorem ctx_setNode (lvl n : Nat) (x : Node) (x_ : Nat) : (d.setNode lvl n x).ctx x_ = d.ctx x_ := rfl
@[simp] theorem node_setNode_same (lvl n : Nat) (x : Node) : (d.setNode lvl n x).node lvl n = x := by
  simp [Dev.node, Dev.setNode]

/-! ## `Dev.setInbox` -/

@[simp] theorem setInbox_regs (r : Nat) (l : List Msg) : (d.setInbox r l).regs = d.regs := rfl
@[simp] theorem setInbox_evt (r : Nat) (l : List Msg) : (d.setInbox r l).evt = d.evt := rfl
@[simp] theorem setInbox_eng (r : Nat) (l : List Msg) : (d.setInbox r l).eng = d.eng := rfl
@[simp] theorem setInbox_prog (r : Nat) (l : List Msg) : (d.setInbox r l).prog = d.prog := rfl
@[simp] theorem setInbox_dsp (r : Nat) (l : List Msg) : (d.setInbox r l).dsp = d.dsp := rfl
@[simp] theorem setInbox_rng (r : Nat) (l : List Msg) : (d.setInbox r l).rng = d.rng := rfl
@[simp] theorem setInbox_hif (r : Nat) (l : List Msg) : (d.setInbox r l).hif = d.hif := rfl
@[simp] theorem setInbox_mac (r : Nat) (l : List Msg) : (d.setInbox r l).mac = d.mac := rfl
@[simp] theorem setInbox_acs (r : Nat) (l : List Msg) : (d.setInbox r l).acs = d.acs := rfl
@[simp] theorem setInbox_fwd (r : Nat) (l : List Msg) : (d.setInbox r l).fwd = d.fwd := rfl
@[simp] theorem setInbox_tmpl (r : Nat) (l : List Msg) : (d.setInbox r l).tmpl = d.tmpl := rfl
@[simp] theorem setInbox_sch (r : Nat) (l : List Msg) : (d.setInbox r l).sch = d.sch := rfl
@[simp] theorem setInbox_slu (r : Nat) (l : List Msg) : (d.setInbox r l).slu = d.slu := rfl
@[simp] theorem setInbox_adm (r : Nat) (l : List Msg) : (d.setInbox r l).adm = d.adm := rfl
@[simp] theorem setInbox_dup (r : Nat) (l : List Msg) : (d.setInbox r l).dup = d.dup := rfl
@[simp] theorem setInbox_cip (r : Nat) (l : List Msg) : (d.setInbox r l).cip = d.cip := rfl
@[simp] theorem setInbox_sto (r : Nat) (l : List Msg) : (d.setInbox r l).sto = d.sto := rfl
@[simp] theorem setInbox_bat (r : Nat) (l : List Msg) : (d.setInbox r l).bat = d.bat := rfl
@[simp] theorem setInbox_dkw (r : Nat) (l : List Msg) : (d.setInbox r l).dkw = d.dkw := rfl
@[simp] theorem setInbox_mgt (r : Nat) (l : List Msg) : (d.setInbox r l).mgt = d.mgt := rfl
@[simp] theorem setInbox_warming (r : Nat) (l : List Msg) : (d.setInbox r l).warming = d.warming := rfl
@[simp] theorem setInbox_free (r : Nat) (l : List Msg) : (d.setInbox r l).free = d.free := rfl
@[simp] theorem setInbox_out (r : Nat) (l : List Msg) : (d.setInbox r l).out = d.out := rfl
@[simp] theorem setInbox_mbx_count (r : Nat) (l : List Msg) : (d.setInbox r l).mbx.count = d.mbx.count := rfl
@[simp] theorem setInbox_mbx_gone (r : Nat) (l : List Msg) : (d.setInbox r l).mbx.gone = d.mbx.gone := rfl
@[simp] theorem setInbox_mbx_overflow (r : Nat) (l : List Msg) : (d.setInbox r l).mbx.overflow = d.mbx.overflow := rfl
@[simp] theorem setInbox_mbx_work (r : Nat) (l : List Msg) : (d.setInbox r l).mbx.work = d.mbx.work := rfl
@[simp] theorem setInbox_mbx_rot (r : Nat) (l : List Msg) : (d.setInbox r l).mbx.rot = d.mbx.rot := rfl
@[simp] theorem setInbox_mbx_ccResult (r : Nat) (l : List Msg) : (d.setInbox r l).mbx.ccResult = d.mbx.ccResult := rfl
@[simp] theorem setInbox_mbx_mgtResult (r : Nat) (l : List Msg) : (d.setInbox r l).mbx.mgtResult = d.mbx.mgtResult := rfl
@[simp] theorem rd_setInbox (r : Nat) (l : List Msg) (f_ : Fld) (i_ : Nat) : (d.setInbox r l).rd f_ i_ = d.rd f_ i_ := rfl
@[simp] theorem ctx_setInbox (r : Nat) (l : List Msg) (x_ : Nat) : (d.setInbox r l).ctx x_ = d.ctx x_ := rfl
@[simp] theorem inboxOf_setInbox_same (r : Nat) (l : List Msg) : (d.setInbox r l).inboxOf r = l := by
  simp [Dev.inboxOf, Dev.setInbox]
theorem inboxOf_setInbox_other (r : Nat) (l : List Msg) {j_ : Nat} (h : j_ ≠ r) : (d.setInbox r l).inboxOf j_ = d.inboxOf j_ := by
  simp only [Dev.inboxOf, Dev.setInbox]
  exact look_put_other _ _ h

/-! ## `Dev.cmResult` -/

@[simp] theorem cmResult_regs (who : Nat) (r : Nat × Nat) : (d.cmResult who r).regs = d.regs := rfl
@[simp] theorem cmResult_evt (who : Nat) (r : Nat × Nat) : (d.cmResult who r).evt = d.evt := rfl
@[simp] theorem cmResult_eng (who : Nat) (r : Nat × Nat) : (d.cmResult who r).eng = d.eng := rfl
@[simp] theorem cmResult_prog (who : Nat) (r : Nat × Nat) : (d.cmResult who r).prog = d.prog := rfl
@[simp] theorem cmResult_dsp (who : Nat) (r : Nat × Nat) : (d.cmResult who r).dsp = d.dsp := rfl
@[simp] theorem cmResult_rng (who : Nat) (r : Nat × Nat) : (d.cmResult who r).rng = d.rng := rfl
@[simp] theorem cmResult_hif (who : Nat) (r : Nat × Nat) : (d.cmResult who r).hif = d.hif := rfl
@[simp] theorem cmResult_mac (who : Nat) (r : Nat × Nat) : (d.cmResult who r).mac = d.mac := rfl
@[simp] theorem cmResult_acs (who : Nat) (r : Nat × Nat) : (d.cmResult who r).acs = d.acs := rfl
@[simp] theorem cmResult_fwd (who : Nat) (r : Nat × Nat) : (d.cmResult who r).fwd = d.fwd := rfl
@[simp] theorem cmResult_tmpl (who : Nat) (r : Nat × Nat) : (d.cmResult who r).tmpl = d.tmpl := rfl
@[simp] theorem cmResult_sch (who : Nat) (r : Nat × Nat) : (d.cmResult who r).sch = d.sch := rfl
@[simp] theorem cmResult_slu (who : Nat) (r : Nat × Nat) : (d.cmResult who r).slu = d.slu := rfl
@[simp] theorem cmResult_adm (who : Nat) (r : Nat × Nat) : (d.cmResult who r).adm = d.adm := rfl
@[simp] theorem cmResult_dup (who : Nat) (r : Nat × Nat) : (d.cmResult who r).dup = d.dup := rfl
@[simp] theorem cmResult_cip (who : Nat) (r : Nat × Nat) : (d.cmResult who r).cip = d.cip := rfl
@[simp] theorem cmResult_sto (who : Nat) (r : Nat × Nat) : (d.cmResult who r).sto = d.sto := rfl
@[simp] theorem cmResult_bat (who : Nat) (r : Nat × Nat) : (d.cmResult who r).bat = d.bat := rfl
@[simp] theorem cmResult_dkw (who : Nat) (r : Nat × Nat) : (d.cmResult who r).dkw = d.dkw := rfl
@[simp] theorem cmResult_mgt (who : Nat) (r : Nat × Nat) : (d.cmResult who r).mgt = d.mgt := rfl
@[simp] theorem cmResult_warming (who : Nat) (r : Nat × Nat) : (d.cmResult who r).warming = d.warming := rfl
@[simp] theorem cmResult_free (who : Nat) (r : Nat × Nat) : (d.cmResult who r).free = d.free := rfl
@[simp] theorem cmResult_out (who : Nat) (r : Nat × Nat) : (d.cmResult who r).out = d.out := rfl
@[simp] theorem rd_cmResult (who : Nat) (r : Nat × Nat) (f_ : Fld) (i_ : Nat) : (d.cmResult who r).rd f_ i_ = d.rd f_ i_ := rfl
@[simp] theorem ctx_cmResult (who : Nat) (r : Nat × Nat) (x_ : Nat) : (d.cmResult who r).ctx x_ = d.ctx x_ := rfl

/-! ## `Dev.setNcsi` -/

@[simp] theorem setNcsi_regs (n : Nat) (c : NcsiCh) : (d.setNcsi n c).regs = d.regs := rfl
@[simp] theorem setNcsi_evt (n : Nat) (c : NcsiCh) : (d.setNcsi n c).evt = d.evt := rfl
@[simp] theorem setNcsi_eng (n : Nat) (c : NcsiCh) : (d.setNcsi n c).eng = d.eng := rfl
@[simp] theorem setNcsi_prog (n : Nat) (c : NcsiCh) : (d.setNcsi n c).prog = d.prog := rfl
@[simp] theorem setNcsi_dsp (n : Nat) (c : NcsiCh) : (d.setNcsi n c).dsp = d.dsp := rfl
@[simp] theorem setNcsi_rng (n : Nat) (c : NcsiCh) : (d.setNcsi n c).rng = d.rng := rfl
@[simp] theorem setNcsi_hif (n : Nat) (c : NcsiCh) : (d.setNcsi n c).hif = d.hif := rfl
@[simp] theorem setNcsi_mac (n : Nat) (c : NcsiCh) : (d.setNcsi n c).mac = d.mac := rfl
@[simp] theorem setNcsi_acs (n : Nat) (c : NcsiCh) : (d.setNcsi n c).acs = d.acs := rfl
@[simp] theorem setNcsi_fwd (n : Nat) (c : NcsiCh) : (d.setNcsi n c).fwd = d.fwd := rfl
@[simp] theorem setNcsi_tmpl (n : Nat) (c : NcsiCh) : (d.setNcsi n c).tmpl = d.tmpl := rfl
@[simp] theorem setNcsi_sch (n : Nat) (c : NcsiCh) : (d.setNcsi n c).sch = d.sch := rfl
@[simp] theorem setNcsi_slu (n : Nat) (c : NcsiCh) : (d.setNcsi n c).slu = d.slu := rfl
@[simp] theorem setNcsi_adm (n : Nat) (c : NcsiCh) : (d.setNcsi n c).adm = d.adm := rfl
@[simp] theorem setNcsi_dup (n : Nat) (c : NcsiCh) : (d.setNcsi n c).dup = d.dup := rfl
@[simp] theorem setNcsi_mbx (n : Nat) (c : NcsiCh) : (d.setNcsi n c).mbx = d.mbx := rfl
@[simp] theorem setNcsi_cip (n : Nat) (c : NcsiCh) : (d.setNcsi n c).cip = d.cip := rfl
@[simp] theorem setNcsi_sto (n : Nat) (c : NcsiCh) : (d.setNcsi n c).sto = d.sto := rfl
@[simp] theorem setNcsi_bat (n : Nat) (c : NcsiCh) : (d.setNcsi n c).bat = d.bat := rfl
@[simp] theorem setNcsi_dkw (n : Nat) (c : NcsiCh) : (d.setNcsi n c).dkw = d.dkw := rfl
@[simp] theorem setNcsi_warming (n : Nat) (c : NcsiCh) : (d.setNcsi n c).warming = d.warming := rfl
@[simp] theorem setNcsi_free (n : Nat) (c : NcsiCh) : (d.setNcsi n c).free = d.free := rfl
@[simp] theorem setNcsi_out (n : Nat) (c : NcsiCh) : (d.setNcsi n c).out = d.out := rfl
@[simp] theorem setNcsi_mgt_pkgSel (n : Nat) (c : NcsiCh) : (d.setNcsi n c).mgt.pkgSel = d.mgt.pkgSel := rfl
@[simp] theorem setNcsi_mgt_tid (n : Nat) (c : NcsiCh) : (d.setNcsi n c).mgt.tid = d.mgt.tid := rfl
@[simp] theorem setNcsi_mgt_flash (n : Nat) (c : NcsiCh) : (d.setNcsi n c).mgt.flash = d.mgt.flash := rfl
@[simp] theorem setNcsi_mgt_update (n : Nat) (c : NcsiCh) : (d.setNcsi n c).mgt.update = d.mgt.update := rfl
@[simp] theorem setNcsi_mgt_snaps (n : Nat) (c : NcsiCh) : (d.setNcsi n c).mgt.snaps = d.mgt.snaps := rfl
@[simp] theorem setNcsi_mgt_reading (n : Nat) (c : NcsiCh) : (d.setNcsi n c).mgt.reading = d.mgt.reading := rfl
@[simp] theorem setNcsi_mgt_scan1 (n : Nat) (c : NcsiCh) : (d.setNcsi n c).mgt.scan1 = d.mgt.scan1 := rfl
@[simp] theorem setNcsi_mgt_rescans (n : Nat) (c : NcsiCh) : (d.setNcsi n c).mgt.rescans = d.mgt.rescans := rfl
@[simp] theorem setNcsi_mgt_periodAt (n : Nat) (c : NcsiCh) : (d.setNcsi n c).mgt.periodAt = d.mgt.periodAt := rfl
@[simp] theorem setNcsi_mgt_scanAt (n : Nat) (c : NcsiCh) : (d.setNcsi n c).mgt.scanAt = d.mgt.scanAt := rfl
@[simp] theorem setNcsi_mgt_settleAt (n : Nat) (c : NcsiCh) : (d.setNcsi n c).mgt.settleAt = d.mgt.settleAt := rfl
@[simp] theorem setNcsi_mgt_windowAt (n : Nat) (c : NcsiCh) : (d.setNcsi n c).mgt.windowAt = d.mgt.windowAt := rfl
@[simp] theorem setNcsi_mgt_stableAt (n : Nat) (c : NcsiCh) : (d.setNcsi n c).mgt.stableAt = d.mgt.stableAt := rfl
@[simp] theorem setNcsi_mgt_shares (n : Nat) (c : NcsiCh) : (d.setNcsi n c).mgt.shares = d.mgt.shares := rfl
@[simp] theorem setNcsi_mgt_otp (n : Nat) (c : NcsiCh) : (d.setNcsi n c).mgt.otp = d.mgt.otp := rfl
@[simp] theorem rd_setNcsi (n : Nat) (c : NcsiCh) (f_ : Fld) (i_ : Nat) : (d.setNcsi n c).rd f_ i_ = d.rd f_ i_ := rfl
@[simp] theorem ctx_setNcsi (n : Nat) (c : NcsiCh) (x_ : Nat) : (d.setNcsi n c).ctx x_ = d.ctx x_ := rfl
@[simp] theorem ncsi_setNcsi_same (n : Nat) (c : NcsiCh) : (d.setNcsi n c).ncsi n = c := by
  simp [Dev.ncsi, Dev.setNcsi]
theorem ncsi_setNcsi_other (n : Nat) (c : NcsiCh) {j_ : Nat} (h : j_ ≠ n) : (d.setNcsi n c).ncsi j_ = d.ncsi j_ := by
  simp only [Dev.ncsi, Dev.setNcsi]
  exact look_put_other _ _ h

/-! ## `Dev.setCtx` -/

@[simp] theorem setCtx_regs (x : Nat) (c : Ctx) : (d.setCtx x c).regs = d.regs := rfl
@[simp] theorem setCtx_evt (x : Nat) (c : Ctx) : (d.setCtx x c).evt = d.evt := rfl
@[simp] theorem setCtx_prog (x : Nat) (c : Ctx) : (d.setCtx x c).prog = d.prog := rfl
@[simp] theorem setCtx_dsp (x : Nat) (c : Ctx) : (d.setCtx x c).dsp = d.dsp := rfl
@[simp] theorem setCtx_rng (x : Nat) (c : Ctx) : (d.setCtx x c).rng = d.rng := rfl
@[simp] theorem setCtx_hif (x : Nat) (c : Ctx) : (d.setCtx x c).hif = d.hif := rfl
@[simp] theorem setCtx_mac (x : Nat) (c : Ctx) : (d.setCtx x c).mac = d.mac := rfl
@[simp] theorem setCtx_acs (x : Nat) (c : Ctx) : (d.setCtx x c).acs = d.acs := rfl
@[simp] theorem setCtx_fwd (x : Nat) (c : Ctx) : (d.setCtx x c).fwd = d.fwd := rfl
@[simp] theorem setCtx_tmpl (x : Nat) (c : Ctx) : (d.setCtx x c).tmpl = d.tmpl := rfl
@[simp] theorem setCtx_sch (x : Nat) (c : Ctx) : (d.setCtx x c).sch = d.sch := rfl
@[simp] theorem setCtx_slu (x : Nat) (c : Ctx) : (d.setCtx x c).slu = d.slu := rfl
@[simp] theorem setCtx_adm (x : Nat) (c : Ctx) : (d.setCtx x c).adm = d.adm := rfl
@[simp] theorem setCtx_dup (x : Nat) (c : Ctx) : (d.setCtx x c).dup = d.dup := rfl
@[simp] theorem setCtx_mbx (x : Nat) (c : Ctx) : (d.setCtx x c).mbx = d.mbx := rfl
@[simp] theorem setCtx_cip (x : Nat) (c : Ctx) : (d.setCtx x c).cip = d.cip := rfl
@[simp] theorem setCtx_sto (x : Nat) (c : Ctx) : (d.setCtx x c).sto = d.sto := rfl
@[simp] theorem setCtx_bat (x : Nat) (c : Ctx) : (d.setCtx x c).bat = d.bat := rfl
@[simp] theorem setCtx_dkw (x : Nat) (c : Ctx) : (d.setCtx x c).dkw = d.dkw := rfl
@[simp] theorem setCtx_mgt (x : Nat) (c : Ctx) : (d.setCtx x c).mgt = d.mgt := rfl
@[simp] theorem setCtx_warming (x : Nat) (c : Ctx) : (d.setCtx x c).warming = d.warming := rfl
@[simp] theorem setCtx_free (x : Nat) (c : Ctx) : (d.setCtx x c).free = d.free := rfl
@[simp] theorem setCtx_out (x : Nat) (c : Ctx) : (d.setCtx x c).out = d.out := rfl
@[simp] theorem setCtx_eng_csrs (x : Nat) (c : Ctx) : (d.setCtx x c).eng.csrs = d.eng.csrs := rfl
@[simp] theorem setCtx_eng_tasks (x : Nat) (c : Ctx) : (d.setCtx x c).eng.tasks = d.eng.tasks := rfl
@[simp] theorem setCtx_eng_readyQ (x : Nat) (c : Ctx) : (d.setCtx x c).eng.readyQ = d.eng.readyQ := rfl
@[simp] theorem setCtx_eng_coh (x : Nat) (c : Ctx) : (d.setCtx x c).eng.coh = d.eng.coh := rfl
@[simp] theorem setCtx_eng_withdraw (x : Nat) (c : Ctx) : (d.setCtx x c).eng.withdraw = d.eng.withdraw := rfl
@[simp] theorem setCtx_eng_nextAge (x : Nat) (c : Ctx) : (d.setCtx x c).eng.nextAge = d.eng.nextAge := rfl
@[simp] theorem setCtx_eng_beaten (x : Nat) (c : Ctx) : (d.setCtx x c).eng.beaten = d.eng.beaten := rfl
@[simp] theorem setCtx_eng_strays (x : Nat) (c : Ctx) : (d.setCtx x c).eng.strays = d.eng.strays := rfl
@[simp] theorem setCtx_eng_tclks (x : Nat) (c : Ctx) : (d.setCtx x c).eng.tclks = d.eng.tclks := rfl
@[simp] theorem setCtx_eng_cntPkts (x : Nat) (c : Ctx) : (d.setCtx x c).eng.cntPkts = d.eng.cntPkts := rfl
@[simp] theorem setCtx_eng_cntBytes (x : Nat) (c : Ctx) : (d.setCtx x c).eng.cntBytes = d.eng.cntBytes := rfl
@[simp] theorem setCtx_eng_drops (x : Nat) (c : Ctx) : (d.setCtx x c).eng.drops = d.eng.drops := rfl
@[simp] theorem rd_setCtx (x : Nat) (c : Ctx) (f_ : Fld) (i_ : Nat) : (d.setCtx x c).rd f_ i_ = d.rd f_ i_ := rfl
@[simp] theorem ctx_setCtx_same (x : Nat) (c : Ctx) : (d.setCtx x c).ctx x = c := by
  simp [Dev.ctx, Dev.setCtx]
theorem ctx_setCtx_other (x : Nat) (c : Ctx) {j_ : Nat} (h : j_ ≠ x) : (d.setCtx x c).ctx j_ = d.ctx j_ := by
  simp only [Dev.ctx, Dev.setCtx]
  exact look_put_other _ _ h

/-! ## `Dev.setCsr` -/

@[simp] theorem setCsr_regs (j : Nat) (r : Csr) : (d.setCsr j r).regs = d.regs := rfl
@[simp] theorem setCsr_evt (j : Nat) (r : Csr) : (d.setCsr j r).evt = d.evt := rfl
@[simp] theorem setCsr_prog (j : Nat) (r : Csr) : (d.setCsr j r).prog = d.prog := rfl
@[simp] theorem setCsr_dsp (j : Nat) (r : Csr) : (d.setCsr j r).dsp = d.dsp := rfl
@[simp] theorem setCsr_rng (j : Nat) (r : Csr) : (d.setCsr j r).rng = d.rng := rfl
@[simp] theorem setCsr_hif (j : Nat) (r : Csr) : (d.setCsr j r).hif = d.hif := rfl
@[simp] theorem setCsr_mac (j : Nat) (r : Csr) : (d.setCsr j r).mac = d.mac := rfl
@[simp] theorem setCsr_acs (j : Nat) (r : Csr) : (d.setCsr j r).acs = d.acs := rfl
@[simp] theorem setCsr_fwd (j : Nat) (r : Csr) : (d.setCsr j r).fwd = d.fwd := rfl
@[simp] theorem setCsr_tmpl (j : Nat) (r : Csr) : (d.setCsr j r).tmpl = d.tmpl := rfl
@[simp] theorem setCsr_sch (j : Nat) (r : Csr) : (d.setCsr j r).sch = d.sch := rfl
@[simp] theorem setCsr_slu (j : Nat) (r : Csr) : (d.setCsr j r).slu = d.slu := rfl
@[simp] theorem setCsr_adm (j : Nat) (r : Csr) : (d.setCsr j r).adm = d.adm := rfl
@[simp] theorem setCsr_dup (j : Nat) (r : Csr) : (d.setCsr j r).dup = d.dup := rfl
@[simp] theorem setCsr_mbx (j : Nat) (r : Csr) : (d.setCsr j r).mbx = d.mbx := rfl
@[simp] theorem setCsr_cip (j : Nat) (r : Csr) : (d.setCsr j r).cip = d.cip := rfl
@[simp] theorem setCsr_sto (j : Nat) (r : Csr) : (d.setCsr j r).sto = d.sto := rfl
@[simp] theorem setCsr_bat (j : Nat) (r : Csr) : (d.setCsr j r).bat = d.bat := rfl
@[simp] theorem setCsr_dkw (j : Nat) (r : Csr) : (d.setCsr j r).dkw = d.dkw := rfl
@[simp] theorem setCsr_mgt (j : Nat) (r : Csr) : (d.setCsr j r).mgt = d.mgt := rfl
@[simp] theorem setCsr_warming (j : Nat) (r : Csr) : (d.setCsr j r).warming = d.warming := rfl
@[simp] theorem setCsr_free (j : Nat) (r : Csr) : (d.setCsr j r).free = d.free := rfl
@[simp] theorem setCsr_out (j : Nat) (r : Csr) : (d.setCsr j r).out = d.out := rfl
@[simp] theorem setCsr_eng_ctxs (j : Nat) (r : Csr) : (d.setCsr j r).eng.ctxs = d.eng.ctxs := rfl
@[simp] theorem setCsr_eng_tasks (j : Nat) (r : Csr) : (d.setCsr j r).eng.tasks = d.eng.tasks := rfl
@[simp] theorem setCsr_eng_readyQ (j : Nat) (r : Csr) : (d.setCsr j r).eng.readyQ = d.eng.readyQ := rfl
@[simp] theorem setCsr_eng_coh (j : Nat) (r : Csr) : (d.setCsr j r).eng.coh = d.eng.coh := rfl
@[simp] theorem setCsr_eng_withdraw (j : Nat) (r : Csr) : (d.setCsr j r).eng.withdraw = d.eng.withdraw := rfl
@[simp] theorem setCsr_eng_nextAge (j : Nat) (r : Csr) : (d.setCsr j r).eng.nextAge = d.eng.nextAge := rfl
@[simp] theorem setCsr_eng_beaten (j : Nat) (r : Csr) : (d.setCsr j r).eng.beaten = d.eng.beaten := rfl
@[simp] theorem setCsr_eng_strays (j : Nat) (r : Csr) : (d.setCsr j r).eng.strays = d.eng.strays := rfl
@[simp] theorem setCsr_eng_tclks (j : Nat) (r : Csr) : (d.setCsr j r).eng.tclks = d.eng.tclks := rfl
@[simp] theorem setCsr_eng_cntPkts (j : Nat) (r : Csr) : (d.setCsr j r).eng.cntPkts = d.eng.cntPkts := rfl
@[simp] theorem setCsr_eng_cntBytes (j : Nat) (r : Csr) : (d.setCsr j r).eng.cntBytes = d.eng.cntBytes := rfl
@[simp] theorem setCsr_eng_drops (j : Nat) (r : Csr) : (d.setCsr j r).eng.drops = d.eng.drops := rfl
@[simp] theorem rd_setCsr (j : Nat) (r : Csr) (f_ : Fld) (i_ : Nat) : (d.setCsr j r).rd f_ i_ = d.rd f_ i_ := rfl
@[simp] theorem csr_setCsr_same (j : Nat) (r : Csr) : (d.setCsr j r).csr j = r := by
  simp [Dev.csr, Dev.setCsr]
theorem csr_setCsr_other (j : Nat) (r : Csr) {j_ : Nat} (h : j_ ≠ j) : (d.setCsr j r).csr j_ = d.csr j_ := by
  simp only [Dev.csr, Dev.setCsr]
  exact look_put_other _ _ h

/-! ## `Dev.wr` -/

@[simp] theorem wr_evt (f : Fld) (i v : Nat) : (d.wr f i v).evt = d.evt := rfl
@[simp] theorem wr_eng (f : Fld) (i v : Nat) : (d.wr f i v).eng = d.eng := rfl
@[simp] theorem wr_prog (f : Fld) (i v : Nat) : (d.wr f i v).prog = d.prog := rfl
@[simp] theorem wr_dsp (f : Fld) (i v : Nat) : (d.wr f i v).dsp = d.dsp := rfl
@[simp] theorem wr_rng (f : Fld) (i v : Nat) : (d.wr f i v).rng = d.rng := rfl
@[simp] theorem wr_hif (f : Fld) (i v : Nat) : (d.wr f i v).hif = d.hif := rfl
@[simp] theorem wr_mac (f : Fld) (i v : Nat) : (d.wr f i v).mac = d.mac := rfl
@[simp] theorem wr_acs (f : Fld) (i v : Nat) : (d.wr f i v).acs = d.acs := rfl
@[simp] theorem wr_fwd (f : Fld) (i v : Nat) : (d.wr f i v).fwd = d.fwd := rfl
@[simp] theorem wr_tmpl (f : Fld) (i v : Nat) : (d.wr f i v).tmpl = d.tmpl := rfl
@[simp] theorem wr_sch (f : Fld) (i v : Nat) : (d.wr f i v).sch = d.sch := rfl
@[simp] theorem wr_slu (f : Fld) (i v : Nat) : (d.wr f i v).slu = d.slu := rfl
@[simp] theorem wr_adm (f : Fld) (i v : Nat) : (d.wr f i v).adm = d.adm := rfl
@[simp] theorem wr_dup (f : Fld) (i v : Nat) : (d.wr f i v).dup = d.dup := rfl
@[simp] theorem wr_mbx (f : Fld) (i v : Nat) : (d.wr f i v).mbx = d.mbx := rfl
@[simp] theorem wr_cip (f : Fld) (i v : Nat) : (d.wr f i v).cip = d.cip := rfl
@[simp] theorem wr_sto (f : Fld) (i v : Nat) : (d.wr f i v).sto = d.sto := rfl
@[simp] theorem wr_bat (f : Fld) (i v : Nat) : (d.wr f i v).bat = d.bat := rfl
@[simp] theorem wr_dkw (f : Fld) (i v : Nat) : (d.wr f i v).dkw = d.dkw := rfl
@[simp] theorem wr_mgt (f : Fld) (i v : Nat) : (d.wr f i v).mgt = d.mgt := rfl
@[simp] theorem wr_warming (f : Fld) (i v : Nat) : (d.wr f i v).warming = d.warming := rfl
@[simp] theorem wr_free (f : Fld) (i v : Nat) : (d.wr f i v).free = d.free := rfl
@[simp] theorem wr_out (f : Fld) (i v : Nat) : (d.wr f i v).out = d.out := rfl
@[simp] theorem ctx_wr (f : Fld) (i v : Nat) (x_ : Nat) : (d.wr f i v).ctx x_ = d.ctx x_ := rfl

/-! ## `Dev.send` -/

@[simp] theorem send_regs (o : Out) : (d.send o).regs = d.regs := rfl
@[simp] theorem send_evt (o : Out) : (d.send o).evt = d.evt := rfl
@[simp] theorem send_eng (o : Out) : (d.send o).eng = d.eng := rfl
@[simp] theorem send_prog (o : Out) : (d.send o).prog = d.prog := rfl
@[simp] theorem send_dsp (o : Out) : (d.send o).dsp = d.dsp := rfl
@[simp] theorem send_rng (o : Out) : (d.send o).rng = d.rng := rfl
@[simp] theorem send_hif (o : Out) : (d.send o).hif = d.hif := rfl
@[simp] theorem send_mac (o : Out) : (d.send o).mac = d.mac := rfl
@[simp] theorem send_acs (o : Out) : (d.send o).acs = d.acs := rfl
@[simp] theorem send_fwd (o : Out) : (d.send o).fwd = d.fwd := rfl
@[simp] theorem send_tmpl (o : Out) : (d.send o).tmpl = d.tmpl := rfl
@[simp] theorem send_sch (o : Out) : (d.send o).sch = d.sch := rfl
@[simp] theorem send_slu (o : Out) : (d.send o).slu = d.slu := rfl
@[simp] theorem send_adm (o : Out) : (d.send o).adm = d.adm := rfl
@[simp] theorem send_dup (o : Out) : (d.send o).dup = d.dup := rfl
@[simp] theorem send_mbx (o : Out) : (d.send o).mbx = d.mbx := rfl
@[simp] theorem send_cip (o : Out) : (d.send o).cip = d.cip := rfl
@[simp] theorem send_sto (o : Out) : (d.send o).sto = d.sto := rfl
@[simp] theorem send_bat (o : Out) : (d.send o).bat = d.bat := rfl
@[simp] theorem send_dkw (o : Out) : (d.send o).dkw = d.dkw := rfl
@[simp] theorem send_mgt (o : Out) : (d.send o).mgt = d.mgt := rfl
@[simp] theorem send_warming (o : Out) : (d.send o).warming = d.warming := rfl
@[simp] theorem send_free (o : Out) : (d.send o).free = d.free := rfl
@[simp] theorem rd_send (o : Out) (f_ : Fld) (i_ : Nat) : (d.send o).rd f_ i_ = d.rd f_ i_ := rfl
@[simp] theorem ctx_send (o : Out) (x_ : Nat) : (d.send o).ctx x_ = d.ctx x_ := rfl

/-! ## `Dev.drawn` -/

@[simp] theorem drawn_regs : (d.drawn).regs = d.regs := rfl
@[simp] theorem drawn_evt : (d.drawn).evt = d.evt := rfl
@[simp] theorem drawn_eng : (d.drawn).eng = d.eng := rfl
@[simp] theorem drawn_prog : (d.drawn).prog = d.prog := rfl
@[simp] theorem drawn_dsp : (d.drawn).dsp = d.dsp := rfl
@[simp] theorem drawn_rng : (d.drawn).rng = d.rng := rfl
@[simp] theorem drawn_hif : (d.drawn).hif = d.hif := rfl
@[simp] theorem drawn_mac : (d.drawn).mac = d.mac := rfl
@[simp] theorem drawn_acs : (d.drawn).acs = d.acs := rfl
@[simp] theorem drawn_fwd : (d.drawn).fwd = d.fwd := rfl
@[simp] theorem drawn_tmpl : (d.drawn).tmpl = d.tmpl := rfl
@[simp] theorem drawn_sch : (d.drawn).sch = d.sch := rfl
@[simp] theorem drawn_slu : (d.drawn).slu = d.slu := rfl
@[simp] theorem drawn_adm : (d.drawn).adm = d.adm := rfl
@[simp] theorem drawn_dup : (d.drawn).dup = d.dup := rfl
@[simp] theorem drawn_mbx : (d.drawn).mbx = d.mbx := rfl
@[simp] theorem drawn_cip : (d.drawn).cip = d.cip := rfl
@[simp] theorem drawn_sto : (d.drawn).sto = d.sto := rfl
@[simp] theorem drawn_bat : (d.drawn).bat = d.bat := rfl
@[simp] theorem drawn_dkw : (d.drawn).dkw = d.dkw := rfl
@[simp] theorem drawn_mgt : (d.drawn).mgt = d.mgt := rfl
@[simp] theorem drawn_warming : (d.drawn).warming = d.warming := rfl
@[simp] theorem drawn_out : (d.drawn).out = d.out := rfl
@[simp] theorem rd_drawn (f_ : Fld) (i_ : Nat) : (d.drawn).rd f_ i_ = d.rd f_ i_ := rfl
@[simp] theorem ctx_drawn (x_ : Nat) : (d.drawn).ctx x_ = d.ctx x_ := rfl

/-! ## `Dev.setFn` -/

@[simp] theorem setFn_regs (f : Nat) (x : HostFn) : (d.setFn f x).regs = d.regs := rfl
@[simp] theorem setFn_evt (f : Nat) (x : HostFn) : (d.setFn f x).evt = d.evt := rfl
@[simp] theorem setFn_eng (f : Nat) (x : HostFn) : (d.setFn f x).eng = d.eng := rfl
@[simp] theorem setFn_prog (f : Nat) (x : HostFn) : (d.setFn f x).prog = d.prog := rfl
@[simp] theorem setFn_dsp (f : Nat) (x : HostFn) : (d.setFn f x).dsp = d.dsp := rfl
@[simp] theorem setFn_rng (f : Nat) (x : HostFn) : (d.setFn f x).rng = d.rng := rfl
@[simp] theorem setFn_mac (f : Nat) (x : HostFn) : (d.setFn f x).mac = d.mac := rfl
@[simp] theorem setFn_acs (f : Nat) (x : HostFn) : (d.setFn f x).acs = d.acs := rfl
@[simp] theorem setFn_fwd (f : Nat) (x : HostFn) : (d.setFn f x).fwd = d.fwd := rfl
@[simp] theorem setFn_tmpl (f : Nat) (x : HostFn) : (d.setFn f x).tmpl = d.tmpl := rfl
@[simp] theorem setFn_sch (f : Nat) (x : HostFn) : (d.setFn f x).sch = d.sch := rfl
@[simp] theorem setFn_slu (f : Nat) (x : HostFn) : (d.setFn f x).slu = d.slu := rfl
@[simp] theorem setFn_adm (f : Nat) (x : HostFn) : (d.setFn f x).adm = d.adm := rfl
@[simp] theorem setFn_dup (f : Nat) (x : HostFn) : (d.setFn f x).dup = d.dup := rfl
@[simp] theorem setFn_mbx (f : Nat) (x : HostFn) : (d.setFn f x).mbx = d.mbx := rfl
@[simp] theorem setFn_cip (f : Nat) (x : HostFn) : (d.setFn f x).cip = d.cip := rfl
@[simp] theorem setFn_sto (f : Nat) (x : HostFn) : (d.setFn f x).sto = d.sto := rfl
@[simp] theorem setFn_bat (f : Nat) (x : HostFn) : (d.setFn f x).bat = d.bat := rfl
@[simp] theorem setFn_dkw (f : Nat) (x : HostFn) : (d.setFn f x).dkw = d.dkw := rfl
@[simp] theorem setFn_mgt (f : Nat) (x : HostFn) : (d.setFn f x).mgt = d.mgt := rfl
@[simp] theorem setFn_warming (f : Nat) (x : HostFn) : (d.setFn f x).warming = d.warming := rfl
@[simp] theorem setFn_free (f : Nat) (x : HostFn) : (d.setFn f x).free = d.free := rfl
@[simp] theorem setFn_out (f : Nat) (x : HostFn) : (d.setFn f x).out = d.out := rfl
@[simp] theorem setFn_hif_perst (f : Nat) (x : HostFn) : (d.setFn f x).hif.perst = d.hif.perst := rfl
@[simp] theorem setFn_hif_inReset (f : Nat) (x : HostFn) : (d.setFn f x).hif.inReset = d.hif.inReset := rfl
@[simp] theorem setFn_hif_reads (f : Nat) (x : HostFn) : (d.setFn f x).hif.reads = d.hif.reads := rfl
@[simp] theorem setFn_hif_tagWait (f : Nat) (x : HostFn) : (d.setFn f x).hif.tagWait = d.hif.tagWait := rfl
@[simp] theorem setFn_hif_tagRot (f : Nat) (x : HostFn) : (d.setFn f x).hif.tagRot = d.hif.tagRot := rfl
@[simp] theorem setFn_hif_atc (f : Nat) (x : HostFn) : (d.setFn f x).hif.atc = d.hif.atc := rfl
@[simp] theorem setFn_hif_xlWait (f : Nat) (x : HostFn) : (d.setFn f x).hif.xlWait = d.hif.xlWait := rfl
@[simp] theorem setFn_hif_held (f : Nat) (x : HostFn) : (d.setFn f x).hif.held = d.hif.held := rfl
@[simp] theorem setFn_hif_lines (f : Nat) (x : HostFn) : (d.setFn f x).hif.lines = d.hif.lines := rfl
@[simp] theorem setFn_hif_rom (f : Nat) (x : HostFn) : (d.setFn f x).hif.rom = d.hif.rom := rfl
@[simp] theorem setFn_hif_inL1 (f : Nat) (x : HostFn) : (d.setFn f x).hif.inL1 = d.hif.inL1 := rfl
@[simp] theorem rd_setFn (f : Nat) (x : HostFn) (f_ : Fld) (i_ : Nat) : (d.setFn f x).rd f_ i_ = d.rd f_ i_ := rfl
@[simp] theorem ctx_setFn (f : Nat) (x : HostFn) (x_ : Nat) : (d.setFn f x).ctx x_ = d.ctx x_ := rfl
@[simp] theorem fn_setFn_same (f : Nat) (x : HostFn) : (d.setFn f x).fn f = x := by
  simp [Dev.fn, Dev.setFn]
theorem fn_setFn_other (f : Nat) (x : HostFn) {j_ : Nat} (h : j_ ≠ f) : (d.setFn f x).fn j_ = d.fn j_ := by
  simp only [Dev.fn, Dev.setFn]
  exact look_put_other _ _ h

/-! ## `Dev.revalidate` -/

@[simp] theorem revalidate_regs (cause : Nat) : (d.revalidate cause).regs = d.regs := rfl
@[simp] theorem revalidate_evt (cause : Nat) : (d.revalidate cause).evt = d.evt := rfl
@[simp] theorem revalidate_eng (cause : Nat) : (d.revalidate cause).eng = d.eng := rfl
@[simp] theorem revalidate_prog (cause : Nat) : (d.revalidate cause).prog = d.prog := rfl
@[simp] theorem revalidate_dsp (cause : Nat) : (d.revalidate cause).dsp = d.dsp := rfl
@[simp] theorem revalidate_rng (cause : Nat) : (d.revalidate cause).rng = d.rng := rfl
@[simp] theorem revalidate_hif (cause : Nat) : (d.revalidate cause).hif = d.hif := rfl
@[simp] theorem revalidate_mac (cause : Nat) : (d.revalidate cause).mac = d.mac := rfl
@[simp] theorem revalidate_acs (cause : Nat) : (d.revalidate cause).acs = d.acs := rfl
@[simp] theorem revalidate_fwd (cause : Nat) : (d.revalidate cause).fwd = d.fwd := rfl
@[simp] theorem revalidate_tmpl (cause : Nat) : (d.revalidate cause).tmpl = d.tmpl := rfl
@[simp] theorem revalidate_sch (cause : Nat) : (d.revalidate cause).sch = d.sch := rfl
@[simp] theorem revalidate_slu (cause : Nat) : (d.revalidate cause).slu = d.slu := rfl
@[simp] theorem revalidate_dup (cause : Nat) : (d.revalidate cause).dup = d.dup := rfl
@[simp] theorem revalidate_mbx (cause : Nat) : (d.revalidate cause).mbx = d.mbx := rfl
@[simp] theorem revalidate_cip (cause : Nat) : (d.revalidate cause).cip = d.cip := rfl
@[simp] theorem revalidate_sto (cause : Nat) : (d.revalidate cause).sto = d.sto := rfl
@[simp] theorem revalidate_bat (cause : Nat) : (d.revalidate cause).bat = d.bat := rfl
@[simp] theorem revalidate_dkw (cause : Nat) : (d.revalidate cause).dkw = d.dkw := rfl
@[simp] theorem revalidate_mgt (cause : Nat) : (d.revalidate cause).mgt = d.mgt := rfl
@[simp] theorem revalidate_warming (cause : Nat) : (d.revalidate cause).warming = d.warming := rfl
@[simp] theorem revalidate_free (cause : Nat) : (d.revalidate cause).free = d.free := rfl
@[simp] theorem revalidate_out (cause : Nat) : (d.revalidate cause).out = d.out := rfl
@[simp] theorem revalidate_adm_contracts (cause : Nat) : (d.revalidate cause).adm.contracts = d.adm.contracts := rfl
@[simp] theorem revalidate_adm_waiting (cause : Nat) : (d.revalidate cause).adm.waiting = d.adm.waiting := rfl
@[simp] theorem revalidate_adm_compiling (cause : Nat) : (d.revalidate cause).adm.compiling = d.adm.compiling := rfl
@[simp] theorem revalidate_adm_queue (cause : Nat) : (d.revalidate cause).adm.queue = d.adm.queue := rfl
@[simp] theorem rd_revalidate (cause : Nat) (f_ : Fld) (i_ : Nat) : (d.revalidate cause).rd f_ i_ = d.rd f_ i_ := rfl
@[simp] theorem ctx_revalidate (cause : Nat) (x_ : Nat) : (d.revalidate cause).ctx x_ = d.ctx x_ := rfl

/-! ## `Dev.setPort` -/

@[simp] theorem setPort_regs (n : Nat) (p : PortSt) : (d.setPort n p).regs = d.regs := rfl
@[simp] theorem setPort_evt (n : Nat) (p : PortSt) : (d.setPort n p).evt = d.evt := rfl
@[simp] theorem setPort_eng (n : Nat) (p : PortSt) : (d.setPort n p).eng = d.eng := rfl
@[simp] theorem setPort_prog (n : Nat) (p : PortSt) : (d.setPort n p).prog = d.prog := rfl
@[simp] theorem setPort_dsp (n : Nat) (p : PortSt) : (d.setPort n p).dsp = d.dsp := rfl
@[simp] theorem setPort_rng (n : Nat) (p : PortSt) : (d.setPort n p).rng = d.rng := rfl
@[simp] theorem setPort_hif (n : Nat) (p : PortSt) : (d.setPort n p).hif = d.hif := rfl
@[simp] theorem setPort_acs (n : Nat) (p : PortSt) : (d.setPort n p).acs = d.acs := rfl
@[simp] theorem setPort_fwd (n : Nat) (p : PortSt) : (d.setPort n p).fwd = d.fwd := rfl
@[simp] theorem setPort_tmpl (n : Nat) (p : PortSt) : (d.setPort n p).tmpl = d.tmpl := rfl
@[simp] theorem setPort_sch (n : Nat) (p : PortSt) : (d.setPort n p).sch = d.sch := rfl
@[simp] theorem setPort_slu (n : Nat) (p : PortSt) : (d.setPort n p).slu = d.slu := rfl
@[simp] theorem setPort_adm (n : Nat) (p : PortSt) : (d.setPort n p).adm = d.adm := rfl
@[simp] theorem setPort_dup (n : Nat) (p : PortSt) : (d.setPort n p).dup = d.dup := rfl
@[simp] theorem setPort_mbx (n : Nat) (p : PortSt) : (d.setPort n p).mbx = d.mbx := rfl
@[simp] theorem setPort_cip (n : Nat) (p : PortSt) : (d.setPort n p).cip = d.cip := rfl
@[simp] theorem setPort_sto (n : Nat) (p : PortSt) : (d.setPort n p).sto = d.sto := rfl
@[simp] theorem setPort_bat (n : Nat) (p : PortSt) : (d.setPort n p).bat = d.bat := rfl
@[simp] theorem setPort_dkw (n : Nat) (p : PortSt) : (d.setPort n p).dkw = d.dkw := rfl
@[simp] theorem setPort_mgt (n : Nat) (p : PortSt) : (d.setPort n p).mgt = d.mgt := rfl
@[simp] theorem setPort_warming (n : Nat) (p : PortSt) : (d.setPort n p).warming = d.warming := rfl
@[simp] theorem setPort_free (n : Nat) (p : PortSt) : (d.setPort n p).free = d.free := rfl
@[simp] theorem setPort_out (n : Nat) (p : PortSt) : (d.setPort n p).out = d.out := rfl
@[simp] theorem setPort_mac_mode (n : Nat) (p : PortSt) : (d.setPort n p).mac.mode = d.mac.mode := rfl
@[simp] theorem setPort_mac_applying (n : Nat) (p : PortSt) : (d.setPort n p).mac.applying = d.mac.applying := rfl
@[simp] theorem rd_setPort (n : Nat) (p : PortSt) (f_ : Fld) (i_ : Nat) : (d.setPort n p).rd f_ i_ = d.rd f_ i_ := rfl
@[simp] theorem ctx_setPort (n : Nat) (p : PortSt) (x_ : Nat) : (d.setPort n p).ctx x_ = d.ctx x_ := rfl
@[simp] theorem port_setPort_same (n : Nat) (p : PortSt) : (d.setPort n p).port n = p := by
  simp [Dev.port, Dev.setPort]
theorem port_setPort_other (n : Nat) (p : PortSt) {j_ : Nat} (h : j_ ≠ n) : (d.setPort n p).port j_ = d.port j_ := by
  simp only [Dev.port, Dev.setPort]
  exact look_put_other _ _ h

/-! ## `Dev.setPathSt` -/

@[simp] theorem setPathSt_regs (i : Nat) (x : PathSt) : (d.setPathSt i x).regs = d.regs := rfl
@[simp] theorem setPathSt_evt (i : Nat) (x : PathSt) : (d.setPathSt i x).evt = d.evt := rfl
@[simp] theorem setPathSt_eng (i : Nat) (x : PathSt) : (d.setPathSt i x).eng = d.eng := rfl
@[simp] theorem setPathSt_prog (i : Nat) (x : PathSt) : (d.setPathSt i x).prog = d.prog := rfl
@[simp] theorem setPathSt_dsp (i : Nat) (x : PathSt) : (d.setPathSt i x).dsp = d.dsp := rfl
@[simp] theorem setPathSt_rng (i : Nat) (x : PathSt) : (d.setPathSt i x).rng = d.rng := rfl
@[simp] theorem setPathSt_hif (i : Nat) (x : PathSt) : (d.setPathSt i x).hif = d.hif := rfl
@[simp] theorem setPathSt_mac (i : Nat) (x : PathSt) : (d.setPathSt i x).mac = d.mac := rfl
@[simp] theorem setPathSt_acs (i : Nat) (x : PathSt) : (d.setPathSt i x).acs = d.acs := rfl
@[simp] theorem setPathSt_fwd (i : Nat) (x : PathSt) : (d.setPathSt i x).fwd = d.fwd := rfl
@[simp] theorem setPathSt_tmpl (i : Nat) (x : PathSt) : (d.setPathSt i x).tmpl = d.tmpl := rfl
@[simp] theorem setPathSt_sch (i : Nat) (x : PathSt) : (d.setPathSt i x).sch = d.sch := rfl
@[simp] theorem setPathSt_slu (i : Nat) (x : PathSt) : (d.setPathSt i x).slu = d.slu := rfl
@[simp] theorem setPathSt_adm (i : Nat) (x : PathSt) : (d.setPathSt i x).adm = d.adm := rfl
@[simp] theorem setPathSt_mbx (i : Nat) (x : PathSt) : (d.setPathSt i x).mbx = d.mbx := rfl
@[simp] theorem setPathSt_cip (i : Nat) (x : PathSt) : (d.setPathSt i x).cip = d.cip := rfl
@[simp] theorem setPathSt_sto (i : Nat) (x : PathSt) : (d.setPathSt i x).sto = d.sto := rfl
@[simp] theorem setPathSt_bat (i : Nat) (x : PathSt) : (d.setPathSt i x).bat = d.bat := rfl
@[simp] theorem setPathSt_dkw (i : Nat) (x : PathSt) : (d.setPathSt i x).dkw = d.dkw := rfl
@[simp] theorem setPathSt_mgt (i : Nat) (x : PathSt) : (d.setPathSt i x).mgt = d.mgt := rfl
@[simp] theorem setPathSt_warming (i : Nat) (x : PathSt) : (d.setPathSt i x).warming = d.warming := rfl
@[simp] theorem setPathSt_free (i : Nat) (x : PathSt) : (d.setPathSt i x).free = d.free := rfl
@[simp] theorem setPathSt_out (i : Nat) (x : PathSt) : (d.setPathSt i x).out = d.out := rfl
@[simp] theorem setPathSt_dup_txCtr (i : Nat) (x : PathSt) : (d.setPathSt i x).dup.txCtr = d.dup.txCtr := rfl
@[simp] theorem setPathSt_dup_sources (i : Nat) (x : PathSt) : (d.setPathSt i x).dup.sources = d.dup.sources := rfl
@[simp] theorem setPathSt_dup_partnerEligible (i : Nat) (x : PathSt) : (d.setPathSt i x).dup.partnerEligible = d.dup.partnerEligible := rfl
@[simp] theorem setPathSt_dup_partnerPrio (i : Nat) (x : PathSt) : (d.setPathSt i x).dup.partnerPrio = d.dup.partnerPrio := rfl
@[simp] theorem setPathSt_dup_undone (i : Nat) (x : PathSt) : (d.setPathSt i x).dup.undone = d.dup.undone := rfl
@[simp] theorem rd_setPathSt (i : Nat) (x : PathSt) (f_ : Fld) (i_ : Nat) : (d.setPathSt i x).rd f_ i_ = d.rd f_ i_ := rfl
@[simp] theorem ctx_setPathSt (i : Nat) (x : PathSt) (x_ : Nat) : (d.setPathSt i x).ctx x_ = d.ctx x_ := rfl
@[simp] theorem pathSt_setPathSt_same (i : Nat) (x : PathSt) : (d.setPathSt i x).pathSt i = x := by
  simp [Dev.pathSt, Dev.setPathSt]
theorem pathSt_setPathSt_other (i : Nat) (x : PathSt) {j_ : Nat} (h : j_ ≠ i) : (d.setPathSt i x).pathSt j_ = d.pathSt j_ := by
  simp only [Dev.pathSt, Dev.setPathSt]
  exact look_put_other _ _ h

/-! ## `Dev.dropWaiting` -/

@[simp] theorem dropWaiting_regs (key : Nat) : (d.dropWaiting key).regs = d.regs := rfl
@[simp] theorem dropWaiting_evt (key : Nat) : (d.dropWaiting key).evt = d.evt := rfl
@[simp] theorem dropWaiting_eng (key : Nat) : (d.dropWaiting key).eng = d.eng := rfl
@[simp] theorem dropWaiting_prog (key : Nat) : (d.dropWaiting key).prog = d.prog := rfl
@[simp] theorem dropWaiting_dsp (key : Nat) : (d.dropWaiting key).dsp = d.dsp := rfl
@[simp] theorem dropWaiting_hif (key : Nat) : (d.dropWaiting key).hif = d.hif := rfl
@[simp] theorem dropWaiting_mac (key : Nat) : (d.dropWaiting key).mac = d.mac := rfl
@[simp] theorem dropWaiting_acs (key : Nat) : (d.dropWaiting key).acs = d.acs := rfl
@[simp] theorem dropWaiting_fwd (key : Nat) : (d.dropWaiting key).fwd = d.fwd := rfl
@[simp] theorem dropWaiting_tmpl (key : Nat) : (d.dropWaiting key).tmpl = d.tmpl := rfl
@[simp] theorem dropWaiting_sch (key : Nat) : (d.dropWaiting key).sch = d.sch := rfl
@[simp] theorem dropWaiting_slu (key : Nat) : (d.dropWaiting key).slu = d.slu := rfl
@[simp] theorem dropWaiting_adm (key : Nat) : (d.dropWaiting key).adm = d.adm := rfl
@[simp] theorem dropWaiting_dup (key : Nat) : (d.dropWaiting key).dup = d.dup := rfl
@[simp] theorem dropWaiting_mbx (key : Nat) : (d.dropWaiting key).mbx = d.mbx := rfl
@[simp] theorem dropWaiting_cip (key : Nat) : (d.dropWaiting key).cip = d.cip := rfl
@[simp] theorem dropWaiting_sto (key : Nat) : (d.dropWaiting key).sto = d.sto := rfl
@[simp] theorem dropWaiting_bat (key : Nat) : (d.dropWaiting key).bat = d.bat := rfl
@[simp] theorem dropWaiting_dkw (key : Nat) : (d.dropWaiting key).dkw = d.dkw := rfl
@[simp] theorem dropWaiting_mgt (key : Nat) : (d.dropWaiting key).mgt = d.mgt := rfl
@[simp] theorem dropWaiting_warming (key : Nat) : (d.dropWaiting key).warming = d.warming := rfl
@[simp] theorem dropWaiting_free (key : Nat) : (d.dropWaiting key).free = d.free := rfl
@[simp] theorem dropWaiting_out (key : Nat) : (d.dropWaiting key).out = d.out := rfl
@[simp] theorem dropWaiting_rng_rings (key : Nat) : (d.dropWaiting key).rng.rings = d.rng.rings := rfl
@[simp] theorem dropWaiting_rng_chans (key : Nat) : (d.dropWaiting key).rng.chans = d.rng.chans := rfl
@[simp] theorem dropWaiting_rng_rot (key : Nat) : (d.dropWaiting key).rng.rot = d.rng.rot := rfl
@[simp] theorem dropWaiting_rng_cpls (key : Nat) : (d.dropWaiting key).rng.cpls = d.rng.cpls := rfl
@[simp] theorem dropWaiting_rng_nextCpl (key : Nat) : (d.dropWaiting key).rng.nextCpl = d.rng.nextCpl := rfl
@[simp] theorem dropWaiting_rng_rxWait (key : Nat) : (d.dropWaiting key).rng.rxWait = d.rng.rxWait := rfl
@[simp] theorem dropWaiting_rng_left (key : Nat) : (d.dropWaiting key).rng.left = d.rng.left := rfl
@[simp] theorem dropWaiting_rng_ctxWait (key : Nat) : (d.dropWaiting key).rng.ctxWait = d.rng.ctxWait := rfl
@[simp] theorem dropWaiting_rng_ctxRot (key : Nat) : (d.dropWaiting key).rng.ctxRot = d.rng.ctxRot := rfl
@[simp] theorem rd_dropWaiting (key : Nat) (f_ : Fld) (i_ : Nat) : (d.dropWaiting key).rd f_ i_ = d.rd f_ i_ := rfl
@[simp] theorem ctx_dropWaiting (key : Nat) (x_ : Nat) : (d.dropWaiting key).ctx x_ = d.ctx x_ := rfl

/-! ## `Dev.setChan` -/

@[simp] theorem setChan_regs (g c : Nat) (x : Chan) : (d.setChan g c x).regs = d.regs := rfl
@[simp] theorem setChan_evt (g c : Nat) (x : Chan) : (d.setChan g c x).evt = d.evt := rfl
@[simp] theorem setChan_eng (g c : Nat) (x : Chan) : (d.setChan g c x).eng = d.eng := rfl
@[simp] theorem setChan_prog (g c : Nat) (x : Chan) : (d.setChan g c x).prog = d.prog := rfl
@[simp] theorem setChan_dsp (g c : Nat) (x : Chan) : (d.setChan g c x).dsp = d.dsp := rfl
@[simp] theorem setChan_hif (g c : Nat) (x : Chan) : (d.setChan g c x).hif = d.hif := rfl
@[simp] theorem setChan_mac (g c : Nat) (x : Chan) : (d.setChan g c x).mac = d.mac := rfl
@[simp] theorem setChan_acs (g c : Nat) (x : Chan) : (d.setChan g c x).acs = d.acs := rfl
@[simp] theorem setChan_fwd (g c : Nat) (x : Chan) : (d.setChan g c x).fwd = d.fwd := rfl
@[simp] theorem setChan_tmpl (g c : Nat) (x : Chan) : (d.setChan g c x).tmpl = d.tmpl := rfl
@[simp] theorem setChan_sch (g c : Nat) (x : Chan) : (d.setChan g c x).sch = d.sch := rfl
@[simp] theorem setChan_slu (g c : Nat) (x : Chan) : (d.setChan g c x).slu = d.slu := rfl
@[simp] theorem setChan_adm (g c : Nat) (x : Chan) : (d.setChan g c x).adm = d.adm := rfl
@[simp] theorem setChan_dup (g c : Nat) (x : Chan) : (d.setChan g c x).dup = d.dup := rfl
@[simp] theorem setChan_mbx (g c : Nat) (x : Chan) : (d.setChan g c x).mbx = d.mbx := rfl
@[simp] theorem setChan_cip (g c : Nat) (x : Chan) : (d.setChan g c x).cip = d.cip := rfl
@[simp] theorem setChan_sto (g c : Nat) (x : Chan) : (d.setChan g c x).sto = d.sto := rfl
@[simp] theorem setChan_bat (g c : Nat) (x : Chan) : (d.setChan g c x).bat = d.bat := rfl
@[simp] theorem setChan_dkw (g c : Nat) (x : Chan) : (d.setChan g c x).dkw = d.dkw := rfl
@[simp] theorem setChan_mgt (g c : Nat) (x : Chan) : (d.setChan g c x).mgt = d.mgt := rfl
@[simp] theorem setChan_warming (g c : Nat) (x : Chan) : (d.setChan g c x).warming = d.warming := rfl
@[simp] theorem setChan_free (g c : Nat) (x : Chan) : (d.setChan g c x).free = d.free := rfl
@[simp] theorem setChan_out (g c : Nat) (x : Chan) : (d.setChan g c x).out = d.out := rfl
@[simp] theorem setChan_rng_rings (g c : Nat) (x : Chan) : (d.setChan g c x).rng.rings = d.rng.rings := rfl
@[simp] theorem setChan_rng_waiting (g c : Nat) (x : Chan) : (d.setChan g c x).rng.waiting = d.rng.waiting := rfl
@[simp] theorem setChan_rng_rot (g c : Nat) (x : Chan) : (d.setChan g c x).rng.rot = d.rng.rot := rfl
@[simp] theorem setChan_rng_cpls (g c : Nat) (x : Chan) : (d.setChan g c x).rng.cpls = d.rng.cpls := rfl
@[simp] theorem setChan_rng_nextCpl (g c : Nat) (x : Chan) : (d.setChan g c x).rng.nextCpl = d.rng.nextCpl := rfl
@[simp] theorem setChan_rng_rxWait (g c : Nat) (x : Chan) : (d.setChan g c x).rng.rxWait = d.rng.rxWait := rfl
@[simp] theorem setChan_rng_left (g c : Nat) (x : Chan) : (d.setChan g c x).rng.left = d.rng.left := rfl
@[simp] theorem setChan_rng_ctxWait (g c : Nat) (x : Chan) : (d.setChan g c x).rng.ctxWait = d.rng.ctxWait := rfl
@[simp] theorem setChan_rng_ctxRot (g c : Nat) (x : Chan) : (d.setChan g c x).rng.ctxRot = d.rng.ctxRot := rfl
@[simp] theorem rd_setChan (g c : Nat) (x : Chan) (f_ : Fld) (i_ : Nat) : (d.setChan g c x).rd f_ i_ = d.rd f_ i_ := rfl
@[simp] theorem ctx_setChan (g c : Nat) (x : Chan) (x_ : Nat) : (d.setChan g c x).ctx x_ = d.ctx x_ := rfl
@[simp] theorem chan_setChan_same (g c : Nat) (x : Chan) : (d.setChan g c x).chan g c = x := by
  simp [Dev.chan, Dev.setChan]

/-! ## `Dev.setQueue` -/

@[simp] theorem setQueue_regs (q : Nat) (l : List Packet) : (d.setQueue q l).regs = d.regs := rfl
@[simp] theorem setQueue_evt (q : Nat) (l : List Packet) : (d.setQueue q l).evt = d.evt := rfl
@[simp] theorem setQueue_eng (q : Nat) (l : List Packet) : (d.setQueue q l).eng = d.eng := rfl
@[simp] theorem setQueue_prog (q : Nat) (l : List Packet) : (d.setQueue q l).prog = d.prog := rfl
@[simp] theorem setQueue_dsp (q : Nat) (l : List Packet) : (d.setQueue q l).dsp = d.dsp := rfl
@[simp] theorem setQueue_rng (q : Nat) (l : List Packet) : (d.setQueue q l).rng = d.rng := rfl
@[simp] theorem setQueue_hif (q : Nat) (l : List Packet) : (d.setQueue q l).hif = d.hif := rfl
@[simp] theorem setQueue_mac (q : Nat) (l : List Packet) : (d.setQueue q l).mac = d.mac := rfl
@[simp] theorem setQueue_acs (q : Nat) (l : List Packet) : (d.setQueue q l).acs = d.acs := rfl
@[simp] theorem setQueue_fwd (q : Nat) (l : List Packet) : (d.setQueue q l).fwd = d.fwd := rfl
@[simp] theorem setQueue_tmpl (q : Nat) (l : List Packet) : (d.setQueue q l).tmpl = d.tmpl := rfl
@[simp] theorem setQueue_slu (q : Nat) (l : List Packet) : (d.setQueue q l).slu = d.slu := rfl
@[simp] theorem setQueue_adm (q : Nat) (l : List Packet) : (d.setQueue q l).adm = d.adm := rfl
@[simp] theorem setQueue_dup (q : Nat) (l : List Packet) : (d.setQueue q l).dup = d.dup := rfl
@[simp] theorem setQueue_mbx (q : Nat) (l : List Packet) : (d.setQueue q l).mbx = d.mbx := rfl
@[simp] theorem setQueue_cip (q : Nat) (l : List Packet) : (d.setQueue q l).cip = d.cip := rfl
@[simp] theorem setQueue_sto (q : Nat) (l : List Packet) : (d.setQueue q l).sto = d.sto := rfl
@[simp] theorem setQueue_bat (q : Nat) (l : List Packet) : (d.setQueue q l).bat = d.bat := rfl
@[simp] theorem setQueue_dkw (q : Nat) (l : List Packet) : (d.setQueue q l).dkw = d.dkw := rfl
@[simp] theorem setQueue_mgt (q : Nat) (l : List Packet) : (d.setQueue q l).mgt = d.mgt := rfl
@[simp] theorem setQueue_warming (q : Nat) (l : List Packet) : (d.setQueue q l).warming = d.warming := rfl
@[simp] theorem setQueue_free (q : Nat) (l : List Packet) : (d.setQueue q l).free = d.free := rfl
@[simp] theorem setQueue_out (q : Nat) (l : List Packet) : (d.setQueue q l).out = d.out := rfl
@[simp] theorem setQueue_sch_nodes (q : Nat) (l : List Packet) : (d.setQueue q l).sch.nodes = d.sch.nodes := rfl
@[simp] theorem setQueue_sch_shared (q : Nat) (l : List Packet) : (d.setQueue q l).sch.shared = d.sch.shared := rfl
@[simp] theorem setQueue_sch_nextShare (q : Nat) (l : List Packet) : (d.setQueue q l).sch.nextShare = d.sch.nextShare := rfl
@[simp] theorem setQueue_sch_poolBe (q : Nat) (l : List Packet) : (d.setQueue q l).sch.poolBe = d.sch.poolBe := rfl
@[simp] theorem setQueue_sch_poolAdm (q : Nat) (l : List Packet) : (d.setQueue q l).sch.poolAdm = d.sch.poolAdm := rfl
@[simp] theorem setQueue_sch_waiting (q : Nat) (l : List Packet) : (d.setQueue q l).sch.waiting = d.sch.waiting := rfl
@[simp] theorem setQueue_sch_cmdRot (q : Nat) (l : List Packet) : (d.setQueue q l).sch.cmdRot = d.sch.cmdRot := rfl
@[simp] theorem rd_setQueue (q : Nat) (l : List Packet) (f_ : Fld) (i_ : Nat) : (d.setQueue q l).rd f_ i_ = d.rd f_ i_ := rfl
@[simp] theorem ctx_setQueue (q : Nat) (l : List Packet) (x_ : Nat) : (d.setQueue q l).ctx x_ = d.ctx x_ := rfl
@[simp] theorem queue_setQueue_same (q : Nat) (l : List Packet) : (d.setQueue q l).queue q = l := by
  simp [Dev.queue, Dev.setQueue]
theorem queue_setQueue_other (q : Nat) (l : List Packet) {j_ : Nat} (h : j_ ≠ q) : (d.setQueue q l).queue j_ = d.queue j_ := by
  simp only [Dev.queue, Dev.setQueue]
  exact look_put_other _ _ h

/-! ## `Dev.putContract` -/

@[simp] theorem putContract_regs (n : Nat) (c : Contract) : (d.putContract n c).regs = d.regs := rfl
@[simp] theorem putContract_evt (n : Nat) (c : Contract) : (d.putContract n c).evt = d.evt := rfl
@[simp] theorem putContract_eng (n : Nat) (c : Contract) : (d.putContract n c).eng = d.eng := rfl
@[simp] theorem putContract_prog (n : Nat) (c : Contract) : (d.putContract n c).prog = d.prog := rfl
@[simp] theorem putContract_dsp (n : Nat) (c : Contract) : (d.putContract n c).dsp = d.dsp := rfl
@[simp] theorem putContract_rng (n : Nat) (c : Contract) : (d.putContract n c).rng = d.rng := rfl
@[simp] theorem putContract_hif (n : Nat) (c : Contract) : (d.putContract n c).hif = d.hif := rfl
@[simp] theorem putContract_mac (n : Nat) (c : Contract) : (d.putContract n c).mac = d.mac := rfl
@[simp] theorem putContract_acs (n : Nat) (c : Contract) : (d.putContract n c).acs = d.acs := rfl
@[simp] theorem putContract_fwd (n : Nat) (c : Contract) : (d.putContract n c).fwd = d.fwd := rfl
@[simp] theorem putContract_tmpl (n : Nat) (c : Contract) : (d.putContract n c).tmpl = d.tmpl := rfl
@[simp] theorem putContract_sch (n : Nat) (c : Contract) : (d.putContract n c).sch = d.sch := rfl
@[simp] theorem putContract_slu (n : Nat) (c : Contract) : (d.putContract n c).slu = d.slu := rfl
@[simp] theorem putContract_dup (n : Nat) (c : Contract) : (d.putContract n c).dup = d.dup := rfl
@[simp] theorem putContract_mbx (n : Nat) (c : Contract) : (d.putContract n c).mbx = d.mbx := rfl
@[simp] theorem putContract_cip (n : Nat) (c : Contract) : (d.putContract n c).cip = d.cip := rfl
@[simp] theorem putContract_sto (n : Nat) (c : Contract) : (d.putContract n c).sto = d.sto := rfl
@[simp] theorem putContract_bat (n : Nat) (c : Contract) : (d.putContract n c).bat = d.bat := rfl
@[simp] theorem putContract_dkw (n : Nat) (c : Contract) : (d.putContract n c).dkw = d.dkw := rfl
@[simp] theorem putContract_mgt (n : Nat) (c : Contract) : (d.putContract n c).mgt = d.mgt := rfl
@[simp] theorem putContract_warming (n : Nat) (c : Contract) : (d.putContract n c).warming = d.warming := rfl
@[simp] theorem putContract_free (n : Nat) (c : Contract) : (d.putContract n c).free = d.free := rfl
@[simp] theorem putContract_out (n : Nat) (c : Contract) : (d.putContract n c).out = d.out := rfl
@[simp] theorem putContract_adm_waiting (n : Nat) (c : Contract) : (d.putContract n c).adm.waiting = d.adm.waiting := rfl
@[simp] theorem putContract_adm_revalidate (n : Nat) (c : Contract) : (d.putContract n c).adm.revalidate = d.adm.revalidate := rfl
@[simp] theorem putContract_adm_compiling (n : Nat) (c : Contract) : (d.putContract n c).adm.compiling = d.adm.compiling := rfl
@[simp] theorem putContract_adm_queue (n : Nat) (c : Contract) : (d.putContract n c).adm.queue = d.adm.queue := rfl
@[simp] theorem rd_putContract (n : Nat) (c : Contract) (f_ : Fld) (i_ : Nat) : (d.putContract n c).rd f_ i_ = d.rd f_ i_ := rfl
@[simp] theorem ctx_putContract (n : Nat) (c : Contract) (x_ : Nat) : (d.putContract n c).ctx x_ = d.ctx x_ := rfl

/-! ## `Dev.setSluice` -/

@[simp] theorem setSluice_regs (p : Nat) (x : Sluice) : (d.setSluice p x).regs = d.regs := rfl
@[simp] theorem setSluice_evt (p : Nat) (x : Sluice) : (d.setSluice p x).evt = d.evt := rfl
@[simp] theorem setSluice_eng (p : Nat) (x : Sluice) : (d.setSluice p x).eng = d.eng := rfl
@[simp] theorem setSluice_prog (p : Nat) (x : Sluice) : (d.setSluice p x).prog = d.prog := rfl
@[simp] theorem setSluice_dsp (p : Nat) (x : Sluice) : (d.setSluice p x).dsp = d.dsp := rfl
@[simp] theorem setSluice_rng (p : Nat) (x : Sluice) : (d.setSluice p x).rng = d.rng := rfl
@[simp] theorem setSluice_hif (p : Nat) (x : Sluice) : (d.setSluice p x).hif = d.hif := rfl
@[simp] theorem setSluice_mac (p : Nat) (x : Sluice) : (d.setSluice p x).mac = d.mac := rfl
@[simp] theorem setSluice_acs (p : Nat) (x : Sluice) : (d.setSluice p x).acs = d.acs := rfl
@[simp] theorem setSluice_fwd (p : Nat) (x : Sluice) : (d.setSluice p x).fwd = d.fwd := rfl
@[simp] theorem setSluice_tmpl (p : Nat) (x : Sluice) : (d.setSluice p x).tmpl = d.tmpl := rfl
@[simp] theorem setSluice_sch (p : Nat) (x : Sluice) : (d.setSluice p x).sch = d.sch := rfl
@[simp] theorem setSluice_adm (p : Nat) (x : Sluice) : (d.setSluice p x).adm = d.adm := rfl
@[simp] theorem setSluice_dup (p : Nat) (x : Sluice) : (d.setSluice p x).dup = d.dup := rfl
@[simp] theorem setSluice_mbx (p : Nat) (x : Sluice) : (d.setSluice p x).mbx = d.mbx := rfl
@[simp] theorem setSluice_cip (p : Nat) (x : Sluice) : (d.setSluice p x).cip = d.cip := rfl
@[simp] theorem setSluice_sto (p : Nat) (x : Sluice) : (d.setSluice p x).sto = d.sto := rfl
@[simp] theorem setSluice_bat (p : Nat) (x : Sluice) : (d.setSluice p x).bat = d.bat := rfl
@[simp] theorem setSluice_dkw (p : Nat) (x : Sluice) : (d.setSluice p x).dkw = d.dkw := rfl
@[simp] theorem setSluice_mgt (p : Nat) (x : Sluice) : (d.setSluice p x).mgt = d.mgt := rfl
@[simp] theorem setSluice_warming (p : Nat) (x : Sluice) : (d.setSluice p x).warming = d.warming := rfl
@[simp] theorem setSluice_free (p : Nat) (x : Sluice) : (d.setSluice p x).free = d.free := rfl
@[simp] theorem setSluice_out (p : Nat) (x : Sluice) : (d.setSluice p x).out = d.out := rfl
@[simp] theorem setSluice_slu_pps (p : Nat) (x : Sluice) : (d.setSluice p x).slu.pps = d.slu.pps := rfl
@[simp] theorem rd_setSluice (p : Nat) (x : Sluice) (f_ : Fld) (i_ : Nat) : (d.setSluice p x).rd f_ i_ = d.rd f_ i_ := rfl
@[simp] theorem ctx_setSluice (p : Nat) (x : Sluice) (x_ : Nat) : (d.setSluice p x).ctx x_ = d.ctx x_ := rfl
@[simp] theorem sluice_setSluice_same (p : Nat) (x : Sluice) : (d.setSluice p x).sluice p = x := by
  simp [Dev.sluice, Dev.setSluice]
theorem sluice_setSluice_other (p : Nat) (x : Sluice) {j_ : Nat} (h : j_ ≠ p) : (d.setSluice p x).sluice j_ = d.sluice j_ := by
  simp only [Dev.sluice, Dev.setSluice]
  exact look_put_other _ _ h

/-! ## `Dev.setCtl` -/

@[simp] theorem setCtl_regs (f : Nat) (x : NvCtl) : (d.setCtl f x).regs = d.regs := rfl
@[simp] theorem setCtl_evt (f : Nat) (x : NvCtl) : (d.setCtl f x).evt = d.evt := rfl
@[simp] theorem setCtl_eng (f : Nat) (x : NvCtl) : (d.setCtl f x).eng = d.eng := rfl
@[simp] theorem setCtl_prog (f : Nat) (x : NvCtl) : (d.setCtl f x).prog = d.prog := rfl
@[simp] theorem setCtl_dsp (f : Nat) (x : NvCtl) : (d.setCtl f x).dsp = d.dsp := rfl
@[simp] theorem setCtl_rng (f : Nat) (x : NvCtl) : (d.setCtl f x).rng = d.rng := rfl
@[simp] theorem setCtl_hif (f : Nat) (x : NvCtl) : (d.setCtl f x).hif = d.hif := rfl
@[simp] theorem setCtl_mac (f : Nat) (x : NvCtl) : (d.setCtl f x).mac = d.mac := rfl
@[simp] theorem setCtl_acs (f : Nat) (x : NvCtl) : (d.setCtl f x).acs = d.acs := rfl
@[simp] theorem setCtl_fwd (f : Nat) (x : NvCtl) : (d.setCtl f x).fwd = d.fwd := rfl
@[simp] theorem setCtl_tmpl (f : Nat) (x : NvCtl) : (d.setCtl f x).tmpl = d.tmpl := rfl
@[simp] theorem setCtl_sch (f : Nat) (x : NvCtl) : (d.setCtl f x).sch = d.sch := rfl
@[simp] theorem setCtl_slu (f : Nat) (x : NvCtl) : (d.setCtl f x).slu = d.slu := rfl
@[simp] theorem setCtl_adm (f : Nat) (x : NvCtl) : (d.setCtl f x).adm = d.adm := rfl
@[simp] theorem setCtl_dup (f : Nat) (x : NvCtl) : (d.setCtl f x).dup = d.dup := rfl
@[simp] theorem setCtl_mbx (f : Nat) (x : NvCtl) : (d.setCtl f x).mbx = d.mbx := rfl
@[simp] theorem setCtl_cip (f : Nat) (x : NvCtl) : (d.setCtl f x).cip = d.cip := rfl
@[simp] theorem setCtl_bat (f : Nat) (x : NvCtl) : (d.setCtl f x).bat = d.bat := rfl
@[simp] theorem setCtl_dkw (f : Nat) (x : NvCtl) : (d.setCtl f x).dkw = d.dkw := rfl
@[simp] theorem setCtl_mgt (f : Nat) (x : NvCtl) : (d.setCtl f x).mgt = d.mgt := rfl
@[simp] theorem setCtl_warming (f : Nat) (x : NvCtl) : (d.setCtl f x).warming = d.warming := rfl
@[simp] theorem setCtl_free (f : Nat) (x : NvCtl) : (d.setCtl f x).free = d.free := rfl
@[simp] theorem setCtl_out (f : Nat) (x : NvCtl) : (d.setCtl f x).out = d.out := rfl
@[simp] theorem setCtl_sto_conns (f : Nat) (x : NvCtl) : (d.setCtl f x).sto.conns = d.sto.conns := rfl
@[simp] theorem setCtl_sto_segs (f : Nat) (x : NvCtl) : (d.setCtl f x).sto.segs = d.sto.segs := rfl
@[simp] theorem setCtl_sto_qps (f : Nat) (x : NvCtl) : (d.setCtl f x).sto.qps = d.sto.qps := rfl
@[simp] theorem setCtl_sto_jobs (f : Nat) (x : NvCtl) : (d.setCtl f x).sto.jobs = d.sto.jobs := rfl
@[simp] theorem setCtl_sto_arrived (f : Nat) (x : NvCtl) : (d.setCtl f x).sto.arrived = d.sto.arrived := rfl
@[simp] theorem setCtl_sto_cmds (f : Nat) (x : NvCtl) : (d.setCtl f x).sto.cmds = d.sto.cmds := rfl
@[simp] theorem setCtl_sto_next (f : Nat) (x : NvCtl) : (d.setCtl f x).sto.next = d.sto.next := rfl
@[simp] theorem rd_setCtl (f : Nat) (x : NvCtl) (f_ : Fld) (i_ : Nat) : (d.setCtl f x).rd f_ i_ = d.rd f_ i_ := rfl
@[simp] theorem ctx_setCtl (f : Nat) (x : NvCtl) (x_ : Nat) : (d.setCtl f x).ctx x_ = d.ctx x_ := rfl
@[simp] theorem ctl_setCtl_same (f : Nat) (x : NvCtl) : (d.setCtl f x).ctl f = x := by
  simp [Dev.ctl, Dev.setCtl]
theorem ctl_setCtl_other (f : Nat) (x : NvCtl) {j_ : Nat} (h : j_ ≠ f) : (d.setCtl f x).ctl j_ = d.ctl j_ := by
  simp only [Dev.ctl, Dev.setCtl]
  exact look_put_other _ _ h

/-! ## `Dev.setCmd` -/

@[simp] theorem setCmd_regs (n : Nat) (c : Option NvCmd) : (d.setCmd n c).regs = d.regs := rfl
@[simp] theorem setCmd_evt (n : Nat) (c : Option NvCmd) : (d.setCmd n c).evt = d.evt := rfl
@[simp] theorem setCmd_eng (n : Nat) (c : Option NvCmd) : (d.setCmd n c).eng = d.eng := rfl
@[simp] theorem setCmd_prog (n : Nat) (c : Option NvCmd) : (d.setCmd n c).prog = d.prog := rfl
@[simp] theorem setCmd_dsp (n : Nat) (c : Option NvCmd) : (d.setCmd n c).dsp = d.dsp := rfl
@[simp] theorem setCmd_rng (n : Nat) (c : Option NvCmd) : (d.setCmd n c).rng = d.rng := rfl
@[simp] theorem setCmd_hif (n : Nat) (c : Option NvCmd) : (d.setCmd n c).hif = d.hif := rfl
@[simp] theorem setCmd_mac (n : Nat) (c : Option NvCmd) : (d.setCmd n c).mac = d.mac := rfl
@[simp] theorem setCmd_acs (n : Nat) (c : Option NvCmd) : (d.setCmd n c).acs = d.acs := rfl
@[simp] theorem setCmd_fwd (n : Nat) (c : Option NvCmd) : (d.setCmd n c).fwd = d.fwd := rfl
@[simp] theorem setCmd_tmpl (n : Nat) (c : Option NvCmd) : (d.setCmd n c).tmpl = d.tmpl := rfl
@[simp] theorem setCmd_sch (n : Nat) (c : Option NvCmd) : (d.setCmd n c).sch = d.sch := rfl
@[simp] theorem setCmd_slu (n : Nat) (c : Option NvCmd) : (d.setCmd n c).slu = d.slu := rfl
@[simp] theorem setCmd_adm (n : Nat) (c : Option NvCmd) : (d.setCmd n c).adm = d.adm := rfl
@[simp] theorem setCmd_dup (n : Nat) (c : Option NvCmd) : (d.setCmd n c).dup = d.dup := rfl
@[simp] theorem setCmd_mbx (n : Nat) (c : Option NvCmd) : (d.setCmd n c).mbx = d.mbx := rfl
@[simp] theorem setCmd_cip (n : Nat) (c : Option NvCmd) : (d.setCmd n c).cip = d.cip := rfl
@[simp] theorem setCmd_bat (n : Nat) (c : Option NvCmd) : (d.setCmd n c).bat = d.bat := rfl
@[simp] theorem setCmd_dkw (n : Nat) (c : Option NvCmd) : (d.setCmd n c).dkw = d.dkw := rfl
@[simp] theorem setCmd_mgt (n : Nat) (c : Option NvCmd) : (d.setCmd n c).mgt = d.mgt := rfl
@[simp] theorem setCmd_warming (n : Nat) (c : Option NvCmd) : (d.setCmd n c).warming = d.warming := rfl
@[simp] theorem setCmd_free (n : Nat) (c : Option NvCmd) : (d.setCmd n c).free = d.free := rfl
@[simp] theorem setCmd_out (n : Nat) (c : Option NvCmd) : (d.setCmd n c).out = d.out := rfl
@[simp] theorem setCmd_sto_conns (n : Nat) (c : Option NvCmd) : (d.setCmd n c).sto.conns = d.sto.conns := rfl
@[simp] theorem setCmd_sto_segs (n : Nat) (c : Option NvCmd) : (d.setCmd n c).sto.segs = d.sto.segs := rfl
@[simp] theorem setCmd_sto_qps (n : Nat) (c : Option NvCmd) : (d.setCmd n c).sto.qps = d.sto.qps := rfl
@[simp] theorem setCmd_sto_jobs (n : Nat) (c : Option NvCmd) : (d.setCmd n c).sto.jobs = d.sto.jobs := rfl
@[simp] theorem setCmd_sto_arrived (n : Nat) (c : Option NvCmd) : (d.setCmd n c).sto.arrived = d.sto.arrived := rfl
@[simp] theorem setCmd_sto_next (n : Nat) (c : Option NvCmd) : (d.setCmd n c).sto.next = d.sto.next := rfl
@[simp] theorem setCmd_sto_ctls (n : Nat) (c : Option NvCmd) : (d.setCmd n c).sto.ctls = d.sto.ctls := rfl
@[simp] theorem rd_setCmd (n : Nat) (c : Option NvCmd) (f_ : Fld) (i_ : Nat) : (d.setCmd n c).rd f_ i_ = d.rd f_ i_ := rfl
@[simp] theorem ctx_setCmd (n : Nat) (c : Option NvCmd) (x_ : Nat) : (d.setCmd n c).ctx x_ = d.ctx x_ := rfl

/-! ## `Dev.setTask` -/

@[simp] theorem setTask_regs (key : Nat) (t : Task) : (d.setTask key t).regs = d.regs := rfl
@[simp] theorem setTask_evt (key : Nat) (t : Task) : (d.setTask key t).evt = d.evt := rfl
@[simp] theorem setTask_prog (key : Nat) (t : Task) : (d.setTask key t).prog = d.prog := rfl
@[simp] theorem setTask_dsp (key : Nat) (t : Task) : (d.setTask key t).dsp = d.dsp := rfl
@[simp] theorem setTask_rng (key : Nat) (t : Task) : (d.setTask key t).rng = d.rng := rfl
@[simp] theorem setTask_hif (key : Nat) (t : Task) : (d.setTask key t).hif = d.hif := rfl
@[simp] theorem setTask_mac (key : Nat) (t : Task) : (d.setTask key t).mac = d.mac := rfl
@[simp] theorem setTask_acs (key : Nat) (t : Task) : (d.setTask key t).acs = d.acs := rfl
@[simp] theorem setTask_fwd (key : Nat) (t : Task) : (d.setTask key t).fwd = d.fwd := rfl
@[simp] theorem setTask_tmpl (key : Nat) (t : Task) : (d.setTask key t).tmpl = d.tmpl := rfl
@[simp] theorem setTask_sch (key : Nat) (t : Task) : (d.setTask key t).sch = d.sch := rfl
@[simp] theorem setTask_slu (key : Nat) (t : Task) : (d.setTask key t).slu = d.slu := rfl
@[simp] theorem setTask_adm (key : Nat) (t : Task) : (d.setTask key t).adm = d.adm := rfl
@[simp] theorem setTask_dup (key : Nat) (t : Task) : (d.setTask key t).dup = d.dup := rfl
@[simp] theorem setTask_mbx (key : Nat) (t : Task) : (d.setTask key t).mbx = d.mbx := rfl
@[simp] theorem setTask_cip (key : Nat) (t : Task) : (d.setTask key t).cip = d.cip := rfl
@[simp] theorem setTask_sto (key : Nat) (t : Task) : (d.setTask key t).sto = d.sto := rfl
@[simp] theorem setTask_bat (key : Nat) (t : Task) : (d.setTask key t).bat = d.bat := rfl
@[simp] theorem setTask_dkw (key : Nat) (t : Task) : (d.setTask key t).dkw = d.dkw := rfl
@[simp] theorem setTask_mgt (key : Nat) (t : Task) : (d.setTask key t).mgt = d.mgt := rfl
@[simp] theorem setTask_warming (key : Nat) (t : Task) : (d.setTask key t).warming = d.warming := rfl
@[simp] theorem setTask_free (key : Nat) (t : Task) : (d.setTask key t).free = d.free := rfl
@[simp] theorem setTask_out (key : Nat) (t : Task) : (d.setTask key t).out = d.out := rfl
@[simp] theorem setTask_eng_ctxs (key : Nat) (t : Task) : (d.setTask key t).eng.ctxs = d.eng.ctxs := rfl
@[simp] theorem setTask_eng_csrs (key : Nat) (t : Task) : (d.setTask key t).eng.csrs = d.eng.csrs := rfl
@[simp] theorem setTask_eng_readyQ (key : Nat) (t : Task) : (d.setTask key t).eng.readyQ = d.eng.readyQ := rfl
@[simp] theorem setTask_eng_coh (key : Nat) (t : Task) : (d.setTask key t).eng.coh = d.eng.coh := rfl
@[simp] theorem setTask_eng_withdraw (key : Nat) (t : Task) : (d.setTask key t).eng.withdraw = d.eng.withdraw := rfl
@[simp] theorem setTask_eng_nextAge (key : Nat) (t : Task) : (d.setTask key t).eng.nextAge = d.eng.nextAge := rfl
@[simp] theorem setTask_eng_beaten (key : Nat) (t : Task) : (d.setTask key t).eng.beaten = d.eng.beaten := rfl
@[simp] theorem setTask_eng_strays (key : Nat) (t : Task) : (d.setTask key t).eng.strays = d.eng.strays := rfl
@[simp] theorem setTask_eng_tclks (key : Nat) (t : Task) : (d.setTask key t).eng.tclks = d.eng.tclks := rfl
@[simp] theorem setTask_eng_cntPkts (key : Nat) (t : Task) : (d.setTask key t).eng.cntPkts = d.eng.cntPkts := rfl
@[simp] theorem setTask_eng_cntBytes (key : Nat) (t : Task) : (d.setTask key t).eng.cntBytes = d.eng.cntBytes := rfl
@[simp] theorem setTask_eng_drops (key : Nat) (t : Task) : (d.setTask key t).eng.drops = d.eng.drops := rfl
@[simp] theorem rd_setTask (key : Nat) (t : Task) (f_ : Fld) (i_ : Nat) : (d.setTask key t).rd f_ i_ = d.rd f_ i_ := rfl

/-! ## `Dev.setConn` -/

@[simp] theorem setConn_regs (c : Nat) (x : Conn) : (d.setConn c x).regs = d.regs := rfl
@[simp] theorem setConn_evt (c : Nat) (x : Conn) : (d.setConn c x).evt = d.evt := rfl
@[simp] theorem setConn_eng (c : Nat) (x : Conn) : (d.setConn c x).eng = d.eng := rfl
@[simp] theorem setConn_prog (c : Nat) (x : Conn) : (d.setConn c x).prog = d.prog := rfl
@[simp] theorem setConn_dsp (c : Nat) (x : Conn) : (d.setConn c x).dsp = d.dsp := rfl
@[simp] theorem setConn_rng (c : Nat) (x : Conn) : (d.setConn c x).rng = d.rng := rfl
@[simp] theorem setConn_hif (c : Nat) (x : Conn) : (d.setConn c x).hif = d.hif := rfl
@[simp] theorem setConn_mac (c : Nat) (x : Conn) : (d.setConn c x).mac = d.mac := rfl
@[simp] theorem setConn_acs (c : Nat) (x : Conn) : (d.setConn c x).acs = d.acs := rfl
@[simp] theorem setConn_fwd (c : Nat) (x : Conn) : (d.setConn c x).fwd = d.fwd := rfl
@[simp] theorem setConn_tmpl (c : Nat) (x : Conn) : (d.setConn c x).tmpl = d.tmpl := rfl
@[simp] theorem setConn_sch (c : Nat) (x : Conn) : (d.setConn c x).sch = d.sch := rfl
@[simp] theorem setConn_slu (c : Nat) (x : Conn) : (d.setConn c x).slu = d.slu := rfl
@[simp] theorem setConn_adm (c : Nat) (x : Conn) : (d.setConn c x).adm = d.adm := rfl
@[simp] theorem setConn_dup (c : Nat) (x : Conn) : (d.setConn c x).dup = d.dup := rfl
@[simp] theorem setConn_mbx (c : Nat) (x : Conn) : (d.setConn c x).mbx = d.mbx := rfl
@[simp] theorem setConn_cip (c : Nat) (x : Conn) : (d.setConn c x).cip = d.cip := rfl
@[simp] theorem setConn_bat (c : Nat) (x : Conn) : (d.setConn c x).bat = d.bat := rfl
@[simp] theorem setConn_dkw (c : Nat) (x : Conn) : (d.setConn c x).dkw = d.dkw := rfl
@[simp] theorem setConn_mgt (c : Nat) (x : Conn) : (d.setConn c x).mgt = d.mgt := rfl
@[simp] theorem setConn_warming (c : Nat) (x : Conn) : (d.setConn c x).warming = d.warming := rfl
@[simp] theorem setConn_free (c : Nat) (x : Conn) : (d.setConn c x).free = d.free := rfl
@[simp] theorem setConn_out (c : Nat) (x : Conn) : (d.setConn c x).out = d.out := rfl
@[simp] theorem setConn_sto_segs (c : Nat) (x : Conn) : (d.setConn c x).sto.segs = d.sto.segs := rfl
@[simp] theorem setConn_sto_qps (c : Nat) (x : Conn) : (d.setConn c x).sto.qps = d.sto.qps := rfl
@[simp] theorem setConn_sto_jobs (c : Nat) (x : Conn) : (d.setConn c x).sto.jobs = d.sto.jobs := rfl
@[simp] theorem setConn_sto_arrived (c : Nat) (x : Conn) : (d.setConn c x).sto.arrived = d.sto.arrived := rfl
@[simp] theorem setConn_sto_cmds (c : Nat) (x : Conn) : (d.setConn c x).sto.cmds = d.sto.cmds := rfl
@[simp] theorem setConn_sto_next (c : Nat) (x : Conn) : (d.setConn c x).sto.next = d.sto.next := rfl
@[simp] theorem setConn_sto_ctls (c : Nat) (x : Conn) : (d.setConn c x).sto.ctls = d.sto.ctls := rfl
@[simp] theorem rd_setConn (c : Nat) (x : Conn) (f_ : Fld) (i_ : Nat) : (d.setConn c x).rd f_ i_ = d.rd f_ i_ := rfl
@[simp] theorem ctx_setConn (c : Nat) (x : Conn) (x_ : Nat) : (d.setConn c x).ctx x_ = d.ctx x_ := rfl
@[simp] theorem conn_setConn_same (c : Nat) (x : Conn) : (d.setConn c x).conn c = x := by
  simp [Dev.conn, Dev.setConn]
theorem conn_setConn_other (c : Nat) (x : Conn) {j_ : Nat} (h : j_ ≠ c) : (d.setConn c x).conn j_ = d.conn j_ := by
  simp only [Dev.conn, Dev.setConn]
  exact look_put_other _ _ h

/-! ## `Dev.setQp` -/

@[simp] theorem setQp_regs (q : Nat) (x : Qp) : (d.setQp q x).regs = d.regs := rfl
@[simp] theorem setQp_evt (q : Nat) (x : Qp) : (d.setQp q x).evt = d.evt := rfl
@[simp] theorem setQp_eng (q : Nat) (x : Qp) : (d.setQp q x).eng = d.eng := rfl
@[simp] theorem setQp_prog (q : Nat) (x : Qp) : (d.setQp q x).prog = d.prog := rfl
@[simp] theorem setQp_dsp (q : Nat) (x : Qp) : (d.setQp q x).dsp = d.dsp := rfl
@[simp] theorem setQp_rng (q : Nat) (x : Qp) : (d.setQp q x).rng = d.rng := rfl
@[simp] theorem setQp_hif (q : Nat) (x : Qp) : (d.setQp q x).hif = d.hif := rfl
@[simp] theorem setQp_mac (q : Nat) (x : Qp) : (d.setQp q x).mac = d.mac := rfl
@[simp] theorem setQp_acs (q : Nat) (x : Qp) : (d.setQp q x).acs = d.acs := rfl
@[simp] theorem setQp_fwd (q : Nat) (x : Qp) : (d.setQp q x).fwd = d.fwd := rfl
@[simp] theorem setQp_tmpl (q : Nat) (x : Qp) : (d.setQp q x).tmpl = d.tmpl := rfl
@[simp] theorem setQp_sch (q : Nat) (x : Qp) : (d.setQp q x).sch = d.sch := rfl
@[simp] theorem setQp_slu (q : Nat) (x : Qp) : (d.setQp q x).slu = d.slu := rfl
@[simp] theorem setQp_adm (q : Nat) (x : Qp) : (d.setQp q x).adm = d.adm := rfl
@[simp] theorem setQp_dup (q : Nat) (x : Qp) : (d.setQp q x).dup = d.dup := rfl
@[simp] theorem setQp_mbx (q : Nat) (x : Qp) : (d.setQp q x).mbx = d.mbx := rfl
@[simp] theorem setQp_cip (q : Nat) (x : Qp) : (d.setQp q x).cip = d.cip := rfl
@[simp] theorem setQp_bat (q : Nat) (x : Qp) : (d.setQp q x).bat = d.bat := rfl
@[simp] theorem setQp_dkw (q : Nat) (x : Qp) : (d.setQp q x).dkw = d.dkw := rfl
@[simp] theorem setQp_mgt (q : Nat) (x : Qp) : (d.setQp q x).mgt = d.mgt := rfl
@[simp] theorem setQp_warming (q : Nat) (x : Qp) : (d.setQp q x).warming = d.warming := rfl
@[simp] theorem setQp_free (q : Nat) (x : Qp) : (d.setQp q x).free = d.free := rfl
@[simp] theorem setQp_out (q : Nat) (x : Qp) : (d.setQp q x).out = d.out := rfl
@[simp] theorem setQp_sto_conns (q : Nat) (x : Qp) : (d.setQp q x).sto.conns = d.sto.conns := rfl
@[simp] theorem setQp_sto_segs (q : Nat) (x : Qp) : (d.setQp q x).sto.segs = d.sto.segs := rfl
@[simp] theorem setQp_sto_jobs (q : Nat) (x : Qp) : (d.setQp q x).sto.jobs = d.sto.jobs := rfl
@[simp] theorem setQp_sto_arrived (q : Nat) (x : Qp) : (d.setQp q x).sto.arrived = d.sto.arrived := rfl
@[simp] theorem setQp_sto_cmds (q : Nat) (x : Qp) : (d.setQp q x).sto.cmds = d.sto.cmds := rfl
@[simp] theorem setQp_sto_next (q : Nat) (x : Qp) : (d.setQp q x).sto.next = d.sto.next := rfl
@[simp] theorem setQp_sto_ctls (q : Nat) (x : Qp) : (d.setQp q x).sto.ctls = d.sto.ctls := rfl
@[simp] theorem rd_setQp (q : Nat) (x : Qp) (f_ : Fld) (i_ : Nat) : (d.setQp q x).rd f_ i_ = d.rd f_ i_ := rfl
@[simp] theorem ctx_setQp (q : Nat) (x : Qp) (x_ : Nat) : (d.setQp q x).ctx x_ = d.ctx x_ := rfl
@[simp] theorem qp_setQp_same (q : Nat) (x : Qp) : (d.setQp q x).qp q = x := by
  simp [Dev.qp, Dev.setQp]
theorem qp_setQp_other (q : Nat) (x : Qp) {j_ : Nat} (h : j_ ≠ q) : (d.setQp q x).qp j_ = d.qp j_ := by
  simp only [Dev.qp, Dev.setQp]
  exact look_put_other _ _ h

end Sys2Proof.Laws
end

