-- ==== Sys2Proof/Laws/Events.lean ====
section
/-! SUPPORT. What raising an event can touch: registers, event records, the interrupt bits of the control cores, functions (pending
vectors), what is sent, the Dikewarden, and the revalidations that wait; nothing else (18 R495, R496). -/

namespace Sys2Proof.Laws

open Sys2Proof.Machine

/-- What stays as it was between two devices when only event handling lies between them. -/
structure EventFrame (d e : Dev) : Prop where
  ctxs    : e.eng.ctxs = d.eng.ctxs
  tasks   : e.eng.tasks = d.eng.tasks
  coh     : e.eng.coh = d.eng.coh
  prog    : e.prog = d.prog
  dsp     : e.dsp = d.dsp
  rng     : e.rng = d.rng
  mac     : e.mac = d.mac
  acs     : e.acs = d.acs
  fwd     : e.fwd = d.fwd
  tmpl    : e.tmpl = d.tmpl
  sch     : e.sch = d.sch
  slu     : e.slu = d.slu
  dup     : e.dup = d.dup
  mbx     : e.mbx = d.mbx
  cip     : e.cip = d.cip
  sto     : e.sto = d.sto
  bat     : e.bat = d.bat
  mgt     : e.mgt = d.mgt
  warming : e.warming = d.warming
  free    : e.free = d.free

theorem EventFrame.refl (d : Dev) : EventFrame d d := by constructor <;> rfl

theorem EventFrame.trans {a b c : Dev} (h : EventFrame a b) (k : EventFrame b c) : EventFrame a c := by
  constructor
  · exact k.ctxs.trans h.ctxs
  · exact k.tasks.trans h.tasks
  · exact k.coh.trans h.coh
  · exact k.prog.trans h.prog
  · exact k.dsp.trans h.dsp
  · exact k.rng.trans h.rng
  · exact k.mac.trans h.mac
  · exact k.acs.trans h.acs
  · exact k.fwd.trans h.fwd
  · exact k.tmpl.trans h.tmpl
  · exact k.sch.trans h.sch
  · exact k.slu.trans h.slu
  · exact k.dup.trans h.dup
  · exact k.mbx.trans h.mbx
  · exact k.cip.trans h.cip
  · exact k.sto.trans h.sto
  · exact k.bat.trans h.bat
  · exact k.mgt.trans h.mgt
  · exact k.warming.trans h.warming
  · exact k.free.trans h.free

theorem EventFrame.ctx {d e : Dev} (h : EventFrame d e) (x : Nat) : e.ctx x = d.ctx x := by
  simp only [Dev.ctx, h.ctxs]

theorem wr_frame (d : Dev) (f : Fld) (i v : Nat) : EventFrame d (d.wr f i v) := by constructor <;> rfl
theorem bump_frame (d : Dev) (f : Fld) (i n : Nat) : EventFrame d (d.bump f i n) := by
  unfold Dev.bump
  exact wr_frame ..
theorem wrBit_frame (d : Dev) (f : Fld) (i b : Nat) (on : Bool) : EventFrame d (d.wrBit f i b on) := by
  unfold Dev.wrBit
  exact wr_frame ..
theorem send_frame (d : Dev) (o : Out) : EventFrame d (d.send o) := by constructor <;> rfl
theorem setFn_frame (d : Dev) (f : Nat) (x : HostFn) : EventFrame d (d.setFn f x) := by constructor <;> rfl
theorem csrs_frame (d : Dev) (t : Tbl Csr) : EventFrame d { d with eng := { d.eng with csrs := t } } := by constructor <;> rfl
theorem irqAll_frame (d : Dev) (g : Nat) : EventFrame d (d.irqAll g) := by
  unfold Dev.irqAll
  exact csrs_frame d _
theorem revalidate_frame (d : Dev) (c : Nat) : EventFrame d (d.revalidate c) := by constructor <;> rfl
theorem evt_frame (d : Dev) (e : EvtState) : EventFrame d { d with evt := e } := by constructor <;> rfl
theorem dkw_frame (d : Dev) (k : Dkw) : EventFrame d { d with dkw := k } := by constructor <;> rfl

theorem vector_frame (d : Dev) (f v : Nat) : EventFrame d (d.vector f v) := by
  simp only [Dev.vector]
  split
  · exact .refl d
  · split
    · exact setFn_frame ..
    · exact send_frame ..

theorem latchEvent_frame (d : Dev) (v s : Nat) : EventFrame d (d.latchEvent v s) := by
  simp only [Dev.latchEvent]
  split
  · exact (wrBit_frame ..).trans (vector_frame ..)
  · exact wrBit_frame ..

theorem recordEvent_frame (d : Dev) (v : Nat) (r : EvRecord) : EventFrame d (d.recordEvent v r) := by
  unfold Dev.recordEvent
  split
  · split
    · exact evt_frame ..
    · exact bump_frame ..
  · split
    · exact evt_frame ..
    · exact bump_frame ..

theorem foldl_frame {α : Type} (g : Dev → α → Dev) (h : ∀ d a, EventFrame d (g d a)) : ∀ (l : List α) (d : Dev), EventFrame d (l.foldl g d)
  | [], d => .refl d
  | a :: l, d => (h d a).trans (foldl_frame g h l (g d a))

theorem routeEvent_frame (d : Dev) (now : NetTime) (s info : Nat) (p : Option Nat) : EventFrame d (d.routeEvent now s info p) := by
  have h := (((irqAll_frame d (s / 32)).trans (foldl_frame (fun x v => x.latchEvent v s) (fun y v => latchEvent_frame y v s) (viewsOf p) _)).trans
    (foldl_frame (fun x v => x.recordEvent v { src := s, polder := p, info := info, time := now.tsin })
      (fun y v => recordEvent_frame y v _) (viewsOf p) _)).trans (bump_frame _ EVT.COUNT_COUNT s 1)
  simp only [Dev.routeEvent]
  split
  · exact h.trans (send_frame ..)
  · exact h

theorem detected_frame (d : Dev) (now : NetTime) (m s i : Nat) : EventFrame d (d.detected now m s i) := by
  unfold Dev.detected
  extract_lets d1 a k d2 d3 j
  have h1 : EventFrame d d1 := bump_frame ..
  have h2 : EventFrame d1 d2 := by
    simp only [d2]
    split
    · exact .refl _
    · exact EventFrame.trans (((((wr_frame ..).trans (wr_frame ..)).trans (wr_frame ..)).trans (wr_frame ..)).trans (wr_frame ..) : EventFrame d1 a)
        (dkw_frame a _)
  have h3 : EventFrame d2 d3 := by
    simp only [d3]
    split
    · refine EventFrame.trans ?_ (routeEvent_frame ..)
      refine EventFrame.trans ?_ (wr_frame ..)
      split
      · exact .refl _
      · exact revalidate_frame ..
    · exact .refl _
  split
  · exact ((h1.trans h2).trans h3).trans (dkw_frame d3 _)
  · exact (h1.trans h2).trans h3

theorem repaired_frame (d : Dev) (m i : Nat) : EventFrame d (d.repaired m i) := by
  unfold Dev.repaired
  extract_lets fs d1
  split
  · exact (dkw_frame d _).trans (wr_frame ..)
  · exact dkw_frame d _

/-- Everything that raising an event can touch. -/
theorem raise_frame (d : Dev) (now : NetTime) (s info : Nat) (p : Option Nat) : EventFrame d (d.raise now s info p) := by
  unfold Dev.raise
  extract_lets lost d0 d1 e
  have h0 : EventFrame d d0 := routeEvent_frame ..
  have h1 : EventFrame d0 d1 := by
    simp only [d1]
    split
    · exact detected_frame ..
    · exact .refl _
  split
  · exact (h0.trans h1).trans ((evt_frame d1 _).trans (routeEvent_frame ..))
  · exact h0.trans h1

theorem raiseSec_frame (d : Dev) (now : NetTime) (s k info : Nat) (p : Option Nat) : EventFrame d (d.raiseSec now s k info p) := by
  simp only [Dev.raiseSec]
  split
  · exact .refl d
  · exact (evt_frame d _).trans (raise_frame ..)

theorem raiseHour_frame (d : Dev) (now : NetTime) (s k info : Nat) (p : Option Nat) : EventFrame d (d.raiseHour now s k info p) := by
  simp only [Dev.raiseHour]
  split
  · exact .refl d
  · exact (evt_frame d _).trans (raise_frame ..)

theorem aerLog_frame (d : Dev) (f : Nat) (e : AerErr) : EventFrame d (d.aerLog f e) := by
  simp only [Dev.aerLog]
  exact (setFn_frame ..).trans (send_frame ..)

theorem urAnswer_frame (d : Dev) (now : NetTime) (f : Nat) : EventFrame d (d.urAnswer now f) :=
  ((((bump_frame ..).trans (wr_frame ..)).trans (send_frame ..)).trans (raiseSec_frame ..)).trans (aerLog_frame ..)

end Sys2Proof.Laws
end

