-- ==== Sys2Proof/Laws/Memory.lean ====
section
/-! SUPPORT. The laws of the byte memories: what a store changes, that every store keeps the canonical form, and that bytes and numbers
agree (00_scope R11; 02 R36, R37). -/

namespace Sys2Proof.Laws

open Sys2Proof.Machine

/-- The bytes of a number are as many as asked for. -/
@[simp] theorem leBytes_length : ∀ n v, (leBytes n v).length = n
  | 0, _ => rfl
  | n + 1, v => by simp [leBytes, leBytes_length n]

/-- A store leaves every byte below it as it was. -/
theorem look_putBytes_below : ∀ (bs : List Byte) (t : Tbl Byte) (x j : Nat), j < x → look 0 (putBytes t x bs) j = look 0 t j
  | [], _, _, _, _ => rfl
  | b :: bs, t, x, j, h => by
    rw [putBytes, look_putBytes_below bs _ _ _ (by omega), look_put_other _ _ (by omega)]

/-- A store leaves every byte above it as it was. -/
theorem look_putBytes_above : ∀ (bs : List Byte) (t : Tbl Byte) (x j : Nat), x + bs.length ≤ j → look 0 (putBytes t x bs) j = look 0 t j
  | [], _, _, _, _ => rfl
  | b :: bs, t, x, j, h => by
    simp only [List.length_cons] at h
    rw [putBytes, look_putBytes_above bs _ _ _ (by omega), look_put_other _ _ (by omega)]

/-- A stored byte reads as stored. -/
theorem look_putBytes_at : ∀ (bs : List Byte) (t : Tbl Byte) (x i : Nat), i < bs.length → look 0 (putBytes t x bs) (x + i) = bs.getD i 0
  | [], _, _, _, h => by simp at h
  | b :: bs, t, x, 0, _ => by
    rw [putBytes, look_putBytes_below bs _ _ _ (by omega)]
    simp
  | b :: bs, t, x, i + 1, h => by
    simp only [List.length_cons] at h
    rw [putBytes, show x + (i + 1) = (x + 1) + i by omega, look_putBytes_at bs _ _ _ (by omega)]
    simp

/-- A store keeps the canonical form. -/
theorem putBytes_wf : ∀ (bs : List Byte) {t : Tbl Byte} (x : Nat), Memory.wf t = true → Memory.wf (putBytes t x bs) = true
  | [], _, _, h => h
  | b :: bs, _, x, h => by
    rw [putBytes]
    exact putBytes_wf bs (x + 1) (wf_put h x b)

/-- A write to the window's memory keeps the canonical form. -/
theorem write_wf {m : Coh} (h : Memory.wf m.mem = true) (a : Nat) (bs : List Byte) : Memory.wf (m.write a bs).mem = true := putBytes_wf bs a h

/-- A write leaves every byte outside it as it was. -/
theorem byte_write_other (m : Coh) (a : Nat) (bs : List Byte) {j : Nat} (h : j < a ∨ a + bs.length ≤ j) : (m.write a bs).byte j = m.byte j := by
  rcases h with h | h
  · exact look_putBytes_below _ _ _ _ h
  · exact look_putBytes_above _ _ _ _ h

/-- A written byte reads as written. -/
theorem byte_write_at (m : Coh) (a : Nat) (bs : List Byte) {i : Nat} (h : i < bs.length) : (m.write a bs).byte (a + i) = bs.getD i 0 :=
  look_putBytes_at _ _ _ _ h

/-- The memory at reset has the canonical form. -/
theorem reset_memory_wf : Memory.wf State.reset.dev.eng.coh.mem = true := rfl

end Sys2Proof.Laws
end

