-- ==== Sys2Proof/Laws/Operands.lean ====
section
/-! SUPPORT. The laws of issuing an instruction (03 R57, R65, R66): what an instruction of one shape answers. -/

namespace Sys2Proof.Laws

open Sys2Proof.Machine

/-- A context issues: its turn has come, its word is an instruction, and no ticket locks what it touches. -/
theorem issues_iff {d : Dev} {x : Nat} {u : Touch} :
    d.issues x u = true ↔ d.atIssue x = true ∧ d.unassigned x = false ∧ (d.ctx x).lockedBy u = none := by
  simp [Dev.issues, and_assoc]

/-- A context that issues is in RUN. -/
theorem run_of_atIssue {d : Dev} {x : Nat} (h : d.atIssue x = true) : (d.ctx x).st = .run := by
  simp only [Dev.atIssue, Bool.and_eq_true, decide_eq_true_eq] at h
  exact h.1

/-- A range that overlaps nothing of `u` overlaps nothing of a range that is the same, or empty. -/
theorem overlap_part {a b c : Nat × Nat} (h : overlap a b = false) (hc : c = b ∨ c.2 = 0 ∧ c.1 = 0) : overlap a c = false := by
  rcases hc with rfl | hc
  · exact h
  · simp [overlap, hc.1, hc.2]

/-- A ticket that does not lock what `u` touches does not lock a part of it. -/
theorem locks_mono {t : Ticket} {u v : Touch} (hr : ∀ r ∈ v.regs, r ∈ u.regs) (hh : v.header = true → u.header = true)
    (h1 : v.scratch = u.scratch ∨ v.scratch.2 = 0 ∧ v.scratch.1 = 0) (h2 : v.scratch2 = u.scratch2 ∨ v.scratch2.2 = 0 ∧ v.scratch2.1 = 0)
    (h3 : v.scratch3 = u.scratch3 ∨ v.scratch3.2 = 0 ∧ v.scratch3.1 = 0) (h : t.locks u = false) : t.locks v = false := by
  cases hb : t.busy
  · simp [Ticket.locks, hb]
  · simp only [Ticket.locks, hb, Bool.true_and, Bool.or_eq_false_iff, Bool.and_eq_false_iff, decide_eq_false_iff_not, not_not] at h ⊢
    obtain ⟨⟨⟨⟨ha, hb'⟩, hc⟩, hd⟩, he⟩ := h
    refine ⟨⟨⟨⟨?_, ?_⟩, overlap_part hc h1⟩, overlap_part hd h2⟩, overlap_part he h3⟩
    · rcases ha with ha | ha
      · exact .inl ha
      · right
        simp only [List.contains_eq_mem, decide_eq_false_iff_not] at ha ⊢
        exact fun hm => ha (hr _ hm)
    · rcases hb' with hb' | hb'
      · exact .inl hb'
      · right
        cases hv : v.header
        · rfl
        · rw [hh hv] at hb'
          exact absurd hb' (by decide)

/-- A context that issues an instruction issues one that touches less. -/
theorem issues_mono {d : Dev} {x : Nat} {u v : Touch} (h : d.issues x u = true) (hr : ∀ r ∈ v.regs, r ∈ u.regs)
    (hh : v.header = true → u.header = true := by simp)
    (h1 : v.scratch = u.scratch ∨ v.scratch.2 = 0 ∧ v.scratch.1 = 0 := by simp)
    (h2 : v.scratch2 = u.scratch2 ∨ v.scratch2.2 = 0 ∧ v.scratch2.1 = 0 := by simp)
    (h3 : v.scratch3 = u.scratch3 ∨ v.scratch3.2 = 0 ∧ v.scratch3.1 = 0 := by simp) : d.issues x v = true := by
  rw [issues_iff] at h ⊢
  refine ⟨h.1, h.2.1, ?_⟩
  have hl := h.2.2
  simp only [Ctx.lockedBy, Option.map_eq_none_iff, List.find?_eq_none] at hl ⊢
  intro e he
  have := hl e he
  simp only [Bool.not_eq_true] at this ⊢
  exact locks_mono hr hh h1 h2 h3 this

/-- An instruction that issues takes its effect. -/
theorem issue_of_issues {d : Dev} {x : Nat} {u : Touch} (h : d.issues x u = true) (body : Ctx → Dev) : d.issue x u body = body (d.ctx x) := by
  rw [issues_iff] at h
  simp [Dev.issue, h.1, h.2.1, h.2.2]

theorem issuePacket_of_issues {d : Dev} {x : Nat} {u : Touch} (h : d.issues x u = true) (hc : isCore x = false) (body : Ctx → Dev) :
    d.issuePacket x u body = body (d.ctx x) := by
  simp [Dev.issuePacket, issue_of_issues h, hc]

theorem issueCore_of_issues {d : Dev} {x : Nat} {u : Touch} (h : d.issues x u = true) (hc : isCore x = true) (body : Ctx → Dev) :
    d.issueCore x u body = body (d.ctx x) := by
  simp [Dev.issueCore, issue_of_issues h, hc]

theorem compute_of_issues {d : Dev} {x rd : Nat} {reads : List Nat} (h : d.issues x { regs := rd :: reads } = true) (f : Ctx → Word) :
    d.compute x rd reads f = d.setCtx x ((d.ctx x).wg rd (f (d.ctx x))).next := by
  simp [Dev.compute, issue_of_issues h]

/-- A context that does not issue executes nothing. -/
theorem issue_of_not_atIssue {d : Dev} {x : Nat} {u : Touch} (h : d.atIssue x = false) (body : Ctx → Dev) : d.issue x u body = d := by
  simp [Dev.issue, h]

/-- An unassigned word is an illegal instruction (R62). -/
theorem issue_of_unassigned {d : Dev} {x : Nat} {u : Touch} (h : d.atIssue x = true) (hw : d.unassigned x = true) (body : Ctx → Dev) :
    d.issue x u body = d.fault x faultIllegal := by
  simp [Dev.issue, h, hw]

/-- An asynchronous instruction whose ticket is free takes what `mk` answers, and its ticket becomes busy. -/
theorem async_of_issues {d d' : Dev} {x k : Nat} {u : Touch} {t : Ticket} {mk : Ctx → Except Nat (Dev × Ticket)}
    (h : d.issues x u = true) (hk : ((d.ctx x).tk k).busy = false) (hm : mk (d.ctx x) = .ok (d', t)) :
    d.async x k u mk = d'.setCtx x (((d'.ctx x).setTk k { t with busy := true }).next) := by
  simp [Dev.async, hk, issue_of_issues h, hm]

/-- g0 reads as zero, and a write to it is discarded (R57). -/
@[simp] theorem rg_zero (c : Ctx) : c.rg 0 = 0 := rfl
@[simp] theorem wg_zero (c : Ctx) (v : Word) : c.wg 0 v = c := rfl

/-- p0 reads as 1, and a write to it is discarded (R57). -/
@[simp] theorem rp_zero (c : Ctx) : c.rp 0 = true := rfl
@[simp] theorem wp_zero (c : Ctx) (v : Bool) : c.wp 0 v = c := rfl

end Sys2Proof.Laws
end

