-- ==== Sys2Proof/Tests/Slice0.lean ====
section
/-! SUPPORT. Tests of the model: the checks of well-formedness, the effect of single commands against values worked out from the
spec, and, for every statement with hypotheses, states and operands that meet them (`test_witness_<Name>`). Each is about one step on
a small state. -/

namespace Sys2Proof.Tests

open Sys2Proof Sys2Proof.Machine

-- one theorem at a time: the kernel evaluates each, and many at once would want too many threads
set_option Elab.async false

/-! ## Small states -/

/-- A device with some register fields written. -/
def onRegs (l : List (Fld × Nat × Nat)) (d : Dev := {}) : Dev := l.foldl (fun y f => y.wr f.1 f.2.1 f.2.2) d

/-- A device with an instance of a field in the table, whatever its reset value is (for fields that OTP fills). -/
def holds (f : Fld) (i v : Nat) (d : Dev := {}) : Dev := { d with regs := Tbl.insert d.regs (f.key i) v }

/-- A state of a device, at network time zero. -/
def at0 (d : Dev) : State := { dev := d, time := { sec := 0, ns := 0, frac := 0 }, pending := [] }

/-- A device whose context `x` runs. -/
def runs (x : Nat) (c : Ctx) (d : Dev := {}) : Dev := d.setCtx x { c with st := .run }

/-- A context with values in its registers. -/
def regsOf (l : List (Nat × Word)) (c : Ctx := {}) : Ctx := l.foldl (fun y e => y.wg e.1 e.2) c

/-- A device with one image, under handle 1. -/
def withImage (i : Image) (d : Dev := {}) : Dev := { d with prog := { d.prog with images := put {} d.prog.images 1 i } }

/-- The next state, if there is one. -/
def nextOf (o : Host.Outcome State Fault Refusal) : Option State :=
  match o with
  | .next t => some t
  | _ => none

/-! ## Well-formed commands: an ill-formed operand for each check, and the largest that passes -/

/-- A BIND, a hand-over and a queue pair whose fields fit. -/
def okBind : BindReq :=
  { handle := 255, mask := 255, slot := 65535, fault := 255, fallback := 0, scope := 255, cntBase := 0, cntCount := 0, zeroOk := true }
def okTcp : TcpState := { v6 := false, laddr := [1, 2, 3, 4], raddr := [5, 6, 7, 8] }
def okQp : QpReq := { v6 := true, laddr := List.replicate 16 0, raddr := List.replicate 16 0 }

theorem test_wf_accepts : (([.add 0 1 2 3, .registerWrite 0 .bar0 0 .w8 (BitVec.allOnes 64) .good, .readClear 0 .bar0 0 4096,
    .frameReceive 0 (.codewords 1 2 3) .good .good {}, .dataGrant 0 (2 ^ 29 - 1) .good, .snoop 0 (2 ^ 29 - 1) .invalidate,
    .loaderLoad 0 1 [0], .loaderBind 0 okBind, .loaderUnbind 0 255 65535 true, .preemption 0 64, .handOver 0 none okTcp,
    .queuePairCreate 0 okQp, .roceFrameReceive (List.replicate 99 0) [], .bermStart 0 none 9600, .hostLinkUp 0 6 16 true true, .expansionRomRead 0 0 4096,
    .translationCompletion 0 (2 ^ 52 - 1) none, .atsInvalidation 0 none, .cxlSnoop (2 ^ 58 - 1) .inv, .submissionTailDoorbell 0 262143 0,
    .personalityAssign 0 1 [], .temperatureSample 0 (-2048), .hwCopyCompare 3 8191 none, .ncsiCommand 0 (.setMac 1 0 true),
    .pldmRequest 0 (.sensorReading 65535 0), .vendorSnapshotRead 0 0 65535, .snapreq 0 {} ] : List Instr).all Instr.wf) = true := by decide +kernel

theorem test_wf_refuses_1 : (([.registerWrite 0 .bar0 0 .w4 (2 ^ 32) .good, .readClear 0 .bar0 0 0, .readClear 0 .bar0 0 4097,
    .frameReceive 0 (.codewords (2 ^ 32) 0 0) .good .good {}, .dataGrant 0 (2 ^ 29) .good, .snoop 0 (2 ^ 29) .invalidate,
    .loaderLoad 0 0 [0], .loaderLoad 0 (2 ^ 32) [], .loaderBind 0 { okBind with handle := 256 }, .loaderUnbind 0 256 0 true,
    .preemption 0 63, .preemption 0 9601, .handOver 0 none { okTcp with laddr := [1] }, .handOver 0 none { okTcp with nxt := 2 ^ 32 },
    .queuePairCreate 0 { okQp with raddr := [] }, .queuePairCreate 0 { okQp with dqpn := 2 ^ 24 }, .contextWatchdog 0 [2 ^ 29], .stallWatchdog 0 [2 ^ 29],
    .bermStart 0 none 9601, .hostLinkUp 0 0 16 true true, .hostLinkUp 0 7 16 true true, .hostLinkUp 0 6 3 true true, .expansionRomRead 0 0 0,
    .translationCompletion 0 (2 ^ 52) none, .translationCompletion 0 0 (some (2 ^ 52)), .atsInvalidation 0 (some (2 ^ 52)),
    .cxlSnoop (2 ^ 58) .inv ] : List Instr).all (fun i => !i.wf)) = true := by decide +kernel

theorem test_wf_refuses_2 : (([.submissionTailDoorbell 0 262144 0, .receiveTailDoorbell 0 262144 0, .completionHeadDoorbell 0 262144 0,
    .grant 0 (List.replicate 61 0), .limits 0 (List.replicate 61 0), .resourcesQuery 0 (List.replicate 61 0), .session 0 [] 0,
    .keyLoad 0 0 (List.replicate 65 0), .keyImport 0 0 (List.replicate 129 0), .generate 0 0 (List.replicate 33 0), .personalityAssign 0 0 [],
    .personalityAssign 0 1 (List.replicate 17 { nsid := 0, lanes := [] }), .nvmeQueueDoorbell 0 0 0 [{ sqe := 0, bufs := [(2 ^ 64, 1)] }],
    .temperatureSample 0 2048, .temperatureSample 0 (-2049), .hwCopyCompare 0 20 none, .objectScan 1 1 .intact .intact .intact,
    .frequencyMeasure [] 0, .moduleBusProbe false (List.replicate 33 .high), .ncsiCommand 0 (.setMac 0 0 true), .ncsiPassthrough 0 (List.replicate 59 0),
    .pldmRequest 0 (.sensorReading 65536 0), .pldmRequest 0 (.stateReading 65536), .vendorSnapshotRead 0 0 65536,
    .vendorSnapshotRequest 0 { temps := List.replicate 17 0 }, .snapreq 0 { rails := List.replicate 10 0 },
    .snapshotPeriod { modules := List.replicate 17 0 }, .tablesRequest 0 (.template 0 []) true,
    .setup 0 0 [] (List.replicate 17 []), .loaderLoad 0 1 [0, 0],
    .send (.cores 0 (List.replicate 65 0)), .send (.manager 0 (List.replicate 65 0)) ] : List Instr).all (fun i => !i.wf)) = true := by decide +kernel

theorem test_wf_refuses_long (f : Byte) : (Instr.frameReceive 0 (.frame (List.replicate 16385 f) true) .good .good {}).wf = false ∧
    (Instr.entryFetch 0 0 (List.replicate 1025 0) true).wf = false ∧ (Instr.descriptorStart 0 (List.replicate 262145 f)).wf = false ∧
    (Instr.nvmeQueueDoorbell 0 0 0 (List.replicate 4097 { sqe := 0 })).wf = false ∧
    (Instr.frameReceive 0 (.start 0 (List.replicate 16385 f) true true) .good .good {}).wf = false ∧
    (Instr.frameReceive 0 (.cont 0 0 (List.replicate 16385 f) true true) .good .good {}).wf = false ∧
    (Instr.roceFrameReceive (List.replicate 16385 f) []).wf = false ∧ (Instr.setup 0 0 (List.replicate 66113 f) []).wf = false := by
  simp only [Instr.wf, Arrival.wf, List.length_replicate]; decide

/-! ## Single commands, against values worked out from the spec -/

/-- The device after a command at network time zero. -/
def after (i : Instr) (d : Dev) : Dev := ((nextOf (exec i (at0 d))).getD (at0 {})).dev

/-- A packet context: registers, and a frame of six bytes 11h to 66h. -/
def wT : Dev :=
  runs 0 (regsOf [(1, BitVec.allOnes 64), (2, 1), (3, 0x8000000000000000), (4, 65), (5, 0x0102030405060708), (6, 0x100)]
    { hdr := [(128, 0x11), (129, 0x22), (130, 0x33), (131, 0x44), (132, 0x55), (133, 0x66)], e := 134, p := 2, pkt := some { len := 6 } })

/-- Register 7 of context 0 after a command. -/
def r7 (i : Instr) : Nat := (((after i wT).ctx 0).rg 7).toNat

-- R67: sums wrap, counts use six bits, MULHU is the high half, bytes reverse, zero has 64 leading zeros
theorem test_add_wraps : r7 (.add 0 7 1 2) = 0 := by decide +kernel
theorem test_sub_borrows : r7 (.sub 0 7 0 2) = 2 ^ 64 - 1 := by decide +kernel
theorem test_shl_count : r7 (.shl 0 7 2 4) = 2 := by decide +kernel
theorem test_sar_sign : r7 (.sar 0 7 3 4) = 0xC000000000000000 := by decide +kernel
theorem test_shr_zero_fill : r7 (.shr 0 7 3 4) = 0x4000000000000000 := by decide +kernel
theorem test_rol_wraps : r7 (.rol 0 7 3 2) = 1 := by decide +kernel
theorem test_mulhu : r7 (.mulhu 0 7 1 1) = 2 ^ 64 - 2 := by decide +kernel
theorem test_bswap : r7 (.bswap 0 7 5) = 0x0807060504030201 := by decide +kernel
theorem test_clz_zero : r7 (.clz 0 7 0) = 64 := by decide +kernel
theorem test_addi_sign : r7 (.addi 0 7 2 0xFFFE) = 2 ^ 64 - 1 := by decide +kernel
theorem test_andi_zero_extends : r7 (.andi 0 7 1 0xFFFF) = 0xFFFF := by decide +kernel
theorem test_movk : r7 (.movk 0 7 3 0xABCD) = 0xABCD000000000000 := by decide +kernel
theorem test_ext_above : r7 (.ext 0 7 1 60 63) = 0xF := by decide +kernel
theorem test_ext_field : r7 (.ext 0 7 5 8 7) = 0x07 := by decide +kernel
theorem test_ins_truncates : r7 (.ins 0 7 1 60 63) = 0xF000000000000000 := by decide +kernel
-- R57: writes to g0 are discarded
theorem test_g0 : ((after (.add 0 0 2 2) wT).ctx 0).rg 0 = 0 := by decide +kernel
-- R68: tt = 0110b is XOR, SEL chooses by its predicate, LTS is signed
theorem test_plog_xor : (((after (.plog 0 2 1 0 6) wT).ctx 0).p.testBit 2, ((after (.plog 0 2 1 3 6) wT).ctx 0).p.testBit 2) = (false, true) := by decide +kernel
theorem test_sel : (r7 (.sel 0 7 2 4 1), r7 (.sel 0 7 2 4 2)) = (1, 65) := by decide +kernel
theorem test_cmp_signed : (((after (.cmp 0 2 .lts 1 2) wT).ctx 0).p.testBit 2, ((after (.cmp 0 2 .ltu 1 2) wT).ctx 0).p.testBit 2) = (true, false) := by decide +kernel
-- R59, R60, R69: window loads take the first byte most significant and read zero beyond E
theorem test_wld_order : r7 (.wld 0 7 0 1) = 0x1122 := by decide +kernel
theorem test_wld_beyond_end : r7 (.wld 0 7 4 2) = 0x55660000 := by decide +kernel
theorem test_wst_order : (((after (.wst 0 5 0 1) wT).ctx 0).hdrByte 128, ((after (.wst 0 5 0 1) wT).ctx 0).hdrByte 129) = (0x07, 0x08) := by decide +kernel
-- R36, R71: scratch is little-endian
theorem test_st_order : (((after (.st 0 5 6 0 3 0 .good) wT).ctx 0).scrByte 0x100, ((after (.st 0 5 6 0 3 0 .good) wT).ctx 0).scrByte 0x107) = (0x08, 0x01) := by
  decide +kernel
-- R67: DIVU is of the control profile, and rb = 0 gives all ones
theorem test_divu_zero : (((after (.divu 1536 7 2 0) (runs 1536 (regsOf [(2, 5)]))).ctx 1536).rg 7).toNat = 2 ^ 64 - 1 := by decide +kernel

-- R495: a mask bit that rises over a pending bit sends the group's vector; R496: an empty ring reads all ones
theorem test_reca_empty : (after (.recaRead 0) {}).out = [.readData 0 (BitVec.allOnes 64)] := by decide +kernel
-- R500 to R503: no function is ready at reset, and network time is zero
theorem test_reset_ready : State.reset.dev.rd TOP.READY_BITS = 0 ∧ State.reset.time = { sec := 0, ns := 0, frac := 0 } := by decide +kernel
-- log entry 3: an empty queue lets one TCLK, 1 ns at a trim of zero, pass
theorem test_tick : ((nextOf (step (at0 {}))).map (fun t => (t.time.sec, t.time.ns, t.time.frac))) = some (0, 1, 0) := by decide +kernel
-- the command in front runs and leaves the queue
theorem test_step_front : ((nextOf (step { at0 wT with pending := [.add 0 7 2 2, .add 0 7 7 7] })).map
    (fun t => (((t.dev.ctx 0).rg 7).toNat, t.pending.length))) = some (2, 1) := by decide +kernel
-- the rows of the table give no bits
theorem test_decodeTableWord : decodeTableWord 32 0x04000000 = none ∧ (at0 {}).withFetchWord 32 0 = at0 {} := by decide +kernel
/-! ## Witnesses: engines -/

/-- The states of the engine's witnesses: a packet context, and a control core, that run. -/
def w10 : Dev := runs 1536 {} (runs 0 (regsOf [(1, 504), (2, 505), (3, 511)] { b := 504, s := 2, e := 130, pkt := some {} }))

theorem test_witness_IntegerRegisterResults : w10.issues 0 { regs := [31, 1, 2] } = true ∧ w10.issues 1536 { regs := [0, 0, 31] } = true := by decide

theorem test_witness_IntegerImmediateResults : w10.issues 0 { regs := [31, 1, 31] } = true ∧ w10.issues 1536 { regs := [0, 0, 0] } = true := by decide

theorem test_witness_PredicateResults : w10.issues 0 { regs := [1, 2] } = true ∧ (w10.ctx 0).taken 7 false = false ∧
    (w10.ctx 0).taken 0 false = true := by decide

theorem test_witness_WindowResults : isCore 0 = false ∧ w10.issues 0 { regs := [31, 1], header := true } = true ∧
    (let c := w10.ctx 0; c.s + c.b + 126 + 8 = 640 ∧ c.s + c.b + 8 * 15 + 8 ≤ 640 ∧ (c.rg 1).toNat % 512 = 504 ∧
      c.s + c.b + (c.rg 0).toNat + 127 + 1 ≤ 640 ∧ 0 ≤ c.s + signedOf (c.rg 0).toNat 10 ∧ c.s + signedOf (c.rg 0).toNat 10 ≤ c.e ∧
      c.s + (c.rg 0).toNat + (127 + 1 + 128 * 3) ≤ 640) ∧
    (let c := (runs 0 { s := 0, b := 0, e := 128 }).ctx 0; c.s + c.b + 120 + 8 = c.e ∧ c.s + c.b + 8 * 15 + 8 = c.e ∧
      c.s + c.b + (c.rg 1).toNat + 120 + 8 = c.e) := by decide

theorem test_witness_AccessFaults : w10.issues 0 { regs := [31, 1], header := true } = true ∧
    (let c := w10.ctx 0; 640 < c.s + c.b + 127 + 8 ∧ c.e < c.s + c.b + 0 + 1 ∧ 504 < (c.rg 2).toNat % 512) ∧
    w10.issues 0 { regs := [31, 1], scratch := (((w10.ctx 0).rg 1 + (1023 : BitVec 11).signExtend 64).toNat, 8) } = true ∧
    ((w10.ctx 0).rg 1 + (1023 : BitVec 11).signExtend 64).toNat % 8 ≠ 0 ∧
    isCore 1536 = true ∧ w10.issues 1536 { regs := [31, 1], scratch := (0, 8) } = true ∧
    (let e := runs 0 (regsOf [(1, 0x2000)])
     e.issues 0 { regs := [31, 1], scratch := (0x2000, 1) } = true ∧ 0x2000 < ((e.ctx 0).rg 1 + (0 : BitVec 11).signExtend 64).toNat + 1) := by decide

theorem test_witness_MetadataAndScratch : (w10.ctx 0).pkt = some {} ∧ (w10.ctx 0).meta 16 = some 504 ∧
    (let e := runs 0 (regsOf [(1, 0x1FF8)])
     e.issues 0 { regs := [31, 1], scratch := (0x1FF8, 8) } = true ∧ ((e.ctx 0).rg 1 + (0 : BitVec 11).signExtend 64).toNat + 8 = 0x2000 ∧
     ((e.ctx 0).rg 1 + (0 : BitVec 11).signExtend 64).toNat % 8 = 0) := by decide

/-- A context in a loop and a function of an image with a table. -/
def w11 : Dev := runs 0 { image := 1, pc := 4, loops := [{ left := 0, index := 3, first := 2, last := 9 }], calls := [77, 5, 6] }
  (withImage { code := [0, 0, 0, 0, 0, 0, 0, 0], ftab := [(5, 7)], jtabs := [[6, 9]] })

theorem test_witness_ControlFlow : w11.issues 0 { regs := [31, 1] } = true ∧ (w11.ctx 0).taken 1 false = false ∧ (w11.ctx 0).taken 0 false = true ∧
    (let c := w11.ctx 0; let i := w11.imageOf 0
     controlFaults c i.code 9 = false ∧ controlFaults c i.code 10 = true ∧ controlFaults c i.code 4 = true ∧ c.loops.length < 2 ∧
      c.loops = { left := 0, index := 3, first := 2, last := 9 } :: [] ∧ c.calls.length < 4 ∧ i.ftab[0]? = some (5, 7) ∧
      c.calls = 77 :: [5, 6] ∧ i.jtabs[0]? = some [6, 9] ∧ controlFaults c i.code 6 = false) := by decide

theorem test_witness_CallStack : (runs 0 { image := 1, calls := [1, 2, 3, 4] } (withImage { ftab := [(5, 7)] })).issues 0 {} = true ∧
    4 ≤ ((runs 0 { image := 1, calls := [1, 2, 3, 4] } (withImage { ftab := [(5, 7)] })).ctx 0).calls.length ∧
    (w11.ctx 0).calls.length = 3 ∧ (w11.imageOf 0).ftab[(0 : BitVec 8).toNat]? = some (5, 7) ∧ (w10.ctx 0).calls = [] := by decide

/-- A control core that runs, with an interrupt pending and enabled. -/
def w12 : Dev := (runs 1547 (regsOf [(1, 0x100000000), (2, 1)])).setCsr 11 { ie := true, irqen := 4, irqpend := 4 }

theorem test_witness_ControlCores : isCore 1547 = true ∧ w12.issues 1547 { regs := [31, 1, 2] } = true ∧
    ((w12.ctx 1547).rg 1).toNat % 2 ^ 32 = 0 ∧ ((w12.ctx 1547).rg 2).toNat % 2 ^ 32 ≠ 0 ∧ (w12.ctx 1547).loops.length < 2 ∧
    (w12.csr 11).irqen &&& (w12.csr 11).irqpend ≠ 0 ∧ (w12.csr 0).irqen &&& (w12.csr 0).irqpend = 0 ∧ w12.issues 1547 {} = true ∧
    (w12.ctx 1547).calls = [] ∧ (w12.csr 11).ie = true ∧ (w12.ctx 1547).waitOn = .nothing := by decide

/-- The coherent window committed: 1 GiB, its top MiB atomic. -/
def w13 : Dev := onRegs [(ENG.STATUS_COMMITTED, 0, 1), (ENG.COH_SIZE_SIZE, 0, 1), (ENG.COH_SIZE_ATOM, 0, 1)]
  (runs 0 (regsOf [(1, 0xFFFF8), (2, 0xFFFF4)] { tickets :=
      [(1, { busy := true, pend := .value 7 }), (2, { busy := true, pend := .search 9 }), (3, { busy := true, pend := .toScratch 1 0x1FC0 [5] })] })
    (({} : Dev).setCtx 8 { st := .wait, waitOn := .terminate (.drop 1), tickets := [(1, { busy := true, pend := .value 7 })] }))

theorem test_witness_AsyncInstructions : w13.issues 0 { regs := [3, 1, 2] } = true ∧ ((w13.ctx 0).tk 0).busy = false ∧
    w13.atomAddr ((w13.ctx 0).rg 1).toNat 8 = some (2 ^ 30 - 8) ∧ ((w13.ctx 0).tk 1).busy = true ∧ ((w13.ctx 0).tk 1).pend = .value 7 ∧
    ((w13.ctx 0).tk 2).busy = true ∧ ((w13.ctx 0).tk 2).pend = .search 9 ∧ ((w13.ctx 0).tk 3).busy = true ∧
    ((w13.ctx 0).tk 3).pend = .toScratch 1 0x1FC0 [5] ∧ w13.eng.strays = [] ∧ (w13.ctx 0).ending = false ∧ (w13.ctx 8).ending = true ∧
    ((w13.ctx 8).tk 1).busy = true ∧ ((w13.ctx 8).tk 1).pend = .value 7 ∧ w13.issues 0 {} = true ∧ w13.issues 0 { regs := [3, 1] } = true ∧
    w13.atomAddr ((w13.ctx 0).rg 2).toNat 4 = some (2 ^ 30 - 12) ∧ w13.atIssue 0 = true ∧ w13.unassigned 0 = false := by decide

/-- A task armed, due and READY in bay 0, and a place for it. -/
def w14 : Dev :=
  let d := onRegs [(ENG.ESTAT_STATE, 0, engOnline), (ENG.BSTAT_STORE_OK, 0, 1), (VIR.PID_TASKQ, 0, 1)]
    (runs 1 (regsOf [(1, 0x1FC0), (2, 0x80000000)] { image := 1 }) (withImage { ttab := [9] }))
  { d with eng := { d.eng with tasks := [(0, { st := .ready }), (5, { st := .armed, due := some 0 })], readyQ := [0] } }

theorem test_witness_TaskResults : w14.issues 1 { regs := [3, 1, 2], scratch := (0x1FC0, 64) } = true ∧ ((w14.ctx 1).rg 1).toNat + 64 = 0x2000 ∧
    (w14.imageOf 1).ttab[0]? = some 9 ∧ w14.rd VIR.PUSE_TASKS (w14.progPolder (w14.ctx 1)) < w14.rd VIR.PID_TASKQ (w14.progPolder (w14.ctx 1)) ∧
    w14.freeEntryOf 0 = some 1 ∧ w14.issues 1 { regs := [3, 2] } = true ∧ foreignBay 1 (((w14.ctx 1).rg 2).toNat % 2 ^ 32) = false ∧
    (w14.taskAt 5).st = .armed ∧ (w14.taskAt 5).due = some 0 ∧ 0 ≤ (at0 w14).time.toNs ∧
    w14.eng.readyQ.find? (fun k => decide (k / 4096 = 0)) = some 0 ∧ w14.taskPlace 0 = some 0 ∧
    (w14.choices w14.pipeOrder []).any (fun e => decide (w14.idleCtx e.2 = some 0)) = false := by decide +kernel
/-! ## Witnesses: ends of programs, memory, engines' life -/

/-- Contexts that end: a packet with tickets free, one with a ticket busy, a task, one that waits to terminate. Queue 0 is enabled, and the slot
may send to every polder. -/
def w20 : Dev :=
  let d := runs 0 { pkt := some {}, bind := { scope := 2, cntCount := 1 }, copies := 3 } (runs 1 { pkt := some {}, tickets := [(0, { busy := true })] }
    (runs 2 { task := some 7 } (({} : Dev).setCtx 3 { st := .wait, waitOn := .terminate (.drop 1) })))
  d.setNode 4 0 { inForce := { w2 := 2 ^ 24 } }

theorem test_witness_TerminationResults : isCore 0 = false ∧ w20.issues 0 { regs := [1] } = true ∧ (w20.ctx 0).ticketsFree = true ∧
    (w20.ctx 0).cycles ≤ 2 * w20.boundOf (w20.ctx 0) ∧ (w20.ctx 0).pkt = some {} ∧ (w20.ctx 1).pkt = some {} ∧ (w20.ctx 1).ticketsFree = false ∧
    w20.issues 1 { regs := [1] } = true ∧ w20.issues 2 { regs := [1] } = true ∧ (w20.ctx 2).task = some 7 ∧ (w20.ctx 3).st = .wait ∧
    (w20.ctx 3).waitOn = .terminate (.drop 1) ∧ (w20.ctx 3).ticketsFree = true ∧
    (w20.ctx 3).cycles ≤ 2 * w20.boundOf (w20.ctx 3) := by decide

theorem test_witness_targets : w20.targetOk (w20.ctx 0).bind 0 0 = true ∧ w20.targetOk (w20.ctx 0).bind 0 (2 ^ 19) = false := by decide +kernel

theorem test_witness_PostedResults : w20.issues 0 { regs := [3, 1, 2] } = true ∧ (w20.ctx 0).packet.isSome = true ∧
    (∀ p, (w20.ctx 0).packet = some p → p.skipCopies ≤ (w20.ctx 0).copies) ∧ (w20.ctx 0).copies + 1 = 4 ∧
    ((w20.ctx 0).rg 1).toNat < (w20.ctx 0).bind.cntCount := by
  refine ⟨by decide, by decide, fun p h => ?_, by decide, by decide⟩
  cases h
  exact Nat.zero_le _

/-- The window of `w13` with engine 0's cache holding line 0 in M and line 1 in S. -/
def w21 : Dev :=
  let d := onRegs [(ENG.STATUS_COMMITTED, 0, 1), (ENG.COH_SIZE_SIZE, 0, 1), (ENG.COH_SIZE_ATOM, 0, 1)] (runs 0 (regsOf [(1, 0x3FEFFFF8), (2, 64)]))
  d.setCoh { d.eng.coh with caches := [(0, { st := .m }), (204, { st := .s })] }

theorem test_witness_CoherentMemory_accesses : w21.issues 0 { regs := [3, 0] } = true ∧ w21.cacheAddr (0 : Word).toNat 8 = some 0 ∧
    hits (w21.eng.coh.cacheLine (requester 0) (0 / 64)).st true = true ∧ w21.cacheAddr ((w21.ctx 0).rg 2).toNat 8 = some 64 ∧
    hits (w21.eng.coh.cacheLine (requester 0) (64 / 64)).st false = true ∧ hits (w21.eng.coh.cacheLine (requester 0) (64 / 64)).st true = false ∧
    w21.cacheAddr ((w21.ctx 0).rg 1).toNat 8 = some 0x3FEFFFF8 ∧
    hits (w21.eng.coh.cacheLine (requester 0) (0x3FEFFFF8 / 64)).st false = false ∧
    w21.atomAddr (0 : Word).toNat 8 = some 0x3FF00000 ∧ w21.cacheAddr 0x3FF00000 1 = none ∧ w21.cacheAddr 1 8 = none ∧ w21.atomAddr 0x100000 1 = none := by decide

/-- What waits at slice 0 and at engine 0. -/
def w22 : Coh := {
  reqs := [{ who := 3, line := 24, kind := .readShared }], grants := [{ who := 0, line := 1, st := .m }],
  misses := [{ ctx := 0, store := true, addr := 64, size := 8, sx := false, rd := 0, value := 1 }] }

theorem test_witness_CoherentMemory_slices :
    w22.wbs.find? (fun w => decide (homeSlice w.line = 0)) = none ∧ w22.nextReq 0 = some { who := 3, line := 24, kind := .readShared } ∧
    ({ w22 with wbs := [{ who := 1, line := 48, dirty := true, bytes := [], poison := false }] } : Coh).wbs.find? (fun w => decide (homeSlice w.line = 0)) =
      some { who := 1, line := 48, dirty := true, bytes := [], poison := false } ∧
    (let op : MemOp := { ctx := 0, store := true, addr := 64, size := 8, sx := false, rd := 0, value := 1 }
     ({ reqs := [{ who := 3, line := 24, kind := .far op }] } : Coh).nextReq 0 = some { who := 3, line := 24, kind := .far op } ∧
     w22.misses.filter (fun o => decide (requester o.ctx = 0 ∧ o.addr / 64 = 1)) = [op]) ∧
    (({ snoops := [(5, 9, false)] } : Coh).snoops.contains (5, 9, false) = true ∧
     ({ snoops := [(5, 9, false)] } : Coh).holdsSnoop 5 9 = false) ∧
    w22.grants.find? (fun g => decide (g.who = 0 ∧ g.line = 1)) = some { who := 0, line := 1, st := .m } ∧ w22.held = [] ∧
    (w22.dirLine 1).poison = false ∧
    (w22.caches.filter (fun e => decide (e.1 % 204 = 0 ∧ e.1 / 204 % 64 = 1 % 64 ∧ e.1 / 204 ≠ 1))).length < 4 := by decide

/-- Engines of every state: 0 serves and runs, 1 is to be retested, 2 is under test, 3 is withdrawn, 4 failed with cause 5h. -/
def w23 : Dev :=
  let d := onRegs [(ENG.ESTAT_STATE, 0, engOnline), (ENG.ESTAT_STATE, 1, engFailed), (ENG.ESTAT_STATE, 2, engRetest), (ENG.ESTAT_STATE, 4, engFailed),
    (ENG.ESTAT_CAUSE, 4, 5), (ENG.COH_BASE_BASE, 0, 24), (ENG.COH_SIZE_SIZE, 0, 8), (ENG.COH_SIZE_ATOM, 0, 256), (ENG.BSTAT_RELOAD, 0, 1)] (runs 0 {})
  { d with eng := { d.eng with withdraw := [3] } }

theorem test_witness_EngineLife : w23.rd ENG.STATUS_COMMITTED = 0 ∧ w23.rd ENG.COH_BASE_BASE + w23.rd ENG.COH_SIZE_SIZE = 32 ∧
    w23.rd ENG.COH_SIZE_SIZE = 8 ∧ w23.rd ENG.COH_SIZE_ATOM = 256 ∧ w23.rd ENG.COH_SIZE_ATOM ≤ w23.rd ENG.COH_SIZE_SIZE * 1024 ∧
    w23.engineServes 0 = true ∧ (w23.ctx 0).st = .run ∧ w23.rd ENG.ESTAT_STATE 1 = engFailed ∧ w23.rd ENG.ESTAT_STATE 5 = engOffline ∧
    w23.rd ENG.ESTAT_STATE 2 = engRetest ∧ w23.eng.withdraw.contains 0 = false ∧ w23.eng.withdraw.contains 3 = true ∧
    (∀ c < 8, (w23.ctx (8 * 3 + c)).st = .idle) ∧ w23.rd ENG.ESTAT_STATE 4 = engFailed ∧ w23.rd ENG.ESTAT_CAUSE 4 = 5 ∧
    w23.rd ENG.BSTAT_RELOAD 0 = 1 ∧ w23.prog.loading = none ∧ 2 * w23.boundOf (w23.ctx 0) ≤ (w23.ctx 0).cycles := by decide

/-! ## Witnesses: associative search and tables -/

/-- Profile 0 of pipeline 0 staged with bank 0, profile 1 in force over bank 1 with an entry that matches every key, a search made. -/
def w30 : Dev :=
  let d := onRegs [(ACS.PCTL_EN, 0, 1), (ACS.PCTL_NBANKS, 0, 1), (ACS.PCTL_NBANKS, 2, 16)]
  { d with acs := {
      profiles := [(1, { en := true, fmt := 0, banks := [1] })]
      entries := [(2048, { valid := true, val := 0, mask := 0, act := 5, actx := 0 })]
      searches := [(0, some { profile := 1, key := 0, place := 1 })] } }

theorem test_witness_AcsCommandResults : 0 < w30.rd ACS.PCTL_NBANKS 0 ∧ w30.rd ACS.PCTL_NBANKS 0 ≤ 16 ∧ repeats (w30.stagedBanks 0 0) = false ∧
    w30.rd ACS.PCTL_KEYFMT 0 < 5 ∧ (∀ b ∈ w30.stagedBanks 0 0, w30.bankUnits 0 b = fmtUnits (w30.rd ACS.PCTL_KEYFMT 0)) ∧
    w30.rd ACS.PCTL_NBANKS 1 = 0 ∧ w30.ownsBank .control 0 0 = true ∧ 2047 < w30.bankEntries 0 0 ∧ w30.ownsBank .pf0 0 0 = false ∧
    (let d := onRegs [(ACS.BANKOWN0_OWN, 0, 1)]
     d.ownsBank .pf0 0 0 = true ∧ 2047 < d.bankEntries 0 0 ∧ bitsOf (d.rd ACS.STGACT_ACT (4 * Writer.view .pf0 + 0)) 32 20 = 0 ∧
      d.acs.entries = [] ∧ (∀ m < 32, (d.profile 0 m).en = false)) ∧
    (w30.profile 0 1).en = true ∧ look none w30.acs.searches (4 * Writer.view .pf0 + 0) = some { profile := 1, key := 0, place := 1 } ∧
    look none w30.acs.searches (4 * Writer.view .pf1 + 0) = none ∧ (w30.acsEntry 0 1 0).valid = true ∧
    w30.rd ACS.CMDSTAT_BUSY (4 * Writer.view .pf0 + 0) ≠ 1 ∧ look none w30.acs.running 0 = none ∧
    (onRegs [(ACS.CMDSTAT_BUSY, 0, 1)]).rd ACS.CMDSTAT_BUSY (4 * Writer.view .pf0 + 0) = 1 := by decide

/-- A context with a free ticket 0 and a search at ticket 1; table 0 of pipeline 0 holds the key of zeros, table 1 nothing. -/
def w31 : Dev :=
  let d := onRegs [(FWD.TBL_EN, 0, 1), (FWD.TBL_KEYLEN, 0, 6), (FWD.TBL_SIZE, 0, 10), (FWD.TBL_EN, 1, 1), (FWD.TBL_KEYLEN, 1, 6), (FWD.TBL_BASE, 1, 1024)]
    (runs 0 (regsOf [(1, 0x1FEC), (2, 0x1FC0), (4, 0x1FFA)] { tickets := [(1, { busy := true, pend := .search 9 })] }) w30)
  { d with fwd := { d.fwd with buckets := [(0, 1)] } }

theorem test_witness_LookupResults : isCore 0 = false ∧ ((w31.ctx 0).tk 0).busy = false ∧
    w31.issues 0 { regs := [3, 1], scratch := (0x1FEC, 20) } = true ∧ ((w31.ctx 0).rg 1).toNat + 20 * fmtUnits (w31.profile 0 1).fmt = 0x2000 ∧
    (w31.profile 0 0).en = false ∧ (w31.profile 0 1).en = true ∧ w31.firstMatch 0 (w31.profile 0 1) 0 0 = some (1, 0, 0) ∧
    ({ w31 with acs := { w31.acs with entries := [] } } : Dev).firstMatch 0 (w31.profile 0 1) 0 0 = none ∧
    w31.issues 0 { regs := [3, 4, 2], scratch := (0x1FC0, 64), scratch2 := (0x1FFA, 6) } = true ∧ 0x1FC0 + 64 = 0x2000 ∧ 0x1FC0 % 64 = 0 ∧
    ((w31.ctx 0).rg 4).toNat + w31.rd FWD.TBL_KEYLEN 0 = 0x2000 ∧ w31.rd FWD.TBL_EN 0 = 1 ∧
    w31.find 0 0 ((w31.ctx 0).scrBytes 0x1FFA 6) = (0, some 1) ∧ w31.rd FWD.TBL_EN 1 = 1 ∧
    w31.find 0 1 ((w31.ctx 0).scrBytes 0x1FFA 6) = (1024, none) ∧ ((w31.ctx 0).tk 1).busy = true ∧ ((w31.ctx 0).tk 1).pend = .search 9 := by decide +kernel

/-- An aging table of pipeline 0 in mode 1 with an old entry in bucket 0, one of pipeline 1 in mode 2; a marking posted; a lock. -/
def w32 : Dev :=
  let d := onRegs [(FWD.TBL_EN, 0, 1), (FWD.TBL_AGEMODE, 0, 1), (FWD.TBL_SIZE, 0, 10), (FWD.TAGE_AGELIM, 0, 7), (FWD.NOW_TICK, 0, 7), (FWD.TBL_EN, 16, 1),
    (FWD.TBL_AGEMODE, 16, 2), (FWD.TBL_SIZE, 16, 10)]
  { d with fwd := { d.fwd with buckets := [(0, 1), (2 ^ 24, 17)], marks := [(0, 0, 1, 9)], locks := [{ area := 4, bucket := 5, copy := 0 }] } }

/-- A descriptor of 2^24 buckets, which reaches the end of its area. -/
def desc24 : TableDesc := { en := true, kind := false, keylen := 24, size := 24, base := 0, seed1 := 0, seed2 := 1, agemode := 0, agelim := 0, sweep := 0 }

theorem test_witness_ForwardingAndLearning_tables : w32.rd FWD.CFG_READY = 0 ∧ desc24.en = true ∧ ({} : Dev).descRefused 0 0 desc24 = false ∧
    ({} : Dev).descRefused 0 0 { desc24 with keylen := 25 } = true ∧ w32.fwd.marks = (0, 0, 1, 9) :: [] ∧ eValid (w32.bucket 0 0) = true ∧
    w32.lockOf 0 0 = none ∧ w32.agingTable 0 0 = some (0, 0) ∧ eStatic (w32.bucket 0 0) = false ∧ eDamp (w32.bucket 0 0) = false ∧
    w32.rd FWD.TBL_AGEMODE 0 = 1 ∧ w32.rd FWD.TAGE_AGELIM 0 = (w32.rd FWD.NOW_TICK + 2 ^ 16 - eAge (w32.bucket 0 0)) % 2 ^ 16 ∧
    w32.agingTable 1 0 = some (1, 0) ∧ w32.lockOf 1 0 = none ∧ eValid (w32.bucket 1 0) = true ∧ eHit (w32.bucket 1 0) = true ∧
    eStatic (w32.bucket 1 0) = false ∧ eDamp (w32.bucket 1 0) = false ∧ w32.rd FWD.TBL_AGEMODE 16 = 2 ∧
    (w32.fwd.locks.filter (fun l => decide (l.area = 0))).length < 64 ∧ w32.lockOf 4 5 = some { area := 4, bucket := 5, copy := 0 } ∧
    w32.bucketBarred 0 0 = false ∧ w32.bucketBarred 4 5 = false := by decide +kernel

/-- Pending learns of pipeline 0 whose window has passed, its learn ring with a notification of a new key, and a damped entry. -/
def w33 : Dev :=
  let d := onRegs [(FWD.TBL_EN, 0, 1), (FWD.TBL_KEYLEN, 0, 8), (FWD.TBL_SIZE, 0, 10), (LRN.LRING_SIZE, 0, 6), (LRN.LTAIL_INDEX, 0, 1)]
  { d with fwd := { d.fwd with pend := [(0, [{ table := 0, key := [0], porta := 1, tsa := 0, first := 0 }])],
                               buckets := [(7, 65)], damped := [(0, 7, 0)] } }

theorem test_witness_ForwardingAndLearning_learning : (w33.pendOf 0)[0]?.isSome = true ∧
    (∀ x, (w33.pendOf 0)[0]? = some x → x.first + w33.rd LRN.CFG_SETTLE * 1000 ≤ ({ sec := 1, ns := 0, frac := 0 } : NetTime).toNs) ∧
    (w33.hringPush {} (learnRing 0) [0, 0, 0, 0]).isSome = true ∧ (({} : Dev).hringPush {} (learnRing 0) [0, 0, 0, 0]).isNone = true ∧
    w33.hringEmpty (learnRing 0) = false ∧ ((w33.hringPeek {} (learnRing 0)).2.getD 0 0).testBit 10 = false ∧
    ((w33.hringPeek {} (learnRing 0)).2.getD 0 0).testBit 11 = false ∧
    ((w33.hringPeek {} (learnRing 0)).1.hringPop (learnRing 0)).rd LRN.POLICY_SPREAD = 0 ∧
    w33.fwd.damped.find? (fun e => decide (e.1 = 0 ∧ e.2.1 = 7)) = some (0, 7, 0) ∧
    0 + w33.rd LRN.POLICY_DAMPTIME * 1000000 ≤ ({ sec := 100000, ns := 0, frac := 0 } : NetTime).toNs ∧ w33.lockOf 0 7 = none ∧
    eValid (w33.bucket 0 7) = true ∧ eDamp (w33.bucket 0 7) = true := by decide +kernel
/-! ## Witnesses: program loading -/

/-- The smallest image: one word, DROP with reason 5, signed with key index 1; its bound is 2 and its issue count 1 (04 R89, R100). The
key pair is the number 1 and the base point of the curve. -/
def oneDrop : List Byte :=
  leBytes 4 0x56574950 ++ leBytes 2 1 ++ [0, 1] ++ leBytes 4 512 ++ leBytes 4 128 ++ leBytes 4 1 ++ List.replicate 28 0 ++ leBytes 4 2 ++
    leBytes 4 1 ++ List.replicate 72 0 ++ leBytes 4 0xCC000005 ++ List.replicate 188 0 ++ pointBytes g384 ++
    beBytes 48 0xd4a5fe5fa9297d12f28cb36a488bd8bc5df487d83d3451ccc125c8f4dba7c62b8db0928736bf2cebde2144c2acdb45c8 ++
    beBytes 48 0xdbfe0673ec38e9cebb0c07eb7312c4832381070c607a6bca2266b810874af940434aa7011d01752cf2125fb9b01903bf

/-- SHA-384 of that public key. -/
def keyHash1 : Nat := 0xa19d4db171b582eb8052b0cfe555e17894aa22d1c8a9770950697dd8f796d2fa4bf0a56ad80006b7ea08e1191f814b65

/-- 04 R91, R96: an image whose signature verifies under its enrolled key and that breaks no rule is accepted. -/
theorem test_image_accepted : (verifyImage oneDrop 512 (fun i => if i = 1 then some keyHash1 else none)).code = 0 := by decide +kernel

/-- 04 R89: the wrong magic number is FORMAT, word 0. -/
theorem test_image_magic : formatFail (0x51 :: oneDrop.drop 1) 512 = some 0 ∧ formatFail oneDrop 513 = some 2 := by decide +kernel

/-- A loader with an image bound to slot 0, one that drains, a staged binding, and key 1 enrolled. -/
def w40 : Dev :=
  let d := holds PGM.KEYSTAT_ENROLLED 0 2 (holds PGM.KEYSTAT_REVOKED 0 0 (onRegs [(PGM.STATUS_READY, 0, 1), (VIR.STATUS_READY, 0, 1)]))
  { d with prog := { d.prog with
      images := [(1, { st := .resident, words := 8 }), (2, { st := .draining, base := 8, words := 8 })]
      slots := [(0, { handle := 1, cntCount := 4 })]
      slotPf := [(0, 1)]
      staged0 := [⟨0, 1, some { handle := 1 }⟩]
      keyHash := [(1, some keyHash1)] } }

theorem test_witness_LoaderResults : w40.loaderServes 0 = true ∧ w40.reloading = false ∧ w40.prog.loading = none ∧
    ((w40.wr ENG.BSTAT_RELOAD 3 1).loaderServes 0 = true ∧ (w40.wr ENG.BSTAT_RELOAD 3 1).reloading = true) ∧
    (verifyImage [] 0 w40.keyHashOf).code ≠ 0 ∧
    w40.bindFails 0 15 63 2 3 true (some 1) = 0 ∧ w40.bindFails 0 1 0 0 0 true none = 0 ∧ w40.commitFails (w40.staged 0) = 0 ∧
    (w40.image 1).st ≠ .free ∧ (w40.image 2).st ≠ .free ∧ w40.imageBound 2 = false ∧ (({} : Dev).staged 0 = [] ∧ ({} : Dev).staged 1 = []) ∧
    (w40.image 2).st = .draining ∧ w40.imageUsed 2 = false ∧ (3 : Fin 4) ≠ 0 ∧ w40.rdBit PGM.KEYSTAT_ENROLLED 0 3 = false ∧
    w40.selected 0 (w40.rd PGM.CNTSEL_KIND 0) (w40.rd PGM.CNTSEL_INDEX 0) = some 0 := by decide +kernel

/-- The clauses of an accepted LOAD: the image is placed at word 16 under handle 3. -/
theorem test_witness_LoaderResults_load :
    (verifyImage (slice oneDrop 0 (min 512 0x80000)) 512 w40.keyHashOf).code = 0 ∧
    (verifyImage (slice oneDrop 0 (min 512 0x80000)) 512 w40.keyHashOf).prog.ins.length = 1 ∧
    w40.runStarts.filter (fun b => w40.runFree b 1) = [16] ∧ (List.range 255).find? (fun i => decide ((w40.image (i + 1)).st = .free)) = some 2 := by
  decide +kernel

/-! ## Witnesses: ports -/

/-- Group 0 in mode 1 with no port enabled, group 1 in mode 3 with its ports up, a change of group 2 under way. -/
def w41 : Dev :=
  let d := onRegs [(PRT.MODE_GMODE, 0, 2), (PRT.STATUS_LINK, 4, 1), (PRT.FECTHR_SYMTHR, 4, 9), (PRT.STATUS_PVERIFY, 4, 1), (PRT.CTL_EN, 5, 1),
    (TOP.READY_BITS, 0, 2 ^ 64 - 1), (PRT.PREEMPT_VERIFY, 5, 0), (PRT.CTL_EN, 6, 1), (PRT.PREEMPT_VERIFY, 6, 1), (PRT.STATUS_LINK, 7, 1),
    (PRT.STATUS_PVERIFY, 7, 1)]
  { d with mac := { d.mac with mode := [(0, 1), (1, 3)], applying := [(2, 2)],
                               port := [(4, { symbols := 10 }), (7, { tries := 3, rxOpen := some { num := 1, bytes := [1], ts := 5 } })] } }

/-- Groups 2 and 3 joined, and what is left of a change of group 3. -/
def w41J : Dev := { ({} : Dev) with mac := { ({} : Dev).mac with mode := [(2, 4), (3, 4)], applying := [(3, 2)] } }

/-- A pair of paths with its first port at port 4. -/
def w41P : Dev := onRegs [(DUP.PAIR_EN, 0, 1), (DUP.PAIR_PORT1, 0, 4)] w41

theorem test_witness_PortsAndLinks : w41.applyRuns 0 = false ∧ w41.modeRefused 0 (w41.rd PRT.MODE_GMODE 0) = false ∧
    (∀ n < 16, (w41.affected 0 (w41.rd PRT.MODE_GMODE 0)).contains (n / 4) = true → w41.rd PRT.CTL_EN n = 0) ∧
    w41.modeRefused 0 5 = true ∧ w41.modeRefused 12 4 = true ∧ look 0 w41.mac.applying 2 = 1 + 1 ∧ w41.portExists 0 = true ∧ w41.ready 0 = true ∧
    (look 0 w41J.mac.applying 3 = 1 + 1 ∧ w41J.groupMode 3 = 4) ∧
    w41.portExists 5 = true ∧ w41.rd PRT.CTL_EN 5 = 1 ∧ w41.linkUp 5 = false ∧ w41.portDark 5 = false ∧ w41.rd PRT.PREEMPT_VERIFY 5 = 0 ∧
    w41.portExists 6 = true ∧ w41.rd PRT.CTL_EN 6 = 1 ∧ w41.linkUp 6 = false ∧ w41.portDark 6 = false ∧ w41.rd PRT.PREEMPT_VERIFY 6 = 1 ∧
    w41.linkUp 4 = true ∧ w41.rd PRT.FECTHR_SYMTHR 4 ≠ 0 ∧ w41.rd PRT.FECTHR_SYMTHR 4 + 1 = (w41.port 4).symbols ∧
    (w41.port 5).symbols = w41.rd PRT.FECTHR_SYMTHR 5 ∧ w41.rd PRT.STATUS_PVERIFY 4 = 1 ∧ (w41.port 4).tries < 3 ∧
    w41.linkUp 7 = true ∧ w41.rd PRT.STATUS_PVERIFY 7 = 1 ∧ 3 ≤ (w41.port 7).tries := by decide +kernel

/-- The clauses of a link that falls, without a path on it and with one: the device after it is the statement's `fallen`. -/
theorem test_witness_PortsAndLinks_falls : w41.pathOf 4 = none ∧ ((((w41.endFrames 4).wr PRT.STATUS_LINK 4 0).linkAen 4).revalidate 5).pathOf 4 = none ∧
    (let d := w41P
     d.linkUp 4 = true ∧ d.pathOf 4 = some 0 ∧
     ((((((d.endFrames 4).setPort 4 { (d.endFrames 4).port 4 with tries := 0, rxOpen := none, looped := [] }).wr PRT.STATUS_LINK 4 0).wr
        PRT.STATUS_ALIGN 4 0).wr PRT.STATUS_SPEED 4 0).wr PRT.STATUS_PVERIFY 4 0).pathOf 4 = some 0) := by decide +kernel

theorem test_witness_ReceiveResults : w41.portExists 4 = true ∧ w41.linkUp 4 = true ∧ w41.rd PRT.CTL_LOOP 4 = 0 ∧
    (w41.port 4).rxOpen = none ∧ w41.portExists 7 = true ∧ w41.rd PRT.CTL_LOOP 7 = 0 ∧ w41.linkUp 7 = true ∧
    (w41.port 7).rxOpen = some { num := 1, bytes := [1], ts := 5 } ∧ ((1 : Fin 4).val = 1 ∧ (0 : Fin 4).val = ({ num := 1, bytes := [1], ts := 5 } : RxOpen).next) ∧
    (List.replicate 59 (0 : Byte)).length + 4 = 63 ∧
    (List.replicate 60 (0 : Byte)).length + 4 = 64 ∧ 64 ≤ w41.rd PRT.MAXLEN_LEN 4 ∧ w41.rd PRT.STATUS_PVERIFY 4 = 1 ∧
    (List.replicate (w41.rd PRT.MAXLEN_LEN 4 - 3) (0 : Byte)).length + 4 = w41.rd PRT.MAXLEN_LEN 4 + 1 := by decide +kernel

/-- Port 4 up and idle with a frame at class 7; ports 5 to 7 sending a frame of either kind. -/
def w42 : Dev :=
  let d := onRegs [(PRT.STATUS_LINK, 4, 1), (PRT.STATUS_LINK, 5, 1), (PRT.PREEMPT_PMASK, 5, 1), (PRT.STATUS_PVERIFY, 5, 2)]
  { d with mac := { d.mac with mode := [(1, 3)], port := [
      (4, { bufs := [(7, [{ hdr := List.replicate 60 0, len := 60 }])] }),
      (5, { tx := some { pkt := { place := .hbm }, cls := 0, bytes := List.replicate 200 0, preempt := true }, bufs := [(1, [{ hdr := List.replicate 60 0, len := 60 }])] }),
      (6, { tx := some { pkt := { place := .express }, cls := 7, bytes := List.replicate 60 0 } })] } }

theorem test_witness_TransmitResults : w42.portExists 4 = true ∧ w42.portSafe 4 = false ∧ (w42.port 4).tx = none ∧
    (let trimmed := (List.range 8).foldl (fun (y : Dev) c => y.trimClass {} 4 c 2) (w42.quarRemove 4)
     trimmed.linkUp 4 = true ∧ ((trimmed.nextStart {} 4).map (fun x => (x.1, match x.2 with | .head _ => true | _ => false))) = some (7, true)) ∧
    (∃ t, (w42.port 5).tx = some t ∧ w42.divisible 5 136 t = true ∧ w42.divisible 5 141 t = false ∧ t.pkt.place = .hbm) ∧
    w42.preemptClass 5 1 = false ∧ (w42.startOf {} 5 1).isSome = true ∧
    (∃ t, (w42.port 6).tx = some t ∧ t.pkt.place ≠ .hbm ∧ t.pkt.place = .express ∧ t.beat = false) := by
  refine ⟨by decide +kernel, by decide +kernel, by decide +kernel, by decide +kernel, ⟨_, rfl, ?_⟩, by decide +kernel, by decide +kernel, ⟨_, rfl, ?_⟩⟩ <;>
    decide +kernel

/-- Port 4 up and idle with a preempted frame, port 5 with three frames longer than its MAXLEN of 64 (12 R326 removes the first two), and
port 6 with nothing. -/
def w42B : Dev :=
  let d := onRegs [(PRT.STATUS_LINK, 4, 1), (PRT.STATUS_LINK, 5, 1), (PRT.STATUS_LINK, 6, 1), (PRT.PREEMPT_PMASK, 4, 1), (PRT.STATUS_PVERIFY, 4, 2),
    (PRT.MAXLEN_LEN, 5, 64)]
  { d with mac := { d.mac with mode := [(1, 3)], port := [
      (4, { held := some { pkt := {}, cls := 0, bytes := List.replicate 70 0, preempt := true } }),
      (5, { bufs := [(7, List.replicate 3 { hdr := List.replicate 61 0, len := 61 })] })] } }

theorem test_witness_TransmitResults_more : (w42B.portExists 4 = true ∧ w42B.portSafe 4 = false ∧ (w42B.port 4).tx = none) ∧
    (let trimmed := fun (n : Nat) => (List.range 8).foldl (fun (y : Dev) c => y.trimClass {} n c 2) (w42B.quarRemove n)
     ((trimmed 4).linkUp 4 = true ∧ ((trimmed 4).nextStart {} 4).map (fun x => (x.1, match x.2 with | .resume _ => true | _ => false)) = some (0, true)) ∧
     ((trimmed 5).linkUp 5 = true ∧ ((trimmed 5).nextStart {} 5).map (fun x => (x.1, match x.2 with
        | .head p => decide ((trimmed 5).rd PRT.MAXLEN_LEN 5 < ((trimmed 5).leaving 5 p).length + 4) | _ => false)) = some (7, true)) ∧
     ((trimmed 6).linkUp 6 = true ∧ ((trimmed 6).nextStart {} 6).isNone = true)) := by decide +kernel

/-! ## Witnesses: dispatch and collection -/

/-- A packet to dispatch again in pipeline 0, and one in the ordinary queue of pipeline 2, whose slot holds the image of handle 1; with
engine 16 online in bay 1. -/
def w43 (on : Bool) (handle : Nat) : Dev :=
  let d := if on then onRegs [(ENG.ESTAT_STATE, 16, engOnline), (ENG.BSTAT_STORE_OK, 1, 1)] else ({} : Dev)
  { d with prog := { d.prog with slots := [(0, { handle := handle }), (128, { handle := handle })] } }

/-- The queues of each clause: the packet to be dispatched again alone, or the ordinary one alone. -/
def again (d : Dev) : Dev := { d with dsp := { d.dsp with againQ := [(0, [{}])] } }
def ordinary (d : Dev) : Dev := { d with dsp := { d.dsp with ordQ := [(2, [{}])] } }

theorem test_witness_DispatchResults : (ordinary (w43 true 1)).pipeOrder = [0, 1] ++ 2 :: [3] ∧
    (∀ j < 4, j ≠ 2 → (ordinary (w43 true 1)).dispatchNext j = none) ∧ (ordinary (w43 true 1)).dispatchNext 2 = some (.ordinary, {}) ∧
    ((ordinary (w43 true 0)).slotOf 2 {}).handle = 0 ∧ ((ordinary (w43 true 1)).slotOf 2 {}).handle ≠ 0 ∧
    (ordinary (w43 true 1)).chooseEngine 2 = some 16 ∧ (ordinary (w43 false 1)).chooseEngine 2 = none ∧
    (again (w43 true 1)).dispatchNext 0 = some (.again, {}) ∧ ((again (w43 true 0)).slotOf 0 {}).handle = 0 ∧
    ((again (w43 true 1)).slotOf 0 {}).handle ≠ 0 ∧ (again (w43 true 1)).chooseEngine 0 = some 16 ∧
    (again (w43 false 1)).chooseEngine 0 = none := by decide +kernel

theorem test_witness_DispatchResults_collector : (({} : Dev).judgeFaults {}).eligibleRets = [] ∧ ({} : Dev).dsp.coreRet = [] ∧
    (let d := (({} : Dev).setCtx 0 { st := .hold, pkt := some {}, ret := some (.drop 1) }).judgeFaults {}
     d.eligibleRets = [0] ∧ d.dsp.coreRet = [] ∧ bayOf 0 < 12 ∧ ((d.ctx 0).packet.map (fun q => q.tag)) = some none) ∧
    (let d := ({ ({} : Dev) with dsp := { ({} : Dsp) with coreRet := [(5, some ({}, 0, 0))] } } : Dev).judgeFaults {}
     d.eligibleRets = [] ∧ (look none d.dsp.coreRet 5).isSome = true ∧ (∀ i < 12, i ≠ 5 → look none d.dsp.coreRet i = none)) := by decide +kernel

/-! ## Witnesses: tunnels -/
/-! ## Witnesses: tunnels -/

/-- The staged template of TYPE 4h, an Ethernet and an IPv4 header, MTU 1500 (09 R216: byte 14 is 45h; bytes 112 on are HLEN 34, TYPE 4h, flags,
DPOFF, MTU, L3OFF 14), committed as template 1 too; template 2 is of TYPE 5h. Context 0 has a tunnelled packet, context 1 none marked. -/
def w44 : Dev :=
  let d := onRegs [(TUN.TSTG_DATA, 1, 0x45 * 2 ^ 48), (TUN.TSTG_DATA, 2, 4 * 2 ^ 56), (TUN.TSTG_DATA, 14, 34 + 4 * 2 ^ 8 + 1500 * 2 ^ 32 + 14 * 2 ^ 48)]
    (runs 1 (regsOf [(1, 1), (2, 100)] { pkt := some { len := 60 }, s := 128, e := 188 })
      (runs 0 (regsOf [(1, 2)] { pkt := some { len := 60, parse := 2 ^ 9, desc := List.replicate 2 0xFF ++ List.replicate 6 0xFF ++ [10, 0] ++ List.replicate 4 0xFF }, s := 128, e := 188 })))
  { d with tmpl := [(1, { bytes := d.staged128 }), (2, { bytes := List.replicate 113 0 ++ [5] })] }

theorem test_witness_TunnelResults : ({ bytes := w44.staged128 } : Template).ok = true ∧ ({ bytes := w44.staged128 } : Template).type ≠ 0 ∧
    (w44.template 0).type = 0 ∧ ({ bytes := List.replicate 113 0 ++ [6] } : Template).ok = false ∧ isCore 1 = false ∧ ((w44.ctx 1).tk 0).busy = false ∧
    w44.issues 1 { regs := [3, 1], header := true } = true ∧ ((w44.ctx 1).encapsulate (w44.template 1) 0).status = 0 ∧
    ((w44.ctx 1).mark 0).status = 0 ∧ w44.issues 0 { regs := [3, 1], header := true } = true ∧ (w44.decapsulate (w44.ctx 0) (w44.template 2) false).status = 0 ∧
    ((w44.ctx 1).encapsulate (w44.template 0) 0).status = 1 ∧ (w44.decapsulate (w44.ctx 1) (w44.template 0) false).status = 4 ∧
    w44.issues 1 { regs := [3, 2], header := true } = true ∧ ((w44.ctx 1).mark ((w44.ctx 1).rg 2).toNat).status = 8 := by decide +kernel

/-! ## Witnesses: transports and storage -/

/-- A TCP segment without data whose checksum is right: source, destination and numbers zero, data offset 5. -/
def tcpFrame : List Byte :=
  List.replicate 12 0 ++ [8, 0, 0x45, 0, 0, 40] ++ List.replicate 28 0 ++ [0x50, 0, 0, 0, 0xAF, 0xE5, 0, 0]

/-- A RoCEv2 frame over IPv4 with an opcode, a queue pair and 16 bytes of extended header or payload; its ICRC is right where `good` says so. -/
def roceFrame (op qpn : Byte) (good : Bool) : List Byte :=
  let ip : List Byte := [0x45, 0, 0, 64, 0, 0, 0, 0, 64, 17, 0, 0] ++ List.replicate 8 0 ++ [0xC0, 0, 0x12, 0xB7, 0, 44, 0, 0] ++
    [op, 0, 0xFF, 0xFF, 0, 0, 0, qpn, 0, 0, 0, 0] ++ List.replicate 20 0
  List.replicate 12 0 ++ [8, 0] ++ ip ++ (if good then icrcOf ip else (icrcOf ip).map (· + 1))

/-- Polder 0 owns ring 0 of every kind and queue 0; connection 1 is offloaded with a segment sent, one received and an ACK that waits, 3 with
a segment that is no sound one, 4 is offloaded no longer; queue pair 0 is up with a request posted, 1 has no retries left, 2 and 3 wait after
an RNR NAK. Rings 0, 2 and 3 hold an entry of mode 3, rings 1 and 4 of mode 2, the last for the connection of another polder. -/
def w50 : Dev :=
  let d := onRegs [(VIR.STATUS_READY, 0, 1), (VIR.PRQ_COUNT, 0, 1), (VIR.PCQ_COUNT, 0, 1), (VIR.PVEC_L2CNT, 0, 1), (STO.TCONN_STATE, 1, 2),
    (STO.TCONN_STATE, 3, 2), (STO.TCONN_POLDER, 5, 9)]
  let w : Wr := { ring := 0, pos := 0, opc := 0, signal := true, imm := 0, wrid := 0, laddr := 0, len := 0, raddr := 0, rkey := 0 }
  let entry : Nat → SubEntry := fun u => { pos := 0, units := 4, words := [u, 0, 0, 0] }
  { d with
    eng := { d.eng with tclks := 5000000000 }
    sto := { d.sto with
      conns := [(1, { sent := [{ seq := 0, data := [1], retx := 0 }], ackAt := some 0, timer := some 0 })]
      segs := [(1, [{ hdr := tcpFrame }]), (3, [{}]), (4, [{}])]
      qps := [(0, { used := true, retry := 1, wrs := [w] }), (1, { used := true, wrs := [w] }), (2, { used := true, rnrWait := true, rnr := 1 }),
              (3, { used := true, rnrWait := true })]
      jobs := [(3, some { src := .ring 0 0, conn := (false, 0) })]
      arrived := [(3, 0, [])] }
    rng := { d.rng with rings := [(0, { w2 := 3, subs := [entry 0] }), (1, { w2 := 2, subs := [entry 0] }), (2, { w2 := 3, subs := [entry 0x400] }),
                                  (3, { w2 := 3, subs := [entry 0x900000000] }), (4, { w2 := 2, subs := [entry 0x500000000] })] } }

theorem test_witness_TransportUnit : w50.answerRoom 0 = true ∧ w50.freeConn = some 0 ∧ w50.ownsRing 0 kRx 0 = true ∧
    w50.queuePolder 0 = some 0 ∧ w50.rd STO.TCONN_STATE 0 = 0 ∧ (List.range 65536).find? (fun q => !(w50.qp q).used) = some 4 ∧ w50.ownsRing 0 kCq 0 = true ∧
    (w50.sto.qps.map (fun e => e.2.p.regions.length)).sum + 1048576 ≤ 1048576 ∧
    ((w50.conn 1).nextSegment (look [] w50.sto.segs 1)).map (fun x => x.1.bytes) = some tcpFrame ∧ tcpSound tcpFrame = true ∧
    w50.offloaded 1 = true ∧ (w50.conn 1).ackAt = some 0 ∧ (w50.conn 1).sent = [{ seq := 0, data := [1], retx := 0 }] ∧ (w50.conn 1).timer = some 0 ∧
    0 + 200000 ≤ w50.uptime ∧ 0 + 1000 * (w50.conn 1).rto ≤ w50.uptime ∧ w50.ackWaits 1 { seq := 0, data := [1], retx := 0 } = false ∧
    0 < w50.rd STO.TCPCFG_MAXRETX ∧ (onRegs [(STO.TCPCFG_MAXRETX, 0, 0)]).rd STO.TCPCFG_MAXRETX ≤ 0 ∧
    w50.offloaded 3 = true ∧ ((w50.conn 3).nextSegment (look [] w50.sto.segs 3)) = some ({}, []) ∧ tcpSound ({} : Packet).bytes = false ∧
    w50.offloaded 4 = false ∧ ((w50.conn 4).nextSegment (look [] w50.sto.segs 4)) = some ({}, []) := by decide +kernel

theorem test_witness_TransportUnit_qps : (w50.qp 0).up = true ∧
    (w50.qp 0).wrs ≠ [] ∧ (w50.qp 0).rnrWait = false ∧ 0 < (w50.qp 0).retry ∧ (w50.qp 0).since + 4096 * 2 ^ (w50.qp 0).p.t ≤ w50.uptime ∧
    (w50.qp 1).wrs ≠ [] ∧ (w50.qp 1).up = true ∧ (w50.qp 1).retry = 0 ∧ (w50.qp 1).rnrWait = false ∧ (w50.qp 1).since + 4096 * 2 ^ (w50.qp 1).p.t ≤ w50.uptime ∧
    (w50.qp 2).up = true ∧ (w50.qp 2).rnrWait = true ∧ 0 < (w50.qp 2).rnr ∧ (w50.qp 3).up = true ∧ (w50.qp 3).rnrWait = true ∧ (w50.qp 3).rnr = 0 ∧
    (w50.ring kSub 0).nextEntry = some { pos := 0, units := 4, words := [0, 0, 0, 0] } ∧ (w50.ring kSub 0).mode = 3 ∧
    (w50.qp 0).polder = (w50.ring kSub 0).polder ∧ bitsOf 0 8 8 ≠ 4 ∧
    (w50.ring kSub 2).nextEntry = some { pos := 0, units := 4, words := [0x400, 0, 0, 0] } ∧ (w50.ring kSub 2).mode = 3 ∧ bitsOf 0x400 8 8 = 4 ∧
    ((w50.qp 0).wrs.filter (fun v => decide (v.opc = 4))).length < 16 ∧
    (w50.ring kSub 3).nextEntry = some { pos := 0, units := 4, words := [0x900000000, 0, 0, 0] } ∧ bitsOf 0x900000000 32 16 = 9 ∧ (w50.qp 9).up = false := by
  decide +kernel

theorem test_witness_TransportUnit_frames :
    (readRoce (roceFrame 4 0 false)).map (fun f => f.icrcOk) = some false ∧
    (readRoce (roceFrame 4 9 true)).map (fun f => (f.icrcOk, f.opcode, (w50.qp f.qpn).up)) = some (true, 4, false) ∧
    (readRoce (roceFrame 32 0 true)).map (fun f => (f.icrcOk, f.opcode)) = some (true, 32) ∧
    (readRoce (roceFrame 0x81 0 true)).map (fun f => (f.icrcOk, f.opcode, (w50.qp f.qpn).up)) = some (true, 0x81, true) ∧
    (readRoce (roceFrame 0x11 0 true)).map (fun f => (f.icrcOk, f.opcode, (w50.qp f.qpn).up)) = some (true, 0x11, true) ∧
    (readRoce (roceFrame 0x0D 0 true)).map (fun f => (f.icrcOk, f.opcode, (w50.qp f.qpn).up)) = some (true, 0x0D, true) ∧
    (readRoce (roceFrame 0x0C 0 true)).map (fun f => (f.icrcOk, f.opcode, (w50.qp f.qpn).up)) = some (true, 0x0C, true) := by decide +kernel

/-- A table read at a key that it lists, where every entry has the value. -/
theorem look_const (z v : Nat) (k : Nat) : ∀ l : Tbl Nat, (∃ e ∈ l, e.1 = k) → (∀ e ∈ l, e.2 = v) → look z l k = v := by
  intro l
  induction l with
  | nil => intro h; simp at h
  | cons e l ih =>
    intro h hv
    by_cases hk : e.1 = k
    · rw [show look z (e :: l) k = e.2 by simp [look, hk]]; exact hv e (by simp)
    · rw [show look z (e :: l) k = look z l k by simp [look]; intro h; exact absurd h.symm hk]
      refine ih ?_ (fun x hx => hv x (by simp [hx]))
      obtain ⟨x, hx, he⟩ := h
      rcases List.mem_cons.1 hx with rfl | hx
      · exact absurd he hk
      · exact ⟨x, hx, he⟩

/-- The clause of a hand-over when none is free: every connection in use. -/
theorem test_witness_TransportUnit_full :
    ({ ({} : Dev) with regs := (List.range 16384).map (fun c => (STO.TCONN_STATE.key c, 2)) } : Dev).freeConn = none := by
  refine List.find?_eq_none.2 (fun c hc => ?_)
  have := look_const (STO.TCONN_STATE.coldValue c) 2 (STO.TCONN_STATE.key c) ((List.range 16384).map (fun c => (STO.TCONN_STATE.key c, 2)))
    ⟨_, List.mem_map.2 ⟨c, hc, rfl⟩, rfl⟩ (by intro e he; obtain ⟨i, -, rfl⟩ := List.mem_map.1 he; rfl)
  simp [Dev.rd, this]

/-- PF 0 with one VF, which carries the personality: its controller is enabled, with admin queues of two entries; that of the PF is not. -/
def w51 : Dev :=
  let d := onRegs [(TOP.READY_BITS, 0, 2 ^ 64 - 1), (STO.PVF_EN, 0, 1), (STO.PVF_FUNC, 0, 1), (STO.PVF_EN, 1, 1), (STO.PVF_FUNC, 1, 0)] w50
  { d with
    hif := { d.hif with fns := [(0, { memEnable := true, vfEnable := true, numVfs := 1 }), (1, { memEnable := true })] }
    sto := { d.sto with ctls := [(1, { cc := 1, queues := [(0, { used := true, size := 2 }), (1, { used := true, size := 2 })] })] } }

theorem test_witness_StorageResults : w51.memAnswers 1 = true ∧ (w51.personaOf 1).isSome = true ∧ (w51.ctl 1).en = true ∧ ((w51.ctl 1).queue 0 true).used = true ∧
    1 < ((w51.ctl 1).queue 0 true).size ∧ ((w51.ctl 1).queue 0 false).used = true ∧ 1 < ((w51.ctl 1).queue 0 false).size ∧ (w51.ctl 0).en = false ∧
    (w51.personaOf 0).isSome = true ∧ w51.memAnswers 0 = true ∧ w51.memAnswers 2 = false ∧ w51.answerRoom 0 = true ∧ w51.personaOf 2 = none ∧ w51.fnExists 2 = false ∧ pfOf 2 = 0 ∧
    (List.range 1024).find? (fun v => decide (w51.rd STO.PVF_EN v = 0)) = some 2 ∧
    [({ nsid := 1, lanes := [{ conn := (false, 0), nsid := 1 }] } : NsReq), { nsid := 16, lanes := [{ conn := (true, 0), nsid := 1 }] }].all (w51.nsOk 0) = true ∧
    (w51.ring kSub 1).nextEntry = some { pos := 0, units := 4, words := [0, 0, 0, 0] } ∧ (w51.ring kSub 1).mode = 2 ∧
    (w51.setRing kSub 1 ((w51.ring kSub 1).start 0)).connPolder (false, 0) = (w51.ring kSub 1).polder ∧
    w51.sto.arrived = [(3, 0, [])] ∧
    look none w51.sto.jobs 3 = some { src := .ring 0 0, conn := (false, 0) } ∧
    (w51.ring kSub 4).nextEntry = some { pos := 0, units := 4, words := [0x500000000, 0, 0, 0] } ∧ (w51.ring kSub 4).mode = 2 ∧
    (w51.setRing kSub 4 ((w51.ring kSub 4).start 0)).connPolder ((0x500000000 : Nat).testBit 8, bitsOf 0x500000000 32 16) ≠ (w51.ring kSub 4).polder ∧
    w51.sto.cmds.isEmpty = true ∧ (w51.ctl 1).stopAt + 500000000 ≤ w51.uptime := by decide +kernel

/-! ## Witnesses: cipher and keys -/

/-- An ACTIVE slot 0 and an EMPTY slot 1; a packet's context with a descriptor of a return job at 0 and of an onward job over the whole frame at 64
(10 R247: DLEN in bytes 4 and 5; byte 1 bit 5 names scratch); core 0 online, core 1 running the return job 5, which waits as well, core 2 holding
job 8 suspended, and cores 3 to 6 running an onward job and jobs of the transport unit. -/
def w60 : Dev :=
  let d := onRegs [(CIP.CORESTAT_STATE, 0, 1), (CIP.CORESTAT_STATE, 2, 1)] (runs 0 ((regsOf [(1, 0), (2, 0), (3, 64), (4, 1)] { s := 128, e := 192, pkt := some {} }).scrPuts 0
    ([0, 0x20, 0, 1, 16, 0] ++ List.replicate 58 0 ++ [0, 0, 0, 0, 64, 0])))
  let j : Job := { queue := 0, ctx := 8, tick := 0, slot := 0, alg := 0, enc := true, tagMode := 0, tagLen := 16, espt := false, nonce := [], aad := [],
                   data := [], tag := [], pos := 0, dlen := 0, iv := none }
  let d1 := d.setCtx 8 { st := .run, tickets := [(0, { busy := true, pend := .atCipher 5 })] }
  { d1 with
    cip := { d1.cip with
      slots := [(0, { st := 1, dirs := 3 })]
      jobs := [(5, some j), (6, some { j with queue := 2, result := some ([], [], 0, 0) }), (7, some { j with queue := 2, fail := some 6 }),
               (8, some j), (9, some { j with queue := 1, own := .sealRecord 1 }), (10, some { j with queue := 1, own := .openRecord 1 }), (11, some { j with queue := 1, own := .unit 4 }),
               (12, some { j with queue := 2 })]
      queues := [(0, [5])]
      cores := [(1, { run := some 5 }), (2, { susp := [8] }), (3, { run := some 12 }), (4, { run := some 9 }), (5, { run := some 10 }), (6, { run := some 11 })] }
    sto := { d1.sto with
      conns := [(1, { txJobs := [9], rxJobs := [10] })]
      cmds := [(4, some { vf := 1, sq := 1, cid := 0, nsid := 1, slba := 0, read := true, left := 0, units := [11] })] }
    sch := { d1.sch with queues := [(0, [{ onward := [6] }, { onward := [7] }])] } }

/-- The two descriptors of `w60`'s packet, and the device once a CIS of it is counted. -/
def w60q (o : Nat) : CDesc := readDesc ((w60.ctx 0).scrBytes o 64)
def w60c : Dev := (w60.setCtx 0 { w60.ctx 0 with cis := (w60.ctx 0).cis + 1 }).slotEcc {} 0 .good

/-- A slot that retires, with no job open. -/
def w63 : Dev := { ({} : Dev) with cip := { ({} : Cip) with slots := [(9, { st := 2 })] } }

theorem test_witness_CipherJobs : scratchOk 0 0 64 = true ∧ scratchOk 0 64 64 = true ∧ ((w60.ctx 0).tk 0).busy = false ∧ (w60.ctx 0).cis < 4 ∧
    (w60q 0).fromScr = true ∧
    w60.issues 0 { regs := [5, 1, 2], header := true, scratch := (0, 64), scratch2 := ((w60q 0).start, (w60q 0).dlen + (w60q 0).tagLen),
                   scratch3 := ((w60q 0).rdst, (w60q 0).outLen) } = true ∧
    w60c.cisStatus (w60q 0) (w60c.key 0) false true false 64 (w60c.progPolder (w60.ctx 0)) 0 = 0 ∧
    w60c.cisStatus (w60q 0) (w60c.key 1) false true false 64 (w60c.progPolder (w60.ctx 0)) 0 ≠ 0 ∧
    w60.issues 0 { regs := [5, 3, 2], header := true, scratch := (64, 64) } = true ∧ (w60.ctx 0).pkt = some {} ∧ ({} : Packet).contract = 0 ∧
    w60c.growsFrame {} = false ∧
    w60c.cisStatus (w60q 64) (w60c.key 0) true true false 64 (w60c.progPolder (w60.ctx 0)) 2 = 0 ∧
    w60c.cisStatus (w60q 64) (w60c.key 1) true true false 64 (w60c.progPolder (w60.ctx 0)) 2 ≠ 0 := by decide +kernel

theorem test_witness_CipherJobs_cores : w60.coreOnline 0 = true ∧ w60.nextJob 0 = some 5 ∧ (w60.core 0).susp.contains 5 = false ∧
    w60.coreOnline 2 = true ∧ w60.nextJob 2 = some 8 ∧ (w60.core 2).susp.contains 8 = true ∧
    w60.cipQueue 0 = 5 :: [] ∧ ((w60.setCipQueue 0 []).job 5).isSome = true ∧
    (((w60.setCipQueue 0 []).ctx 8).tk 0).pend = .atCipher 5 ∧
    (w60.core 1).run = some 5 ∧ ((w60.setCore 1 {}).job 5).map (fun j => (j.own, j.queue)) = some (.program, 0) ∧
    (w60.core 3).run = some 12 ∧ ((w60.setCore 3 {}).job 12).map (fun j => (j.own, j.queue)) = some (.program, 2) ∧
    (w60.core 4).run = some 9 ∧ ((w60.setCore 4 {}).job 9).map (fun j => j.own) = some (.sealRecord 1) ∧
    ((w60.setCore 4 {}).conn 1).txJobs.contains 9 = true ∧
    (w60.core 5).run = some 10 ∧ ((w60.setCore 5 {}).job 10).map (fun j => j.own) = some (.openRecord 1) ∧
    ((w60.setCore 5 {}).conn 1).rxJobs.contains 10 = true ∧
    (w60.core 6).run = some 11 ∧ ((w60.setCore 6 {}).job 11).map (fun j => j.own) = some (.unit 4) ∧
    (look none (w60.setCore 6 {}).sto.cmds 4).map (fun v => v.units.contains 11) = some true := by decide +kernel

theorem test_witness_CipherJobs_merge : w60.sch.queues.any (fun e => e.2.any (fun p => decide (p.onward.head? = some 6))) = true ∧
    (w60.job 6).map (fun j => j.fail) = some none ∧ ((w60.job 6).bind (fun j => j.result)) = some ([], [], 0, 0) ∧
    (let d : Dev := { w60 with sch := { w60.sch with queues := [(0, [{ onward := [7] }])] } }
     d.sch.queues.any (fun e => e.2.any (fun p => decide (p.onward.head? = some 7))) = true ∧
     (d.job 7).map (fun j => j.fail) = some (some 6) ∧ ((d.job 7).bind (fun j => j.result)).isNone = true ∧
     d.cip.cores.any (fun e => decide (e.2.run = some 7) || e.2.susp.contains 7) = false ∧ (d.cipQueue 2).contains 7 = false) ∧
    (w63.key 9).st = 2 ∧ w63.cip.jobs.isEmpty = true := by decide +kernel

/-- An ARMED domain, a slot that PF 0 may export, a session, and no session of PF 1. -/
def w61 : Dev :=
  let d := onRegs [(BAT.STATE_ST, 0, 1), (VIR.PKEY_COUNT, 0, 1)]
  { d with cip := { d.cip with slots := [(0, { st := 1, dirs := 2, exp := true })], sess := [(0, some (1, 77))] } }

theorem test_witness_KeyLoaderResults : w61.drbgStopped 12 = false ∧ w61.tampered = false ∧ w61.mayNameKey 0 0 = true ∧ w61.armed = true ∧ (w61.key 0).exp = true ∧
    (w61.key 0).dirs % 2 = 0 ∧ (onRegs [(CIP.DRBG_STOPPED, 0, 2 ^ 12)]).drbgStopped 12 = true ∧ look none w61.cip.sess 0 = some (1, 77) ∧
    look none w61.cip.sess 1 = none ∧ slice exportHeader 0 16 = exportHeader ∧ slice [] 0 16 ≠ exportHeader ∧ (onRegs [(BAT.STATE_ST, 0, 2)]).tampered = true ∧ w61.mayNameKey 0 1 = false ∧
    (w61.key 0).st ≠ 0 ∧ w61.keyInRange 0 (w61.key 0).owner 0 = true ∧
    w61.keyTurn 0 = true ∧ w61.cip.keyMet ≠ keyTampered ∧ w61.cip.keyMet ≠ keyEntropy ∧
    (let d : Dev := { w61 with cip := { w61.cip with slots := [(0, { st := 1, dirs := 1, exp := true })] } }
     d.mayNameKey 0 0 = true ∧ d.armed = true ∧ (d.key 0).dirs % 2 = 1 ∧ (d.key 0).alg ≠ 5) ∧
    (let d := w61.wr BAT.STATE_ST 0 0
     d.mayNameKey 0 0 = true ∧ d.armed = false) ∧
    (let d : Dev := { w61 with cip := { w61.cip with keyMet := keyTampered } }
     d.keyTurn 0 = true ∧ d.cip.keyMet = keyTampered) ∧
    (let d : Dev := { w61 with cip := { w61.cip with keyMet := keyEntropy } }
     d.keyTurn 0 = true ∧ d.cip.keyMet = keyEntropy ∧ d.cip.keyMet ≠ keyTampered) ∧
    (let d : Dev := { w61 with cip := { w61.cip with keyRot := 1 } }
     d.keyTurn 1 = true ∧ (d.key 0).st ≠ 0 ∧ d.keyInRange 1 (d.key 0).owner 0 = false) := by decide +kernel

/-- The battery domain UNINIT with every input watched, TAMPERED, and without main supplies. -/
def w62 : Dev := onRegs [(BAT.TCFG_EN, 0, 15), (BAT.TCFG_MESHEN, 0, 1), (BAT.TCFG_ACLKMON, 0, 1), (CIP.ENTSTAT_OK, 0, 1), (TOP.READY_BITS, 0, 2 ^ 64 - 1)] (runs 1536 {} (runs 0 {} w51))

theorem test_witness_SecurityStateResults : w62.keyTurn 0 = true ∧ ({ w62 with cip := { w62.cip with keyRot := 1 } } : Dev).keyTurn 1 = true ∧ w62.batRuns = true ∧ w62.rd BAT.STATE_ST = 0 ∧ (onRegs [(BAT.STATE_ST, 0, 2)]).tampered = true ∧ (onRegs [(BAT.STATE_ST, 0, 2)]).rd BAT.STATE_ST ≠ 0 ∧ w62.tampered = false ∧ w62.rd BAT.TCFG_LOCK = 0 ∧
    (onRegs [(BAT.TCFG_LOCK, 0, 1)]).rd BAT.TCFG_LOCK = 1 ∧ (1 : Pf).val ≠ 0 ∧
    (1#4).toNat &&& w62.rd BAT.TCFG_EN ≠ 0 ∧ (0#4).toNat &&& w62.rd BAT.TCFG_EN = 0 ∧ w62.rd BAT.TCFG_MESHEN = 1 ∧ w62.rd BAT.TCFG_ACLKMON = 1 ∧
    ({ w62 with bat := { w62.bat with main := false, vbat := false } } : Dev).bat.main = false ∧ w62.bat.main = true ∧
    ({ w62 with bat := { w62.bat with vbat := false } } : Dev).bat.vbat = false ∧ w62.rd CIP.ENTSTAT_OK = 1 ∧
    (onRegs [(CIP.ENTSTAT_OK, 0, 0)]).rd CIP.ENTSTAT_OK = 0 ∧ (onRegs [(CIP.ENTSTAT_OK, 0, 0)]).drbgStopped 13 = false ∧ w62.memAnswers (4096 * (0 : Pf).val) = true ∧
    w62.drbgStopped 13 = false ∧ (onRegs [(CIP.DRBG_STOPPED, 0, 2 ^ 13)] w62).drbgStopped 13 = true ∧
    (onRegs [(CIP.DRBG_STOPPED, 0, 2 ^ 13)] w62).memAnswers (4096 * (0 : Pf).val) = true ∧ w62.issues 0 { regs := [31] } = true ∧
    ((w62.ctx 0).tk 7).busy = false ∧ w62.drbgStopped (0 / 128) = false ∧ (onRegs [(CIP.DRBG_STOPPED, 0, 1)] w62).drbgStopped (0 / 128) = true ∧
    w62.issues 1536 { regs := [31] } = true := by decide +kernel
/-! ## Witnesses: scheduling and time -/

/-- A tree of one queue under every level of port 4's class 0, with a frame; every node is enabled with weight 1 (09 R309: EN is bit 24 of word
2, WEIGHT bits 48 to 59 of word 1; a queue's PARENT is in word 2). Context 0 has a free ticket. -/
def w70 : Dev :=
  let d := onRegs [(PRT.STATUS_LINK, 0, 1)] (runs 0 {})
  let r : Node := { inForce := { w1 := 2 ^ 48, w2 := 2 ^ 24 } }
  { d with
    mac := { d.mac with mode := [(0, 3)] }
    sch := { d.sch with nodes := [(0, r), (2 ^ 20, r), (2 * 2 ^ 20, r), (3 * 2 ^ 20, r), (4 * 2 ^ 20, r)], queues := [(0, [{ hdr := List.replicate 60 0, len := 60 }])] } }

theorem test_witness_SchedulerResults : w70.rd SCH.NSTAT_BUSY Writer.control.view ≠ 1 ∧
    (onRegs [(SCH.NSTAT_BUSY, 2, 1)]).rd SCH.NSTAT_BUSY Writer.control.view = 1 ∧ w70.nodeResult .control 0 15 (w70.stagedRec .control) = 0 ∧ w70.nodeResult .control 0 16 (w70.stagedRec .control) = 2 ∧
    w70.nodeResult .pf0 0 0 (w70.stagedRec .pf0) = 1 ∧ nodeExists 5 0 = false ∧ nodeExists 0 15 = true ∧ (w70.quarRemove 0).portExists 0 = true ∧ (w70.quarRemove 0).linkUp 0 = true ∧
    ((w70.quarRemove 0).classBuf 0 0).length < 2 ∧ ((w70.quarRemove 0).node 0 0).inForce.en = true ∧ ((w70.quarRemove 0).node 0 0).peakOk = true ∧
    ((w70.quarRemove 0).select 0 0 4 0 0).map (fun f => f.queue) = some 0 ∧ ((w70.quarRemove 0).readyHead 0).isSome = true ∧
    w70.issues 0 { regs := [3, 1, 2] } = true ∧ ((w70.ctx 0).tk 0).busy = false := by decide +kernel

theorem test_witness_NetworkTimeResults : ({} : Dev).ownsTime 0 = true ∧ ({} : Dev).ownsTime 1 = false ∧ ({} : Dev).rd SLU.TSETLO_NS ≤ 999999999 ∧
    (onRegs [(SLU.TSETLO_NS, 0, 999999999)]).rd SLU.TSETLO_NS = 999999999 ∧ 999999999 < (onRegs [(SLU.TSETLO_NS, 0, 1000000000)]).rd SLU.TSETLO_NS ∧
    (0 : Int) ≤ (at0 {}).time.toNs + signedOf (({} : Dev).rd SLU.TOFF_OFF) 32 ∧
    (at0 {}).time.toNs + signedOf (({} : Dev).rd SLU.TOFF_OFF) 32 ≤ (281474976710655999999999 : Int) ∧
    ((at0 {}).time.toNs : Int) + signedOf ((onRegs [(SLU.TOFF_OFF, 0, 2 ^ 32 - 1)]).rd SLU.TOFF_OFF) 32 = -1 ∧
    -549755813 ≤ (549755813 : BitVec 32).toInt ∧ 549755813 < (549755814 : BitVec 32).toInt ∧
    ({ ({} : Dev) with slu := { ({} : Slu) with pps := true } } : Dev).slu.pps = true ∧ (({} : Dev).port 0).twoStep = [] ∧
    (({} : Dev).setPort 0 { twoStep := [{ mark := 1, sec := 2, ns := 3, frac := 4 }] } |>.port 0).twoStep = { mark := 1, sec := 2, ns := 3, frac := 4 } :: [] := by decide +kernel

theorem test_witness_NetworkTimeNeverFallsBack : LegalTime (at0 {}).time ∧ (at0 {}).time.sec + 1 < 2 ^ 48 ∧ (at0 {}).pending = [] ∧
    MovesTime (.ageTick) = false ∧ LegalTime { sec := 2 ^ 48 - 2, ns := 999999999, frac := 2 ^ 40 - 1 } := by
  unfold LegalTime; decide

/-- A sluice at rest; one with a change pending at 5 µs, one that copies, one that runs a compact list, one in a berm, and one in a berm of
the class whose frame it sends. -/
def w71 : Dev :=
  let d := holds PRT.TSLAT_TXEFF 4 0 (holds PRT.TSLAT_TXEFF 5 0 (onRegs [(SLU.PSTAT_COPYING, 2, 1), (SLU.PSTAT_STATE, 3, 1), (PRT.PREEMPT_PMASK, 5, 1),
    (PRT.STATUS_PVERIFY, 5, 2)]))
  { d with
    mac := { d.mac with mode := [(0, 3), (1, 3)], port := [(5, { tx := some { pkt := {}, cls := 0, bytes := List.replicate 200 0, preempt := true } })] }
    slu := { d.slu with port := [(1, { next := some { mode := 0, fset := 0, lena := false, t0 := 5000 } }), (4, { inBerm := [(0, 100)] }), (5, { inBerm := [(0, 100)] })] } }

theorem test_witness_SluiceResults : w71.changeResult 0 = 0 ∧ w71.changeResult 1 ≠ 0 ∧ (w71.sluice 1).next = some { mode := 0, fset := 0, lena := false, t0 := 5000 } ∧
    (at0 {}).time.toNs / 8 * 8 + 5000 = 5000 ∧ 5000 < ({ sec := 0, ns := 8, frac := 0 } : NetTime).toNs / 8 * 8 + 5000 ∧
    5000 = ({ sec := 0, ns := 5000, frac := 0 } : NetTime).toNs ∧ w71.rd SLU.PSTAT_COPYING 2 = 1 ∧ (w71.running 3).isSome = true ∧
    w71.inBerm 4 0 (w71.txTime (at0 {}).time 4 / 65536) = some 100 ∧ w71.bermPreemptable 4 0 = false ∧
    w71.inBerm 5 0 (w71.txTime (at0 {}).time 5 / 65536) = some 100 ∧ w71.bermPreemptable 5 0 = true ∧
    (w71.port 5).tx.map (fun t => (t.cls, w71.divisible 5 136 t)) = some (0, true) := by decide +kernel

/-! ## Witnesses: admission and redundancy -/

/-- Admission ready, with contract 1 of polder 0 ACTIVE, one that activates, and a revalidation due. -/
def w72 : Dev :=
  let d := onRegs [(VIR.STATUS_READY, 0, 1), (ADM.STATUS_READY, 0, 1), (ADM.CSTAT_STATE, 1, 2)]
  { d with adm := { d.adm with contracts := [(1, {})], revalidate := [2] } }

/-- A set-up with no record, which is refused, and one that removes contract 1, which is accepted. -/
def set0 : SetupReq := { fn := 0, reply := 0, ok := false, records := [], lists := [] }
def set1 : SetupReq := { fn := 0, reply := 0, ok := true, records := [{ number := 1, op := 3 }], lists := [] }

/-- `w72` with no revalidation due, compiling a set-up on its own basis. -/
def w72C (q : SetupReq) (returns : Nat) : Dev :=
  let d : Dev := { w72 with adm := { w72.adm with revalidate := [] } }
  { d with adm := { d.adm with compiling := some { req := q, basis := d.setupBasis, returns := returns } } }

theorem test_witness_AdmissionResults : w72.answerRoom 0 = true ∧ w72.rd ADM.STATUS_READY = 1 ∧ w72.adm.queue.length < 16 ∧ w72.adm.compiling.isNone = true ∧
    (w72C set0 0).adm.compiling.isSome = true ∧
    ({ w72 with adm := { w72.adm with queue := List.replicate 16 set0 } } : Dev).adm.queue.length = 16 ∧
    set0.gone = false ∧ (w72C set0 0).adm.revalidate = [] ∧
    w72.isContract 1 = true ∧ ownsPolder 0 (w72.contract 1).rcd.polder = true ∧ ownsPolder 1 (w72.contract 1).rcd.polder = false ∧
    w72.isContract 2 = false ∧ w72.adm.revalidate = 2 :: [] := by decide +kernel

theorem test_witness_AdmissionResults_compiles :
    (w72C set0 0).adm.compiling.map (fun k => decide (k.basis = (w72C set0 0).setupBasis)) = some true ∧
    (let idle : Dev := { w72C set0 0 with adm := { (w72C set0 0).adm with compiling := none } }
     (idle.judge {} 0 set0.ok set0.records set0.lists none).map (fun v => v.code) = some admFormat ∧
     (idle.judge {} 0 set1.ok set1.records set1.lists none).isNone = true ∧
     (idle.judge {} 0 set1.ok set1.records set1.lists (some admEpoch)).map (fun v => v.code) = some admEpoch) ∧
    (let moved := (w72C set1 3).wr ENG.ESTAT_STATE 0 4
     moved.adm.compiling.map (fun k => (decide (k.basis = moved.setupBasis), k.returns)) = some (false, 3)) := by decide +kernel

theorem test_witness_AdmissionResults_revalidation : (let y := onRegs [(ADM.STATUS_READY, 0, 1)]
    let judged : Dev := ({ y with adm := { y.adm with revalidate := [] } } : Dev).raise {} (ev 13 5) 2
    judged.passAt (judged.judged.map (fun n => (n, (judged.contract n).rcd.rate)))) = true := by decide +kernel

/-- Pair A over ports 0 and 4, path 1 UP and heard, path 2 in RESYNC; the interlock enabled with the role PROXY. -/
def w73 : Dev :=
  let d := onRegs [(DUP.PAIR_EN, 0, 1), (DUP.PAIR_PORT1, 0, 0), (DUP.PAIR_PORT2, 0, 4), (PRT.STATUS_LINK, 0, 1), (DUP.HBPEER_ID, 0, 7), (DUP.PSTAT_STATE1, 0, pathUp),
    (DUP.PSTAT_STATE2, 0, pathResync), (DUP.ILK_EN, 0, 1), (DUP.ILK_ROLE, 0, 1), (DUP.ILK_CABLE, 0, 2), (DUP.ILK_PRIO, 0, 1)]
  { d with mac := { d.mac with mode := [(0, 3), (1, 3)] }, dup := { d.dup with path := [(1, { heard := some 0 })] } }

theorem test_witness_RedundancyResults : w73.missed (at0 {}).time 0 = true ∧ w73.pairOn 0 = true ∧ w73.pathState 0 ≠ pathDisabled ∧ w73.portSafe (w73.pathPort 0) = false ∧
    w73.linkUp (w73.pathPort 0) = true ∧ w73.supervised 0 = true ∧
    ((((w73.bump DUP.PHB_MISS (w73.pathPort 0)).setPathSt 0 { w73.pathSt 0 with run := 0 }).pathSt (otherPath 0)).heard) = some 0 ∧
    (at0 {}).time.toNs < 0 + ((w73.bump DUP.PHB_MISS (w73.pathPort 0)).setPathSt 0 { w73.pathSt 0 with run := 0 }).missTime ∧
    w73.pathState 1 = pathResync ∧ w73.rd DUP.ILK_EN = 1 ∧ w73.devSafe = false ∧ (w73.wr DUP.ILK_CABLE 0 0).rd DUP.ILK_INBAND = 0 ∧
    (w73.wr DUP.ILK_INBAND 0 0).rd DUP.ILK_CABLE ≠ 0 ∧ w73.rd DUP.ILK_ROLE = 1 ∧ w73.rd DUP.ILK_PRIO = 1 ∧ w73.rd DUP.ILK_CABLE = 2 ∧ w73.dup.partnerPrio ≠ some 1 ∧
    (w73.pathSt 1).since + max 1 (w73.rd DUP.QCFG_RSYNC) * w73.rd DUP.CFG_HBINT * 1000 ≤ ({ sec := 1000, ns := 0, frac := 0 } : NetTime).toNs ∧
    ((((w73.bump DUP.PHB_MISS (w73.pathPort 0)).setPathSt 0 { w73.pathSt 0 with run := 0 }).rd DUP.PSTAT_PEERLOST 0) ≠ 1) ∧
    0 + ((w73.bump DUP.PHB_MISS (w73.pathPort 0)).setPathSt 0 { w73.pathSt 0 with run := 0 }).missTime ≤ ({ sec := 1000, ns := 0, frac := 0 } : NetTime).toNs ∧
    (w73.wr DUP.PSTAT_PEERLOST 0 1).rd DUP.PSTAT_PEERLOST 0 = 1 := by
  decide +kernel

theorem test_witness_RedundancyResults_roles :
    (let d := onRegs [(DUP.ILK_EN, 0, 1)]; (d.rd DUP.ILK_EN, d.rd DUP.ILK_ROLE, d.eligible, d.rd DUP.ILK_CABLE, d.rd DUP.ILK_INBAND)) = (1, 0, true, 0, 0) ∧
    (let d : Dev := { w73 with dup := { w73.dup with partnerPrio := some 1 } }
     (d.rd DUP.ILK_EN, d.rd DUP.ILK_ROLE, d.rd DUP.ILK_CABLE, d.dup.partnerPrio)) = (1, 1, 2, some (w73.rd DUP.ILK_PRIO)) := by decide +kernel

/-! ## Witnesses: host links and functions -/

/-- Link 0 of 16 lanes released and down, link 1 up; PF 0 with VF 1 in FLR, the PF itself with its ROM enabled, VF 2 in D3hot; PF 1 in FLR. -/
def w74 : Dev :=
  let d := holds HIF.CFG_BIFMODE 0 0 (onRegs [(TOP.READY_BITS, 0, 2 ^ 64 - 1), (HIF.LSTAT_UP, 1, 1), (VIR.PVEC_VECTORS, 0, 1)])
  { d with
    hif := { d.hif with
      perst := [(0, true)]
      fns := [(0, { memEnable := true, vfEnable := true, numVfs := 2, romEnable := true }), (1, { inFlr := true }), (2, { d3hot := true }), (4096, { inFlr := true })]
      reads := [{ link := 0, tag := 5, fn := 0, len := 64, cls := 0, group := 0, chan := 0, ring := 0, pos := 0 },
                { link := 0, tag := 6, fn := 2, len := 64, cls := 0, group := 0, chan := 1, ring := 0, pos := 0 }]
      xlWait := [(0, 9)]
      lines := [(77, 0)] }
    rng := { d.rng with
      chans := [(0, { desc := some { group := 0, prio := 0, ring := 0, fn := 0, reqs := [] } })]
      rings := [(ringKey kCq 0, { gos := 1, vecWait := true })] } }

theorem test_witness_HostLinkResults : w74.rd HIF.LSTAT_UP 0 = 0 ∧ look false w74.hif.perst 0 = true ∧ 16 ∈ [1, 2, 4, 8, 16] ∧ 16 = w74.linkLanes 0 ∧
    1 ∈ [1, 2, 4, 8, 16] ∧ 1 < w74.linkLanes 0 ∧ w74.linkPresent 0 = true ∧ w74.linkPresent 1 = true ∧ w74.rd HIF.LSTAT_UP 1 = 1 := by decide +kernel

theorem test_witness_FunctionResults : 0 % 4096 = 0 ∧ 2 % 4096 ≠ 0 ∧ (9 : Fin 1024).val ≠ 0 ∧ (9 : Fin 1024).val ≠ 2 ∧ (9 : Fin 1024).val ≠ 11 ∧ w74.fnExists 3 = false ∧ w74.fnExists 1 = true ∧ (w74.fn 1).inFlr = true ∧ w74.fnExists 0 = true ∧ (w74.fn 0).inFlr = false ∧
    w74.ready (38 + linkOf 0) = true ∧ w74.fnExists 2 = true ∧ (w74.fn 2).inFlr = false ∧ (w74.fn 2).d3hot = true ∧ (w74.fn 0).d3hot = false ∧
    (1 : Nat) ≠ 4096 * linkOf 1 ∧ (w74.fn (4096 * linkOf 1)).inFlr = false ∧ (w74.fn 4096).inFlr = true ∧ 4096 = 4096 * linkOf 4096 ∧
    (({ w74 with hif := { w74.hif with fns := [(4096, { inFlr := true }), (4097, { inFlr := true })] } } : Dev).fn 4097).inFlr = true ∧
    w74.memAnswers 0 = true ∧ 0 % 4096 = 0 ∧ (w74.fn 0).romEnable = true ∧ 63 % 64 + 1 ≤ 64 ∧ 0 < w74.rd VIR.PVEC_VECTORS 0 ∧
    look false (w74.fn 0).pba 0 = false ∧ w74.memAnswers 2 = false ∧
    (onRegs [] { w74 with hif := { w74.hif with fns := [(0, { memEnable := true })] } }).memAnswers 0 = true ∧
    ((onRegs [] { w74 with hif := { w74.hif with fns := [(0, { memEnable := true })] } }).fn 0).romEnable = false := by decide +kernel

theorem test_witness_HostRequestResults : w74.readOf 0 7 = none ∧ (w74.readOf 0 5).isSome = true ∧ (w74.readOf 0 6).isSome = true ∧
    (w74.fn 0).inFlr = false ∧ (w74.fn 2).inFlr = false ∧ ((w74.readOf 0 5).map (fun r => r.dead)) = some false ∧
    (((w74.dropRead 0 6).bump DMA.BYTES_COUNT 0 64).chanDone 0 1) = false ∧ (((w74.dropRead 0 5).bump DMA.BYTES_COUNT 0 64).chanDone 0 0) = true ∧
    (w74.fn 0).ctoOff = false ∧ ((w74.readOf 0 5).map (fun r => decide (r.since + timeoutNs (w74.fn r.fn).ctoValue ≤ ({ w74.eng with tclks := 40000000 } : Eng).tclks))) = some true ∧ (({ ctoOff := true } : HostFn).ctoOff = true) ∧ w74.hif.xlWait.contains (0, 9) = true ∧ (w74.atcOf (linkOf 0)).length < 16384 ∧
    w74.hif.lines.any (fun e => decide (e.1 = 77)) = true ∧ w74.hif.lines.any (fun e => decide (e.1 = 78)) = false ∧
    (w74.ring kCq 0).gos = 1 ∧ (w74.ring kCq 0).vecWait = true ∧ w74.hif.held.isEmpty = true ∧ (w74.ring kCq 1).gos ≠ 1 ∧
    (onRegs [(HIF.CXLSTAT_CACHEEN, 0, 1)]).rd HIF.CXLSTAT_CACHEEN = 1 ∧ (onRegs [(HIF.CXLSTAT_CXL, 0, 1)]).rd HIF.CXLSTAT_CXL = 1 := by decide +kernel
/-! ## Witnesses: rings, DMA, mailboxes, resources -/

/-- PF 0 owns submission, receive and completion rings 0 to 3. Ring 0 of each kind is enabled with 64 units, its tail at 2; ring 1 is DISABLED and a
completion ring of legal fields; ring 2 stops with nothing outstanding; ring 3 of the completion rings waits, armed. -/
def w80 : Dev :=
  let d := onRegs [(TOP.READY_BITS, 0, 2 ^ 64 - 1), (VIR.PSQ_COUNT, 0, 4), (VIR.PRQ_COUNT, 0, 4), (VIR.PCQ_COUNT, 0, 4)]
  let on : Ring := { st := .enabled, w0 := 6, tail := 2 }
  { d with
    hif := { d.hif with fns := [(0, { memEnable := true })] }
    rng := { d.rng with
      rings := [(0, on), (1, { w0 := 6 }), (2, { st := .stopping }), (ringKey 1 0, on), (ringKey 2 0, { on with tail := 1 }), (ringKey 2 1, { w0 := 6 + 2 * 32 }),
        (ringKey 2 3, { st := .enabled, w0 := 6, overflow := [{ units := [] }], armed := true, since := 1 })] } }

theorem test_witness_RingResults : ({} : Dev).memAnswers 0 = false ∧ w80.memAnswers 0 = true ∧ w80.dbValid 0 0 (3 * 2 ^ 18) = false ∧
    w80.dbValid 0 0 (2 * 2 ^ 32) = true ∧ (w80.ring 0 0).dbStale (2 * 2 ^ 32) = false ∧ w80.dbValid 0 0 (1 * 2 ^ 32) = true ∧ (w80.ring 0 0).dbStale (1 * 2 ^ 32) = true ∧
    w80.dbValid 0 0 (2 * 2 ^ 18 + 1 * 2 ^ 32) = true ∧ (w80.ring 2 0).dbStale (2 * 2 ^ 18 + 1 * 2 ^ 32) = false ∧
    (2 * 2 ^ 18 + 1 * 2 ^ 32 : Word).toNat.testBit 49 = false ∧ ringCount 2 ≤ 131072 ∧ 131071 < ringCount 2 ∧ w80.mayCommand .pf1 2 1 = false ∧
    w80.mayCommand .pf0 2 1 = true ∧ (w80.ring 2 1).st = .disabled ∧ (w80.ring 2 1).fieldsOk 2 = true ∧ (w80.ring 2 1).cxlc = false ∧
    (w80.ring 2 0).st ≠ .disabled ∧ w80.mayCommand .pf0 2 0 = true ∧ (w80.ring 2 2).st = .disabled ∧ (w80.ring 2 2).fieldsOk 2 = false ∧ w80.mayCommand .pf0 2 2 = true ∧
    (w80.ring 0 2).st = .stopping ∧ (w80.ring 0 2).subs = [] ∧ w80.rng.cpls = [] ∧ (w80.ring 0 0).st = .enabled ∧ (w80.ring 0 0).stalled = false ∧
    (w80.ring kCq (w80.ring 0 0).cq).overflow = [] ∧
    w80.rd RNG.CSTAT_BUSY Writer.pf0.view ≠ 1 ∧ (onRegs [(RNG.CSTAT_BUSY, 0, 1)]).rd RNG.CSTAT_BUSY Writer.pf0.view = 1 ∧
    (w80.ring 1 0).stalled = false ∧ (w80.ring 1 0).st = .enabled ∧
    w80.needsTranslation (w80.ring 0 0).polder ((w80.ring 0 0).unitAddr (w80.ring 0 0).fetch) = false ∧
    w80.needsTranslation (w80.ring 1 0).polder ((w80.ring 1 0).unitAddr (w80.ring 1 0).fetch) = false ∧
    (w80.ring 0 1).st = .disabled ∧ (w80.ring 0 1).fieldsOk 0 = true ∧ (w80.ring 0 1).cxlc = false ∧ w80.mayCommand .pf0 0 1 = true ∧
    (w80.ring kCq (w80.ring 0 1).cq).st = .enabled ∧ (w80.ring kCq (w80.ring 0 1).cq).polder = (w80.ring 0 1).polder ∧
    (let d := w80.setRing 2 1 { w80.ring 2 1 with st := .error }
     (d.ring 2 1).st = .error ∧ d.namers 1 = [] ∧ d.mayCommand .pf0 2 1 = true) := by decide +kernel

theorem test_witness_DoorbellIsolation : w80.ownsRing 1 0 0 = false ∧ w80.ownsRing 0 0 4 = false ∧ w80.ownsRing 0 0 3 = true := by decide +kernel

/-- A completion to write, a channel with a burst to send, a descriptor that waits, and packets that have left. -/
def w81 : Dev :=
  { w80 with rng := { w80.rng with
      cpls := [(0, 5, { units := [], held := true }), (0, 5, { units := [] }), (1, 6, { units := [1], tag := 3 })]
      chans := [(0, { desc := some { group := 0, prio := 0, ring := 0, fn := 0, reqs := [(0, 64)] } })]
      waiting := [{ group := 1, prio := 7, ring := 0, fn := 0, reqs := [] }] } }

/-- A packet that left for entry 0 of ring 0, with that entry outstanding. -/
def w82 : Dev :=
  { ({} : Dev) with rng := { ({} : Rng) with
      left := [{ ring := 0, pos := 0, status := 0, mark := 0, len := 64, ts := none }]
      rings := [(0, { subs := [{ pos := 0, units := 4, words := [0] }] })] } }

theorem test_witness_DmaResults : nextWritable [] w81.rng.cpls = some (1, 6, { units := [1], tag := 3 }) ∧ (w81.ring kCq 3).armed = true ∧ 0 < (w81.ring kCq 3).since ∧
    (w81.ring kCq 3).firstAt + 1000 * (w81.ring kCq 3).cusec ≤ w81.eng.tclks ∧
    (w81.ring kCq 3).fullAt + 1000000 * w81.rd RNG.CFG_ISOLMS ≤ ({ w81 with eng := { w81.eng with tclks := 10 ^ 12 } } : Dev).eng.tclks ∧
    (w81.ring kCq 0).armed = false ∧ (w81.ring kCq 3).st = .enabled ∧ (w81.ring kCq 3).overflow ≠ [] ∧
    (w81.nextDesc 1).isSome = true ∧ (List.range 32).find? (fun n => (w81.chan 1 n).desc.isNone && !(w81.chan 1 n).stop) = some 0 ∧
    w82.rng.left.isEmpty = false ∧ ((w82.ring kSub 0).subs.find? (fun e => decide (e.pos = 0))).isSome = true ∧
    ((w82.ring kSub 0).subs.map (fun e => (e.words.getD 0 0).testBit 9)) = [false] ∧
    (({ w82 with rng := { w82.rng with rings := [] } } : Dev).ring kSub 0).subs.find? (fun e => decide (e.pos = 0)) = none := by decide +kernel

theorem test_witness_DmaResults_burst : ({ w81 with hif := { w81.hif with fns := [(0, { memEnable := true, busMaster := true })] } } : Dev).nextChan 0 = some 0 := by decide +kernel

/-- PF 0 names the control service; PF 1's channel to it is full; a message waits in the inbox of PF 0 and of the control service. -/
def w83 : Dev :=
  let d := onRegs [(MBX.TXENV_PKIND, 0, 1), (MBX.TXENV_SERVICE, 0, 1), (MBX.STXENV_SERVICE, 0, 8), (VIR.STATUS_READY, 0, 1)] w80
  { d with mbx := { d.mbx with inbox := [(0, [{ body := [], sender := idControl, svc := 3, seq := 0 }]), (idControl, [{ body := [], sender := 0, svc := 3, seq := 0 }])] } }

/-- The same with sixteen messages pending from PF 0 to the control service and to the key loader. -/
def w84 : Dev :=
  let m : Msg := { body := [], sender := 0, svc := 1, seq := 0 }
  { w83 with mbx := { w83.mbx with inbox := [(idControl, List.replicate 16 m), (idKeys, List.replicate 16 m), (8196, [m])] } }

theorem test_witness_MailboxResults : w83.memAnswers 0 = true ∧ (match w80.txTarget 0 with | .error c => c | .ok _ => 0) ≠ 0 ∧
    (match w83.txTarget 0 with | .ok r => decide (r = idControl) | .error _ => false) = true ∧ w83.pendingOn 0 idControl + 15 = 16 ∧
    w84.pendingOn 0 idControl = 16 ∧ w80.inboxOf 0 = [] ∧ w80.memAnswers 0 = true ∧
    w83.inboxOf 0 = { body := [], sender := idControl, svc := 3, seq := 0 } :: [] ∧ ((w83.setInbox 0 []).showInbox 0).rd MBX.IRQ_EN 0 = 0 ∧
    w80.rd MBX.STXENV_SERVICE 0 ≠ 8 ∧ w83.rd MBX.STXENV_SERVICE 0 = 8 ∧ w83.pendingOn 0 idKeys < 16 ∧ w84.pendingOn 0 idKeys = 16 ∧
    w84.inboxOf 8196 ≠ [] ∧ w83.inboxOf 8196 = [] ∧ w80.inboxOf idControl = [] ∧
    w83.inboxOf idControl = [{ body := [], sender := 0, svc := 3, seq := 0 }] ∧ w83.pickupRoom 0 = true ∧ w83.serving = true ∧
    w83.cmActs idCores = true ∧ w83.cmActs idManager = true ∧ w83.pendingOn idCores idManager < 16 ∧ w83.pendingOn idManager idCores < 16 ∧ (7 : Byte) ≠ 8 := by
  decide +kernel

/-- Sixteen messages wait on each side of the private channel. -/
def w84P : Dev :=
  { w83 with mbx := { w83.mbx with inbox :=
      [(idManager, List.replicate 16 { body := [], sender := idCores, svc := 1, seq := 0 }), (idCores, List.replicate 16 { body := [], sender := idManager, svc := 1, seq := 0 })] } }

theorem test_witness_MailboxResults_private : w84P.cmActs idCores = true ∧ w84P.cmActs idManager = true ∧ 16 ≤ w84P.pendingOn idCores idManager ∧
    16 ≤ w84P.pendingOn idManager idCores ∧ w84P.inboxOf idManager ≠ [] ∧ w84P.inboxOf idCores ≠ [] := by decide +kernel

/-- Bodies of a GRANT of one vector, a LIMITS of WEIGHT 4095 and a QUERY, of polder 0. -/
def grantBody : List Byte := 1 :: (List.replicate 27 0 ++ [1] ++ List.replicate 31 0)
def limitsBody (w : Nat) : List Byte := 2 :: (List.replicate 15 0 ++ leBytes 2 w ++ List.replicate 42 0)
def queryBody : List Byte := 3 :: List.replicate 59 0

theorem test_witness_ResourceResults : (onRegs [(VIR.STATUS_READY, 0, 1)]).answerRoom 0 = true ∧ ({} : Dev).resTarget 0 [9] 1 0 grantBytes ≠ 0 ∧ (readGrant grantBody).target = 0 ∧
    ({} : Dev).resTarget 0 grantBody 1 0 grantBytes = 0 ∧ (readGrant grantBody).pasid < 2 ^ 20 ∧ leAt grantBody 56 4 % 2 ^ 31 / 2 ^ 17 = 0 ∧
    ({} : Dev).resTarget 0 [9] 2 0 limitsBytes ≠ 0 ∧ ({} : Dev).resTarget 0 (limitsBody 4095) 2 0 limitsBytes = 0 ∧ leAt (limitsBody 4095) 16 2 = 4095 ∧
    leAt (limitsBody 4095) 24 8 = 0 ∧ leAt (limitsBody 4095) 32 2 = 0 ∧ leAt (limitsBody 4096) 16 2 = 4096 ∧ ({} : Dev).resTarget 0 (limitsBody 4096) 2 0 limitsBytes = 0 ∧
    ({} : Dev).resTarget 0 queryBody 3 0 queryBytes = 0 ∧ ({} : Dev).resTarget 0 [9] 3 0 queryBytes ≠ 0 ∧
    (let b := (limitsBody 1).set 24 5; (leAt b 24 8, leAt b 16 2, decide (5 < (onRegs [(VIR.PCRUSE_RATE, 0, 6)]).rd VIR.PCRUSE_RATE 0))) = (5, 1, true) := by decide +kernel

theorem test_witness_ResourceResults_grant : ({} : Dev).grantRange (readGrant grantBody) = true ∧ ({} : Dev).grantBusy (readGrant grantBody) = false ∧
    ({} : Dev).grantRange (readGrant (1 :: List.replicate 59 0)) = false ∧
    ({ ({} : Dev) with hif := { ({} : HostIf) with fns := [(0, { msixEnable := true })] } } : Dev).grantBusy (readGrant grantBody) = true := by decide +kernel
/-! ## Witnesses: the Dikewarden, events, resets, management, registers -/

/-- Every ready bit set; the module grade known; no lock of clock 1 lost. -/
def w90 : Dev := holds TOP.IDENT_GRADE 0 0 (onRegs [(TOP.READY_BITS, 0, 2 ^ 64 - 1)])

/-- A device in its device-wide safe state, with core 0 isolated, the management controller restarting, and the clocks throttled. -/
def w91 : Dev :=
  { onRegs [(DKW.STATUS_DEVSAFE, 0, 1), (DKW.STATUS_FAULTN, 0, 1), (DKW.STATUS_PAIRB, 0, 1)] w90 with
    dkw := { ({} : Dkw) with coresOut := [0], mgtDown := true, throttled := true, devCause := (4, 4) } }

theorem test_witness_DetectionResults : w90.rd DKW.STATUS_PAIRA = 0 ∧ w90.rd DKW.STATUS_PAIRB = 0 ∧ w91.rd DKW.STATUS_PAIRA = 0 ∧
    w91.rd DKW.STATUS_PAIRB = 1 ∧ w90.devSafe = false ∧ w91.devSafe = true ∧ w90.dkw.coresOut.contains 0 = false ∧ w91.dkw.coresOut.contains 0 = true ∧
    w90.dkw.mgtDown = false ∧ w91.dkw.mgtDown = true ∧ w90.dkw.present.contains (8, 15) = false ∧ w90.dkw.present.contains (12, 13) = false ∧
    w90.dkw.present.contains (13, 8) = false ∧ w90.thresholds.1 = 1440 ∧ w90.thresholds.2.1 = 1600 ∧ w90.dkw.throttled = false ∧
    (w90.raise {} (ev 1 5) 15).dkw.throttled = false ∧ w91.dkw.throttled = true ∧
    w90.rd (if (0 : Fin 2) = 0 then DKW.STATUS_PAIRA else DKW.STATUS_PAIRB) ≠ 1 ∧ w91.rd (if (1 : Fin 2) = 0 then DKW.STATUS_PAIRA else DKW.STATUS_PAIRB) = 1 ∧
    w90.eng.tclks < w90.dkw.signalAt + 122071 ∧ w91.eng.tclks < w91.dkw.hotAt + 10000000 ∧
    (let d : Dev := { w90 with eng := { w90.eng with tclks := 10000000 } }; decide (d.devSafe = false ∧ d.dkw.signalAt + 122071 ≤ d.eng.tclks)) = true ∧
    (let d : Dev := { w91 with eng := { w91.eng with tclks := 10000000 } }; decide (d.dkw.throttled = true ∧ d.dkw.hotAt + 10000000 ≤ d.eng.tclks)) = true ∧
    (let d : Dev := ({ w90 with dkw := { w90.dkw with throttled := true } } : Dev).raise {} (ev 1 5) 15
     d.dkw.throttled = true ∧ d.dkw.present.isEmpty = true) := by decide +kernel

/-- Port 3 and polder 0 in safe states whose causes are gone; and the same with the device in it, by the same cause. -/
def w92 : Dev :=
  { onRegs [(DKW.PSAFE_PORTS, 0, 8), (DKW.POLSAFE_MAP, 0, 1), (DKW.STATUS_FAULTN, 0, 1)] w90 with
    dkw := { ({} : Dkw) with portCause := [(3, (8, 3))], polCause := [(0, (12, 7)), (5, (12, 7))] } }

def w93 (cause : Nat × Nat) : Dev :=
  { w92.wr DKW.STATUS_DEVSAFE 0 1 with dkw := { w92.dkw with devCause := cause, present := [(12, 7)] } }

theorem test_witness_ReleaseResults : [9] ≠ w90.objContent 0 0 ∧ (List.range 16).filter (fun n => (8 : BitVec 16).getLsbD n && w92.portSafe n) = [3] ∧
    (w93 (4, 4)).devSafe = true ∧ w92.devSafe = false ∧ [3].find? (fun n => w92.causeStands (look (0, 0) w92.dkw.portCause n)) = none ∧
    pfOf 0 = 0 ∧ w92.polSafe 0 = true ∧ w92.polSafe 1 = false ∧ w92.causeStands (look (0, 0) w92.dkw.polCause 0) = false ∧
    (w93 (4, 4)).causeStands (look (0, 0) (w93 (4, 4)).dkw.polCause 0) = true ∧
    (put (0, 0) w92.dkw.polCause 0 (0, 0)).any (fun e => decide (e.2 = (12, 7))) = true ∧
    (w93 (4, 4)).causeStands (w93 (4, 4)).dkw.devCause = true ∧ (w93 (5, 0)).causeStands (w93 (5, 0)).dkw.devCause = false := by decide +kernel

theorem test_witness_ReleaseResults_faultn : w92.anySafe = true ∧ w92.dkw.present = [] ∧
    (let d := w90.wr DKW.STATUS_FAULTN 0 1; (d.anySafe, d.dkw.present.isEmpty, d.rd DKW.SMSTAT_FAILED, d.ready 36, d.rd DKW.STATUS_FAULTN)) =
      (false, true, 0, true, 1) ∧
    ({ w92 with dkw := { w92.dkw with polCause := [(0, (12, 7))], present := [(12, 7)] } } : Dev).causeStands (12, 7) = true := by decide +kernel

/-- Two records wait in the view of PF 0; bit 0 of group 0 pends. -/
def w94 : Dev :=
  let r : EvRecord := { src := 1, polder := none, info := 2, time := 3 }
  let d := onRegs [(EVT.PEND_BITS, 0, 1), (CAL.STATUS_COMMITTED, 0, 1)] w90
  { d with evt := { d.evt with recs0 := [r, r] } }

theorem test_witness_EventsAndClocks :
    (let d := w94.wr EVT.MASK_BITS 0 1; (w94.rd EVT.PEND_BITS 0 &&& w94.rd EVT.MASK_BITS 0, d.rd EVT.PEND_BITS 0 &&& d.rd EVT.MASK_BITS 0)) = (0, 1) ∧
    (let d := w94.wr EVT.MASK_BITS 0 2; d.rd EVT.PEND_BITS 0 &&& d.rd EVT.MASK_BITS 0) = 0 ∧ w94.evt.recs0.length = 2 ∧ w90.evt.recs0 = [] ∧
    w90.evt.recs1 = [] ∧ (holds DKW.SMSTAT_INJEN 0 1).rd DKW.SMSTAT_INJEN = 1 ∧ (holds DKW.SMSTAT_INJEN 0 0).rd DKW.SMSTAT_INJEN = 0 ∧
    w91.dkw.mgtDown = true ∧ w90.dkw.mgtDown = false ∧ w94.rd CAL.STATUS_COMMITTED = 1 ∧ w90.rd CAL.STATUS_COMMITTED = 0 ∧ w90.eng.tclks < 250000000 ∧
    250000000 ≤ ({ w90 with eng := { w90.eng with tclks := 250000000 } } : Dev).eng.tclks ∧ 1 ≤ (15 : Fin 32).val ∧ 15 < (16 : Fin 32).val := by decide +kernel

/-- A device whose lane groups run one port each, with nothing ready but what its ports need, in a warm reset or not. -/
def w95 (warming : Bool) (bits : Nat) : Dev := { onRegs [(TOP.READY_BITS, 0, bits)] with warming := warming }

theorem test_witness_ResetResults : (w90.fn 0).inFlr = false ∧ (w95 true 0).warming = true ∧ w90.dkw.mgtDown = false ∧ w90.viaUp 0 = true ∧ w90.ready 37 = true ∧
    w90.inRecovery = false ∧ (w90.wr MGT.STATUS_RECOVERY 0 1).inRecovery = true ∧ w90.rd MGT.FWUPD_STATE ≠ 4 ∧
    (w90.wr MGT.FWUPD_STATE 0 4).rd MGT.FWUPD_STATE = 4 ∧ (w95 true (2 ^ 64 - 1)).ready 38 = true ∧ (w95 true (2 ^ 64 - 1)).ready 39 = true ∧
    w90.warming = false ∧ (w95 false 0).ready 33 = false ∧ (w95 false 0).rdBit TOP.FAILED_BITS 0 33 = false ∧ (w95 false 0).hasFunction 33 = true ∧
    (w95 false (2 ^ 34)).needsMet 33 = true ∧ (w95 false 0).needsMet 33 = false ∧ (w95 false 0).ready 36 = false ∧
    (w95 false 0).rdBit TOP.FAILED_BITS 0 36 = false ∧ (w95 false 0).hasFunction 36 = true ∧ (w95 false 0).needsMet 32 = true := by decide +kernel

/-- Channel 2 of the NC-SI package initialised, with a telemetry period. -/
def w96 : Dev :=
  let d := onRegs [(MGT.TELCFG_PERIOD, 0, 10), (MGT.NCSIQ_EN, 15, 0)] w90
  { d with mgt := { d.mgt with ncsi := [(2, { init := true })] } }

theorem test_witness_SidebandResults : w91.mgtServes = false ∧ w96.mgtServes = true ∧ (w96.ncsi 15).init = false ∧ (w96.ncsi 2).init = true ∧
    w96.rd MGT.NCSIQ_EN 15 = 0 ∧ (w90.wr MGT.TELCFG_PERIOD 0 0).rd MGT.TELCFG_PERIOD = 0 ∧ w96.rd MGT.TELCFG_PERIOD ≠ 0 ∧
    w96.mgt.periodAt + w96.rd MGT.TELCFG_PERIOD * 1000000 ≤ ({ w96.eng with tclks := 10000000 } : Eng).tclks ∧ w96.dkw.mgtDown = false ∧ w96.viaUp 0 = true ∧
    (w96.wr MGT.STATUS_RECOVERY 0 1).inRecovery = true ∧ w96.inRecovery = false ∧ w96.ready 37 = true := by decide +kernel

/-- An update that receives its image, over flash images of version 5. -/
def w97 (state : Nat) (u : Option FwImage) : Dev :=
  let d := holds DKW.FWVER_MINVER 0 5 (onRegs [(MGT.FWUPD_STATE, 0, state)] w90)
  { d with mgt := { d.mgt with flash := [(0, { good := true, version := 5, content := 0 }), (1, { good := true, version := 5, content := 0 })], update := u } }

theorem test_witness_UpdateResults : w90.eng.tclks < w90.mgt.windowAt + 1000000 ∧
    w90.mgt.windowAt + 1000000 ≤ ({ w90.eng with tclks := 1000000 } : Eng).tclks ∧ w91.dkw.mgtDown = true ∧ (w97 0 none).dkw.mgtDown = false ∧ (w97 0 none).viaUp 0 = true ∧ (w97 0 none).ready 37 = true ∧
    (w97 4 none).rd MGT.FWUPD_STATE = 4 ∧ (w97 1 none).rd MGT.FWUPD_STATE = 1 ∧ (w97 0 none).rd MGT.FWUPD_STATE = 0 ∧
    (w97 1 none).imageError { good := false, version := 5, content := 0, bytes := 33554432 } = some 1 ∧
    (w97 1 none).imageError { good := true, version := 5, content := 0, bytes := 33554433 } = some 3 ∧
    (w97 1 none).imageError { good := true, version := 4, content := 0, bytes := 100 } = some 2 ∧
    (w97 1 none).imageError { good := true, version := 6, content := 1, bytes := 33554432 } = none ∧
    (w97 3 (some { good := true, version := 6, content := 1 })).mgt.update = some { good := true, version := 6, content := 1 } ∧
    (w97 3 none).rd MGT.FWUPD_STATE = 3 ∧ (w97 3 none).mgt.update = none ∧ w90.mgtServes = true ∧ (holds MGT.OTPSTG_PROGRAMMED 0 0 w90).rd MGT.OTPSTG_PROGRAMMED = 0 ∧
    (holds MGT.OTPSTG_PROGRAMMED 0 1 w90).rd MGT.OTPSTG_PROGRAMMED = 1 := by decide +kernel

/-- Segment 31 open, cage 15 present and polled, a scan between its steps. -/
def w98 (rescans chg : Nat) : Dev :=
  let d := onRegs [(MBS.SEGCTL_OPEN, 31, 1), (MBS.PRSNOW_LEVEL, 0, 0x8000), (MBS.CAGE_EN, 15, 1), (MBS.CAGE_STATE, 15, 1), (MBS.PRSLATCH_CHG, 0, chg)] w90
  { d with mgt := { d.mgt with scan1 := some 0, rescans := rescans } }

theorem test_witness_ModuleBusResults : (w98 0 0).busServes = true ∧ (w98 0 0).rd MBS.SEGCTL_OPEN 0 = 0 ∧ (w98 0 0).rd MBS.SEGCTL_OPEN 31 = 1 ∧
    w91.busServes = false ∧ (w98 0 0).mgtServes = true ∧ ((w98 0 0).wr MBS.STATUS_TRUNK 0 1).rd MBS.STATUS_TRUNK = 1 ∧
    (w98 0 0).rdBit MBS.PRSNOW_LEVEL 0 15 = true ∧ (w98 0 0).rdBit MBS.PRSNOW_LEVEL 0 0 ≠ true ∧ w90.mgt.scan1 = none ∧ (w98 0 0).mgt.scan1 ≠ none ∧
    (w98 0 0).rd MBS.PRSLATCH_CHG = 0 ∧ (w98 2 4).rd MBS.PRSLATCH_CHG ≠ 0 ∧ (w98 2 4).mgt.rescans < 3 ∧ (w98 0 0).rd MBS.CAGE_EN 15 ≠ 0 ∧
    (w98 0 0).rd MBS.CAGE_STATE 15 = 1 ∧
    w90.mgtServes = true ∧ w90.scanDue = false ∧ ({ w90 with eng := { w90.eng with tclks := 10 ^ 12 } } : Dev).scanDue = true ∧
    (w98 0 0).eng.tclks < (w98 0 0).mgt.settleAt + 10000000 ∧ (w98 0 0).mgt.settleAt + 10000000 ≤ ({ (w98 0 0).eng with tclks := 10 ^ 12 } : Eng).tclks ∧
    look 0 (w98 0 0).mgt.stableAt 15 + 2000000000 ≤ ({ (w98 0 0).eng with tclks := 10 ^ 12 } : Eng).tclks ∧
    (w98 0 0).eng.tclks < look 0 (w98 0 0).mgt.stableAt 15 + 2000000000 ∧ ((w98 0 0).wr MBS.CAGE_STATE 15 2).rd MBS.CAGE_STATE 15 = 2 := by decide +kernel

/-- PF 0 with its memory space enabled, and control core 0 with an offset of a register and one of none. -/
def w99 (ready : Nat) : Dev :=
  let d := onRegs [(TOP.READY_BITS, 0, ready)] (runs 1536 (regsOf [(1, 0x400000), (2, 4)]))
  { d with hif := { d.hif with fns := [(0, { memEnable := true })] } }

theorem test_witness_RegisterResults : ({} : Dev).answersAt 0 .bar0 0 = false ∧ (w99 (2 ^ 64 - 1)).answersAt 0 .bar0 0x400000 = true ∧
    isDoorbell 0x400000 = false ∧ (blockAt 0x400000).isSome = true ∧ (w99 (2 ^ 64 - 1)).blockReady 0x400000 = true ∧
    (w99 (2 ^ 38)).answersAt 0 .bar0 0x3000000 = true ∧ (blockAt 0x3000000).isSome = true ∧ (w99 (2 ^ 38)).blockReady 0x3000000 = false ∧
    isDoorbell 0x3000000 = false ∧ (blockAt 0xFFFFFF8).isNone = true ∧ isDoorbell 0xFFFFFF8 = false ∧
    (w99 0).issues 1536 { regs := [31, 1] } = true ∧ isCore 1536 = true ∧ ioOffset ((w99 0).ctx 1536) 1 0 = some 0x400000 ∧
    ioOffset ((w99 0).ctx 1536) 2 0 = none ∧ (onRegs [(VIR.STATUS_READY, 0, 1)]).answerRoom 0 = true ∧
    ({ onRegs [(VIR.STATUS_READY, 0, 1)] with mbx := { ({} : Mbx) with overflow := [(0, List.replicate 256 { body := [], sender := 0, svc := 0, seq := 0 })] } } : Dev).answerRoom 0 = false := by
  decide +kernel

/-! ## Witnesses: the block as a whole -/

theorem test_witness_StepRunsFront : ({ at0 {} with pending := [.wrstN, .powerDown] } : State).pending = .wrstN :: [.powerDown] ∧ (at0 {}).pending = [] := by decide

theorem test_witness_TimeRunsOn : (nextOf (exec .mgtRestartDone (at0 w90))).isSome = true ∧ MovesTime .mgtRestartDone = false ∧ MovesTime .wrstN = false := by decide +kernel

theorem test_witness_NetworkTimeStaysLegal : LegalTime (at0 {}).time ∧ (nextOf (step (at0 {}))).isSome = true ∧
    LegalTime { sec := 2 ^ 48 - 1, ns := 999999999, frac := 2 ^ 40 - 1 } := by
  refine ⟨by simp [LegalTime, at0], by decide +kernel, by simp [LegalTime]⟩

theorem test_witness_RegisterStore : DKW.STATUS_PAIRA ∈ allFields ∧ DKW.STATUS_PAIRB ∈ allFields ∧ DKW.STATUS_PAIRA.id ≠ DKW.STATUS_PAIRB.id := by decide +kernel

theorem test_witness_CountersSaturate : (w90.rd TOP.NOTREADY_COUNT ≤ 2 ^ TOP.NOTREADY_COUNT.w - 1) ∧
    (w90.wr TOP.NOTREADY_COUNT 0 (2 ^ TOP.NOTREADY_COUNT.w - 1)).rd TOP.NOTREADY_COUNT = 2 ^ TOP.NOTREADY_COUNT.w - 1 := by decide +kernel

/-- A packet context whose register 1 points at the last word of its scratch, register 2 into the atomic region, with the window open. -/
def w9A : Dev := runs 0 (regsOf [(1, 0x1FF8), (2, 8)])

theorem test_witness_StoreFrame : isCore 0 = false ∧ w9A.issues 0 { regs := [3, 1], scratch := (0x1FF8, 8) } = true ∧
    memOffset ((w9A.ctx 0).rg 1) 0 = 0x1FF8 ∧ 0x1FF8 + szBytes 3 ≤ 0x2000 ∧ 0x1FF8 % szBytes 3 = 0 := by decide +kernel

theorem test_witness_EngineFrame : w9A.unassigned 0 = false ∧ (nextOf (exec (.add 0 3 1 2) (at0 w9A))).isSome = true ∧ (nextOf (exec (.plog 0 1 2 3 6) (at0 w9A))).isSome = true := by decide +kernel

end Sys2Proof.Tests
end

section
/-! Proofs of the statements of 00_scope: network time, the register store, and register accesses. -/

namespace Sys2Proof.Proofs

open Sys2Proof.Machine Sys2Proof.Laws

/-! # Network time (R10) -/

/-! ## Commands that leave network time -/

/-- A command that does not set network time answers with a new device and keeps the rest of the state: its meaning is `onDev` of an
effect on the device. -/
theorem exec_changes_dev {c : Instr} (h : MovesTime c = false) (s : State) : ∃ d, exec c s = .next { s with dev := d } := by
  cases c
  case timeSet | timeStep | secondBoundary | powerOnRelease | powerDown => simp [MovesTime] at h
  all_goals exact ⟨_, rfl⟩

theorem exec_keeps_time {c : Instr} {s t : State} (h : MovesTime c = false) (hx : exec c s = .next t) : t.time = s.time := by
  obtain ⟨d, hd⟩ := exec_changes_dev h s
  rw [hd] at hx
  cases hx
  rfl

/-- The commands that set network time, by name. -/
theorem movesTime_cases {c : Instr} (h : MovesTime c = true) :
    (∃ pf, c = .timeSet pf) ∨ (∃ pf, c = .timeStep pf) ∨ c = .secondBoundary ∨ c = .powerOnRelease ∨ c = .powerDown := by
  unfold MovesTime at h
  split at h
  · exact .inl ⟨_, rfl⟩
  · exact .inr (.inl ⟨_, rfl⟩)
  · exact .inr (.inr (.inl rfl))
  · exact .inr (.inr (.inr (.inl rfl)))
  · exact .inr (.inr (.inr (.inr rfl)))
  · cases h

/-! ## Commands that set network time (R311, R312, R504, R568) -/

/-- The start of a second is legal, for seconds taken modulo their width. -/
theorem legalTime_startOfSecond (n : Nat) : LegalTime { sec := n % 2 ^ 48, ns := 0, frac := 0 } :=
  ⟨Nat.mod_lt _ (by decide), Nat.zero_le _, Nat.two_pow_pos 40⟩

/-- A command of the owner of network time keeps it legal where the owner's own effect does. -/
theorem asOwner_legal {pf : Pf} {g : State → State} {s t : State} (hs : LegalTime s.time) (hg : LegalTime (g s).time)
    (h : asOwner pf g s = .next t) : LegalTime t.time := by
  unfold asOwner at h
  split at h <;> cases h
  · exact hg
  · exact hs

theorem timeSet_legal {pf : Pf} {s t : State} (hs : LegalTime s.time) (h : execTimeSet pf s = .next t) : LegalTime t.time := by
  refine asOwner_legal hs ?_ h
  dsimp only
  split
  case isTrue => exact hs
  case isFalse hns => exact ⟨Nat.mod_lt _ (by decide), Nat.le_of_not_lt hns, Nat.two_pow_pos 40⟩

theorem timeStep_legal {pf : Pf} {s t : State} (hs : LegalTime s.time) (h : execTimeStep pf s = .next t) : LegalTime t.time := by
  refine asOwner_legal hs ?_ h
  dsimp only
  split
  case isTrue => exact hs
  case isFalse hr =>
    obtain ⟨_, _, hfrac⟩ := hs
    refine ⟨?_, ?_, hfrac⟩ <;> simp only [State.moved, maxSec] at hr ⊢ <;> omega

theorem secondBoundary_legal {s t : State} (h : execSecondBoundary s = .next t) : LegalTime t.time := by
  rw [← Host.Outcome.next.inj h]
  exact legalTime_startOfSecond _

theorem powerOnRelease_legal {s t : State} (h : execPowerOnRelease s = .next t) : LegalTime t.time := by
  rw [← Host.Outcome.next.inj h]
  exact legalTime_startOfSecond 0

theorem powerDown_legal {s t : State} (h : execPowerDown s = .next t) : LegalTime t.time := by
  rw [← Host.Outcome.next.inj h]
  exact legalTime_startOfSecond 0

theorem exec_keeps_legalTime {c : Instr} {s t : State} (hs : LegalTime s.time) (h : exec c s = .next t) : LegalTime t.time := by
  cases hc : MovesTime c
  case false => exact exec_keeps_time hc h ▸ hs
  case true =>
    obtain ⟨pf, rfl⟩ | ⟨pf, rfl⟩ | rfl | rfl | rfl := movesTime_cases hc
    · exact timeSet_legal hs h
    · exact timeStep_legal hs h
    · exact secondBoundary_legal h
    · exact powerOnRelease_legal h
    · exact powerDown_legal h

/-! ## The step of an empty queue (R311) -/

theorem signedOf_lt (v : Nat) : signedOf v 32 < 2 ^ 31 := by
  unfold signedOf
  split <;> omega

/-- With every trim a TCLK adds less than two nanoseconds. -/
theorem tclkStep_lt (d : Dev) : d.tclkStep < 2 * 2 ^ 40 := by
  have := signedOf_lt (d.rd SLU.TRATE_RATE)
  unfold Dev.tclkStep
  omega

theorem tick_keeps_legalTime {s : State} (h : LegalTime s.time) : LegalTime s.tick.time := by
  obtain ⟨hsec, hns, hfrac⟩ := h
  unfold State.tick
  extract_lets d0 s1 f ns sec
  have hstep : s1.dev.tclkStep < 2 * 2 ^ 40 := tclkStep_lt _
  have htime : s1.time = s.time := rfl
  have hf : f % 2 ^ 40 < 2 ^ 40 := Nat.mod_lt _ (by decide)
  have hle : ns ≤ s.time.ns + 2 := by
    simp only [ns, f, htime]
    omega
  split
  case isTrue hlt => exact ⟨hsec, Nat.le_of_lt_succ hlt, hf⟩
  case isFalse =>
    have hns' : ns - 1000000000 ≤ 999999999 := by omega
    exact ⟨Nat.mod_lt _ (by decide), hns', hf⟩

theorem step_keeps_legalTime {s t : State} (hs : LegalTime s.time) (h : step s = .next t) : LegalTime t.time := by
  unfold step at h
  split at h
  next => exact Host.Outcome.next.inj h ▸ tick_keeps_legalTime hs
  next c rest _ => exact exec_keeps_legalTime (s := { s with pending := rest }) hs h

/-- Settles O52: every step keeps the fields of network time in range. The invariant is `LegalTime`; commands that are not in `MovesTime`
do not touch network time, each of the five others sets it in range, and a TCLK carries into the next second at most once. -/
theorem networkTimeStaysLegal : Obligations.NetworkTimeStaysLegal := by
  intro s t hs h
  obtain ⟨hsec, hns, hfrac⟩ := step_keeps_legalTime hs h
  have hfrac16 : t.time.frac16 < 2 ^ 16 := by
    unfold NetTime.frac16
    omega
  exact ⟨⟨hsec, hns, hfrac⟩, hsec, hns, by omega, hfrac16⟩

/-! # The register store (R11, R12, R16, R17) -/

/-! ## The numbers of the fields -/

/-- The map numbers its 822 fields in order. -/
theorem ids_allFields : allFields.map Fld.id = List.range 822 := by decide +kernel

theorem id_lt_of_mem {f : Fld} (h : f ∈ allFields) : f.id < 1024 := by
  have hm : f.id ∈ List.range 822 := ids_allFields ▸ List.mem_map_of_mem h
  have := List.mem_range.1 hm
  omega

/-- No two fields of the map have one number. -/
theorem id_injective {f g : Fld} (hf : f ∈ allFields) (hg : g ∈ allFields) (h : f.id = g.id) : f = g :=
  List.inj_on_of_nodup_map (ids_allFields ▸ List.nodup_range) hf hg h

/-! ## Bytes and numbers (R11) -/

theorem leNat_leBytes (n v : Nat) : leNat (leBytes n v) = v % 256 ^ n := by
  induction n generalizing v with
  | zero => simp [leBytes, leNat, Nat.mod_one]
  | succ n ih => simp only [leBytes, leNat, ih, BitVec.toNat_ofNat, pow_succ' 256 n, Nat.mod_mul]

theorem leBytes_getD {n i : Nat} (v : Nat) (h : i < n) : (leBytes n v).getD i 0 = BitVec.ofNat 8 (v / 256 ^ i) := by
  induction n generalizing v i with
  | zero => omega
  | succ n ih =>
    cases i with
    | zero => simp [leBytes]
    | succ i => rw [leBytes, List.getD_cons_succ, ih _ (by omega), Nat.div_div_eq_div_mul, pow_succ']

/-- Settles O55: the register store reads as written and keeps every other place, since a field's number and its index determine
the key; numbers and bytes agree by induction on the count of bytes. -/
theorem registerStore : Obligations.RegisterStore :=
  ⟨rd_wr_same, fun d _ _ _ _ v hf hg h => rd_wr_other d v (id_lt_of_mem hf) (id_lt_of_mem hg) h,
    fun _ hf _ hg => id_injective hf hg, leNat_leBytes, fun _ v _ => leBytes_getD v⟩

/-! ## Saturating counters (R16) -/

/-- A counter reads, after `n` more, their sum or its largest value. -/
theorem rd_bump_same (d : Dev) (f : Fld) (i n : Nat) : (d.bump f i n).rd f i = min (d.rd f i + n) (2 ^ f.w - 1) := by
  have hpos : 0 < 2 ^ f.w := Nat.two_pow_pos f.w
  rw [Dev.bump, rd_wr_same, Nat.mod_eq_of_lt]
  omega

/-- Settles O56: a counter stops at the largest value of its width, and counts from zero once it is cleared. -/
theorem countersSaturate : Obligations.CountersSaturate := by
  intro d f i n hle
  have hclear : (d.wr f i 0).rd f i = 0 := by rw [rd_wr_same, Nat.zero_mod]
  rw [rd_bump_same, rd_bump_same, hclear, Nat.zero_add]
  exact ⟨rfl, by omega, by omega, rfl, rfl⟩

/-! ## The state after reset (R17) -/

/-- At reset the register store lists nothing, so each field reads as its value of column Cold. -/
theorem rd_reset (f : Fld) (i : Nat) : State.reset.dev.rd f i = f.coldValue i := rfl

/-- Settles O54: the state after reset. -/
theorem resetState : Obligations.ResetState :=
  ⟨fun f _ i => rd_reset f i, rfl, rfl, legalTime_startOfSecond 0, reset_memory_wf⟩

/-! # Register accesses (R11, R12, R86, R402, R466, R502) -/

section HostWrites

variable {s : State} {fn : Fn} {bar : Bar} {off : Fin 268435456} {width : Width} {data : Word}

/-- A write that arrives damaged is logged and discarded (R405). -/
theorem registerWrite_poisoned : exec (.registerWrite fn bar off width data .poisoned) s = .next { s with dev := s.dev.aerLog fn .poisoned } := rfl

theorem registerWrite_ecrc : exec (.registerWrite fn bar off width data .ecrc) s = .next { s with dev := s.dev.aerLog fn .ecrc } := rfl

theorem registerWrite_malformed : exec (.registerWrite fn bar off width data .malformed) s =
    .next { s with dev := (s.dev.aerLog fn .malformed).raise s.time (ev 15 6) (linkOf fn) } := rfl

theorem registerWrite_unanswered (h : s.dev.answersAt fn bar off = false) :
    exec (.registerWrite fn bar off width data .good) s = .next { s with dev := s.dev.urAnswer s.time fn } := by
  simp [execRegisterWrite, onDev, h]

/-- A good write that a physical function answers is a write to its window of BAR0. -/
theorem registerWrite_pf (h : s.dev.answersAt fn .bar0 off = true) (hpf : fn.val % 4096 = 0) :
    exec (.registerWrite fn .bar0 off width data .good) s =
      .next { s with dev := s.dev.pfWrite s.time fn off (widthBytes width) (data.toNat % 2 ^ (8 * widthBytes width)) } := by
  simp [execRegisterWrite, onDev, h, hpf]

end HostWrites

section PfWindow

variable {d : Dev} {now : NetTime} {fn off : Nat}

/-- A naturally aligned write to a block that is ready reaches the register. -/
theorem pfWrite_ready (n data : Nat) (hd : isDoorbell off = false) (hb : (blockAt off).isSome = true) (hr : d.blockReady off = true) (ha : off % n = 0) :
    d.pfWrite now fn off n data = d.busWrite now (some fn) (off / 8 * 8) (off % 8 * 8) (8 * n) data := by
  simp [Dev.pfWrite, hd, ha, hr, Option.isSome_iff_ne_none.1 hb]

/-- A write to a block that is not ready is discarded and counted (R502). -/
theorem pfWrite_notReady (n data : Nat) (hd : isDoorbell off = false) (hb : (blockAt off).isSome = true) (hr : d.blockReady off = false) (ha : off % n = 0) :
    d.pfWrite now fn off n data = d.bump TOP.NOTREADY_COUNT := by
  simp [Dev.pfWrite, hd, ha, hr, Option.isSome_iff_ne_none.1 hb]

/-- A write outside every block is refused with UR (R402). -/
theorem pfWrite_noBlock (n data : Nat) (hd : isDoorbell off = false) (hb : blockAt off = none) : d.pfWrite now fn off n data = d.urAnswer now fn := by
  simp [Dev.pfWrite, hd, hb]

/-- A read of a block that is ready sends the bytes asked for. -/
theorem pfRead_ready (len : Nat) (hd : isDoorbell off = false) (hb : (blockAt off).isSome = true) (hr : d.blockReady off = true) :
    d.pfRead now fn off len = (d.busRead now (some fn) (off / 8 * 8) (off % 8 * 8) (8 * len)).1.reply_ fn off len
      (d.busRead now (some fn) (off / 8 * 8) (off % 8 * 8) (8 * len)).2 := by
  simp [Dev.pfRead, hd, hr, Option.isSome_iff_ne_none.1 hb]

end PfWindow

section HostReads

variable {s : State} {fn : Fn} {bar : Bar} {off : Fin 268435456} {len : Nat}

theorem readClear_unanswered (h : s.dev.answersAt fn bar off = false) :
    exec (.readClear fn bar off len) s = .next { s with dev := s.dev.urAnswer s.time fn } := by
  simp [execReadClear, onDev, h]

/-- A read within one aligned word that a physical function answers is a read of its window of BAR0. -/
theorem readClear_pf (h : s.dev.answersAt fn .bar0 off = true) (hpf : fn.val % 4096 = 0) (h1 : 1 ≤ len) (h8 : off.val % 8 + len ≤ 8) :
    exec (.readClear fn .bar0 off len) s = .next { s with dev := s.dev.pfRead s.time fn off len } := by
  simp [execReadClear, onDev, h, hpf, h1, h8]

/-- A read that crosses an aligned word is refused with UR (R402). -/
theorem readClear_crossing (h : s.dev.answersAt fn .bar0 off = true) (h8 : 8 < off.val % 8 + len) :
    exec (.readClear fn .bar0 off len) s = .next { s with dev := s.dev.urAnswer s.time fn } := by
  simp [execReadClear, onDev, h, Nat.not_le.2 h8]

end HostReads

section ControlCores

variable {s : State} {x : CtxId} {rd ra : Reg} {imm : BitVec 11} {o : Nat}
  (hi : s.dev.issues x { regs := [rd.val, ra.val] } = true) (hc : isCore x = true)

include hi hc

/-- An access outside the device registers is an address fault (R86). -/
theorem ior_fault (h : ioOffset (s.dev.ctx x) ra imm = none) : exec (.ior x rd ra imm) s = .next { s with dev := s.dev.fault x faultAddress } := by
  simp [execIor, onDev, issueCore_of_issues hi hc, h]

theorem iow_fault (h : ioOffset (s.dev.ctx x) ra imm = none) : exec (.iow x rd ra imm) s = .next { s with dev := s.dev.fault x faultAddress } := by
  simp [execIow, onDev, issueCore_of_issues hi hc, h]

theorem ior_read (h : ioOffset (s.dev.ctx x) ra imm = some o) :
    let r := s.dev.busRead s.time none o 0 64
    exec (.ior x rd ra imm) s = .next { s with dev := r.1.setCtx x ((s.dev.ctx x).wg rd (BitVec.ofNat 64 r.2)).next } := by
  simp [execIor, onDev, issueCore_of_issues hi hc, h]

theorem iow_write (h : ioOffset (s.dev.ctx x) ra imm = some o) :
    let y := s.dev.busWrite s.time none o 0 64 ((s.dev.ctx x).rg rd).toNat
    exec (.iow x rd ra imm) s = .next { s with dev := y.setCtx x (s.dev.ctx x).next } := by
  simp [execIow, onDev, issueCore_of_issues hi hc, h]

end ControlCores

/-- A request for tables whose answer has no room changes nothing (R470). -/
theorem tablesRequest_noRoom {s : State} {pf : Pf} {req : TableReq} {accepted : Bool} (h : s.dev.answerRoom (4096 * pf.val) = false) :
    exec (.tablesRequest pf req accepted) s = .next s := by
  simp [execTablesRequest, onDev, h]

/-- A request for tables with room for its answer: done where it is accepted, and answered with a free result byte (R466). -/
theorem tablesRequest_room {s : State} {pf : Pf} {req : TableReq} {accepted : Bool} (h : s.dev.answerRoom (4096 * pf.val) = true) :
    let y := if accepted then s.dev.serveTables s.time req else s.dev
    exec (.tablesRequest pf req accepted) s = .next { s with dev := y.drawn.answer (4096 * pf.val) 4 (leBytes 1 y.freeVal.toNat) } := by
  simp [execTablesRequest, onDev, h]

/-- Settles O48: register accesses of physical functions and control cores, and requests for tables. -/
theorem registerResults : Obligations.RegisterResults := by
  intro s fn bar off len data width x rd ra imm o pf req
  refine ⟨⟨registerWrite_poisoned, registerWrite_ecrc, registerWrite_malformed⟩,
    fun h => ⟨registerWrite_unanswered h, readClear_unanswered h⟩,
    fun h hpf hd => ⟨fun hb hr => ⟨fun h8 => ?write8, fun h4 => ?write4, fun h1 h8 => ?read, readClear_crossing h⟩,
      fun hb hr h8 => ?notReady, fun hb => ?noBlock⟩,
    fun hi hc => ⟨fun ho => ⟨ior_fault hi hc ho, iow_fault hi hc ho⟩, fun ho => ⟨ior_read hi hc ho, iow_write hi hc ho⟩⟩,
    tablesRequest_noRoom, fun h => ⟨tablesRequest_room h, tablesRequest_room h⟩⟩
  case write8 =>
    refine (registerWrite_pf h hpf).trans ?_
    rw [widthBytes, pfWrite_ready 8 _ hd hb hr h8, Nat.mod_eq_of_lt data.isLt]
  case write4 =>
    refine (registerWrite_pf h hpf).trans ?_
    rw [widthBytes, pfWrite_ready 4 _ hd hb hr h4]
  case read =>
    refine (readClear_pf h hpf h1 h8).trans ?_
    rw [pfRead_ready len hd hb hr, Dev.reply_]
  case notReady =>
    refine (registerWrite_pf h hpf).trans ?_
    rw [widthBytes, pfWrite_notReady 8 _ hd hb hr h8]
  case noBlock =>
    refine (registerWrite_pf h hpf).trans ?_
    rw [pfWrite_noBlock _ _ hd hb]

end Sys2Proof.Proofs
end

section
/-! Proofs of the statements of 02_engines: stores and their frame, tasks, the coherent window, and the life of an engine. -/

namespace Sys2Proof.Proofs

open Sys2Proof.Machine Sys2Proof.Laws

/-! # Stores (R37, R71) -/

/-! ## Scratch (R37) -/

/-- What scratch reads once a block's bytes are no longer listed. -/
theorem look_without_block (q p : Nat) : ∀ t : Tbl Byte,
    look 0 (t.filter (fun e => decide (e.1 / 64 ≠ q))) p = if p / 64 = q then 0 else look 0 t p
  | [] => by simp [look]
  | (k, v) :: t => by
    have ih := look_without_block q p t
    rcases eq_or_ne p k with rfl | hp
    · by_cases hq : p / 64 = q
      · simpa [hq] using ih
      · simp [look, hq]
    · by_cases hk : k / 64 = q <;> simpa [look, hk, hp] using ih

/-- A store to a block with its valid bit set. -/
theorem scrPut_valid {c : Ctx} {o : Nat} (b : Byte) (h : c.valid.getLsbD (o / 64) = true) :
    c.scrPut o b = { c with scratch := put 0 c.scratch o b } := if_pos h

/-- The first store to a block. -/
theorem scrPut_first {c : Ctx} {o : Nat} (b : Byte) (h : c.valid.getLsbD (o / 64) = false) :
    c.scrPut o b = { c with valid := c.valid ||| (1#128 <<< (o / 64)),
                            scratch := put 0 (c.scratch.filter (fun e => decide (e.1 / 64 ≠ o / 64))) o b } := if_neg (by simp [h])

/-- The valid bits after the first store to a block of scratch. -/
theorem valid_first (v : BitVec 128) {q : Nat} (hq : q < 128) (i : Nat) :
    (v ||| (1#128 <<< q)).getLsbD i = (v.getLsbD i || decide (i = q)) := by
  rcases eq_or_ne i q with rfl | hi
  · simp [hq]
  · rcases lt_or_gt_of_ne hi with hlt | hgt
    · simp [hlt, hi]
    · have : i - q ≠ 0 := by omega
      simp [hi, this]

/-- A store of one byte writes that byte and no other: the other bytes of a block that it opens read as zero before and after. -/
theorem scrByte_scrPut (c : Ctx) {o : Nat} (b : Byte) (ho : o < 0x2000) (p : Nat) :
    (c.scrPut o b).scrByte p = if p = o then b else c.scrByte p := by
  have hb : o / 64 < 128 := by omega
  cases hv : c.valid.getLsbD (o / 64)
  case true =>
    rw [scrPut_valid b hv]
    rcases eq_or_ne p o with rfl | hp
    · simp only [Ctx.scrByte, hv, look_put_same, if_true]
    · simp only [Ctx.scrByte, look_put_other _ _ hp, hp, if_false]
  case false =>
    rw [scrPut_first b hv]
    rcases eq_or_ne p o with rfl | hp
    · simp [Ctx.scrByte, valid_first _ hb, -BitVec.getLsbD_or]
    · simp only [Ctx.scrByte, valid_first _ hb, look_put_other _ _ hp, look_without_block, hp, if_false]
      rcases eq_or_ne (p / 64) (o / 64) with hq | hq
      · simp [hq, hv]
      · simp [hq]

theorem scrByte_scrPuts_other : ∀ (bs : List Byte) (c : Ctx) {o p : Nat}, o + bs.length ≤ 0x2000 → p < o ∨ o + bs.length ≤ p →
    (c.scrPuts o bs).scrByte p = c.scrByte p
  | [], _, _, _, _, _ => rfl
  | b :: bs, c, o, p, ho, hp => by
    simp only [List.length_cons] at ho hp
    rw [Ctx.scrPuts, scrByte_scrPuts_other bs _ (by omega) (by omega), scrByte_scrPut c b (by omega), if_neg (by omega)]

theorem scrByte_scrPuts_at {bs : List Byte} {c : Ctx} {o i : Nat} (ho : o + bs.length ≤ 0x2000) (h : i < bs.length) :
    (c.scrPuts o bs).scrByte (o + i) = bs[i] := by
  induction bs generalizing c o i with
  | nil => simp at h
  | cons b bs ih =>
    simp only [List.length_cons] at ho h
    cases i with
    | zero =>
      rw [Ctx.scrPuts, scrByte_scrPuts_other bs _ (by omega) (by omega), scrByte_scrPut c b (by omega)]
      simp
    | succ i =>
      rw [Ctx.scrPuts, show o + (i + 1) = o + 1 + i by omega, ih (by omega) (by omega), List.getElem_cons_succ]

/-- Scratch reads, where bytes were stored, those bytes. -/
theorem scrBytes_scrPuts (c : Ctx) {o : Nat} (bs : List Byte) (ho : o + bs.length ≤ 0x2000) :
    (c.scrPuts o bs).scrBytes o bs.length = bs := by
  refine List.ext_getElem (by simp [Ctx.scrBytes]) fun i _ hi => ?_
  simp [Ctx.scrBytes, scrByte_scrPuts_at ho hi]

@[simp] theorem scrPut_g (c : Ctx) (o : Nat) (b : Byte) : (c.scrPut o b).g = c.g := by
  unfold Ctx.scrPut
  split <;> rfl

@[simp] theorem scrPut_p (c : Ctx) (o : Nat) (b : Byte) : (c.scrPut o b).p = c.p := by
  unfold Ctx.scrPut
  split <;> rfl

@[simp] theorem scrPuts_g : ∀ (bs : List Byte) (c : Ctx) (o : Nat), (c.scrPuts o bs).g = c.g
  | [], _, _ => rfl
  | b :: bs, c, o => (scrPuts_g bs _ _).trans (scrPut_g c o b)

@[simp] theorem scrPuts_p : ∀ (bs : List Byte) (c : Ctx) (o : Nat), (c.scrPuts o bs).p = c.p
  | [], _, _ => rfl
  | b :: bs, c, o => (scrPuts_p bs _ _).trans (scrPut_p c o b)

@[simp] theorem next_g (c : Ctx) : c.next.g = c.g := rfl
@[simp] theorem next_p (c : Ctx) : c.next.p = c.p := rfl
@[simp] theorem next_scrByte (c : Ctx) (o : Nat) : c.next.scrByte o = c.scrByte o := rfl
@[simp] theorem next_scrBytes (c : Ctx) (o n : Nat) : c.next.scrBytes o n = c.scrBytes o n := rfl

/-- A store of an engine within scratch and aligned writes its bytes, little-endian. -/
theorem st_scratch {s : State} {x : CtxId} {rs ra : Reg} {sz : Fin 4} {imm : BitVec 11} :
    let c := s.dev.ctx x
    let n := szBytes sz
    let o := memOffset (c.rg ra) imm
    isCore x = false → s.dev.issues x { regs := [rs.val, ra.val], scratch := (o, n) } = true → o + n ≤ 0x2000 → o % n = 0 →
    exec (.st x rs ra 0 sz imm .good) s = .next { s with dev := s.dev.setCtx x (c.scrPuts o (leBytes n (c.rg rs).toNat)).next } := by
  intro c n o hc hi ho ha
  simp [execSt, onDev, Dev.store, issue_of_issues hi, hc, Nat.not_lt.2 ho, ha, Dev.scratchEcc, c, n, o]

/-! ## What leaves the bytes of the coherent window (R36) -/

@[simp] theorem detach_coh_mem (d : Dev) (x : Nat) : (d.detach x).eng.coh.mem = d.eng.coh.mem := rfl

theorem hold_coh (d : Dev) (x : Nat) (c : Ctx) (r : Retire) :
    (d.hold x c r).eng.coh = if c.ticketsFree then d.eng.coh else (d.detach x).eng.coh := by
  unfold Dev.hold
  split <;> rfl

/-- A fault of a context leaves the window as it is, or detaches what the context issued. -/
theorem fault_coh (d : Dev) (x code : Nat) : (d.fault x code).eng.coh = d.eng.coh ∨ (d.fault x code).eng.coh = (d.detach x).eng.coh := by
  unfold Dev.fault
  split
  · exact .inl rfl
  · rw [hold_coh]
    split
    · exact .inl rfl
    · exact .inr rfl

/-- A fault of a context writes no byte of the window. -/
theorem fault_coh_mem (d : Dev) (x code : Nat) : (d.fault x code).eng.coh.mem = d.eng.coh.mem := by
  rcases fault_coh d x code with h | h <;> simp [h]

/-- Issuing an instruction writes no byte of the window where the instruction itself writes none. -/
theorem issue_coh_mem {d : Dev} {x : Nat} {u : Touch} {body : Ctx → Dev} (h : (body (d.ctx x)).eng.coh.mem = d.eng.coh.mem) :
    (d.issue x u body).eng.coh.mem = d.eng.coh.mem := by
  unfold Dev.issue
  extract_lets c
  split
  · split
    · exact fault_coh_mem ..
    · split
      · rfl
      · exact h
  · rfl

/-- A store to the atomic region sends a request to the home slice, or the context does not issue; no byte is written. -/
theorem store_atom_coh_mem {d : Dev} {now : NetTime} {x rs ra sz a : Nat} {imm : BitVec 11}
    (ha : d.atomAddr (memOffset ((d.ctx x).rg ra) imm) (szBytes sz) = some a) :
    (d.store now x rs ra 2 sz imm .good).eng.coh.mem = d.eng.coh.mem := by
  refine issue_coh_mem ?_
  dsimp only
  rw [ha]
  rfl

/-- Settles O58: a scratch store writes its bytes alone, a store to the atomic region leaves the window's bytes to the home slice, and a
write to memory changes its own bytes alone. -/
theorem storeFrame : Obligations.StoreFrame := by
  refine ⟨?scratch, ?atomic, fun m a b bs => ⟨byte_write_other m a bs, fun i => byte_write_at m a bs, fun h => write_wf h a bs⟩⟩
  case scratch =>
    intro s x rs ra sz imm c n o hc hi ho ha
    have hl : (leBytes n (c.rg rs).toNat).length = n := leBytes_length ..
    refine ⟨_, st_scratch hc hi ho ha, ?own, fun p _ hp => ?other, fun y hy => ctx_setCtx_other _ _ _ hy, rfl, rfl, ?g, ?p⟩
    case own =>
      have := scrBytes_scrPuts c (leBytes n (c.rg rs).toNat) (o := o) (by omega)
      rw [hl] at this
      simpa using this
    case other =>
      simpa using scrByte_scrPuts_other (leBytes n (c.rg rs).toNat) c (o := o) (by omega) (by omega)
    case g => simp [c]
    case p => simp [c]
  case atomic =>
    intro s t x rs ra sz imm a ha hx b
    have hmem := store_atom_coh_mem (now := s.time) (rs := rs) ha
    obtain rfl := Host.Outcome.next.inj hx
    exact congrArg (fun m => look 0 m b) hmem

/-! # Deferred tasks (R49, R81) -/

section Tasks

variable {s : State} {x : CtxId} {rd ra : Reg}

/-- TARM within the quota and with a free entry arms it. -/
theorem tarm_arms {rb : Reg} {idx : Byte} {pc i : Nat} :
    let d := s.dev
    let c := d.ctx x
    let a := (c.rg ra).toNat
    let pol := d.progPolder c
    let mine := 4096 * (x.val / 128) + i
    let armed : Task := { st := .armed, gen := (d.taskAt mine).gen, pipe := c.pipe, slot := c.slot, entry := pc, image := c.image,
                          epoch := c.epoch, arg := c.scrBytes a 64,
                          due := if (c.rg rb).toNat = 0 then none else some (s.time.toNs + (c.rg rb).toNat),
                          target := if d.rd VIR.PTCQ_EN pol = 1 then some (d.rd VIR.PTCQ_RING pol) else none,
                          owner := pol, bind := c.bind }
    isCore x = false → d.issues x { regs := [rd.val, ra.val, rb.val], scratch := (a, 64) } = true → a + 64 ≤ 0x2000 →
    (d.imageOf x).ttab[idx.toNat]? = some pc → d.rd VIR.PUSE_TASKS pol < d.rd VIR.PID_TASKQ pol → d.freeEntryOf (x.val / 128) = some i →
    exec (.tarm x rd ra rb idx) s = .next { s with
      dev := ((d.setTask mine armed).wr VIR.PUSE_TASKS pol (d.rd VIR.PUSE_TASKS pol + 1)).setCtx x
        (c.wg rd (BitVec.ofNat 64 (taskHandle mine armed.gen))).next } := by
  intro d c a pol mine armed hc hi ha ht hq hf
  simp [execTarm, onDev, issuePacket_of_issues hi hc, Nat.not_lt.2 ha, ht, Nat.not_le.2 hq, hf, d, c, a, pol, mine, armed]

/-- TRDY on a handle of the own bay makes its task ready. -/
theorem trdy_ownBay :
    let c := s.dev.ctx x
    let h := (c.rg ra).toNat % 2 ^ 32
    let r := s.dev.makeReady h
    isCore x = false → s.dev.issues x { regs := [rd.val, ra.val] } = true → foreignBay x h = false →
    exec (.trdy x rd ra) s = .next { s with dev := r.1.setCtx x (c.wg rd (BitVec.ofNat 64 r.2)).next } := by
  intro c h r hc hi hb
  simp only [exec_trdy, execTrdy, onDev, issuePacket_of_issues hi hc]
  rw [if_neg (ne_true_of_eq_false hb)]

/-- TCAN on a handle of the own bay cancels its task. -/
theorem tcan_ownBay {race : CancelRace} :
    let c := s.dev.ctx x
    let h := (c.rg ra).toNat % 2 ^ 32
    let r := s.dev.cancelTask s.time x c.age h race
    isCore x = false → s.dev.issues x { regs := [rd.val, ra.val] } = true → foreignBay x h = false →
    exec (.tcan x rd ra race) s = .next { s with dev := r.1.setCtx x (c.wg rd (BitVec.ofNat 64 r.2)).next } := by
  intro c h r hc hi hb
  simp only [exec_tcan, execTcan, onDev, issuePacket_of_issues hi hc]
  rw [if_neg (ne_true_of_eq_false hb)]

/-- An armed task whose due time has come becomes ready. -/
theorem taskDue_due {bay : Fin 12} {entry : Fin 4096} {due : Nat} (ht : (s.dev.taskAt (4096 * bay.val + entry.val)).st = .armed)
    (hd : (s.dev.taskAt (4096 * bay.val + entry.val)).due = some due) (hle : due ≤ s.time.toNs) :
    exec (.taskDue bay entry) s = .next { s with dev := s.dev.readyTask (4096 * bay.val + entry.val) } := by
  simp [execTaskDue, onDev, ht, hd, hle]

/-- The oldest ready task of a bay starts in the context that is free for it, where no packet takes that context (08 R213). -/
theorem taskStart_starts {bay : Fin 12} {key y : Nat} (hk : s.dev.eng.readyQ.find? (fun k => decide (k / 4096 = bay.val)) = some key)
    (hy : s.dev.taskPlace bay = some y) (hp : (s.dev.choices s.dev.pipeOrder []).any (fun e => decide (s.dev.idleCtx e.2 = some y)) = false) :
    let t := s.dev.taskAt key
    let run := s.dev.setTask key { t with st := .running }
    let left := { run with eng := { run.eng with readyQ := run.eng.readyQ.filter (fun k => decide (k ≠ key)) } }
    let started : Ctx := { task := some key, image := t.image, pipe := t.pipe, slot := t.slot, epoch := t.epoch, bind := t.bind, pc := t.entry }
    exec (.taskStart bay) s = .next { s with
      dev := left.runCtx y ((started.wg 1 (BitVec.ofNat 64 (taskHandle key t.gen))).scrPuts 0 t.arg) } := by
  simp only [exec_taskStart, execTaskStart, onDev, hk, hy, hp]
  rfl

end Tasks

/-- Settles O10: the task instructions on entries of the own bay, due tasks, and the start of the oldest ready one. -/
theorem taskResults : Obligations.TaskResults := by
  intro s x rd ra rb idx race bay entry pc i due key y
  exact ⟨tarm_arms, fun hc hi hb => ⟨trdy_ownBay hc hi hb, tcan_ownBay hc hi hb⟩, taskDue_due, taskStart_starts⟩

/-! # The coherent window (R38 to R46) -/

/-! ## LD and ST in the window -/

/-- An access that hits its engine's cache is performed (R40). -/
theorem coherentAccess_hit {d : Dev} {now : NetTime} {op : MemOp}
    (h : hits (d.eng.coh.cacheLine (requester op.ctx) (op.addr / 64)).st op.store = true) :
    d.coherentAccess now op .good = (d.setCtx op.ctx { d.ctx op.ctx with st := .wait, waitOn := .memory }).accessHit op := by
  simp [Dev.coherentAccess, h]

/-- An access that misses waits for a grant (R40). -/
theorem coherentAccess_miss {d : Dev} {now : NetTime} {op : MemOp}
    (h : hits (d.eng.coh.cacheLine (requester op.ctx) (op.addr / 64)).st op.store = false) :
    d.coherentAccess now op .good = (d.setCtx op.ctx { d.ctx op.ctx with st := .wait, waitOn := .memory }).setCoh (d.eng.coh.miss op) := by
  simp [Dev.coherentAccess, h]

section Accesses

variable {s : State} {x : CtxId} {rd ra : Reg} {sz : Fin 4} {sx : Bool} {imm : BitVec 11} {a : Nat}
  (hi : s.dev.issues x { regs := [rd.val, ra.val] } = true)

include hi

theorem ld_window (ha : s.dev.cacheAddr (memOffset ((s.dev.ctx x).rg ra) imm) (szBytes sz) = some a) :
    let op : MemOp := { ctx := x, store := false, addr := a, size := szBytes sz, sx := sx, rd := rd, value := 0 }
    exec (.ld x rd ra 1 sz sx imm .good) s = .next { s with dev := s.dev.coherentAccess s.time op .good } := by
  simp [execLd, onDev, Dev.load, issue_of_issues hi, ha]

theorem st_window (ha : s.dev.cacheAddr (memOffset ((s.dev.ctx x).rg ra) imm) (szBytes sz) = some a) :
    let op : MemOp := { ctx := x, store := true, addr := a, size := szBytes sz, sx := false, rd := 0, value := (s.dev.ctx x).rg rd }
    exec (.st x rd ra 1 sz imm .good) s = .next { s with dev := s.dev.coherentAccess s.time op .good } := by
  simp [execSt, onDev, Dev.store, issue_of_issues hi, ha]

/-- A load outside the cacheable part, or not aligned, is an address fault. -/
theorem ld_window_fault (ha : s.dev.cacheAddr (memOffset ((s.dev.ctx x).rg ra) imm) (szBytes sz) = none) :
    exec (.ld x rd ra 1 sz sx imm .good) s = .next { s with dev := s.dev.fault x faultAddress } := by
  simp [execLd, onDev, Dev.load, issue_of_issues hi, ha]

theorem st_window_fault (ha : s.dev.cacheAddr (memOffset ((s.dev.ctx x).rg ra) imm) (szBytes sz) = none) :
    exec (.st x rd ra 1 sz imm .good) s = .next { s with dev := s.dev.fault x faultAddress } := by
  simp [execSt, onDev, Dev.store, issue_of_issues hi, ha]

/-- A load from the atomic region goes to the home slice, and its context waits (R46). -/
theorem ld_atomic (ha : s.dev.atomAddr (memOffset ((s.dev.ctx x).rg ra) imm) (szBytes sz) = some a) :
    let m := s.dev.eng.coh
    let op : MemOp := { ctx := x, store := false, addr := a, size := szBytes sz, sx := sx, rd := rd, value := 0 }
    exec (.ld x rd ra 2 sz sx imm .good) s = .next { s with
      dev := (s.dev.setCtx x { s.dev.ctx x with st := .wait, waitOn := .memory }).setCoh
        { m with reqs := m.reqs ++ [{ who := requester x, line := a / 64, kind := .far op }] } } := by
  simp [execLd, onDev, Dev.load, issue_of_issues hi, ha]

theorem st_atomic (ha : s.dev.atomAddr (memOffset ((s.dev.ctx x).rg ra) imm) (szBytes sz) = some a) :
    let m := s.dev.eng.coh
    let op : MemOp := { ctx := x, store := true, addr := a, size := szBytes sz, sx := false, rd := 0, value := (s.dev.ctx x).rg rd }
    exec (.st x rd ra 2 sz imm .good) s = .next { s with
      dev := (s.dev.setCtx x { s.dev.ctx x with st := .wait, waitOn := .memory }).setCoh
        { m with reqs := m.reqs ++ [{ who := requester x, line := a / 64, kind := .far op }] } } := by
  simp [execSt, onDev, Dev.store, issue_of_issues hi, ha]

theorem ld_atomic_fault (ha : s.dev.atomAddr (memOffset ((s.dev.ctx x).rg ra) imm) (szBytes sz) = none) :
    exec (.ld x rd ra 2 sz sx imm .good) s = .next { s with dev := s.dev.fault x faultAddress } := by
  simp [execLd, onDev, Dev.load, issue_of_issues hi, ha]

theorem st_atomic_fault (ha : s.dev.atomAddr (memOffset ((s.dev.ctx x).rg ra) imm) (szBytes sz) = none) :
    exec (.st x rd ra 2 sz imm .good) s = .next { s with dev := s.dev.fault x faultAddress } := by
  simp [execSt, onDev, Dev.store, issue_of_issues hi, ha]

/-- The program store takes no stores (R36). -/
theorem st_programStore : exec (.st x rd ra 3 sz imm .good) s = .next { s with dev := s.dev.fault x faultAddress } := by
  simp [execSt, onDev, Dev.store, issue_of_issues hi]

end Accesses

/-! ## The home slices (R41, R42, R46) -/

/-- The device once a home slice has taken a request: rotation stands behind the requester, and L2 holds the line. -/
def sliceServed (d : Dev) (sl : Nat) (r : Req) : Dev :=
  let m := d.eng.coh
  (if m.l2.contains r.line then d else d.drawn).setCoh
    ({ m with reqs := m.reqs.erase r, rot := put 0 m.rot sl ((r.who + 1) % 204) }.allocate r.line d.freeVal.toNat)

section HomeSlice

variable {s : State} {slice : Fin 24} {r : Req}

/-- A writeback comes first. -/
theorem homeSliceTake_writeback {w : Writeback} (h : s.dev.eng.coh.wbs.find? (fun w => decide (homeSlice w.line = slice.val)) = some w) :
    let m := s.dev.eng.coh
    exec (.homeSliceTake slice .good) s =
      .next { s with dev := s.dev.setCoh ({ m with wbs := m.wbs.erase w }.takeWriteback w) } := by
  simp only [exec_homeSliceTake, execHomeSliceTake, onDev, Dev.homeSliceTake, h]

variable (hw : s.dev.eng.coh.wbs.find? (fun w => decide (homeSlice w.line = slice.val)) = none)
  (hr : s.dev.eng.coh.nextReq slice = some r)

include hw hr

theorem homeSliceTake_far {op : MemOp} (hk : r.kind = .far op) :
    exec (.homeSliceTake slice .good) s = .next { s with dev := (sliceServed s.dev slice r).farAccess r } := by
  simp only [exec_homeSliceTake, execHomeSliceTake, onDev, Dev.homeSliceTake, hw, hr, hk]
  rfl

theorem homeSliceTake_atomic {x k fn a : Nat} {v w : Word} (hk : r.kind = .atomic x k fn a v w) :
    exec (.homeSliceTake slice .good) s = .next { s with dev := (sliceServed s.dev slice r).farAccess r } := by
  simp only [exec_homeSliceTake, execHomeSliceTake, onDev, Dev.homeSliceTake, hw, hr, hk]
  rfl

/-- A request that is no far access is one for the line. -/
theorem homeSliceTake_cacheable (hf : ∀ o, r.kind ≠ .far o) (ha : ∀ x k f a u v, r.kind ≠ .atomic x k f a u v) :
    let served := sliceServed s.dev slice r
    exec (.homeSliceTake slice .good) s = .next { s with dev := served.setCoh (served.eng.coh.takeRequest r) } := by
  simp only [exec_homeSliceTake, execHomeSliceTake, onDev, Dev.homeSliceTake, hw, hr]
  cases hk : r.kind with
  | far o => exact absurd hk (hf o)
  | atomic x k f a u v => exact absurd hk (ha x k f a u v)
  | readShared | readOwn | upgrade => rfl

end HomeSlice

/-! ## Snoops and grants (R43) -/

/-- A snoop that its cache does not hold back is answered at once. -/
theorem snoop_answered {s : State} {who : Fin 204} {line : Nat} (hs : s.dev.eng.coh.snoops.contains (who.val, line, false) = true)
    (hh : s.dev.eng.coh.holdsSnoop who line = false) :
    let m := s.dev.eng.coh
    exec (.snoop who line .invalidate) s =
      .next { s with dev := s.dev.setCoh ({ m with snoops := m.snoops.erase (who.val, line, false) }.answerSnoop who line) } := by
  rw [exec_snoop, execSnoop, onDev]
  unfold Dev.snoop
  extract_lets m fwd known m1
  have hknown : known = true := hs
  rw [if_neg (by rw [hknown]; decide), if_neg (ne_true_of_eq_false hh)]
  rfl

theorem fault_coh_held (d : Dev) (x code : Nat) : (d.fault x code).eng.coh.held = d.eng.coh.held := by
  rcases fault_coh d x code with h | h <;> simp [h, Dev.detach]

theorem faultMemoryOp_coh_held (d : Dev) (x : Nat) : (d.faultMemoryOp x).eng.coh.held = d.eng.coh.held := by
  unfold Dev.faultMemoryOp
  extract_lets c
  split
  · exact fault_coh_held ..
  · rfl

theorem finishLoad_coh (d : Dev) (op : MemOp) (bs : List Byte) : (d.finishLoad op bs).eng.coh = d.eng.coh := by
  unfold Dev.finishLoad
  extract_lets c c1
  split <;> rfl

/-- Performing an access leaves the snoops that caches hold. -/
theorem accessHit_coh_held (d : Dev) (op : MemOp) : (d.accessHit op).eng.coh.held = d.eng.coh.held := by
  unfold Dev.accessHit
  extract_lets m who line l
  split
  · exact faultMemoryOp_coh_held ..
  · split
    · rw [finishLoad_coh]
      rfl
    · rw [finishLoad_coh]

/-- A grant puts its line into a cache with room in the line's set, and performs the one access that missed on it, where no cache holds
a snoop. -/
theorem dataGrant_performs {d : Dev} {now : NetTime} {who line : Nat} {g : Grant} {op : MemOp} :
    let m := d.eng.coh
    let mine := fun (o : MemOp) => decide (requester o.ctx = who ∧ o.addr / 64 = line)
    let held : Coh := { m with grants := m.grants.erase g, misses := m.misses.filter (fun o => !mine o) }
    let filled := d.setCoh (held.setCacheLine who line { st := g.st, poison := false, bytes := putBytes [] 0 (m.bytesAt (64 * line) 64) })
    m.grants.find? (fun g => decide (g.who = who ∧ g.line = line)) = some g → m.held = [] → (m.dirLine line).poison = false →
    (m.caches.filter (fun e => decide (e.1 % 204 = who ∧ e.1 / 204 % 64 = line % 64 ∧ e.1 / 204 ≠ line))).length < 4 →
    m.misses.filter mine = [op] → d.dataGrant now who line .good = filled.accessHit op := by
  intro m mine rest filled hg hh hp hroom hm
  unfold Dev.dataGrant
  extract_lets ops
  rw [hg]
  dsimp -zeta only
  extract_lets m1 inSet m2 d0 m3 d1 d3 held m' m4 d4
  have hfull : ¬ 4 ≤ inSet.length := Nat.not_le.2 hroom
  have hm2 : m2 = m1 := if_neg hfull
  have hd0 : d0 = d := if_neg hfull
  have hd1 : d1 = filled := by
    have hp1 : (m1.dirLine line).poison = false := hp
    simp only [d1, m3, hm2, hd0, hp1]
    rfl
  have hops : ops = [op] := hm
  have hd3 : d3 = filled.accessHit op := by
    simp only [d3, hops, hd1]
    rfl
  have hheld : d3.eng.coh.held = [] := by
    rw [hd3, accessHit_coh_held]
    exact hh
  have hm4 : m4 = d3.eng.coh := by
    simp only [m4, hheld, List.filter_nil]
    rw [← hheld]
  have hd4 : d4 = d3 := by
    simp only [d4, held, hheld, hm4, List.filter_nil, List.isEmpty_nil, if_true]
    rfl
  rw [hops, hd4, hd3]
  rfl

/-- DATA_GRANT is the grant's effect on the device. -/
theorem dataGrant_next {s : State} {who : Fin 204} {line : Nat} {ecc : Ecc} {y : Dev} (h : s.dev.dataGrant s.time who line ecc = y) :
    exec (.dataGrant who line ecc) s = .next { s with dev := y } := by
  subst h
  rfl

/-- Settles O13: accesses in the window, the home slices, snoops and grants. -/
theorem coherentMemory : Obligations.CoherentMemory := by
  refine ⟨?accesses, ?slices⟩
  case accesses =>
    intro s x rd ra sz sx imm a hi d c m gives n o ld st waits line
    refine ⟨fun ha => ⟨fun h => ?_, fun h => ?_, fun h => ?_, fun h => ?_⟩, fun ha => ⟨ld_atomic hi ha, st_atomic hi ha⟩,
      fun ha => ⟨ld_window_fault hi ha, st_window_fault hi ha⟩, fun ha => ⟨ld_atomic_fault hi ha, st_atomic_fault hi ha⟩, st_programStore hi⟩
    · exact (ld_window hi ha).trans (by rw [coherentAccess_hit h])
    · exact (st_window hi ha).trans (by rw [coherentAccess_hit h])
    · exact (ld_window hi ha).trans (by rw [coherentAccess_miss h])
    · exact (st_window hi ha).trans (by rw [coherentAccess_miss h])
  case slices =>
    intro s slice who line r g op x k fn a v w wb0
    exact ⟨homeSliceTake_writeback, homeSliceTake_cacheable, fun hw hr hk => homeSliceTake_far hw hr hk,
      fun hw hr hk => homeSliceTake_atomic hw hr hk, snoop_answered,
      fun hg hh hp hroom hm => dataGrant_next (dataGrant_performs hg hh hp hroom hm)⟩

/-! # The life of an engine (R47, R51 to R56) -/

section EngineLife

variable {s : State} {n : Fin 192}

/-- ENG_COMMIT accepts a window within its limits. -/
theorem engCommit_accepts (h0 : s.dev.rd ENG.STATUS_COMMITTED = 0) (hb : s.dev.rd ENG.COH_BASE_BASE + s.dev.rd ENG.COH_SIZE_SIZE ≤ 32)
    (hs : s.dev.rd ENG.COH_SIZE_SIZE ≤ 8) (ha : s.dev.rd ENG.COH_SIZE_ATOM ≤ 256)
    (hsa : s.dev.rd ENG.COH_SIZE_ATOM ≤ s.dev.rd ENG.COH_SIZE_SIZE * 1024) :
    exec .engCommit s = .next { s with dev := (s.dev.wr ENG.STATUS_CERR 0 0).wr ENG.STATUS_COMMITTED 0 1 } := by
  simp [execEngCommit, onDev, Dev.engCommit, h0, Nat.not_lt.2 hb, Nat.not_lt.2 hs, Nat.not_lt.2 ha, Nat.not_lt.2 hsa]

/-- A running context at twice its bound fails its engine (R51). -/
theorem contextWatchdog_fails {x : Fin 1536} {bad : List Nat} (hs : s.dev.engineServes (x / 8) = true) (hr : (s.dev.ctx x).st = .run)
    (hb : 2 * s.dev.boundOf (s.dev.ctx x) ≤ (s.dev.ctx x).cycles) :
    exec (.contextWatchdog x bad) s = .next { s with dev := s.dev.failEngine s.time (x / 8) 0 (some (ev 3 0)) bad } := by
  simp only [exec_contextWatchdog, execContextWatchdog, onDev]
  rw [if_pos ⟨hs, .inl hr, hb⟩]

/-- A stall with a context in RUN fails the engine (R51). -/
theorem stallWatchdog_fails {bad : List Nat} {c : Nat} (hc : c < 8) (hs : s.dev.engineServes n = true) (hr : (s.dev.ctx (8 * n + c)).st = .run) :
    exec (.stallWatchdog n bad) s = .next { s with dev := s.dev.failEngine s.time n 2 (some (ev 3 1)) bad } := by
  have hany : (List.range 8).any (fun c => decide ((s.dev.ctx (8 * n + c)).st = .run)) = true :=
    List.any_eq_true.2 ⟨c, List.mem_range.2 hc, decide_eq_true hr⟩
  simp only [exec_stallWatchdog, execStallWatchdog, onDev]
  rw [if_pos ⟨hs, hany⟩]

theorem retest_starts (h : s.dev.rd ENG.ESTAT_STATE n = engOffline ∨ s.dev.rd ENG.ESTAT_STATE n = engFailed) :
    exec (.retest n) s = .next { s with dev := s.dev.setEngine n engRetest 0 } := by
  simp only [exec_retest, execRetest, onDev, h, if_true]

theorem retestDone_ends {pass : Bool} (h : s.dev.rd ENG.ESTAT_STATE n = engRetest) :
    exec (.retestDone n pass) s = .next { s with
      dev := (if pass then (s.dev.setEngine n engOnline 0).revalidate 1 else s.dev.setEngine n engFailed 4).raise s.time (ev 3 8) n } := by
  simp only [exec_retestDone, execRetestDone, onDev, h, if_true]

theorem engineWithdraw_stops (hs : s.dev.engineServes n = true) (hw : s.dev.eng.withdraw.contains n.val = false) :
    exec (.engineWithdraw n) s = .next { s with dev := { s.dev with eng := { s.dev.eng with withdraw := n.val :: s.dev.eng.withdraw } } } := by
  simp only [exec_engineWithdraw, execEngineWithdraw, onDev, hs, hw, Bool.not_false, Bool.and_self, if_true]

theorem withdrawDone_fails (hw : s.dev.eng.withdraw.contains n.val = true) (hi : ∀ c < 8, (s.dev.ctx (8 * n + c)).st = .idle) :
    exec (.withdrawDone n) s = .next { s with
      dev := (({ s.dev with eng := { s.dev.eng with withdraw := s.dev.eng.withdraw.filter (· ≠ n.val) } }).setEngine n engFailed 5).revalidate 1 } := by
  have hall : (List.range 8).all (fun c => decide ((s.dev.ctx (8 * n + c)).st = .idle)) = true :=
    List.all_eq_true.2 fun c hc => decide_eq_true (hi c (List.mem_range.1 hc))
  simp only [exec_withdrawDone, execWithdrawDone, onDev, hw, hall, Bool.and_self, if_true]

theorem engineOnline_returns (h : s.dev.rd ENG.ESTAT_STATE n = engFailed) (hc : s.dev.rd ENG.ESTAT_CAUSE n = 5) :
    exec (.engineOnline n) s = .next { s with dev := (s.dev.setEngine n engOnline 0).revalidate 1 } := by
  simp only [exec_engineOnline, execEngineOnline, onDev, h, hc, and_self, if_true]

/-- Putting an engine into a state changes registers and the faults that the Dikewarden holds. -/
theorem setEngine_frame (d : Dev) (n st cause : Nat) : EventFrame d (d.setEngine n st cause) := by
  unfold Dev.setEngine
  extract_lets d1 on d2
  have h1 : EventFrame d d1 := (wr_frame ..).trans (wr_frame ..)
  have h2 : EventFrame d1 d2 := by
    simp only [d2]
    split
    · exact repaired_frame ..
    · exact .refl _
  split
  · exact (h1.trans h2).trans (wrBit_frame ..)
  · split <;> exact (h1.trans h2).trans (wrBit_frame ..)

/-- The engine `i` of a bay after its program store is good again: one that the store's error had failed is ONLINE (R47). -/
def storeReturn (bay : Nat) (d : Dev) (i : Nat) : Dev :=
  if d.rd ENG.ESTAT_STATE (16 * bay + i) = engFailed ∧ d.rd ENG.ESTAT_CAUSE (16 * bay + i) = 3 then
    (d.setEngine (16 * bay + i) engOnline 0).revalidate 1 else d

theorem storeReturn_frame (bay : Nat) (d : Dev) (i : Nat) : EventFrame d (storeReturn bay d i) := by
  unfold storeReturn
  split
  · exact (setEngine_frame ..).trans (revalidate_frame ..)
  · exact .refl d

/-- A reload ends with the bay's store good and its engines returned; no LOAD waits for it. -/
theorem storeReloadDone_returns {bay : Fin 12} (hr : s.dev.rd ENG.BSTAT_RELOAD bay = 1) (hl : s.dev.prog.loading = none) :
    exec (.storeReloadDone bay) s = .next { s with
      dev := (List.range 16).foldl (storeReturn bay) ((s.dev.wr ENG.BSTAT_RELOAD bay 0).wr ENG.BSTAT_STORE_OK bay 1) } := by
  have hframe := foldl_frame (storeReturn bay) (storeReturn_frame bay) (List.range 16)
    ((s.dev.wr ENG.BSTAT_RELOAD bay 0).wr ENG.BSTAT_STORE_OK bay 1)
  have hnone : ((List.range 16).foldl (storeReturn bay) ((s.dev.wr ENG.BSTAT_RELOAD bay 0).wr ENG.BSTAT_STORE_OK bay 1)).prog.loading = none := by
    rw [hframe.prog]
    exact hl
  unfold storeReturn at hnone
  simp only [exec_storeReloadDone, execStoreReloadDone, onDev, hr, if_true, hnone]
  rfl

end EngineLife

/-- Settles O14: commit of the window, the watchdogs, retest, withdrawal and return of an engine, and the end of a store's reload. -/
theorem engineLife : Obligations.EngineLife := by
  intro s x n pass bay bad
  exact ⟨engCommit_accepts, contextWatchdog_fails, fun c hc => stallWatchdog_fails hc, retest_starts, retestDone_ends, engineWithdraw_stops,
    withdrawDone_fails, engineOnline_returns, storeReloadDone_returns⟩

end Sys2Proof.Proofs
end

section
/-! Proofs of the statements of 03_pueri_isa: computing in registers and its frame, the header window, metadata and scratch, control flow and
the control profile, asynchronous and posted instructions, lookups, and the ends of a program. -/

namespace Sys2Proof.Proofs

open Sys2Proof.Machine Sys2Proof.Laws

/-! # Instructions that compute in registers (R57, R67, R68) -/

section Computing

variable {s : State} {x : CtxId} {rd : Reg} {args : List Nat}

/-- A context that issues an instruction that computes a register writes the result and goes on; nothing else changes. -/
theorem compute_gives {i : Instr} {reads : List Nat} {f : Ctx → Word} {v : Word} (hi : s.dev.issues x { regs := rd.val :: args } = true)
    (hx : exec i s = .next { s with dev := s.dev.compute x rd reads f }) (hr : ∀ r ∈ reads, r ∈ args := by simp)
    (hv : f (s.dev.ctx x) = v := by rfl) : exec i s = .next { s with dev := s.dev.setCtx x ((s.dev.ctx x).wg rd v).next } := by
  rw [hx, compute_of_issues (issues_mono hi fun r h => ?_), hv]
  exact List.mem_cons.2 ((List.mem_cons.1 h).imp_right (hr r))

/-- A context that issues an instruction that writes a predicate writes it and goes on. -/
theorem predicate_gives {i : Instr} {reads : List Nat} {pd : Pred} {f : Ctx → Bool} {v : Bool} (hi : s.dev.issues x { regs := args } = true)
    (hx : exec i s = .next { s with dev := s.dev.issue x { regs := reads } (fun c => s.dev.setCtx x (c.wp pd (f c)).next) })
    (hr : ∀ r ∈ reads, r ∈ args := by simp) (hv : f (s.dev.ctx x) = v := by rfl) :
    exec i s = .next { s with dev := s.dev.setCtx x ((s.dev.ctx x).wp pd v).next } := by
  rw [hx, issue_of_issues (issues_mono hi hr), hv]

/-- MINU and MAXU compare as unsigned numbers. -/
theorem ite_ult (a b u v : Word) : (if BitVec.ult a b then u else v) = if a.toNat < b.toNat then u else v := by
  simp [BitVec.ult]

theorem assert_goesOn {p : Pred} {n : Bool} {code : BitVec 22} (hi : s.dev.issues x {} = true) (h : (s.dev.ctx x).taken p n = true) :
    exec (.assertP x p n code) s = .next { s with dev := s.dev.setCtx x (s.dev.ctx x).next } := by
  simp [execAssert, onDev, issue_of_issues hi, h]

theorem assert_faults {p : Pred} {n : Bool} {code : BitVec 22} (hi : s.dev.issues x {} = true) (h : (s.dev.ctx x).taken p n = false) :
    exec (.assertP x p n code) s = .next { s with dev := s.dev.fault x (faultAssert + 256 * (code.toNat % 256)) } := by
  simp [execAssert, onDev, issue_of_issues hi, h]

end Computing

/-- Settles O1: each is a computation of rd from ra and rb, CRC also from rd. -/
theorem integerRegisterResults : Obligations.IntegerRegisterResults := by
  intro s x rd ra rb hi
  exact ⟨compute_gives hi rfl, compute_gives hi rfl, compute_gives hi rfl, compute_gives hi rfl, compute_gives hi rfl, compute_gives hi rfl,
    compute_gives hi rfl, compute_gives hi rfl, compute_gives hi rfl, compute_gives hi rfl, compute_gives hi rfl (hv := ite_ult ..),
    compute_gives hi rfl (hv := ite_ult ..), compute_gives hi rfl, compute_gives hi rfl, compute_gives hi rfl⟩

/-- Settles O2: each is a computation of rd from at most ra, rb, rd itself, and its immediate. -/
theorem integerImmediateResults : Obligations.IntegerImmediateResults := by
  intro s x rd ra rb imm sh pos len1 h p hi
  exact ⟨compute_gives hi rfl, compute_gives hi rfl, compute_gives hi rfl, compute_gives hi rfl, compute_gives hi rfl, compute_gives hi rfl,
    compute_gives hi rfl, compute_gives hi rfl, compute_gives hi rfl, compute_gives hi rfl, compute_gives hi rfl, compute_gives hi rfl,
    compute_gives hi rfl, compute_gives hi rfl, compute_gives hi rfl⟩

/-- Settles O3: CMP, CMPI and PLOG write a predicate; ASSERT goes on or faults by its condition. -/
theorem predicateResults : Obligations.PredicateResults := by
  intro s x pd pa pb cond ra rb imm tt n code hi
  have hnone : s.dev.issues x {} = true := issues_mono hi (by simp)
  exact ⟨predicate_gives hi rfl, predicate_gives hi rfl, predicate_gives hi rfl, assert_goesOn hnone, assert_faults hnone⟩

/-! ## What they leave (R57) -/

/-- What an instruction of context `x` that computes into register `rd` or into a predicate leaves as it was. -/
structure RegisterFrame (d d' : Dev) (x rd : Nat) : Prop where
  contexts : ∀ y, y ≠ x → d'.ctx y = d.ctx y
  coh      : d'.eng.coh = d.eng.coh
  regs     : d'.regs = d.regs
  out      : d'.out = d.out
  general  : ∀ r, r ≠ rd → (d'.ctx x).rg r = (d.ctx x).rg r
  scratch  : (d'.ctx x).scratch = (d.ctx x).scratch
  calls    : (d'.ctx x).calls = (d.ctx x).calls
  hdr      : (d'.ctx x).hdr = (d.ctx x).hdr

section Frame

variable {d : Dev} {x rd : Nat}

theorem RegisterFrame.refl (d : Dev) (x rd : Nat) : RegisterFrame d d x rd := by constructor <;> intros <;> rfl

/-- Replacing the context `x` by one that keeps all but `rd`, predicates and control state. -/
theorem setCtx_registerFrame {c : Ctx} (hg : ∀ r, r ≠ rd → c.rg r = (d.ctx x).rg r) (hs : c.scratch = (d.ctx x).scratch)
    (hc : c.calls = (d.ctx x).calls) (hh : c.hdr = (d.ctx x).hdr) : RegisterFrame d (d.setCtx x c) x rd where
  contexts _ hy := ctx_setCtx_other d x c hy
  coh := rfl
  regs := rfl
  out := rfl
  general r hr := by rw [ctx_setCtx_same, hg r hr]
  scratch := by rw [ctx_setCtx_same, hs]
  calls := by rw [ctx_setCtx_same, hc]
  hdr := by rw [ctx_setCtx_same, hh]

/-- A context that does not issue changes nothing, and one that meets a lock only waits. -/
theorem issue_registerFrame {u : Touch} {body : Ctx → Dev} (hw : d.unassigned x = false) (hb : RegisterFrame d (body (d.ctx x)) x rd) :
    RegisterFrame d (d.issue x u body) x rd := by
  unfold Dev.issue
  simp only [hw, Bool.false_eq_true, if_false]
  split
  · split
    · exact setCtx_registerFrame (fun _ _ => rfl) rfl rfl rfl
    · exact hb
  · exact .refl d x rd

theorem rg_wg_other (c : Ctx) (v : Word) {r : Nat} (h : r ≠ rd) : (c.wg rd v).rg r = c.rg r := by
  unfold Ctx.wg
  split
  · rfl
  · simp only [Ctx.rg, look_put_other _ _ h]

@[simp] theorem wg_scratch (c : Ctx) (r : Nat) (v : Word) : (c.wg r v).scratch = c.scratch := by
  unfold Ctx.wg
  split <;> rfl

@[simp] theorem wg_calls (c : Ctx) (r : Nat) (v : Word) : (c.wg r v).calls = c.calls := by
  unfold Ctx.wg
  split <;> rfl

@[simp] theorem wg_hdr (c : Ctx) (r : Nat) (v : Word) : (c.wg r v).hdr = c.hdr := by
  unfold Ctx.wg
  split <;> rfl

/-- Writing a predicate changes the predicates alone. -/
theorem wp_eq (c : Ctx) (pd : Nat) (v : Bool) : ∃ p, c.wp pd v = { c with p := p } := by
  unfold Ctx.wp
  split
  · exact ⟨c.p, rfl⟩
  · exact ⟨_, rfl⟩

theorem compute_registerFrame (hw : d.unassigned x = false) (reads : List Nat) (f : Ctx → Word) :
    RegisterFrame d (d.compute x rd reads f) x rd :=
  issue_registerFrame hw (setCtx_registerFrame (fun _ hr => rg_wg_other _ _ hr) (wg_scratch ..) (wg_calls ..) (wg_hdr ..))

theorem predicate_registerFrame (hw : d.unassigned x = false) (u : Touch) (pd : Nat) (f : Ctx → Bool) :
    RegisterFrame d (d.issue x u (fun c => d.setCtx x (c.wp pd (f c)).next)) x rd := by
  obtain ⟨p, hp⟩ := wp_eq (d.ctx x) pd (f (d.ctx x))
  refine issue_registerFrame hw ?_
  simp only [hp]
  exact setCtx_registerFrame (fun _ _ => rfl) rfl rfl rfl

end Frame

/-- Settles O60: each of the instructions is a computation of rd or of a predicate. -/
theorem engineFrame : Obligations.EngineFrame := by
  intro s t x rd ra rb imm sh pos len1 h pd pa pb tt cond imm15 c hc hw hx
  have computes {i : Instr} {reads : List Nat} {f : Ctx → Word} (hi : exec i s = .next { s with dev := s.dev.compute x rd reads f }) :
      ∃ d, exec i s = .next { s with dev := d } ∧ RegisterFrame s.dev d x rd := ⟨_, hi, compute_registerFrame hw reads f⟩
  have decides {i : Instr} {u : Touch} {f : Ctx → Bool}
      (hi : exec i s = .next { s with dev := s.dev.issue x u (fun c => s.dev.setCtx x (c.wp pd (f c)).next) }) :
      ∃ d, exec i s = .next { s with dev := d } ∧ RegisterFrame s.dev d x rd := ⟨_, hi, predicate_registerFrame hw u pd f⟩
  have hframe : ∃ d, exec c s = .next { s with dev := d } ∧ RegisterFrame s.dev d x rd := by
    clear hx
    revert c
    iterate 30 refine List.forall_mem_cons.2 ⟨computes rfl, ?_⟩
    iterate 3 refine List.forall_mem_cons.2 ⟨decides rfl, ?_⟩
    exact List.forall_mem_nil _
  obtain ⟨d, hd, hf⟩ := hframe
  obtain rfl := Host.Outcome.next.inj (hd.symm.trans hx)
  exact ⟨hf.contexts, hf.coh, hf.regs, hf.out, hf.general, rfl, hf.scratch, hf.calls, hf.hdr⟩

/-! # The header window (R59, R60, R69) -/

section Window

/-- A window load that issues takes its bytes in network order, or is a window fault where they reach 640. -/
theorem windowLoad_of_issues {d : Dev} {x rd : Nat} {args reads : List Nat} (hc : isCore x = false)
    (hi : d.issues x { regs := rd :: args, header := true } = true) (hr : ∀ r ∈ reads, r ∈ args) (n : Nat) (pos : Ctx → Nat) :
    let c := d.ctx x
    d.windowLoad x rd reads n pos = if 640 < pos c + n then d.fault x faultWindow
      else d.setCtx x (c.wg rd (BitVec.ofNat 64 (beNat (c.hdrBytes (pos c) n)))).next := by
  have hi' : d.issues x { regs := rd :: reads, header := true } = true :=
    issues_mono hi fun r h => List.mem_cons.2 ((List.mem_cons.1 h).imp_right (hr r))
  simp [Dev.windowLoad, issuePacket_of_issues hi' hc, readFaults]

/-- A window store that issues places the low bytes in network order, or is a window fault where they reach E. -/
theorem windowStore_of_issues {d : Dev} {x : Nat} {args reads : List Nat} (hc : isCore x = false)
    (hi : d.issues x { regs := args, header := true } = true) (hr : ∀ r ∈ reads, r ∈ args) (n : Nat) (pos : Ctx → Nat) (val : Ctx → Word) :
    let c := d.ctx x
    d.windowStore x reads n pos val = if c.e < pos c + n then d.fault x faultWindow
      else d.setCtx x { c with hdr := putBytes c.hdr (pos c) (beBytes n (val c).toNat) }.next := by
  have hi' : d.issues x { regs := reads, header := true } = true := issues_mono hi hr
  simp [Dev.windowStore, issuePacket_of_issues hi' hc, Ctx.writeFaults]

variable {s : State} {x : CtxId} {i : Instr} {args reads : List Nat} {pos : Ctx → Nat} {n p : Nat} (hc : isCore x = false)

include hc

theorem windowLoad_takes {rd : Reg} (hi : s.dev.issues x { regs := rd.val :: args, header := true } = true)
    (hx : exec i s = .next { s with dev := s.dev.windowLoad x rd reads n pos }) (hr : ∀ r ∈ reads, r ∈ args) (hp : pos (s.dev.ctx x) = p)
    (hn : p + n ≤ 640) :
    exec i s = .next { s with dev := s.dev.setCtx x ((s.dev.ctx x).wg rd (BitVec.ofNat 64 (beNat ((s.dev.ctx x).hdrBytes p n)))).next } := by
  rw [hx, windowLoad_of_issues hc hi hr, hp, if_neg (Nat.not_lt.2 hn)]

theorem windowLoad_faults {rd : Reg} (hi : s.dev.issues x { regs := rd.val :: args, header := true } = true)
    (hx : exec i s = .next { s with dev := s.dev.windowLoad x rd reads n pos }) (hr : ∀ r ∈ reads, r ∈ args) (hp : pos (s.dev.ctx x) = p)
    (hn : 640 < p + n) : exec i s = .next { s with dev := s.dev.fault x faultWindow } := by
  rw [hx, windowLoad_of_issues hc hi hr, hp, if_pos hn]

theorem windowStore_places {val : Ctx → Word} {v : Word} (hi : s.dev.issues x { regs := args, header := true } = true)
    (hx : exec i s = .next { s with dev := s.dev.windowStore x reads n pos val }) (hr : ∀ r ∈ reads, r ∈ args) (hp : pos (s.dev.ctx x) = p)
    (hv : val (s.dev.ctx x) = v) (hn : p + n ≤ (s.dev.ctx x).e) :
    exec i s = .next { s with
      dev := s.dev.setCtx x { s.dev.ctx x with hdr := putBytes (s.dev.ctx x).hdr p (beBytes n v.toNat) }.next } := by
  rw [hx, windowStore_of_issues hc hi hr, hp, hv, if_neg (Nat.not_lt.2 hn)]

theorem windowStore_faults {val : Ctx → Word} (hi : s.dev.issues x { regs := args, header := true } = true)
    (hx : exec i s = .next { s with dev := s.dev.windowStore x reads n pos val }) (hr : ∀ r ∈ reads, r ∈ args) (hp : pos (s.dev.ctx x) = p)
    (hn : (s.dev.ctx x).e < p + n) : exec i s = .next { s with dev := s.dev.fault x faultWindow } := by
  rw [hx, windowStore_of_issues hc hi hr, hp, if_pos hn]

variable {ra : Reg}

theorem wbase_sets (hi : s.dev.issues x { regs := [ra.val], header := true } = true) (h : ((s.dev.ctx x).rg ra).toNat % 512 ≤ 504) :
    exec (.wbase x ra) s = .next { s with dev := s.dev.setCtx x { s.dev.ctx x with b := ((s.dev.ctx x).rg ra).toNat % 512 }.next } := by
  simp [execWbase, onDev, issuePacket_of_issues hi hc, h]

theorem wbase_faults (hi : s.dev.issues x { regs := [ra.val], header := true } = true)
    (h : 504 < ((s.dev.ctx x).rg ra).toNat % 512) : exec (.wbase x ra) s = .next { s with dev := s.dev.fault x faultWindow } := by
  simp [execWbase, onDev, issuePacket_of_issues hi hc, Nat.not_le.2 h]

/-- HADJ within 0 to E moves S, and LEN against it. -/
theorem hadj_moves (hi : s.dev.issues x { regs := [ra.val], header := true } = true) :
    let c := s.dev.ctx x
    let n := signedOf (c.rg ra).toNat 10
    0 ≤ c.s + n → c.s + n ≤ c.e → exec (.hadj x ra) s = .next { s with dev := s.dev.setCtx x (Ctx.next { c with
      s := (c.s + n).toNat, pkt := c.pkt.map (fun p => { p with len := ((p.len - n) % 2 ^ 19).toNat }) }) } := by
  intro c n h0 he
  simp only [exec_hadj, execHadj, onDev, issuePacket_of_issues hi hc]
  rw [if_pos ⟨h0, he⟩]

/-- CSUM over bytes before 640, from S + ra. -/
theorem csum_sums {rd : Reg} {off : Fin 128} {sz : Fin 4} (hi : s.dev.issues x { regs := [rd.val, ra.val], header := true } = true) :
    let c := s.dev.ctx x
    let n := off.val + 1 + 128 * sz.val
    c.s + (c.rg ra).toNat + n ≤ 640 → exec (.csum x rd ra off sz) s = .next { s with
      dev := s.dev.setCtx x (c.wg rd (BitVec.ofNat 64 (onesSum 0 (c.hdrBytes (c.s + (c.rg ra).toNat) n)))).next } := by
  intro c n hn
  simp only [exec_csum, execCsum, onDev, issuePacket_of_issues hi hc]
  rw [if_neg (by simpa [readFaults] using hn)]

end Window

/-- Settles O4: the loads, the stores, and the three instructions that move the window or sum it. -/
theorem windowResults : Obligations.WindowResults := by
  intro s x rd ra off sz i hc hi
  have hone : s.dev.issues x { regs := [ra.val], header := true } = true := issues_mono hi (by simp)
  refine ⟨windowLoad_takes hc hi rfl (by simp) rfl, windowStore_places hc hi rfl (by simp) rfl rfl, fun h => ?ldx, fun h => ?stx,
    windowLoad_takes hc hi rfl (by simp) rfl, windowStore_places hc hi rfl (by simp) rfl rfl, wbase_sets hc hone, hadj_moves hc hone,
    csum_sums hc hi⟩
  case ldx => exact windowLoad_takes hc hi rfl (by simp) rfl (by omega)
  case stx => exact windowStore_places hc hi rfl (by simp) rfl rfl (by omega)

/-! # Metadata and scratch (R70, R71) -/

section Metadata

variable {s : State} {x : CtxId} {rd ra : Reg}

theorem mdr_reads {field : Fin 32} {w : Nat} (hc : isCore x = false) (hi : s.dev.issues x { regs := [rd.val], header := true } = true)
    (hm : (s.dev.ctx x).meta field = some w) :
    exec (.mdr x rd field) s = .next { s with dev := s.dev.setCtx x ((s.dev.ctx x).wg rd (BitVec.ofNat 64 w)).next } := by
  have hi' : s.dev.issues x { regs := [rd.val], header := decide (field.val = 1 ∨ field.val = 15) } = true := issues_mono hi (by simp)
  simp only [exec_mdr, execMdr, onDev, issuePacket_of_issues hi' hc, hm]

/-- MDW of a field that can be written changes the packet as `setMeta` says. -/
theorem mdw_writes {field : Fin 32} {p q : Packet} (hc : isCore x = false) (hi : s.dev.issues x { regs := [ra.val] } = true)
    (hp : (s.dev.ctx x).pkt = some p) (hq : p.setMeta field ((s.dev.ctx x).rg ra).toNat = some q) :
    exec (.mdw x ra field) s = .next { s with dev := s.dev.setCtx x { s.dev.ctx x with pkt := some q }.next } := by
  simp [execMdw, onDev, issuePacket_of_issues hi hc, hp, hq]

end Metadata

section Scratch

variable {s : State} {x : CtxId} {rd ra : Reg} {sz : Fin 4} {sx : Bool} {imm : BitVec 11}
  (hi : s.dev.issues x { regs := [rd.val, ra.val], scratch := (memOffset ((s.dev.ctx x).rg ra) imm, szBytes sz) } = true)

include hi

/-- A load of an engine within scratch and aligned reads its bytes, little-endian. -/
theorem ld_scratch (hc : isCore x = false) (ho : memOffset ((s.dev.ctx x).rg ra) imm + szBytes sz ≤ 0x2000)
    (ha : memOffset ((s.dev.ctx x).rg ra) imm % szBytes sz = 0) :
    let c := s.dev.ctx x
    exec (.ld x rd ra 0 sz sx imm .good) s = .next { s with
      dev := s.dev.setCtx x (c.wg rd (loadValue (c.scrBytes (memOffset (c.rg ra) imm) (szBytes sz)) sx)).next } := by
  simp [execLd, onDev, Dev.load, issue_of_issues hi, hc, Nat.not_lt.2 ho, ha, Dev.scratchEcc]

/-- A load of a control core, outside scratch, or not aligned, is an address fault. -/
theorem ld_scratch_fault (h : isCore x = true ∨ 0x2000 < memOffset ((s.dev.ctx x).rg ra) imm + szBytes sz ∨
    memOffset ((s.dev.ctx x).rg ra) imm % szBytes sz ≠ 0) :
    exec (.ld x rd ra 0 sz sx imm .good) s = .next { s with dev := s.dev.fault x faultAddress } := by
  simp [execLd, onDev, Dev.load, issue_of_issues hi, or_assoc, h]

theorem st_scratch_fault (h : isCore x = true ∨ 0x2000 < memOffset ((s.dev.ctx x).rg ra) imm + szBytes sz ∨
    memOffset ((s.dev.ctx x).rg ra) imm % szBytes sz ≠ 0) :
    exec (.st x rd ra 0 sz imm .good) s = .next { s with dev := s.dev.fault x faultAddress } := by
  simp [execSt, onDev, Dev.store, issue_of_issues hi, or_assoc, h]

end Scratch

/-- Settles O5: window faults of WLD, WST and WBASE, and address faults of LD and ST of scratch. -/
theorem accessFaults : Obligations.AccessFaults := by
  refine ⟨?window, ?scratch⟩
  case window =>
    intro s x rd ra off sz hc hi
    exact ⟨windowLoad_faults hc hi rfl (by simp) rfl, windowStore_faults hc hi rfl (by simp) rfl, wbase_faults hc (issues_mono hi (by simp))⟩
  case scratch =>
    intro s x rd ra sz sx imm c n o hi h
    exact ⟨ld_scratch_fault hi h, st_scratch_fault hi h⟩

/-- Settles O6: MDR, MDW of the three fields that can be written, LD and ST of scratch. -/
theorem metadataAndScratch : Obligations.MetadataAndScratch := by
  refine ⟨?metadata, ?scratch⟩
  case metadata =>
    intro s x rd ra field p hc hi c v hp
    have hw : s.dev.issues x { regs := [ra.val] } = true := issues_mono hi (by simp)
    exact ⟨fun w => mdr_reads hc (issues_mono hi (by simp)), mdw_writes hc hw hp rfl, mdw_writes hc hw hp rfl, mdw_writes hc hw hp rfl⟩
  case scratch =>
    intro s x rd ra sz sx imm c n o hc hi ho ha
    exact ⟨ld_scratch hi hc ho ha, st_scratch hc hi ho ha⟩

/-! # Control flow of an engine context (R73 to R76) -/

section Flow

variable {s : State} {x : CtxId} {c : Ctx}

/-- A jump of an engine context is a control fault where R73 says so. -/
theorem jump_engine {d : Dev} (hc : isCore x = false) (c : Ctx) (t : Nat) :
    d.jump x c t = if controlFaults c (d.imageOf x).code t then d.fault x faultControl else d.setCtx x { c with pc := t } := by
  simp [Dev.jump, hc]

/-- A body of no words is run through at once (log entry 12). -/
theorem pushLoop_empty {d : Dev} (h : c.loops.length < 2) (cnt : Nat) : d.pushLoop x c cnt 0 = d.setCtx x c.next := by
  simp [Dev.pushLoop, Nat.not_le.2 h]

/-- A loop of at most two is pushed (R74). -/
theorem pushLoop_pushes {d : Dev} {bodyEnd : BitVec 18} (h : c.loops.length < 2) (hb : bodyEnd ≠ 0) (cnt : Nat) :
    d.pushLoop x c cnt bodyEnd.toNat = d.setCtx x { c with
      pc := c.pc + 1, loops := { left := cnt - 1, index := 0, first := c.pc + 1, last := c.pc + bodyEnd.toNat } :: c.loops } := by
  have hb' : bodyEnd.toNat ≠ 0 := by simpa [BitVec.toNat_eq] using hb
  simp [Dev.pushLoop, Nat.not_le.2 h, hb']

section NoOperands

variable (hi : s.dev.issues x {} = true) (hc : s.dev.ctx x = c)

include hi hc

theorem br_notTaken {p : Pred} {n : Bool} {off : BitVec 22} (h : c.taken p n = false) :
    exec (.br x p n off) s = .next { s with dev := s.dev.setCtx x c.next } := by
  simp [execBr, onDev, issue_of_issues hi, hc, h]

theorem br_taken {p : Pred} {n : Bool} {off : BitVec 22} (h : c.taken p n = true) :
    exec (.br x p n off) s = .next { s with dev := s.dev.jump x c (unsignedOf (c.pc + off.toInt) 18) } := by
  simp [execBr, onDev, issue_of_issues hi, hc, h]

theorem loop_pushes {cnt : BitVec 8} {bodyEnd : BitVec 18} (h : cnt ≠ 0) :
    exec (.loop x cnt bodyEnd) s = .next { s with dev := s.dev.pushLoop x c cnt.toNat bodyEnd.toNat } := by
  simp only [exec_loop, execLoop, onDev, issue_of_issues hi, hc, h, if_false]

/-- BREAK taken leaves the innermost loop, as at its last word. -/
theorem brk_taken {p : Pred} {n : Bool} {l : LoopEntry} {ls : List LoopEntry} (h : c.taken p n = true) (hl : c.loops = l :: ls) :
    exec (.brk x p n) s = .next { s with dev := s.dev.setCtx x { c with pc := l.last, loops := ls }.next } := by
  simp [execBreak, onDev, issue_of_issues hi, hc, h, hl]

theorem call_pushes {fidx : BitVec 8} {f : Nat × Nat} (he : isCore x = false) (h : c.calls.length < 4)
    (hf : (s.dev.imageOf x).ftab[fidx.toNat]? = some f) :
    exec (.call x fidx) s = .next { s with dev := s.dev.setCtx x { c with pc := f.1, calls := (c.pc + 1) :: c.calls } } := by
  simp [execCall, onDev, issue_of_issues hi, hc, callDepth, he, Nat.not_le.2 h, hf]

theorem call_full {fidx : BitVec 8} (he : isCore x = false) (h : 4 ≤ c.calls.length) :
    exec (.call x fidx) s = .next { s with dev := s.dev.fault x faultStack } := by
  simp [execCall, onDev, issue_of_issues hi, hc, callDepth, he, h]

theorem ret_pops {r : Nat} {rs : List Nat} (h : c.calls = r :: rs) :
    exec (.ret x) s = .next { s with dev := s.dev.setCtx x { c with pc := r - 1, calls := rs }.next } := by
  simp [execRet, onDev, issue_of_issues hi, hc, h]

theorem ret_empty (h : c.calls = []) : exec (.ret x) s = .next { s with dev := s.dev.fault x faultStack } := by
  simp [execRet, onDev, issue_of_issues hi, hc, h]

end NoOperands

theorem lidx_reads {rd : Reg} {l : LoopEntry} {ls : List LoopEntry} (hi : s.dev.issues x { regs := [rd.val] } = true)
    (hl : (s.dev.ctx x).loops = l :: ls) :
    exec (.lidx x rd) s = .next { s with dev := s.dev.setCtx x ((s.dev.ctx x).wg rd (BitVec.ofNat 64 l.index)).next } := by
  simp [execLidx, onDev, issue_of_issues hi, hl]

theorem jt_jumps {ra : Reg} {table : Fin 32} {ts : List Nat} (hi : s.dev.issues x { regs := [ra.val] } = true)
    (ht : (s.dev.imageOf x).jtabs[table.val]? = some ts) :
    let a := ((s.dev.ctx x).rg ra).toNat
    exec (.jt x ra table) s = .next { s with dev := s.dev.jump x (s.dev.ctx x) (ts.getD (if a < ts.length then a else 0) 0) } := by
  simp [execJt, onDev, issue_of_issues hi, ht]

/-- Where no loop ends at the word, the context goes to the word after it and keeps its loops (R74). -/
theorem advance_within {pc : Nat} {loops : List LoopEntry} (h : ∀ l ls, loops = l :: ls → l.last ≠ pc) :
    advance pc loops = ((pc + 1) % 2 ^ 18, loops) := by
  cases loops with
  | nil => rfl
  | cons l ls => rw [advance, if_neg (h l ls rfl).symm]

end Flow

/-- Settles O7: each control-flow instruction, with the jumps and loops it makes. -/
theorem controlFlow : Obligations.ControlFlow := by
  intro s x rd ra p n off cnt fidx bodyEnd table hc hi
  have hnone : s.dev.issues x {} = true := issues_mono hi (by simp)
  refine ⟨br_notTaken hnone rfl, fun ht hf => ?branch, fun ht hf => ?fault, fun h0 hl hb => ?empty, fun h0 hl hb => ?loop,
    fun l ls hl => ⟨lidx_reads (issues_mono hi (by simp)) hl, fun ht => brk_taken hnone rfl ht hl⟩,
    fun f h hf => call_pushes hnone rfl hc h hf, fun r rs h => ret_pops hnone rfl h, fun ts ht hf => ?table⟩
  case branch =>
    dsimp only
    rw [br_taken hnone rfl ht, jump_engine hc, hf, if_neg Bool.false_ne_true]
  case fault =>
    rw [br_taken hnone rfl ht, jump_engine hc, hf, if_pos rfl]
  case empty =>
    dsimp only
    rw [loop_pushes hnone rfl h0, hb, show (0 : BitVec 18).toNat = 0 from rfl, pushLoop_empty hl]
  case loop =>
    dsimp only
    rw [loop_pushes hnone rfl h0, pushLoop_pushes hl hb]
  case table =>
    have hra : s.dev.issues x { regs := [ra.val] } = true := issues_mono hi (by simp)
    dsimp only
    rw [jt_jumps hra ht, jump_engine hc, hf, if_neg Bool.false_ne_true]

/-- Settles O57: CALL and RET on the call stack, and the faults at its ends. -/
theorem callStack : Obligations.CallStack := by
  intro s x fidx f hc hi c faults hf
  refine ⟨call_full hi rfl hc, ret_empty hi rfl, fun h => ⟨_, call_pushes hi rfl hc h hf, rfl, by simpa using h, rfl, rfl⟩,
    fun r rs h => ⟨_, ret_pops hi rfl h, rfl, fun h0 hr hl => ?_⟩⟩
  have hgoes : advance (r - 1) c.loops = ((r - 1 + 1) % 2 ^ 18, c.loops) := advance_within hl
  exact ⟨(congrArg Prod.fst hgoes).trans (show (r - 1 + 1) % 2 ^ 18 = r by omega), congrArg Prod.snd hgoes⟩

/-! # The control profile (R86, R87) -/

section Core

variable {s : State} {x : CtxId} {rd ra rb : Reg} (hc : isCore x = true)

include hc

theorem divu_divides (hi : s.dev.issues x { regs := [rd.val, ra.val, rb.val] } = true) :
    let c := s.dev.ctx x
    exec (.divu x rd ra rb) s = .next { s with
      dev := s.dev.setCtx x (c.wg rd (if c.rg rb = 0 then BitVec.allOnes 64 else c.rg ra / c.rg rb)).next } := by
  simp only [exec_divu, execDivu, onDev, issueCore_of_issues hi hc]

theorem remu_divides (hi : s.dev.issues x { regs := [rd.val, ra.val, rb.val] } = true) :
    let c := s.dev.ctx x
    exec (.remu x rd ra rb) s = .next { s with
      dev := s.dev.setCtx x (c.wg rd (if c.rg rb = 0 then c.rg ra else c.rg ra % c.rg rb)).next } := by
  simp only [exec_remu, execRemu, onDev, issueCore_of_issues hi hc]

section Ra

variable (hi : s.dev.issues x { regs := [ra.val] } = true)

include hi

theorem loopr_skips {bodyEnd : BitVec 18} (h : ((s.dev.ctx x).rg ra).toNat % 2 ^ 32 = 0) :
    let c := s.dev.ctx x
    exec (.loopr x ra bodyEnd) s = .next { s with dev := s.dev.setCtx x { c with pc := c.pc + bodyEnd.toNat }.next } := by
  simp only [exec_loopr, execLoopr, onDev, issueCore_of_issues hi hc, h, if_true]

theorem loopr_pushes {bodyEnd : BitVec 18} (h : ((s.dev.ctx x).rg ra).toNat % 2 ^ 32 ≠ 0) :
    let c := s.dev.ctx x
    exec (.loopr x ra bodyEnd) s = .next { s with dev := s.dev.pushLoop x c ((c.rg ra).toNat % 2 ^ 32) bodyEnd.toNat } := by
  simp only [exec_loopr, execLoopr, onDev, issueCore_of_issues hi hc, h, if_false]

theorem jr_jumps : exec (.jr x ra) s =
    .next { s with dev := s.dev.setCtx x { s.dev.ctx x with pc := ((s.dev.ctx x).rg ra).toNat % 2 ^ 18 } } := by
  simp only [exec_jr, execJr, onDev, issueCore_of_issues hi hc]

/-- A listed control register takes what `Csr.write` makes of the value. -/
theorem csrw_writes {csr : BitVec 12} {v : Word} (hl : s.dev.csrRead s.time (x - 1536) csr.toNat = some v) :
    let r := s.dev.csr (x - 1536)
    exec (.csrw x ra csr) s = .next { s with
      dev := (s.dev.setCsr (x - 1536) (r.write csr.toNat ((s.dev.ctx x).rg ra))).setCtx x (s.dev.ctx x).next } := by
  simp only [exec_csrw, execCsrw, onDev, issueCore_of_issues hi hc, hl]

end Ra

/-- A listed control register is read; a read of TIME draws how far it lags. -/
theorem csrr_reads {csr : BitVec 12} {v : Word} (hi : s.dev.issues x { regs := [rd.val] } = true)
    (hl : s.dev.csrRead s.time (x - 1536) csr.toNat = some v) : exec (.csrr x rd csr) s = .next { s with
      dev := (if csr.toNat = 2 then s.dev.drawn else s.dev).setCtx x ((s.dev.ctx x).wg rd v).next } := by
  simp only [exec_csrr, execCsrr, onDev, issueCore_of_issues hi hc, hl]

section NoOperands

variable (hi : s.dev.issues x {} = true)

include hi

theorem eret_returns :
    let r := s.dev.csr (x - 1536)
    exec (.eret x) s = .next { s with
      dev := (s.dev.setCsr (x - 1536) { r with ie := true }).setCtx x { s.dev.ctx x with pc := r.epc.toNat % 2 ^ 18 } } := by
  simp only [exec_eret, execEret, onDev, issueCore_of_issues hi hc]

theorem wfe_goesOn (h : (s.dev.csr (x - 1536)).waiting = true) :
    exec (.wfe x) s = .next { s with dev := s.dev.setCtx x (s.dev.ctx x).next } := by
  simp only [exec_wfe, execWfe, onDev, issueCore_of_issues hi hc, h, if_true]

theorem wfe_waits (h : (s.dev.csr (x - 1536)).waiting = false) :
    exec (.wfe x) s = .next { s with dev := s.dev.setCtx x { s.dev.ctx x with st := .wait, waitOn := .event } } := by
  simp only [exec_wfe, execWfe, onDev, issueCore_of_issues hi hc, h, Bool.false_eq_true, if_false]

end NoOperands

/-- A fault of a control core traps (R87). -/
theorem fault_traps {d : Dev} (code : Nat) :
    let c := d.ctx x
    let r := d.csr (x - 1536)
    d.fault x code = (d.setCsr (x - 1536) { r with epc := BitVec.ofNat 64 c.pc, cause := BitVec.ofNat 64 code, ie := false }).setCtx x
      { c with pc := r.tvec.toNat % 2 ^ 18, st := .run, waitOn := .nothing } := by
  simp only [Dev.fault, hc, if_true]

omit hc

/-- Bit 63 of CAUSE tells an interrupt from a fault (R87). -/
theorem or_bit63 (v : Word) : (v ||| (1#64 <<< 63)).getLsbD 63 = true := by
  rw [BitVec.getLsbD_or, show (1#64 <<< 63).getLsbD 63 = true by decide, Bool.or_true]

/-- A core that runs takes an enabled interrupt that is pending (R87). -/
theorem interruptTrap_traps {core : Fin 12} (hx : x.val = 1536 + core.val) :
    let c := s.dev.ctx x
    let j := x.val - 1536
    let r := s.dev.csr j
    c.st = .run → c.waitOn = .nothing → r.waiting = true → r.ie = true → exec (.interruptTrap core) s = .next { s with
      dev := (s.dev.drawn.setCsr j { r with epc := BitVec.ofNat 64 c.pc, cause := s.dev.freeVal ||| (1#64 <<< 63), ie := false }).setCtx x
        { c with st := .run, waitOn := .nothing, pc := r.tvec.toNat % 2 ^ 18 } } := by
  have hj : x.val - 1536 = core.val := by omega
  simp only [hj]
  simp only [hx]
  intro hr hw hp he
  simp [execInterruptTrap, onDev, Ctx.between, hr, hw, hp, he]

end Core

/-- Settles O8: the instructions of the control profile, and its traps. -/
theorem controlCores : Obligations.ControlCores := by
  refine ⟨?profile, ?traps⟩
  case profile =>
    intro s x rd ra rb bodyEnd hc hi
    have hra : s.dev.issues x { regs := [ra.val] } = true := issues_mono hi (by simp)
    have hrd : s.dev.issues x { regs := [rd.val] } = true := issues_mono hi (by simp)
    have hnone : s.dev.issues x {} = true := issues_mono hi (by simp)
    refine ⟨divu_divides hc hi, remu_divides hc hi, loopr_skips hc hra, fun h0 hl hb => ?loop, jr_jumps hc hra, csrr_reads hc hrd rfl,
      csrr_reads hc hrd rfl, csrw_writes hc hra rfl, csrw_writes hc hra rfl, eret_returns hc hnone,
      fun h => wfe_goesOn hc hnone (decide_eq_true h), fun h => wfe_waits hc hnone (decide_eq_false (not_not_intro h))⟩
    case loop =>
      dsimp only
      rw [loopr_pushes hc hra h0, pushLoop_pushes hl hb]
  case traps =>
    intro s x core hc hi c r saved trapped
    refine ⟨fun h => ?stack, fun hx he hp hw => ?interrupt⟩
    case stack => rw [ret_empty hi rfl h, fault_traps hc]
    case interrupt =>
      have hrun : c.st = .run := run_of_atIssue (issues_iff.1 hi).1
      have hj : core.val = x.val - 1536 := by omega
      refine ⟨_, interruptTrap_traps hx hrun hw (decide_eq_true hp) he, ?_⟩
      rw [hj]
      exact ⟨congrArg Csr.epc (csr_setCsr_same ..), congrArg Csr.ie (csr_setCsr_same ..),
        (congrArg (fun r : Csr => r.cause.getLsbD 63) (csr_setCsr_same ..)).trans (or_bit63 _), congrArg Ctx.pc (ctx_setCtx_same ..)⟩

/-! # Asynchronous instructions (R65, R72, R81, R82) -/

section Async

variable {s : State} {x : CtxId} {rd ra rb : Reg} {k : Tick}

/-- An asynchronous instruction that names a busy ticket takes the ticket fault (R65). -/
theorem async_of_busy {d : Dev} {x k : Nat} (ha : d.atIssue x = true) (hw : d.unassigned x = false) (hk : ((d.ctx x).tk k).busy = true)
    (u : Touch) (mk : Ctx → Except Nat (Dev × Ticket)) : d.async x k u mk = d.fault x faultTicket := by
  simp [Dev.async, ha, hw, hk]

/-- One whose ticket is free takes what its operands make of it, and the context goes on (R65). -/
theorem async_takes {i : Instr} {u : Touch} {mk : Ctx → Except Nat (Dev × Ticket)} {y : Dev} {t t' : Ticket}
    (hi : s.dev.issues x u = true) (hk : ((s.dev.ctx x).tk k).busy = false) (hx : exec i s = .next { s with dev := s.dev.async x k u mk })
    (hm : mk (s.dev.ctx x) = .ok (y, t)) (ht : { t with busy := true } = t' := by rfl) :
    exec i s = .next { s with dev := y.setCtx x ((y.ctx x).setTk k t').next } := by
  rw [hx, async_of_issues hi hk hm, ht]

/-- AMO queues its request at the home slice of its address (R72). -/
theorem amo_queues {fn : Fin 8} {wide : Bool} {a : Nat} (hi : s.dev.issues x { regs := [rd.val, ra.val, rb.val] } = true)
    (hk : ((s.dev.ctx x).tk k).busy = false) (hf : fn ≠ 7) (ha : s.dev.atomAddr ((s.dev.ctx x).rg ra).toNat (if wide then 8 else 4) = some a) :
    let c := s.dev.ctx x
    let far : Req := { who := requester x, line := a / 64, kind := .atomic x k (fn.val + (if wide then 8 else 0)) a (c.rg rb) (c.rg rd) }
    let y := s.dev.setCoh { s.dev.eng.coh with reqs := s.dev.eng.coh.reqs ++ [far] }
    exec (.amo x rd ra rb k fn wide) s = .next { s with
      dev := y.setCtx x ((y.ctx x).setTk k { busy := true, rd := rd, pend := .atSlice }).next } := by
  have hf' : fn.val ≠ 7 := fun h => hf (Fin.ext h)
  intro c far y
  refine async_takes (y := y) (t := { rd := rd, pend := .atSlice }) hi hk rfl ?_
  simp only [hf', if_false, ha]
  rfl

/-- TRDYX carries the handle to its bay (R81). -/
theorem trdyx_takes (hi : s.dev.issues x { regs := [rd.val, ra.val] } = true) (hk : ((s.dev.ctx x).tk k).busy = false) :
    exec (.trdyx x rd ra k) s = .next { s with dev := s.dev.setCtx x ((s.dev.ctx x).setTk k
      { busy := true, rd := rd, pend := .atTask false (((s.dev.ctx x).rg ra).toNat % 2 ^ 32) }).next } :=
  async_takes hi hk rfl rfl

/-- TCANX carries the handle to its bay (R81). -/
theorem tcanx_takes (hi : s.dev.issues x { regs := [rd.val, ra.val] } = true) (hk : ((s.dev.ctx x).tk k).busy = false) :
    exec (.tcanx x rd ra k) s = .next { s with dev := s.dev.setCtx x ((s.dev.ctx x).setTk k
      { busy := true, rd := rd, pend := .atTask true (((s.dev.ctx x).rg ra).toNat % 2 ^ 32) }).next } :=
  async_takes hi hk rfl rfl

theorem await_free (hi : s.dev.issues x {} = true) (hk : ((s.dev.ctx x).tk k).busy = false) :
    exec (.await x k) s = .next { s with dev := s.dev.setCtx x (s.dev.ctx x).next } := by
  simp [execAwait, onDev, issue_of_issues hi, hk]

theorem await_busy (hi : s.dev.issues x {} = true) (hk : ((s.dev.ctx x).tk k).busy = true) :
    exec (.await x k) s = .next { s with dev := s.dev.setCtx x { s.dev.ctx x with st := .wait, waitOn := .await k } } := by
  simp [execAwait, onDev, issue_of_issues hi, hk]

/-- A result goes to a context that does not wait to end, and is discarded by one that does (R65, R82). -/
theorem take_running {c : Ctx} (h : c.ending = false) (k : Nat) (t : Ticket) (v : Word) (f : Ctx → Ctx := id) :
    c.take k t v f = (((f c).wg t.rd v).setTk k {}).wake k := by
  simp [Ctx.take, h, Ctx.result]

theorem take_ending {c : Ctx} (h : c.ending = true) (k : Nat) (t : Ticket) (v : Word) (f : Ctx → Ctx := id) : c.take k t v f = c.setTk k {} := by
  simp [Ctx.take, h]

section Arrival

variable {race : CancelRace} {v : Word} (hb : ((s.dev.ctx x).tk k).busy = true) (hs : s.dev.eng.strays = [])

include hb hs

theorem resultArrival_value (hp : ((s.dev.ctx x).tk k).pend = .value v) : exec (.resultArrival x k race) s =
    .next { s with dev := s.dev.setCtx x ((s.dev.ctx x).take k ((s.dev.ctx x).tk k) v) } := by
  simp [execResultArrival, onDev, hb, hs, hp]

theorem resultArrival_search (hp : ((s.dev.ctx x).tk k).pend = .search v) : exec (.resultArrival x k race) s =
    .next { s with dev := s.dev.setCtx x ((s.dev.ctx x).take k ((s.dev.ctx x).tk k) v) } := by
  simp [execResultArrival, onDev, hb, hs, hp]

theorem resultArrival_scratch {off : Nat} {bytes : List Byte} (hp : ((s.dev.ctx x).tk k).pend = .toScratch v off bytes) :
    exec (.resultArrival x k race) s =
      .next { s with dev := s.dev.setCtx x ((s.dev.ctx x).take k ((s.dev.ctx x).tk k) v (fun y => y.scrPuts off bytes)) } := by
  simp [execResultArrival, onDev, hb, hs, hp]

end Arrival

end Async

/-- Settles O9: taking a ticket, AWAIT, the arrival of a result, and the fault on a busy ticket. -/
theorem asyncInstructions : Obligations.AsyncInstructions := by
  refine ⟨?results, ?faults⟩
  case results =>
    intro s x rd ra rb k fn wide race a off bytes v
    refine ⟨amo_queues, trdyx_takes, tcanx_takes, await_free, await_busy,
      fun hb hs he => ⟨fun hp => ?value, fun hp => ?search, fun hp => ?scratch⟩, fun hb hs he hp => ?ending⟩
    case value => exact take_running he k _ v ▸ resultArrival_value hb hs hp
    case search => exact take_running he k _ v ▸ resultArrival_search hb hs hp
    case scratch => exact take_running he k _ v (fun y => y.scrPuts off bytes) ▸ resultArrival_scratch hb hs hp
    case ending => exact take_ending he k _ v ▸ resultArrival_value hb hs hp
  case faults =>
    intro s x rd ra rb k fn wide profile table f ecc ha hw hk
    have faults {i : Instr} {u : Touch} {mk : Ctx → Except Nat (Dev × Ticket)}
        (hx : exec i s = .next { s with dev := s.dev.async x k u mk }) : exec i s = .next { s with dev := s.dev.fault x faultTicket } := by
      rw [hx, async_of_busy ha hw hk]
    iterate 10 refine List.forall_mem_cons.2 ⟨faults rfl, ?_⟩
    exact List.forall_mem_nil _

/-! # Ends of a program (R78, R82) -/

section Ends

variable {s : State} {x : CtxId} {ra : Reg} {now : NetTime} {d : Dev}

/-- A context retires within twice the verified bound: the engine is marked by its context cycles, and it holds its result (08 R206). -/
theorem retireWith_holds (h : (d.ctx x).cycles ≤ 2 * d.boundOf (d.ctx x)) (r : Retire) :
    let c := d.ctx x
    d.retireWith now x r = (d.slowMark now (x / 8) c.cycles (d.boundOf c)).hold x c r := by
  simp only [Dev.retireWith, Nat.not_lt.2 h, if_false]

/-- A terminating instruction takes effect once every ticket is free, and waits before (R82). -/
theorem terminate_ends (r : Retire) :
    let c := d.ctx x
    (c.ticketsFree = true → c.cycles ≤ 2 * d.boundOf c → d.terminate now x r = (d.slowMark now (x / 8) c.cycles (d.boundOf c)).hold x c r) ∧
    (c.ticketsFree = false → d.terminate now x r = d.setCtx x { c with st := .wait, waitOn := .terminate r }) := by
  refine ⟨fun ht hc => ?_, fun ht => ?_⟩
  · simp only [Dev.terminate, ht, if_true, retireWith_holds hc]
  · simp only [Dev.terminate, ht, Bool.false_eq_true, if_false]

variable (hc : isCore x = false)

include hc

theorem emit_good {p : Packet} {f1 f2 : Bool} (hi : s.dev.issues x { regs := [ra.val] } = true) (hp : (s.dev.ctx x).pkt = some p)
    (ht : s.dev.targetOk (s.dev.ctx x).bind p.polder ((s.dev.ctx x).rg ra).toNat = true) :
    exec (.emit x ra f1 f2) s =
      .next { s with dev := s.dev.terminate s.time x (.emit ((s.dev.ctx x).rg ra).toNat (bitNat f1 + 2 * bitNat f2)) } := by
  simp only [exec_emit, execEmit, onDev, issuePacket_of_issues hi hc, hp, ht, if_true]

theorem emit_bad {p : Packet} {f1 f2 : Bool} (hi : s.dev.issues x { regs := [ra.val] } = true) (hp : (s.dev.ctx x).pkt = some p)
    (ht : s.dev.targetOk (s.dev.ctx x).bind p.polder ((s.dev.ctx x).rg ra).toNat = false) :
    exec (.emit x ra f1 f2) s = .next { s with dev := s.dev.fault x faultEmit } := by
  simp only [exec_emit, execEmit, onDev, issuePacket_of_issues hi hc, hp, ht, Bool.false_eq_true, if_false]

theorem drop_terminates {p : Packet} {reason : Byte} (hi : s.dev.issues x {} = true) (hp : (s.dev.ctx x).pkt = some p) :
    exec (.drop x reason) s = .next { s with dev := s.dev.terminate s.time x (.drop reason.toNat) } := by
  simp [execDrop, onDev, issuePacket_of_issues hi hc, hp]

theorem punt_terminates {p : Packet} {code : Byte} (hi : s.dev.issues x {} = true) (hp : (s.dev.ctx x).pkt = some p) :
    exec (.punt x code) s = .next { s with dev := s.dev.terminate s.time x (.punt code.toNat) } := by
  simp [execPunt, onDev, issuePacket_of_issues hi hc, hp]

theorem tdone_terminates {h : Nat} (hi : s.dev.issues x { regs := [ra.val] } = true) (ht : (s.dev.ctx x).task = some h) :
    exec (.tdone x ra) s = .next { s with dev := s.dev.terminate s.time x (.done ((s.dev.ctx x).rg ra)) } := by
  simp [execTdone, onDev, issuePacket_of_issues hi hc, ht]

omit hc

theorem deferredTermination_retires {r : Retire} (hs : (s.dev.ctx x).st = .wait) (hw : (s.dev.ctx x).waitOn = .terminate r)
    (ht : (s.dev.ctx x).ticketsFree = true) : exec (.deferredTermination x) s = .next { s with dev := s.dev.retireWith s.time x r } := by
  simp [execDeferredTermination, onDev, hs, hw, ht]

/-- An instruction that terminates with `r` ends the program. -/
theorem ends_of_terminates {i : Instr} {r : Retire} (hx : exec i s = .next { s with dev := s.dev.terminate s.time x r }) :
    let d := s.dev
    let c := d.ctx x
    (c.ticketsFree = true → c.cycles ≤ 2 * d.boundOf c →
      exec i s = .next { s with dev := (d.slowMark s.time (x / 8) c.cycles (d.boundOf c)).hold x c r }) ∧
    (c.ticketsFree = false → exec i s = .next { s with dev := d.setCtx x { c with st := .wait, waitOn := .terminate r } }) := by
  obtain ⟨hfree, hbusy⟩ := terminate_ends (now := s.time) (d := s.dev) (x := x) r
  exact ⟨fun ht hc => by rw [hx, hfree ht hc], fun ht => by rw [hx, hbusy ht]⟩

end Ends

/-- Settles O11: each end of a program terminates, and a termination ends as `terminate_ends` says. -/
theorem terminationResults : Obligations.TerminationResults := by
  intro s x ra f1 f2 reason p h r hc
  refine ⟨fun hi hp => ?packet, fun hi ht => ends_of_terminates (tdone_terminates hc hi ht), fun hs hw ht hb => ?deferred⟩
  case packet =>
    have hnone : s.dev.issues x {} = true := issues_mono hi (by simp)
    exact ⟨fun ht => ends_of_terminates (emit_good hc hi hp ht), emit_bad hc hi hp, ends_of_terminates (drop_terminates hc hnone hp),
      ends_of_terminates (punt_terminates hc hnone hp)⟩
  case deferred =>
    dsimp only
    rw [deferredTermination_retires hs hw ht, retireWith_holds hb]

/-! # COPY, CNT and TIME (R79, R80) -/

section Posted

variable {s : State} {x : CtxId} {rd ra rb : Reg}

/-- The copy of a packet carries no reservation, share or timestamp request of the original. -/
theorem copy_good {p : Packet} (hc : isCore x = false) (hi : s.dev.issues x { regs := [ra.val], header := true } = true)
    (hp : (s.dev.ctx x).packet = some p) (hs : p.skipCopies ≤ (s.dev.ctx x).copies) (h4 : (s.dev.ctx x).copies < 4)
    (ht : s.dev.targetOk (s.dev.ctx x).bind p.polder ((s.dev.ctx x).rg ra).toNat = true) :
    let c := s.dev.ctx x
    let v := (c.rg ra).toNat
    let q : Packet := { p with txring := none, resv := 0, share := none, onward := [], twoStep := false, oneStep := false }
    exec (.copy x ra) s = .next { s with
      dev := (s.dev.handOver s.time (tgtKind v) (tgtNumber v) q).setCtx x { c with copies := c.copies + 1, sent := c.sent + 1 }.next } := by
  simp only [exec_copy, execCopy, onDev, issuePacket_of_issues hi hc, hp, Nat.not_le.2 h4, Nat.not_lt.2 hs, ht, if_true, if_false]

theorem copy_bad {p : Packet} (hc : isCore x = false) (hi : s.dev.issues x { regs := [ra.val], header := true } = true)
    (hp : (s.dev.ctx x).packet = some p) (hs : p.skipCopies ≤ (s.dev.ctx x).copies) (h4 : (s.dev.ctx x).copies < 4)
    (ht : s.dev.targetOk (s.dev.ctx x).bind p.polder ((s.dev.ctx x).rg ra).toNat = false) :
    let c := s.dev.ctx x
    exec (.copy x ra) s = .next { s with dev := (s.dev.bump PGM.COPYDROP_COUNT).setCtx x { c with copies := c.copies + 1 }.next } := by
  simp only [exec_copy, execCopy, onDev, issuePacket_of_issues hi hc, hp, Nat.not_le.2 h4, Nat.not_lt.2 hs, ht, Bool.false_eq_true, if_false]

theorem cnt_counts (hi : s.dev.issues x { regs := [ra.val, rb.val] } = true)
    (hv : ((s.dev.ctx x).rg ra).toNat < (s.dev.ctx x).bind.cntCount) :
    let d := s.dev
    let c := d.ctx x
    let k := c.bind.cntBase + (c.rg ra).toNat
    let sat := fun (n : Nat) => min n (2 ^ 64 - 1)
    exec (.cnt x ra rb) s = .next { s with
      dev := { d with eng := { d.eng with
        cntPkts := put 0 d.eng.cntPkts k (sat (look 0 d.eng.cntPkts k + 1))
        cntBytes := put 0 d.eng.cntBytes k (sat (look 0 d.eng.cntBytes k + (c.rg rb).toNat)) } }.setCtx x c.next } := by
  simp only [exec_cnt, execCnt, onDev, issue_of_issues hi, Nat.not_le.2 hv, if_false]

theorem timeRead_reads (hi : s.dev.issues x { regs := [rd.val] } = true) : exec (.timeRead x rd) s = .next { s with
    dev := s.dev.drawn.setCtx x ((s.dev.ctx x).wg rd (s.dev.readTime s.time).tsin).next } := by
  have hd : s.dev.drawn.issues x { regs := [rd.val] } = true := hi
  simp only [exec_timeRead, execTime, onDev, compute_of_issues hd, ctx_drawn]

end Posted

/-- Settles O12: COPY to a good and to a bad target, CNT, and TIME. -/
theorem postedResults : Obligations.PostedResults := by
  intro s x rd ra rb p hi
  exact ⟨fun hc hh hp hs h4 => ⟨copy_good hc hh hp hs h4, copy_bad hc hh hp hs h4⟩, cnt_counts (issues_mono hi (by simp)),
    timeRead_reads (issues_mono hi (by simp))⟩

/-! # Lookups (R77, R151, R156, R174, R178) -/

/-! ## The search of LKA -/

/-- A search whose check finds nothing gives the first match (R152). -/
theorem search_good (d : Dev) (now : NetTime) (pipe : Nat) (q : Profile) (key : Nat) :
    d.search now pipe q key .good .good = (d, (d.firstMatch pipe q key 0).map (fun m => (m.1, m.2.1))) := by
  unfold Dev.search Dev.searchPass
  cases d.firstMatch pipe q key 0 <;> rfl

theorem scratchOk_of_le {x o n : Nat} (hc : isCore x = false) (h : o + n ≤ 0x2000) : scratchOk x o n = true := by
  simp [scratchOk, hc, h]

section Lka

variable {s : State} {x : CtxId} {rd ra : Reg} {k : Tick} {n : Fin 32} {c : Ctx} {q : Profile} {o len : Nat}
  (hx : s.dev.ctx x = c) (hn : s.dev.profile c.pipeline n = q) (hl : 20 * fmtUnits q.fmt = len) (hr : (c.rg ra).toNat = o)
  (hc : isCore x = false) (hk : (c.tk k).busy = false)
  (hi : s.dev.issues x { regs := [rd.val, ra.val], scratch := (o, len) } = true) (ho : o + len ≤ 0x2000)

include hx hn hl hr hc hk hi ho

/-- A disabled profile misses (R151). -/
theorem lka_disabled (he : q.en = false) : exec (.lka x rd ra k n .good .good) s =
    .next { s with dev := s.dev.setCtx x (c.setTk k { busy := true, rd := rd, pend := .search 0 }).next } := by
  subst hx hn hl hr
  refine async_takes (t := { rd := rd, pend := .search 0 }) hi hk rfl ?_
  simp [scratchOk_of_le hc ho, he]

/-- An enabled one gives bit 63 and ACT of the first match (R77, R156). -/
theorem lka_hit {b i place : Nat} (he : q.en = true)
    (hm : s.dev.firstMatch c.pipeline q (leNat (c.scrBytes o len)) 0 = some (b, i, place)) :
    exec (.lka x rd ra k n .good .good) s = .next { s with dev := s.dev.setCtx x (c.setTk k
      { busy := true, rd := rd, pend := .search ((1#64 <<< 63) ||| BitVec.ofNat 64 ((s.dev.acsEntry c.pipeline b i).act % 2 ^ 62)) }).next } := by
  subst hx hn hl hr
  refine async_takes (t := { rd := rd, pend := .search ((1#64 <<< 63) ||| BitVec.ofNat 64 ((s.dev.acsEntry _ b i).act % 2 ^ 62)) }) hi hk rfl ?_
  simp [scratchOk_of_le hc ho, he, search_good, hm]

theorem lka_miss (he : q.en = true) (hm : s.dev.firstMatch c.pipeline q (leNat (c.scrBytes o len)) 0 = none) :
    exec (.lka x rd ra k n .good .good) s =
      .next { s with dev := s.dev.setCtx x (c.setTk k { busy := true, rd := rd, pend := .search 0 }).next } := by
  subst hx hn hl hr
  refine async_takes (t := { rd := rd, pend := .search 0 }) hi hk rfl ?_
  simp [scratchOk_of_le hc ho, he, search_good, hm]

end Lka

/-- A search that starts late answers bit 62, is counted, and raises EVT 6.3 (R156, R158). -/
theorem lkaLate_answers {s : State} {x : CtxId} {k : Tick} {v : Word} (hb : ((s.dev.ctx x).tk k).busy = true)
    (hp : ((s.dev.ctx x).tk k).pend = .search v) :
    let c := s.dev.ctx x
    let p := c.pipeline
    exec (.lkaLate x k) s = .next { s with
      dev := ((s.dev.setCtx x (c.setTk k { c.tk k with pend := .value (1#64 <<< 62) })).bump ACS.LKALATE_COUNT p).raiseSec s.time (ev 6 3) p
        (p * 2 ^ 20) } := by
  simp only [exec_lkaLate, execLkaLate, onDev, hb, hp]

/-! ## The table lookups of LKH and LKC -/

section TableLookup

variable {d : Dev} {now : NetTime} {p t : Nat} {key : List Byte} (he : d.rd FWD.TBL_EN (16 * p + t) = 1)

theorem badRead_good (d : Dev) (p t : Nat) (key : List Byte) : d.badRead p t key {} = none := by
  simp [Dev.badRead]

include he

/-- A lookup that hits in an enabled table reads its bucket and posts the marking (R174, R179). -/
theorem lookup_hit {b e : Nat} (hf : d.find p t key = (b, some e)) :
    d.lookup now p t key {} = ((d.noteBarred now (d.tblArea p t) (d.bucketsOf p t key).1).mark p t b e, b, some e) := by
  simp [Dev.lookup, he, badRead_good, hf]

theorem lookup_miss {b : Nat} (hf : d.find p t key = (b, none)) :
    d.lookup now p t key {} = (d.noteBarred now (d.tblArea p t) (d.bucketsOf p t key).1, b, none) := by
  simp [Dev.lookup, he, badRead_good, hf]

end TableLookup

/-- The key that a lookup takes from scratch (R77). -/
def lookupKey (d : Dev) (x ra t : Nat) : List Byte :=
  let c := d.ctx x
  c.scrBytes (c.rg ra).toNat (d.rd FWD.TBL_KEYLEN (16 * c.pipeline + t))

/-- The device after a lookup has read its primary bucket (R174). -/
def lookupRead (d : Dev) (now : NetTime) (x ra t : Nat) : Dev :=
  let p := (d.ctx x).pipeline
  d.noteBarred now (d.tblArea p t) (d.bucketsOf p t (lookupKey d x ra t)).1

/-- A context issues a lookup on a free ticket in an enabled table, with operands in scratch (R77). -/
structure LooksUp (d : Dev) (x rd ra rb k t : Nat) : Prop where
  free    : ((d.ctx x).tk k).busy = false
  issues  : d.issues x { regs := [rd, ra, rb], scratch := (((d.ctx x).rg rb).toNat, 64),
                         scratch2 := (((d.ctx x).rg ra).toNat, d.rd FWD.TBL_KEYLEN (16 * (d.ctx x).pipeline + t)) } = true
  entry   : scratchOk x ((d.ctx x).rg rb).toNat 64 = true
  aligned : ((d.ctx x).rg rb).toNat % 64 = 0
  key     : scratchOk x ((d.ctx x).rg ra).toNat (d.rd FWD.TBL_KEYLEN (16 * (d.ctx x).pipeline + t)) = true
  enabled : d.rd FWD.TBL_EN (16 * (d.ctx x).pipeline + t) = 1

section Lookup

variable {s : State} {x : CtxId} {rd ra rb : Reg} {k : Tick} {table : Fin 16} {create conn : Bool} {bk : Nat} {i : Instr}
  (h : LooksUp s.dev x rd ra rb k table) (hx : exec i s = .next { s with dev := s.dev.lookupIssue s.time x rd ra rb k table create conn {} })

include h hx

/-- A hit returns the entry to scratch, and bit 63, LKH with the bucket (R77). -/
theorem lookupIssue_hit {e : Nat} {v : Word} (hv : (if conn then 1#64 <<< 63 else (1#64 <<< 63) ||| BitVec.ofNat 64 bk) = v)
    (hf : s.dev.find (s.dev.ctx x).pipeline table (lookupKey s.dev x ra table) = (bk, some e)) :
    let eo := ((s.dev.ctx x).rg rb).toNat
    let y := (lookupRead s.dev s.time x ra table).mark (s.dev.ctx x).pipeline table bk e
    exec i s = .next { s with dev := y.setCtx x ((y.ctx x).setTk k
      { busy := true, rd := rd, scratch := (eo, 64), pend := .toScratch v eo (leBytes 64 e) }).next } := by
  intro eo y
  subst hv
  unfold lookupKey at hf
  refine async_takes (y := y) (t := { rd := rd, scratch := (eo, 64), pend := .toScratch _ eo (leBytes 64 e) }) h.issues h.free hx ?_
  simp [h.entry, h.aligned, h.key, lookup_hit h.enabled hf, eo, y, lookupRead, lookupKey]

/-- A miss returns zeros, LKH with the primary bucket, where no connection is to be created (R77). -/
theorem lookupIssue_miss {v : Word} (hv : (if conn then 0 else BitVec.ofNat 64 bk) = v)
    (hf : s.dev.find (s.dev.ctx x).pipeline table (lookupKey s.dev x ra table) = (bk, none)) (hno : create = false) :
    let eo := ((s.dev.ctx x).rg rb).toNat
    let y := lookupRead s.dev s.time x ra table
    exec i s = .next { s with dev := y.setCtx x ((y.ctx x).setTk k
      { busy := true, rd := rd, scratch := (eo, 64), pend := .toScratch v eo (leBytes 64 0) }).next } := by
  intro eo y
  subst hv
  unfold lookupKey at hf
  refine async_takes (y := y) (t := { rd := rd, scratch := (eo, 64), pend := .toScratch _ eo (leBytes 64 0) }) h.issues h.free hx ?_
  simp [h.entry, h.aligned, h.key, lookup_miss h.enabled hf, hno, eo, y, lookupRead, lookupKey]

/-- A miss in a connection table creates a connection where the instruction asks for one (R178). -/
theorem lookupIssue_create (hf : s.dev.find (s.dev.ctx x).pipeline table (lookupKey s.dev x ra table) = (bk, none)) (hyes : create = true)
    (hkind : s.dev.rd FWD.TBL_KIND (16 * (s.dev.ctx x).pipeline + table) = 1) :
    let c := s.dev.ctx x
    let eo := (c.rg rb).toNat
    let made := (lookupRead s.dev s.time x ra table).create s.time c.pipeline table (lookupKey s.dev x ra table)
      ((c.pkt.map (fun q => q.polder)).getD 0) ((c.pkt.map (fun q => q.iport)).getD 0) ((c.pkt.map (fun q => q.tsin)).getD 0)
    exec i s = .next { s with dev := made.1.setCtx x ((made.1.ctx x).setTk k
      { busy := true, rd := rd, scratch := (eo, 64), pend := .toScratch (1#64 <<< made.2.1) eo (leBytes 64 made.2.2.2) }).next } := by
  intro c eo made
  unfold lookupKey at hf
  refine async_takes (y := made.1) (t := { rd := rd, scratch := (eo, 64), pend := .toScratch (1#64 <<< made.2.1) eo (leBytes 64 made.2.2.2) })
    h.issues h.free hx ?_
  cases hpkt : c.pkt <;>
    simp [h.entry, h.aligned, h.key, lookup_miss h.enabled hf, h.enabled, hyes, hkind, hpkt, c, eo, made, lookupRead, lookupKey]

end Lookup

/-- Settles O16: LKA, LKH and LKC with good ECC outcomes, and the search that starts late. -/
theorem lookupResults : Obligations.LookupResults := by
  intro s x rd ra rb k n table b i place bk e v create
  refine ⟨fun hc hk => ⟨fun hi ho => ?search, fun hi heo hal ho hen => ?table⟩, lkaLate_answers⟩
  case search =>
    exact ⟨lka_disabled rfl rfl rfl rfl hc hk hi ho, lka_hit rfl rfl rfl rfl hc hk hi ho, lka_miss rfl rfl rfl rfl hc hk hi ho⟩
  case table =>
    have h : LooksUp s.dev x rd ra rb k table := ⟨hk, hi, scratchOk_of_le hc heo, hal, scratchOk_of_le hc ho, hen⟩
    exact ⟨fun hf => ⟨lookupIssue_hit h rfl rfl hf, lookupIssue_hit h rfl rfl hf⟩,
      fun hf => ⟨lookupIssue_miss h rfl rfl hf rfl, lookupIssue_miss h rfl rfl hf rfl, lookupIssue_create h rfl hf rfl⟩⟩

end Sys2Proof.Proofs
end

section
/-! Proofs of the statements of 04_program_verification: the requests of the loader, the signing keys, and the reading of counts. -/

namespace Sys2Proof.Proofs

open Sys2Proof.Machine Sys2Proof.Laws

/-! # The program loader (R92 to R108, R571) -/

/-! ## What LOAD judges and places, what BIND stages, what COMMIT does -/

/-- The image as a LOAD reads it: at most 512 KiB. -/
def imageBytes (len : Nat) (image : List Byte) : List Byte := slice image 0 (min len 0x80000)

/-- The verdict of the verifier on a LOAD (R96). -/
def loadVerdict (d : Dev) (len : Nat) (image : List Byte) : Judgement := verifyImage (imageBytes len image) len d.keyHashOf

/-- The lowest word at which `n` words are free (R107). -/
def lowestRun (d : Dev) (n : Nat) : Option Nat :=
  (d.runStarts.filter (fun b => d.runFree b n)).foldl (fun (x : Option Nat) b => some (match x with | some y => min y b | none => b)) none

/-- The lowest free handle, less one (R107). -/
def lowestHandle (d : Dev) : Option Nat := (List.range 255).find? (fun i => decide ((d.image (i + 1)).st = .free))

/-- An image that passed the verifier, resident at word `b` (R107). -/
def residentImage (v : Judgement) (img : List Byte) (b : Nat) : Image := {
  st := .resident, words := v.prog.ins.length, base := b, bound := v.bound, issue := v.issue, keyidx := leAt img 7 1, entry := v.prog.entry
  code := leWords v.prog.ins.length (img.drop (leAt img 12 4)), ftab := v.prog.ftab, jtabs := v.prog.jtabs, ttab := v.prog.ttab, cntN := leAt img 44 4 }

/-- The slot that a BIND describes (R94). -/
def boundSlot (pf : Pf) (req : BindReq) : Slot := {
  handle := req.handle, fault := req.fault, fallback := req.fallback.toNat, scope := req.scope, owner := pf, cntBase := req.cntBase, cntCount := req.cntCount }

/-- A staged binding, or its removal, in force under the epoch `e` (R103, R104). -/
def inForce (e : Nat) (y : Dev) (z : Staged) : Dev :=
  match z.bind with
  | some b => y.setSlot (slotKey z.pipe z.slot) { b with epoch := e }
  | none => (y.setSlot (slotKey z.pipe z.slot) { epoch := e }).ownSlot (slotKey z.pipe z.slot) none

/-! ## Requests that the loader serves -/

section Requests

variable {s : State} {pf : Pf} (hs : s.dev.loaderServes pf = true)

include hs

/-- A LOAD that fails a check is answered with the check's code and word (R94, R96). -/
theorem load_refused {len : Nat} {image : List Byte} (hv : (loadVerdict s.dev len image).code ≠ 0) :
    let v := loadVerdict s.dev len image
    exec (.loaderLoad pf len image) s = .next { s with dev := s.dev.loaderAnswer s.time pf 1 v.code 0 v.bound v.issue v.word } := by
  unfold loadVerdict imageBytes at hv
  simp [execLoaderLoad, onDev, hs, hv, loadVerdict, imageBytes]

/-- A verified image takes the lowest free run and the lowest free handle: at once, or when the reload of a bay's store that is
under way has ended (R107, R108). -/
theorem load_placed {len : Nat} {image : List Byte} {b i : Nat} (hv : (loadVerdict s.dev len image).code = 0)
    (hb : lowestRun s.dev (loadVerdict s.dev len image).prog.ins.length = some b) (hi : lowestHandle s.dev = some i) :
    let l : Loading := ⟨pf, i + 1, residentImage (loadVerdict s.dev len image) (imageBytes len image) b⟩
    exec (.loaderLoad pf len image) s = .next { s with
      dev := if s.dev.reloading then { s.dev with prog := { s.dev.prog with loading := some l } } else s.dev.loaded s.time l } := by
  unfold lowestRun at hb
  unfold lowestHandle at hi
  unfold loadVerdict imageBytes at hv hb
  simp only [exec_loaderLoad, execLoaderLoad, onDev, hs, Bool.not_true, Bool.false_eq_true, if_false, hv, ne_eq, not_true_eq_false,
    hi, loadVerdict, imageBytes, residentImage]
  -- the search for a run as the model writes it, which is that of `lowestRun`
  generalize hr : List.foldl _ none _ = run
  obtain rfl : run = some b := hr.symm.trans hb
  rfl

/-- A BIND that passes its checks is staged (R95). -/
theorem bind_staged {req : BindReq} (h : s.dev.bindFails pf req.mask req.slot req.scope req.fault req.zeroOk (some req.handle) = 0) :
    exec (.loaderBind pf req) s = .next { s with
      dev := (s.dev.stage pf req.mask req.slot (some (boundSlot pf req))).loaderAnswer s.time pf 2 0 req.handle } := by
  simp [execLoaderBind, onDev, hs, h, boundSlot]

theorem unbind_staged {mask slot : Nat} (h : s.dev.bindFails pf mask slot 0 0 true none = 0) :
    exec (.loaderUnbind pf mask slot true) s = .next { s with
      dev := (s.dev.stage pf mask slot none).loaderAnswer s.time pf 3 0 0 } := by
  simp [execLoaderUnbind, onDev, hs, h]

/-- A COMMIT that passes its checks puts all that its function staged in force under the next epoch, with EVT 4.1 (R103, R104). -/
theorem commit_inForce (h : s.dev.commitFails (s.dev.staged pf) = 0) :
    let e := s.dev.rd PGM.EPOCH_EPOCH + 1
    exec (.loaderCommit pf) s = .next { s with
      dev := (((((s.dev.staged pf).foldl (inForce e) (s.dev.setStaged pf [])).wr PGM.EPOCH_EPOCH 0 e).raise s.time (ev 4 1) e
        (some (4096 * pf.val))).loaderAnswer s.time pf 4 0 0) } := by
  simp only [exec_loaderCommit, execLoaderCommit, onDev, hs, h, Bool.not_true, Bool.false_eq_true, ne_eq, not_true_eq_false, if_false]
  rfl

/-- An image that no slot and no staged BIND names drains (R105). -/
theorem unload_drains {handle : Byte} (hx : (s.dev.image handle.toNat).st ≠ .free) (hb : s.dev.imageBound handle.toNat = false)
    (h0 : s.dev.staged 0 = []) (h1 : s.dev.staged 1 = []) :
    let h := handle.toNat
    exec (.loaderUnload pf handle) s = .next { s with
      dev := (s.dev.setImage h { s.dev.image h with st := .draining }).loaderAnswer s.time pf 5 0 h } := by
  simp [execLoaderUnload, onDev, hs, hx, hb, h0, h1]

theorem query_image {handle : Byte} (hx : (s.dev.image handle.toNat).st ≠ .free) :
    let h := handle.toNat
    let x := s.dev.image h
    exec (.loaderQuery pf (.image handle)) s = .next { s with
      dev := s.dev.loaderAnswer s.time pf 6 0 h x.bound x.issue 0
        (leBytes 4 (s.dev.rd PGM.IMGA_STATE h) ++ leBytes 4 x.words ++ leBytes 4 x.base ++ leBytes 4 x.keyidx) } := by
  simp [execLoaderQuery, onDev, hs, hx]

end Requests

/-! ## What needs no turn of the loader -/

/-- A draining image that nothing uses is freed (R105). -/
theorem imageFreed_frees {s : State} {handle : Byte} (hx : (s.dev.image handle.toNat).st = .draining)
    (hu : s.dev.imageUsed handle.toNat = false) :
    exec (.imageFreed handle) s = .next { s with dev := s.dev.setImage handle.toNat {} } := by
  simp [execImageFreed, onDev, hx, hu]

/-- An index from 1 on that holds no key takes the hash (R92). -/
theorem enrol_marks {s : State} {pf : Pf} {idx : Fin 4} {hash : BitVec 384} (h0 : idx ≠ 0)
    (he : s.dev.rdBit PGM.KEYSTAT_ENROLLED 0 idx = false) :
    let d := s.dev
    let marked := { d with prog := { d.prog with
      keyHash := put none d.prog.keyHash idx (some hash.toNat) } }.wrBit PGM.KEYSTAT_ENROLLED 0 idx true
    exec (.enrol pf idx hash) s = .next { s with dev := marked.drawn.answerKey pf (leBytes 1 d.freeVal.toNat) } := by
  simp only [exec_enrol, execEnrol, onDev, Fin.val_ne_zero_iff.2 h0, he, Bool.false_eq_true, or_self, if_false]
  rfl

theorem revoke_marks {s : State} {pf : Pf} {idx : Fin 4} : exec (.revoke pf idx) s = .next { s with
    dev := (s.dev.wrBit PGM.KEYSTAT_REVOKED 0 idx true).drawn.answerKey pf (leBytes 1 s.dev.freeVal.toNat) } := rfl

theorem cntsel_selects {s : State} {pf : Pf} {kind : Fin 4} {index : BitVec 20} :
    exec (.cntselWrite pf kind index) s = .next { s with dev := s.dev.selectCount pf kind index.toNat } := rfl

/-- A selected program counter is cleared (R571). -/
theorem cntclr_clears {s : State} {pf : Pf}
    (h : s.dev.selected pf (s.dev.rd PGM.CNTSEL_KIND pf) (s.dev.rd PGM.CNTSEL_INDEX pf) = some 0) :
    let d := s.dev
    let i := d.rd PGM.CNTSEL_INDEX pf
    exec (.cntclr pf) s = .next { s with
      dev := { d with eng := { d.eng with cntPkts := put 0 d.eng.cntPkts i 0, cntBytes := put 0 d.eng.cntBytes i 0 } } } := by
  simp [execCntclr, onDev, h]

/-- Settles O18: the requests of the loader, the signing keys, and the counts. -/
theorem loaderResults : Obligations.LoaderResults := by
  intro s pf len b i image req handle idx hash kind index mask slot hs
  refine ⟨fun hv hr hb hi => ?placed, fun hv hr hb hi => ?waits, load_refused hs, bind_staged hs, unbind_staged hs, commit_inForce hs,
    unload_drains hs, query_image hs, imageFreed_frees, enrol_marks, revoke_marks, cntsel_selects, cntclr_clears⟩
  case placed | waits => exact (load_placed hs hv hb hi).trans (by rw [hr]; rfl)

end Sys2Proof.Proofs
end

section
/-! Proofs of the statements of 05_ports_mac: lane modes and links, what a port receives, and what a MAC sends. -/

namespace Sys2Proof.Proofs

open Sys2Proof.Machine Sys2Proof.Laws

/-! # What raising an event leaves (18 R478, R495, R496) -/

/-- The register fields that raising an event writes. -/
def eventFields : List Fld :=
  [EVT.PEND_BITS, EVT.RECSTAT_LOST, EVT.COUNT_COUNT, DKW.SMCNT_DET, DKW.CAUSE_SOURCE, DKW.CAUSE_SM, DKW.CAUSE_INFO, DKW.FTIME_NS,
   DKW.FTIME_SEC, DKW.STATUS_SECOND]

theorem eventFields_id_lt : ∀ f ∈ eventFields, f.id < 1024 := by decide

/-- What stays of the registers and of the contracts when only event handling lies between two devices; `EventFrame` has the rest. -/
structure EventLeaves (d e : Dev) : Prop where
  rd        : ∀ (f : Fld) (i : Nat), f.id < 1024 → f.id ∉ eventFields.map Fld.id → e.rd f i = d.rd f i
  contracts : e.adm.contracts = d.adm.contracts

theorem EventLeaves.of_same {d e : Dev} (hr : e.regs = d.regs) (hc : e.adm.contracts = d.adm.contracts) : EventLeaves d e :=
  ⟨fun _ _ _ _ => by simp only [Dev.rd, hr], hc⟩

theorem EventLeaves.refl (d : Dev) : EventLeaves d d := .of_same rfl rfl

theorem EventLeaves.trans {a b c : Dev} (h : EventLeaves a b) (k : EventLeaves b c) : EventLeaves a c :=
  ⟨fun f i hf hn => (k.rd f i hf hn).trans (h.rd f i hf hn), k.contracts.trans h.contracts⟩

theorem wr_leaves (d : Dev) (f : Fld) (i v : Nat) (hf : f ∈ eventFields := by simp [eventFields]) : EventLeaves d (d.wr f i v) :=
  ⟨fun _ _ hg hn => rd_wr_other d v (eventFields_id_lt f hf) hg (.inl fun h => hn (h ▸ List.mem_map_of_mem hf)), rfl⟩

theorem evt_leaves (d : Dev) (e : EvtState) : EventLeaves d { d with evt := e } := .of_same rfl rfl

theorem dkw_leaves (d : Dev) (k : Dkw) : EventLeaves d { d with dkw := k } := .of_same rfl rfl

theorem send_leaves (d : Dev) (o : Out) : EventLeaves d (d.send o) := .of_same rfl rfl

theorem setFn_leaves (d : Dev) (f : Nat) (x : HostFn) : EventLeaves d (d.setFn f x) := .of_same rfl rfl

theorem revalidate_leaves (d : Dev) (c : Nat) : EventLeaves d (d.revalidate c) := .of_same rfl rfl

theorem csrs_leaves (d : Dev) (t : Tbl Csr) : EventLeaves d { d with eng := { d.eng with csrs := t } } := .of_same rfl rfl

theorem irqAll_leaves (d : Dev) (g : Nat) : EventLeaves d (d.irqAll g) := by
  unfold Dev.irqAll
  exact csrs_leaves d _

theorem bump_leaves (d : Dev) (f : Fld) (i n : Nat) (hf : f ∈ eventFields := by simp [eventFields]) : EventLeaves d (d.bump f i n) :=
  wr_leaves d f i _ hf

theorem foldl_leaves {α : Type} (g : Dev → α → Dev) (h : ∀ d a, EventLeaves d (g d a)) :
    ∀ (l : List α) (d : Dev), EventLeaves d (l.foldl g d)
  | [], d => .refl d
  | a :: l, d => (h d a).trans (foldl_leaves g h l (g d a))

theorem vector_leaves (d : Dev) (f v : Nat) : EventLeaves d (d.vector f v) := by
  simp only [Dev.vector]
  split
  · exact .refl d
  · split
    · exact setFn_leaves ..
    · exact send_leaves ..

theorem latchEvent_leaves (d : Dev) (v s : Nat) : EventLeaves d (d.latchEvent v s) := by
  have hw : EventLeaves d (d.wrBit EVT.PEND_BITS (16 * v + s / 32) (s % 32) true) := wr_leaves d EVT.PEND_BITS _ _
  simp only [Dev.latchEvent]
  split
  · exact hw.trans (vector_leaves ..)
  · exact hw

theorem recordEvent_leaves (d : Dev) (v : Nat) (r : EvRecord) : EventLeaves d (d.recordEvent v r) := by
  have hb (i : Nat) : EventLeaves d (d.bump EVT.RECSTAT_LOST i) := bump_leaves d EVT.RECSTAT_LOST i 1
  unfold Dev.recordEvent
  split
  · split
    · exact evt_leaves ..
    · exact hb 0
  · split
    · exact evt_leaves ..
    · exact hb 1

theorem routeEvent_leaves (d : Dev) (now : NetTime) (s info : Nat) (p : Option Nat) : EventLeaves d (d.routeEvent now s info p) := by
  have h := (((irqAll_leaves d (s / 32)).trans (foldl_leaves _ (fun y v => latchEvent_leaves y v s) (viewsOf p) _)).trans
    (foldl_leaves _ (fun y v => recordEvent_leaves y v { src := s, polder := p, info := info, time := now.tsin }) (viewsOf p) _)).trans
    (bump_leaves _ EVT.COUNT_COUNT s 1)
  simp only [Dev.routeEvent]
  split
  · exact h.trans (send_leaves ..)
  · exact h

theorem detected_leaves (d : Dev) (now : NetTime) (m s i : Nat) : EventLeaves d (d.detected now m s i) := by
  unfold Dev.detected
  extract_lets d1 a k d2 d3 j
  have h1 : EventLeaves d d1 := bump_leaves d DKW.SMCNT_DET m 1
  have h2 : EventLeaves d1 d2 := by
    simp only [d2]
    split
    · exact .refl _
    · have ha : EventLeaves d1 a := ((((wr_leaves d1 DKW.CAUSE_SOURCE _ _).trans (wr_leaves _ DKW.CAUSE_SM _ _)).trans
        (wr_leaves _ DKW.CAUSE_INFO _ _)).trans (wr_leaves _ DKW.FTIME_NS _ _)).trans (wr_leaves _ DKW.FTIME_SEC _ _)
      exact ha.trans (dkw_leaves a _)
  have h3 : EventLeaves d2 d3 := by
    simp only [d3]
    split
    · refine .trans (.trans ?_ (wr_leaves _ DKW.STATUS_SECOND _ _)) (routeEvent_leaves ..)
      split
      · exact .refl _
      · exact revalidate_leaves ..
    · exact .refl _
  split
  · exact ((h1.trans h2).trans h3).trans (dkw_leaves d3 _)
  · exact (h1.trans h2).trans h3

/-- Raising an event writes no register field but those of `eventFields`, and changes no contract. -/
theorem raise_leaves (d : Dev) (now : NetTime) (s info : Nat) (p : Option Nat) : EventLeaves d (d.raise now s info p) := by
  unfold Dev.raise
  extract_lets lost d0 d1 e
  have h0 : EventLeaves d d0 := routeEvent_leaves ..
  have h1 : EventLeaves d0 d1 := by
    simp only [d1]
    split
    · exact detected_leaves ..
    · exact .refl _
  split
  · exact ((h0.trans h1).trans (evt_leaves d1 _)).trans (routeEvent_leaves ..)
  · exact h0.trans h1

/-! # Lane-group modes (R112 to R114, R117) -/

section Modes

variable {s : State} {port : Fin 16}

/-- A mode that GMODE allows starts a change when no port of the groups it concerns is enabled (R114). -/
theorem modeApply_starts (hp : port.val % 4 = 0) (hr : s.dev.applyRuns (port / 4) = false)
    (hm : s.dev.modeRefused port (s.dev.rd PRT.MODE_GMODE port) = false)
    (he : ∀ n < 16, (s.dev.affected (port / 4) (s.dev.rd PRT.MODE_GMODE port)).contains (n / 4) = true → s.dev.rd PRT.CTL_EN n = 0) :
    let mode := s.dev.rd PRT.MODE_GMODE port
    let running := s.dev.wr PRT.MODE_STATE port 1
    exec (.modeApply port) s = .next { s with
      dev := ({ running with mac := { running.mac with applying := put 0 running.mac.applying (port / 4) (mode + 1) } } : Dev).resetLanes
        (s.dev.affected (port / 4) mode) } := by
  have hno : (List.range 16).any (fun n => (s.dev.affected (port / 4) (s.dev.rd PRT.MODE_GMODE port)).contains (n / 4) &&
      decide (s.dev.rd PRT.CTL_EN n = 1)) = false := by
    simp only [List.any_eq_false, List.mem_range, Bool.and_eq_true, decide_eq_true_eq, not_and]
    intro n hn hc
    simp [he n hn hc]
  simp only [exec_modeApply, execModeApply, onDev, hp, hr, hm, hno, ne_eq, not_true_eq_false, Bool.or_self, Bool.false_eq_true, if_false]

/-- A mode that is not allowed is refused with EVT 5.22 (R114). -/
theorem modeApply_refuses (hp : port.val % 4 = 0) (hr : s.dev.applyRuns (port / 4) = false)
    (hm : s.dev.modeRefused port (s.dev.rd PRT.MODE_GMODE port) = true) :
    exec (.modeApply port) s = .next { s with dev := (s.dev.wr PRT.MODE_STATE port 2).raise s.time (ev 5 22) (port / 4 * 4) } := by
  simp [execModeApply, onDev, hp, hr, hm]

theorem portEnable_enables {lt : Bool} (hx : s.dev.portExists port = true) (hr : s.dev.ready port = true) :
    exec (.portEnable port lt) s = .next { s with
      dev := ((s.dev.wr PRT.CTL_LT port (if lt then 1 else 0)).wr PRT.CTL_EN port 1).commit [(2, port / 4)] } := by
  simp [execPortEnable, onDev, hx, hr]

variable {g : Fin 4} {m : Nat} (ha : look 0 s.dev.mac.applying g = m + 1)

include ha

/-- The change that ends puts its mode in force: the ports of its groups start afresh, and the groups leave reset (R114). -/
theorem modeChangeDone_inForce (hu : ¬ (g.val % 2 = 1 ∧ s.dev.groupMode g = 4)) :
    let gs := s.dev.affected g m
    let shown := ((s.dev.putMode g m).commit (gs.map (fun k => (2, k)))).wr PRT.MODE_STATE (4 * g) 0
    let ended : Dev := { shown with mac := { shown.mac with applying := put 0 shown.mac.applying g 0 } }
    let fresh := (List.range 16).foldl (fun (y : Dev) n => if gs.contains (n / 4) then (y.freshPort n).showLineInc n else y) ended
    exec (.modeChangeDone g) s = .next { s with
      dev := (gs.foldl (fun (y : Dev) k => y.wrBit CLK.RGSTAT_INRESET 0 (12 + k) false) fresh).undoPairs.showPaths s.time } := by
  simp only [exec_modeChangeDone, execModeChangeDone, onDev, ha, hu, decide_false, Bool.false_eq_true, if_false]

/-- A change of an upper group that a pairing has overtaken brings no mode and touches no port (R113). -/
theorem modeChangeDone_overtaken (h1 : g.val % 2 = 1) (h4 : s.dev.groupMode g = 4) :
    let shown := s.dev.wr PRT.MODE_STATE (4 * g) 0
    exec (.modeChangeDone g) s = .next { s with
      dev := ({ shown with mac := { shown.mac with applying := put 0 shown.mac.applying g 0 } } : Dev).undoPairs.showPaths s.time } := by
  simp only [exec_modeChangeDone, execModeChangeDone, onDev, ha, h1, h4, and_self, decide_true, if_true, List.contains_nil,
    Bool.false_eq_true, if_false, List.foldl_nil, List.foldl_fixed]

end Modes

/-! # Links (R117, R119, R124, R126, R135) -/

section Links

variable {s : State} {port : Fin 16}

/-- A port whose link has come up: lanes trained, status and speed shown (R117). -/
def linkShown (d : Dev) (n : Nat) : Dev :=
  ((((List.range (d.portLanes n)).foldl (fun (y : Dev) k => y.trainLane (n + k)) d).wr PRT.STATUS_LINK n 1).wr PRT.STATUS_ALIGN n 1).wr
    PRT.STATUS_SPEED n (d.portSpeed n)

/-- Verification starts with its first attempt where PREEMPT.VERIFY asks for it, and is off otherwise (R126). -/
def verifyStarts (d y : Dev) (n : Nat) : Dev :=
  if d.rd PRT.PREEMPT_VERIFY n = 1 then
    ((y.wr PRT.STATUS_PVERIFY n 1).setPort n { y.port n with tries := 1 }).toLine n (.verify n false) .verify
  else y.wr PRT.STATUS_PVERIFY n 0

/-- An enabled port's link comes up unless its transmitter is squelched (R117; 18 R481). -/
theorem linkUp_rises (hx : s.dev.portExists port = true) (he : s.dev.rd PRT.CTL_EN port = 1) (hl : s.dev.linkUp port = false)
    (hd : s.dev.portDark port = false) :
    exec (.linkUp port) s = .next { s with
      dev := (((verifyStarts s.dev (linkShown s.dev port) port).linkAen port).raise s.time (ev 5 port) port).revalidate 5 } := by
  simp [execLinkUp, onDev, hx, he, hl, hd, verifyStarts, linkShown]

theorem linkDown_falls {y : Dev} (hl : s.dev.linkUp port = true) (h : s.dev.linkFalls s.time port = y) :
    exec (.linkDown port) s = .next { s with dev := y } := by
  simp [execLinkDown, onDev, hl, h]

/-- A port whose link has gone down, before its path fails: its frames are ended and the frame it was receiving is counted (R124, R135). -/
def linkFallen (d : Dev) (now : NetTime) (n : Nat) : Dev :=
  let cut := if (d.port n).rxOpen.isSome then (d.endFrames n).bump PRT.RXFCS_COUNT n else d.endFrames n
  let still := cut.setPort n { cut.port n with tries := 0, rxOpen := none, looped := [] }
  let down := (((still.wr PRT.STATUS_LINK n 0).wr PRT.STATUS_ALIGN n 0).wr PRT.STATUS_SPEED n 0).wr PRT.STATUS_PVERIFY n 0
  ((down.linkAen n).raise now (ev 5 n) n).revalidate 5

theorem linkFalls_eq (d : Dev) (now : NetTime) (n : Nat) : d.linkFalls now n =
    match (linkFallen d now n).pathOf n with
    | some i => ((linkFallen d now n).setPathSt i { (linkFallen d now n).pathSt i with upAll := false, hbDue := false }).failPath now i
    | none => linkFallen d now n := by
  rfl

theorem linkFalls_noPath {d : Dev} {now : NetTime} {n : Nat} (h : (linkFallen d now n).pathOf n = none) :
    d.linkFalls now n = linkFallen d now n := by
  rw [linkFalls_eq, h]

/-- A redundant path on the port fails with its link (14 R379). -/
theorem linkFalls_path {d : Dev} {now : NetTime} {n i : Nat} (h : (linkFallen d now n).pathOf n = some i) :
    d.linkFalls now n =
      ((linkFallen d now n).setPathSt i { (linkFallen d now n).pathSt i with upAll := false, hbDue := false }).failPath now i := by
  rw [linkFalls_eq, h]

/-- More symbol errors in a second than a threshold set FECHI, with EVT 5.16 (R119). -/
theorem fecSecond_exceeds (h0 : s.dev.rd PRT.FECTHR_SYMTHR port ≠ 0) (h : s.dev.rd PRT.FECTHR_SYMTHR port < (s.dev.port port).symbols) :
    exec (.fecSecond port) s = .next { s with
      dev := ((s.dev.setPort port { s.dev.port port with symbols := 0 }).wr PRT.STATUS_FECHI port 1).raiseSec s.time (ev 5 16) port port } := by
  simp [execFecSecond, onDev, h0, h]

theorem fecSecond_within (h : (s.dev.port port).symbols ≤ s.dev.rd PRT.FECTHR_SYMTHR port) :
    exec (.fecSecond port) s = .next { s with
      dev := (s.dev.setPort port { s.dev.port port with symbols := 0 }).wr PRT.STATUS_FECHI port 0 } := by
  simp [execFecSecond, onDev, h.not_gt]

/-- Which ports an ACTIVE timed contract leaves by depends on the contracts, their states and the scheduler's nodes alone. -/
theorem timedContract_congr {d e : Dev} (hc : e.adm.contracts = d.adm.contracts) (hs : e.sch = d.sch)
    (hr : ∀ i, e.rd ADM.CSTAT_STATE i = d.rd ADM.CSTAT_STATE i) (n : Nat) : e.timedContract n = d.timedContract n := by
  simp only [Dev.timedContract, hc, hs, hr]

/-- Failing the verification changes no contract: the event and the write of PVERIFY touch none. -/
theorem timedContract_verifyFailed (d : Dev) (now : NetTime) (n m : Nat) :
    ((d.wr PRT.STATUS_PVERIFY n 3).raise now (ev 5 19) n).timedContract m = d.timedContract m := by
  have h := raise_leaves (d.wr PRT.STATUS_PVERIFY n 3) now (ev 5 19) n none
  refine timedContract_congr (d := d) h.contracts (raise_frame ..).sch (fun i => ?_) m
  rw [h.rd ADM.CSTAT_STATE i (by decide) (by decide)]
  exact rd_wr_other d 3 (by decide) (by decide) (.inl (by decide))

/-- Verification runs: PVERIFY reads 1h, and the link is up. -/
structure Verifies (d : Dev) (n : Nat) : Prop where
  running : d.rd PRT.STATUS_PVERIFY n = 1
  up      : d.linkUp n = true

/-- An attempt without a response is followed by the next of three (R126). -/
theorem verifyTimer_triesAgain (hv : Verifies s.dev port) (ht : (s.dev.port port).tries < 3) :
    exec (.verifyTimer port) s = .next { s with
      dev := (s.dev.setPort port { s.dev.port port with tries := (s.dev.port port).tries + 1 }).toLine port (.verify port false) .verify } := by
  simp [execVerifyTimer, onDev, hv.running, hv.up, ht]

/-- The third attempt without a response fails verification, with EVT 5.19 (R126; 21 R546). -/
theorem verifyTimer_fails (hv : Verifies s.dev port) (ht : 3 ≤ (s.dev.port port).tries) :
    let failed := (s.dev.wr PRT.STATUS_PVERIFY port 3).raise s.time (ev 5 19) port
    exec (.verifyTimer port) s = .next { s with dev := if s.dev.timedContract port then failed.revalidate 5 else failed } := by
  simp [execVerifyTimer, onDev, hv.running, hv.up, ht.not_gt, timedContract_verifyFailed]

end Links

/-- Settles O19: the modes of the lane groups, links, the FEC second, and the verification of preemption. -/
theorem portsAndLinks : Obligations.PortsAndLinks := by
  refine ⟨fun s port g lt m => ?modes, fun s port => ?links⟩
  case modes =>
    exact ⟨fun hp hr => ⟨modeApply_starts hp hr, modeApply_refuses hp hr⟩, modeChangeDone_inForce, modeChangeDone_overtaken,
      portEnable_enables⟩
  case links =>
    refine ⟨fun hx he hl hd hv => ?unverified, fun hx he hl hd hv => ?verifies, fun hl hp => ?noPath, fun i hl hp => ?path,
      fecSecond_exceeds, fecSecond_within, fun hv hl => verifyTimer_triesAgain ⟨hv, hl⟩, fun hv hl => verifyTimer_fails ⟨hv, hl⟩⟩
    case unverified | verifies => exact (linkUp_rises hx he hl hd).trans (by simp [verifyStarts, hv, linkShown])
    case noPath => exact linkDown_falls hl (linkFalls_noPath hp)
    case path => exact linkDown_falls hl (linkFalls_path hp)

/-! # What a port receives (R116, R118 to R122, R126, R135) -/

section Receive

variable {s : State} {d : Dev} {now : NetTime} {port : Fin 16} {f1 f2 : AcsFind} {ecc : FrameEcc}

/-- A port that exists, with its link up and no loopback: what arrives at it comes from its lanes (R116, R137). -/
structure Hears (d : Dev) (n : Nat) : Prop where
  created : d.portExists n = true
  up      : d.linkUp n = true
  noLoop  : d.rd PRT.CTL_LOOP n = 0

/-- The lanes send nothing back without far-end loopback (R137). -/
theorem echo_noLoop {n : Nat} (h : d.rd PRT.CTL_LOOP n = 0) (a : Arrival) : d.echo n a = d := by
  simp [Dev.echo, h]

theorem toLine_noLoop {n : Nat} (h : d.rd PRT.CTL_LOOP n = 0) (o : Out) (a : Arrival) : d.toLine n o a = d.send o := by
  simp [Dev.toLine, Dev.toLanes, h]

theorem frameReceive_arrives {a : Arrival} {y : Dev} (h : Hears s.dev port) (ha : s.dev.arrives s.time port a f1 f2 ecc = y) :
    exec (.frameReceive port a f1 f2 ecc) s = .next { s with dev := y } := by
  simp [execFrameReceive, onDev, h.created, h.up, h.noLoop, echo_noLoop, ha]

/-- The MAC's judgement of a whole frame, the length before the FCS (R118, R120, R121). -/
theorem judgeFrame_eq {n t : Nat} {bs : List Byte} {ok : Bool} : d.judgeFrame now n t bs ok f1 f2 ecc =
    if bs.length + 4 < 64 then d.bump PRT.RXRUNT_COUNT n
    else if d.rd PRT.MAXLEN_LEN n < bs.length + 4 then d.bump PRT.RXOVERSIZE_COUNT n
    else if ok then d.goodFrame now n t bs f1 f2 ecc
    else (d.bump PRT.RXFCS_COUNT n).pathError now n := by
  cases ok <;> rfl

/-! ## Reassembly (R122) -/

section Fragments

variable {n : Nat} {num count : Fin 4} {bs : List Byte} {more ok : Bool}

/-- A start fragment at a port that has no frame open is the whole frame, or fails its check, or opens the frame. -/
theorem arrives_start_idle (ho : (d.port n).rxOpen = none) : d.arrives now n (.start num bs more ok) f1 f2 ecc =
    if more = false then d.judgeFrame now n (d.rxTime now n) bs ok f1 f2 ecc
    else if ok = false then d.reassemblyError now n
    else d.setOpen n (some { num := num, bytes := bs, ts := d.rxTime now n }) := by
  simp [Dev.arrives, Dev.startFragment, ho]

/-- A start fragment discards the frame that is open and takes its place. -/
theorem arrives_start_replaces {x : RxOpen} (ho : (d.port n).rxOpen = some x) : d.arrives now n (.start num bs true true) f1 f2 ecc =
    ((d.setOpen n none).reassemblyError now n).setOpen n (some { num := num, bytes := bs, ts := d.rxTime now n }) := by
  simp [Dev.arrives, Dev.startFragment, ho]

theorem arrives_cont_idle (ho : (d.port n).rxOpen = none) :
    d.arrives now n (.cont num count bs more ok) f1 f2 ecc = d.reassemblyError now n := by
  simp only [Dev.arrives, Dev.contFragment, ho]

variable {x : RxOpen} (ho : (d.port n).rxOpen = some x)

include ho

theorem arrives_cont_wrong (h : num.val ≠ x.num ∨ count.val ≠ x.next) :
    d.arrives now n (.cont num count bs more ok) f1 f2 ecc = (d.setOpen n none).reassemblyError now n := by
  simp only [Dev.arrives, Dev.contFragment, ho, h, if_true]

/-- The continuation that is due ends the frame, breaks it by its check, or extends it. -/
theorem arrives_cont_due (hn : num.val = x.num) (hc : count.val = x.next) : d.arrives now n (.cont num count bs more ok) f1 f2 ecc =
    if more = false then (d.setOpen n none).judgeFrame now n x.ts (x.bytes ++ bs) ok f1 f2 ecc
    else if ok = false then (d.setOpen n none).reassemblyError now n
    else (d.setOpen n none).setOpen n (some { x with next := (x.next + 1) % 4, bytes := x.bytes ++ bs }) := by
  simp [Dev.arrives, Dev.contFragment, ho, hn, hc]

end Fragments

/-- Settles O20: what arrives at a port without loopback. -/
theorem receiveResults : Obligations.ReceiveResults := by
  intro s port f1 f2 ecc bs ok more good symbols num count x d gives shut bad judged hx hl hp
  have hears : Hears d port := ⟨hx, hl, hp⟩
  have arrive {a : Arrival} {y : Dev} (h : d.arrives s.time port a f1 f2 ecc = y) : gives a y := frameReceive_arrives hears h
  have judge (y : Dev) (t : Nat) (b : List Byte) (fine : Bool) : y.judgeFrame s.time port t b fine f1 f2 ecc = judged y t b fine :=
    judgeFrame_eq
  refine ⟨arrive (judge ..), fun ho => ?idle, fun ho => ?opened, arrive rfl, arrive rfl, arrive (toLine_noLoop hp ..),
    fun hv => arrive (if_pos hv), arrive rfl⟩
  case idle =>
    exact ⟨arrive ((arrives_start_idle ho).trans (judge ..)), arrive (arrives_start_idle ho), arrive (arrives_start_idle ho),
      arrive (arrives_cont_idle ho)⟩
  case opened =>
    exact ⟨arrive (arrives_start_replaces ho), fun h => arrive (arrives_cont_wrong ho h), fun hn hc =>
      ⟨arrive ((arrives_cont_due ho hn hc).trans (judge ..)), arrive (arrives_cont_due ho hn hc), arrive (arrives_cont_due ho hn hc)⟩⟩

end Receive

/-! # What a MAC sends (R123, R125, R128, R129, R134) -/

section Transmit

variable {s : State} {port : Fin 16}

/-- A port's buffers as a MAC with an idle line finds them: without frames of a quarantined path, and without the first two of a class
that can never be sent (R302, R326). -/
def trimmedLine (d : Dev) (now : NetTime) (n : Nat) : Dev :=
  (List.range 8).foldl (fun (y : Dev) c => y.trimClass now n c 2) (d.quarRemove n)

/-- A MAC whose line is idle and whose link stands once its buffers are trimmed (R123; 18 R481). -/
structure LineFree (s : State) (n : Nat) : Prop where
  created : s.dev.portExists n = true
  notSafe : s.dev.portSafe n = false
  idle    : (s.dev.port n).tx = none
  up      : (trimmedLine s.dev s.time n).linkUp n = true

/-- What an idle MAC does with what may start next (R123, R125). -/
def lineTakes (d : Dev) (now : NetTime) (n : Nat) (crcOk : Bool) : Option (Nat × Start) → Dev
  | none => d
  | some (c, .beat i) => if d.linkUp n then d.sendBeat now n c i else d
  | some (_, .resume t) => (d.setPort n { d.port n with held := none }).onWire n t
  | some (c, .head p) => d.sendHead now n c p crcOk

theorem lineTakes_nothing (d : Dev) (now : NetTime) (n : Nat) (crcOk : Bool) : lineTakes d now n crcOk none = d := rfl

theorem lineTakes_resumes (d : Dev) (now : NetTime) (n : Nat) (crcOk : Bool) (c : Nat) (t : TxFrame) :
    lineTakes d now n crcOk (some (c, .resume t)) = (d.setPort n { d.port n with held := none }).onWire n t := rfl

theorem lineTakes_head {d : Dev} {now : NetTime} {n c : Nat} {crcOk : Bool} {p : Packet} {y : Dev} (h : d.sendHead now n c p crcOk = y) :
    lineTakes d now n crcOk (some (c, .head p)) = y := h

theorem transmitStart_lineTakes {crcOk : Bool} {next : Option (Nat × Start)} {y : Dev} (h : LineFree s port)
    (hn : (trimmedLine s.dev s.time port).nextStart s.time port = next)
    (hy : lineTakes (trimmedLine s.dev s.time port) s.time port crcOk next = y) :
    exec (.transmitStart port crcOk) s = .next { s with dev := y } := by
  obtain ⟨hx, hs, hi, hu⟩ := h
  subst hy
  unfold trimmedLine at *
  simp only [exec_transmitStart, execTransmitStart, onDev, hx, hs, hi, hu, hn, Option.isSome_none, Bool.not_true, Bool.or_self,
    Bool.false_eq_true, false_and, if_false]
  obtain _ | ⟨c, i | t | p⟩ := next
  all_goals simp only [lineTakes, hu, if_true]

section Head

variable {d : Dev} {now : NetTime} {n c : Nat} {p : Packet}

/-- The frame that the head of a class buffer makes at the MAC. -/
def headFrame (d : Dev) (now : NetTime) (n c : Nat) (p : Packet) : TxFrame :=
  { pkt := p, cls := c, bytes := d.leaving n p, preempt := d.preemptClass n c, ts := d.txTime now n }

/-- The head of a class buffer taken, and its class charged with the frame (11 R297). -/
def headCharged (d : Dev) (n c : Nat) (p : Packet) : Dev :=
  (d.setClassBuf n c ((d.classBuf n c).drop 1)).chargeClass n c ((d.leaving n p).length + 4)

/-- A frame longer than MAXLEN is dropped (R121). -/
theorem sendHead_tooLong {crcOk : Bool} (hl : d.rd PRT.MAXLEN_LEN n < (d.leaving n p).length + 4) :
    d.sendHead now n c p crcOk =
      ((d.setClassBuf n c ((d.classBuf n c).drop 1)).bump PRT.TXDISCARD_COUNT n).macDone (headFrame d now n c p) false none := by
  simp only [Dev.sendHead, hl, if_true, headFrame]

variable (hu : d.linkUp n = true) (hl : (d.leaving n p).length + 4 ≤ d.rd PRT.MAXLEN_LEN n)

include hu hl

/-- A frame goes on to the wire with its one-step time stamp (R123; 12 R317). -/
theorem sendHead_sends :
    let r := (headCharged d n c p).oneStep now n (headFrame d now n c p).ts p (d.leaving n p)
    d.sendHead now n c p true = (r.1.takeBase n).onWire n { headFrame d now n c p with bytes := r.2 } := by
  simp [Dev.sendHead, hu, hl.not_gt, headFrame, headCharged]

/-- A frame whose payload fails its CRC ends with the inverted FCS (18 R480, SM 7). -/
theorem sendHead_payloadFails :
    d.sendHead now n c p false =
      (((headCharged d n c p).takeBase n).spoil n (headFrame d now n c p)).payloadFailure now (some n) := by
  simp [Dev.sendHead, hu, hl.not_gt, headFrame, headCharged]

end Head

/-! ## The frame on the wire: preemption, end and underrun -/

/-- The frame on the wire has gone out whole and is counted (R134). -/
def frameEnded (d : Dev) (n : Nat) (t : TxFrame) : Dev :=
  ((((d.setPort n { d.port n with tx := none }).toLine n (.frame n t.bytes true) (.frame t.bytes true)).bump PRT.TXFRAMES_COUNT n).bump
    PRT.TXOCTETS_COUNT n (t.bytes.length + 4)).bump PRT.TXCLASS_COUNT (8 * n + t.cls)

section OnWire

variable {t : TxFrame} (ht : (s.dev.port port).tx = some t)

include ht

/-- An express frame that is ready preempts the frame on the wire (R125). -/
theorem preemption_cuts {len : Nat} (hd : s.dev.divisible port len t = true)
    (hr : ∃ k < 8, s.dev.preemptClass port k = false ∧ (s.dev.startOf s.time port k).isSome = true) :
    exec (.preemption port len) s = .next { s with dev := s.dev.cutFrame port len t } := by
  have hready : (List.range 8).any (fun k => !s.dev.preemptClass port k && (s.dev.startOf s.time port k).isSome) = true := by
    simpa only [List.any_eq_true, List.mem_range, Bool.and_eq_true, Bool.not_eq_true'] using hr
  simp only [exec_preemption, execPreemption, onDev, ht, hd, hready, Bool.and_self, if_true]

/-- The frame that ends leaves the line and is counted; an HBM frame counts as one without underrun (R128, R134). -/
theorem transmitEnd_counts {y : Dev}
    (hy : (if t.pkt.place = .hbm then (frameEnded s.dev port t).cleanFrame port else frameEnded s.dev port t) = y) :
    exec (.transmitEnd port) s = .next { s with dev := (y.capture s.time port t).macDone t true (s.dev.completionTs t) } := by
  subst hy
  simp only [exec_transmitEnd, execTransmitEnd, onDev, ht, frameEnded]

/-- An HBM frame that runs dry ends with the wrong FCS and raises CUR, up to MAXLEN (R128). -/
theorem hbmUnderrun_raisesCut (hp : t.pkt.place = .hbm) :
    let under := ((s.dev.setPort port { s.dev.port port with tx := none, clean := 0 }).spoil port t).bump PRT.TXUNDERRUN_HBM port
    exec (.hbmUnderrun port) s = .next { s with dev := (under.wr PRT.TXCT_CUR port
      (min (under.rd PRT.TXCT_CUR port + 256) (under.rd PRT.MAXLEN_LEN port))).raiseSec s.time (ev 5 17) port port } := by
  simp only [exec_hbmUnderrun, execHbmUnderrun, onDev, ht, hp, ne_eq, not_true_eq_false, if_false]

/-- An express frame that runs dry is a failure of the data-plane checker (R129). -/
theorem expressUnderrun_fails (hp : t.pkt.place = .express) (hb : t.beat = false) :
    let under := ((s.dev.setPort port { s.dev.port port with tx := none }).spoil port t).bump PRT.TXUNDERRUN_EXP port
    exec (.expressUnderrun port) s = .next { s with
      dev := (under.raiseSec s.time (ev 5 18) port port).payloadFailure s.time (some port) } := by
  simp only [exec_expressUnderrun, execExpressUnderrun, onDev, ht, hp, hb, ne_eq, not_true_eq_false, Bool.false_eq_true, or_self, if_false]

end OnWire

end Transmit

/-- Settles O21: the transmit side of a MAC. -/
theorem transmitResults : Obligations.TransmitResults := by
  intro s port crcOk c len p t d gives idle trimmed bs frame taken charged stamped ended counted under expr
  have takes {ok : Bool} {next : Option (Nat × Start)} {y : Dev} (hi : idle) (hu : trimmed.linkUp port = true)
      (hn : trimmed.nextStart s.time port = next) (hy : lineTakes trimmed s.time port ok next = y) : gives (.transmitStart port ok) y := by
    obtain ⟨hx, hs, hidle⟩ := hi
    exact transmitStart_lineTakes ⟨hx, hs, hidle, hu⟩ hn hy
  refine ⟨fun hi hu hn hl => ?sent, fun hi hu hn hl => takes hi hu hn (lineTakes_head (sendHead_tooLong hl)),
    fun hi hu hn => takes hi hu hn (lineTakes_resumes ..), fun hi hu hn => takes hi hu hn (lineTakes_nothing ..), fun ht => ?onWire⟩
  case sent =>
    exact ⟨takes hi hu hn (lineTakes_head (sendHead_sends hu hl)), takes hi hu hn (lineTakes_head (sendHead_payloadFails hu hl))⟩
  case onWire =>
    exact ⟨preemption_cuts ht, fun hp => transmitEnd_counts ht (if_neg hp),
      fun hp => ⟨transmitEnd_counts ht (if_pos hp), hbmUnderrun_raisesCut ht hp⟩, expressUnderrun_fails ht⟩

end Sys2Proof.Proofs
end

section
/-! Proofs of the statement of 06: the commands of the associative search, its profiles and its scrubber. -/

namespace Sys2Proof.Proofs

open Sys2Proof.Machine Sys2Proof.Laws

/-! # Associative search (R150, R159 to R165) -/

/-! ## Profiles and the scrubber -/

/-- The profile that the registers of a pipeline stage (R150). -/
def stagedProfile (d : Dev) (pipe n : Nat) : Profile where
  en := decide (d.rd ACS.PCTL_EN (32 * pipe + n) = 1)
  fmt := d.rd ACS.PCTL_KEYFMT (32 * pipe + n)
  banks := d.stagedBanks pipe n
  cust := d.rd ACS.PCUST_EXT (32 * pipe + n)

/-- A staged profile over one to sixteen different banks of its key's width comes into force (R150). -/
theorem profileApply_inForce {s : State} {pipe : Fin 4} {n : Fin 32} {k : Nat} (hk : 32 * pipe.val + n.val = k)
    (h0 : 0 < s.dev.rd ACS.PCTL_NBANKS k) (h16 : s.dev.rd ACS.PCTL_NBANKS k ≤ 16) (hrep : repeats (s.dev.stagedBanks pipe n) = false)
    (h5 : s.dev.rd ACS.PCTL_KEYFMT k < 5)
    (hw : ∀ b ∈ s.dev.stagedBanks pipe n, s.dev.bankUnits pipe b = fmtUnits (s.dev.rd ACS.PCTL_KEYFMT k)) :
    exec (.profileApply pipe n) s = .next { s with
      dev := ({ s.dev with acs := { s.dev.acs with
        profiles := put {} s.dev.acs.profiles k (stagedProfile s.dev pipe n) } }).wr ACS.PCTL_ERR k 0 } := by
  subst hk
  have hany : (s.dev.stagedBanks pipe n).any (fun b =>
      decide (s.dev.bankUnits pipe b ≠ fmtUnits (s.dev.rd ACS.PCTL_KEYFMT (32 * pipe.val + n.val)))) = false := by
    simpa using hw
  simp only [exec_profileApply, execProfileApply, onDev, Nat.ne_of_gt h0, Nat.not_lt.2 h16, hrep, Nat.not_le.2 h5, hany, Bool.false_eq_true,
    or_self, if_false, stagedProfile]

/-- A staged profile over no bank is refused with ERR and EVT 6.4 (R150). -/
theorem profileApply_noBank {s : State} {pipe : Fin 4} {n : Fin 32} (h : s.dev.rd ACS.PCTL_NBANKS (32 * pipe.val + n.val) = 0) :
    exec (.profileApply pipe n) s = .next { s with
      dev := (s.dev.wr ACS.PCTL_ERR (32 * pipe.val + n.val) 1).raise s.time (ev 6 4) (n.val + pipe.val * 2 ^ 20) } := by
  simp only [exec_profileApply, execProfileApply, onDev, h, true_or, if_true]

/-- The scrubber writes an entry that differs from its shadow again, and reports it (R163). -/
theorem scrub_rewrites {s : State} {pipe : Fin 4} {bank : Fin 64} {index : Fin 2048} (hv : (s.dev.acsEntry pipe bank index).valid = true) :
    exec (.scrub pipe bank index true) s = .next { s with
      dev := (s.dev.acsFinding s.time ACS.SCRUBFIX_COUNT (ev 6 2) pipe bank index).acsSick pipe bank index false } := by
  simp only [exec_scrub, execScrub, onDev, hv, Bool.true_or, Bool.and_self, if_true]

/-! ## What the steps of a command leave of the search arrays -/

theorem foldl_keeps_acs {α : Type} {g : Dev → α → Dev} (h : ∀ d a, (g d a).acs = d.acs) (l : List α) (d : Dev) :
    (l.foldl g d).acs = d.acs := by
  induction l generalizing d with
  | nil => rfl
  | cons a l ih => exact (ih (g d a)).trans (h d a)

@[simp] theorem acsTouched_acs (d : Dev) (pipe bank : Nat) : (d.acsTouched pipe bank).acs = d.acs := by
  refine foldl_keeps_acs (fun y w => ?_) _ d
  split
  next => split <;> rfl
  next => rfl

@[simp] theorem acsResult_acs (d : Dev) (w : Writer) (pipe code : Nat) : (d.acsResult w pipe code).acs = d.acs := rfl

@[simp] theorem postMatch_running (d : Dev) (w : Writer) (pipe profile key : Nat) (m : Option (Nat × Nat)) :
    (d.postMatch w pipe profile key m).acs.running = d.acs.running := by
  cases m <;> rfl

/-! ## The operations (R159 to R164) -/

/-- The entry that a WRITE places: what its writer staged, cut to the width of the bank, and not yet valid (R160, R161). -/
def stagedEntry (d : Dev) (w : Writer) (pipe bank : Nat) : AcsEntry where
  valid := false
  val := d.staged640 ACS.STGVAL_VAL w pipe % 2 ^ (160 * d.bankUnits pipe bank)
  mask := d.staged640 ACS.STGMASK_MASK w pipe % 2 ^ (160 * d.bankUnits pipe bank)
  act := storedAct (d.rd ACS.STGACT_ACT (4 * w.view + pipe))
  actx := d.rd ACS.STGACTX_ACTX (4 * w.view + pipe)

/-- The device once a WRITE has placed its entry. -/
def entryPlaced (d : Dev) (w : Writer) (pipe bank index : Nat) : Dev :=
  (d.setAcsEntry pipe bank index (stagedEntry d w pipe bank)).acsTouched pipe bank

/-- The device once a READ has copied an entry's shadow to its writer's staging registers (R164). -/
def shadowStaged (d : Dev) (w : Writer) (pipe : Nat) (e : AcsEntry) : Dev :=
  (List.range 10).foldl (fun y j => (y.wr ACS.STGVAL_VAL (40 * w.view + 10 * pipe + j) (bitsOf e.val (64 * j) 64)).wr
    ACS.STGMASK_MASK (40 * w.view + 10 * pipe + j) (bitsOf e.mask (64 * j) 64)) d

@[simp] theorem shadowStaged_acs (d : Dev) (w : Writer) (pipe : Nat) (e : AcsEntry) : (shadowStaged d w pipe e).acs = d.acs :=
  foldl_keeps_acs (fun _ _ => by rfl) _ d

section Operations

variable {d : Dev} {w : Writer} {pipe bank index width : Nat}

section Owner

variable (ho : d.ownsBank w pipe bank = true)

include ho

theorem acsWrite_places (hi : index < d.bankEntries pipe bank)
    (ha : w = .control ∨ bitsOf (d.rd ACS.STGACT_ACT (4 * w.view + pipe)) 32 20 = 0) :
    let placed := entryPlaced d w pipe bank index
    d.acsWrite w pipe bank index =
      { placed with acs := { placed.acs with running := put none placed.acs.running pipe (some (w.view, bank, index)) } } := by
  have hact : ¬(w ≠ .control ∧ bitsOf (d.rd ACS.STGACT_ACT (4 * w.view + pipe)) 32 20 ≠ 0) := by tauto
  simp only [Dev.acsWrite, ho, Nat.not_le.2 hi, hact, Bool.not_true, Bool.false_eq_true, if_false, entryPlaced, stagedEntry]

theorem acsInvalidate_clears (hi : index < d.bankEntries pipe bank) :
    d.acsInvalidate w pipe bank index = (d.acsInvalid pipe bank index).acsResult w pipe 0 := by
  simp only [Dev.acsInvalidate, ho, Nat.not_le.2 hi, Bool.not_true, Bool.false_eq_true, if_false]

/-- The owner of a bank of an empty array sets its width where no enabled profile lists it (R165). -/
theorem acsSetwidth_sets (he : d.acs.entries = []) (hp : ∀ m < 32, (d.profile pipe m).en = false) (hw : width < 3) :
    d.acsSetwidth w pipe bank width =
      (if bank < 32 then d.wr ACS.BANKW0_W pipe (setBits (d.rd ACS.BANKW0_W pipe) (2 * bank) 2 width)
        else d.wr ACS.BANKW1_W pipe (setBits (d.rd ACS.BANKW1_W pipe) (2 * (bank - 32)) 2 width)).acsResult w pipe 0 := by
  have hlisted : (List.range 32).any (fun n => (d.profile pipe n).en && (d.profile pipe n).banks.contains bank) = false := by
    simp +contextual [List.any_eq_false, hp]
  simp only [Dev.acsSetwidth, ho, he, hlisted, Nat.ne_of_lt hw, List.any_nil, Bool.not_true, Bool.or_self, decide_false, Bool.false_eq_true,
    if_false]

end Owner

section NotOwner

variable (ho : d.ownsBank w pipe bank = false)

include ho

theorem acsWrite_notOwner : d.acsWrite w pipe bank index = d.acsResult w pipe 1 := by
  simp only [Dev.acsWrite, ho, Bool.not_false, if_true]

theorem acsInvalidate_notOwner : d.acsInvalidate w pipe bank index = d.acsResult w pipe 1 := by
  simp only [Dev.acsInvalidate, ho, Bool.not_false, if_true]

theorem acsSetwidth_notOwner : d.acsSetwidth w pipe bank width = d.acsResult w pipe 1 := by
  simp only [Dev.acsSetwidth, ho, Bool.not_false, if_true]

end NotOwner

theorem acsRead_reads (hi : index < d.bankEntries pipe bank) :
    let e := d.acsEntry pipe bank index
    let v := 4 * w.view + pipe
    d.acsRead w pipe bank index = ((((shadowStaged d w pipe e).wr ACS.STGACT_ACT v e.act).wr ACS.STGACTX_ACTX v e.actx).wr
      ACS.CMDSTAT_VALID v (bitNat e.valid)).acsResult w pipe 0 := by
  simp only [Dev.acsRead, Nat.not_le.2 hi, if_false, shadowStaged]

/-- A search from a place on whose check finds nothing gives the first match from there (R152). -/
theorem search_good_from (now : NetTime) (q : Profile) (key start : Nat) :
    d.search now pipe q key .good .good start = (d, (d.firstMatch pipe q key start).map (fun m => (m.1, m.2.1))) := by
  unfold Dev.search Dev.searchPass
  cases d.firstMatch pipe q key start <;> rfl

theorem acsSearch_posts {now : NetTime} {n : Nat} (he : (d.profile pipe n).en = true) :
    let p := d.profile pipe n
    let key := d.staged640 ACS.STGVAL_VAL w pipe % 2 ^ (160 * fmtUnits p.fmt)
    let unchanged := d.wr ACS.CMDSTAT_CHANGED (4 * w.view + pipe) 0
    d.acsSearch now w pipe n .good .good =
      unchanged.postMatch w pipe n key ((unchanged.firstMatch pipe p key 0).map (fun m => (m.1, m.2.1))) := by
  simp only [Dev.acsSearch, he, search_good, Bool.not_true, Bool.false_eq_true, if_false]

/-- NEXT goes on behind the match that was posted, with the table as it stands (R164). -/
theorem acsNext_posts {now : NetTime} {q : LastSearch} (hq : look none d.acs.searches (4 * w.view + pipe) = some q)
    (he : (d.profile pipe q.profile).en = true) :
    d.acsNext now w pipe .good .good = d.postMatch w pipe q.profile q.key
      ((d.firstMatch pipe (d.profile pipe q.profile) q.key q.place).map (fun m => (m.1, m.2.1))) := by
  simp only [Dev.acsNext, hq, he, search_good_from, Bool.not_true, Bool.false_eq_true, if_false]

theorem acsNext_noSearch {now : NetTime} {f1 f2 : AcsFind} (hq : look none d.acs.searches (4 * w.view + pipe) = none) :
    d.acsNext now w pipe f1 f2 = d.acsResult w pipe 5 := by
  simp only [Dev.acsNext, hq]

end Operations

/-! ## A command that comes (R160) -/

/-- The device once a writer has had its turn in a pipeline (R160). -/
def turnTaken (d : Dev) (w : Writer) (pipe : Nat) : Dev :=
  { d with acs := { d.acs with rot := put 0 d.acs.rot pipe (turnAfter w) } }

/-- The device once an operation has been run: BUSY tells whether a WRITE still runs in the pipeline (R160). -/
def busyShown (y : Dev) (w : Writer) (pipe : Nat) : Dev :=
  y.wr ACS.CMDSTAT_BUSY (4 * w.view + pipe) (bitNat (look none y.acs.running pipe).isSome)

section Runs

variable {d : Dev} {now : NetTime} {w : Writer} {pipe bank index profile width : Nat} {f1 f2 : AcsFind}

theorem acsRun_write : d.acsRun now w pipe { op := 1, bank := bank, index := index } =
    busyShown ((turnTaken d w pipe).acsWrite w pipe bank index) w pipe := rfl

theorem acsRun_invalidate : d.acsRun now w pipe { op := 2, bank := bank, index := index } =
    busyShown ((turnTaken d w pipe).acsInvalidate w pipe bank index) w pipe := rfl

theorem acsRun_read : d.acsRun now w pipe { op := 3, bank := bank, index := index } =
    busyShown ((turnTaken d w pipe).acsRead w pipe bank index) w pipe := rfl

theorem acsRun_search : d.acsRun now w pipe { op := 4, profile := profile, f1 := f1, f2 := f2 } =
    busyShown ((turnTaken d w pipe).acsSearch now w pipe profile f1 f2) w pipe := rfl

theorem acsRun_next : d.acsRun now w pipe { op := 5, f1 := f1, f2 := f2 } =
    busyShown ((turnTaken d w pipe).acsNext now w pipe f1 f2) w pipe := rfl

theorem acsRun_setwidth : d.acsRun now w pipe { op := 6, bank := bank, width := width } =
    busyShown ((turnTaken d w pipe).acsSetwidth w pipe bank width) w pipe := rfl

end Runs

/-- A writer is not BUSY in a pipeline, and no WRITE runs there. -/
structure AcsIdle (d : Dev) (w : Writer) (pipe : Nat) : Prop where
  notBusy : d.rd ACS.CMDSTAT_BUSY (4 * w.view + pipe) ≠ 1
  noWrite : look none d.acs.running pipe = none

section Commands

variable {s : State} {w : Writer} {pipe : Nat} {c : AcsCmd} {i : Instr}
  (hx : exec i s = .next { s with dev := s.dev.acsCommand s.time w pipe c })

include hx

/-- A command of a writer that is BUSY is ignored and counted (R160). -/
theorem acsCommand_busy (hb : s.dev.rd ACS.CMDSTAT_BUSY (4 * w.view + pipe) = 1) :
    exec i s = .next { s with dev := s.dev.bump ACS.CMDSTAT_IGNORED (4 * w.view + pipe) } := by
  rw [hx]
  simp only [Dev.acsCommand, hb, if_true]

variable (h : AcsIdle s.dev w pipe) {op y : Dev} (hop : s.dev.acsRun s.time w pipe c = busyShown op w pipe) (hy : op = y)

include h hop hy

/-- Otherwise its operation runs at once. -/
theorem acsCommand_runs : exec i s = .next { s with dev := busyShown y w pipe } := by
  rw [hx, ← hy, ← hop]
  simp only [Dev.acsCommand, h.notBusy, h.noWrite, Option.isSome_none, Bool.false_eq_true, if_false]

/-- An operation that starts no WRITE is done at once, and BUSY is clear. -/
theorem acsCommand_done (hr : y.acs.running = s.dev.acs.running) :
    exec i s = .next { s with dev := y.wr ACS.CMDSTAT_BUSY (4 * w.view + pipe) 0 } := by
  rw [acsCommand_runs hx h hop hy, busyShown, hr, h.noWrite]
  rfl

/-- An operation that starts a WRITE leaves its writer BUSY. -/
theorem acsCommand_started (hr : (look none y.acs.running pipe).isSome = true) :
    exec i s = .next { s with dev := y.wr ACS.CMDSTAT_BUSY (4 * w.view + pipe) 1 } := by
  rw [acsCommand_runs hx h hop hy, busyShown, hr]
  rfl

end Commands

/-- Settles O15: the commands of the associative search. What an operation reads of the device is as before the turn of its writer. -/
theorem acsCommandResults : Obligations.AcsCommandResults := by
  intro s w pipe n bank index width f1 f2 q d gives v k staged bits written p key turn e ends read placed
  refine ⟨profileApply_inForce rfl, profileApply_noBank, fun hb i hi => ?busy, fun hb hn => ?idle, scrub_rewrites⟩
  case busy =>
    simp only [List.mem_cons, List.not_mem_nil, or_false] at hi
    obtain rfl | rfl | rfl | rfl | rfl | rfl := hi <;> exact acsCommand_busy rfl hb
  case idle =>
    have h : AcsIdle s.dev w pipe := ⟨hb, hn⟩
    refine ⟨fun ho hi => ⟨fun ha => ?write, ?invalidate⟩, fun ho => ?notOwner, fun hi => ?read, fun he => ?search,
      fun hq he => ?next, fun hq => ?noSearch, fun ho he hp hw => ?setwidth⟩
    case write => exact acsCommand_started rfl h acsRun_write (acsWrite_places ho hi ha) (by simp)
    case invalidate =>
      exact acsCommand_done rfl h acsRun_invalidate (acsInvalidate_clears ho hi) (by simp [turn, d])
    case notOwner =>
      exact ⟨acsCommand_done rfl h acsRun_write (acsWrite_notOwner ho) rfl,
        acsCommand_done rfl h acsRun_invalidate (acsInvalidate_notOwner ho) rfl,
        acsCommand_done rfl h acsRun_setwidth (acsSetwidth_notOwner ho) rfl⟩
    case read =>
      have hread : read.acs = turn.acs := shadowStaged_acs turn w pipe e
      exact acsCommand_done rfl h acsRun_read (acsRead_reads hi) (by simp [hread, turn, d])
    case search => exact acsCommand_done rfl h acsRun_search (acsSearch_posts he) (by simp [turn, d])
    case next => exact acsCommand_done rfl h acsRun_next (acsNext_posts hq he) (by simp [turn, d])
    case noSearch => exact acsCommand_done rfl h acsRun_next (acsNext_noSearch hq) rfl
    case setwidth => exact acsCommand_done rfl h acsRun_setwidth (acsSetwidth_sets ho he hp hw) (by split <;> rfl)

end Sys2Proof.Proofs
end

section
/-! Proofs of the statement of 07: forwarding tables, their sweeper and table DMA, learning and dampening. -/

namespace Sys2Proof.Proofs

open Sys2Proof.Machine Sys2Proof.Laws

/-! # Forwarding tables (R170, R171, R179) -/

/-- The placed areas are cleared once, without a lock or a posted marking (R170). -/
theorem areasReady_clears {s : State} (h : s.dev.rd FWD.CFG_READY = 0) : exec .areasReady s = .next { s with
    dev := ({ s.dev with fwd := { s.dev.fwd with buckets := [], locks := [], marks := [] } }).wr FWD.CFG_READY 0 1 } := by
  simp only [exec_areasReady, execAreasReady, onDev, h, Nat.zero_ne_one, if_false]

section Descriptor

variable {s : State} {pipe : Fin 4} {t : Fin 16} {desc : TableDesc}

/-- A refused descriptor leaves its table disabled, with ERR and EVT 7.6 (R171). -/
theorem tableDescriptor_refused (h : s.dev.descRefused pipe t desc = true) :
    let k := 16 * pipe.val + t.val
    exec (.tableDescriptor pipe t desc) s = .next { s with
      dev := ((s.dev.wr FWD.TBL_EN k 0).wr FWD.TBL_ERR k 1).raise s.time (ev 7 6) (t.val + pipe.val * 2 ^ 24) } := by
  simp only [exec_tableDescriptor, execTableDescriptor, onDev, h, if_true]

/-- Any other is written as it stands (R171). -/
theorem tableDescriptor_written (h : s.dev.descRefused pipe t desc = false) :
    let k := 16 * pipe.val + t.val
    exec (.tableDescriptor pipe t desc) s = .next { s with
      dev := ((((((((((s.dev.wr FWD.TBL_EN k (bitNat desc.en)).wr FWD.TBL_KIND k (bitNat desc.kind)).wr FWD.TBL_AGEMODE k desc.agemode).wr
        FWD.TBL_KEYLEN k desc.keylen).wr FWD.TBL_SIZE k desc.size).wr FWD.TBL_ERR k 0).wr FWD.TBL_BASE k desc.base).wr
        FWD.TSEED_SEED1 k desc.seed1.toNat).wr FWD.TSEED_SEED2 k desc.seed2.toNat).wr FWD.TAGE_AGELIM k desc.agelim).wr
        FWD.TAGE_SWEEP k desc.sweep } := by
  simp only [exec_tableDescriptor, execTableDescriptor, onDev, h, Bool.false_eq_true, if_false, List.foldl_cons, List.foldl_nil]

end Descriptor

/-- The oldest posted marking reaches an entry that is valid and not locked (R179). -/
theorem markingWrite_marks {s : State} {area b mode tick : Nat} {rest : List (Nat × Nat × Nat × Nat)}
    (hm : s.dev.fwd.marks = (area, b, mode, tick) :: rest) (hv : eValid (s.dev.bucket area b) = true) (hl : s.dev.lockOf area b = none) :
    let e := s.dev.bucket area b
    exec .markingWrite s = .next { s with
      dev := ({ s.dev with fwd := { s.dev.fwd with marks := rest } }).setBucket area b
        (if mode = 1 then setBits e 16 16 tick else setBit e 4 true) } := by
  simp only [exec_markingWrite, execMarkingWrite, onDev, hm, hv, hl, Option.isSome_none, Bool.not_true, Bool.or_self, Bool.false_eq_true,
    if_false]
  split <;> rfl

/-! # The sweeper (R180) -/

/-- A bucket of an aging table holds an entry that the sweeper judges: valid, not locked, neither STATIC nor damped. -/
structure SweptEntry (d : Dev) (area b p t : Nat) : Prop where
  table     : d.agingTable area b = some (p, t)
  unlocked  : d.lockOf area b = none
  valid     : eValid (d.bucket area b) = true
  notStatic : eStatic (d.bucket area b) = false
  notDamped : eDamp (d.bucket area b) = false

section Sweeper

variable {s : State} {area : Fin 5} {bucket : Fin 16777216} {p t : Nat} (h : SweptEntry s.dev area bucket p t)

include h

/-- In mode 1 an entry as old as the limit is removed. -/
theorem sweepVisit_aged (hm : s.dev.rd FWD.TBL_AGEMODE (16 * p + t) = 1)
    (ha : s.dev.rd FWD.TAGE_AGELIM (16 * p + t) ≤ (s.dev.rd FWD.NOW_TICK + 2 ^ 16 - eAge (s.dev.bucket area bucket)) % 2 ^ 16) :
    exec (.sweepVisit area bucket) s = .next { s with dev := s.dev.ageOut s.time area p t bucket } := by
  simp only [exec_sweepVisit, execSweepVisit, onDev, h.table, h.valid, h.notStatic, h.notDamped, h.unlocked, hm, ha, Option.isSome_none,
    Bool.not_true, Bool.or_self, Bool.false_eq_true, if_false, if_true]

/-- In mode 2 HIT is cleared, then the entry is marked, then it is removed. -/
theorem sweepVisit_secondChance (hm : s.dev.rd FWD.TBL_AGEMODE (16 * p + t) = 2) :
    let e := s.dev.bucket area bucket
    exec (.sweepVisit area bucket) s = .next { s with
      dev := if eHit e then s.dev.setBucket area bucket (setBit (setBit e 4 false) 5 false)
        else if eClr1 e then s.dev.ageOut s.time area p t bucket else s.dev.setBucket area bucket (setBit e 5 true) } := by
  simp only [exec_sweepVisit, execSweepVisit, onDev, h.table, h.valid, h.notStatic, h.notDamped, h.unlocked, hm, Option.isSome_none,
    Bool.not_true, Bool.or_self, Bool.false_eq_true, OfNat.ofNat_ne_one, if_false]

end Sweeper

/-! # Table DMA (R183, R184) -/

theorem noteBarred_of_not_barred {d : Dev} {now : NetTime} {area b : Nat} (h : d.bucketBarred area b = false) : d.noteBarred now area b = d := by
  simp only [Dev.noteBarred, h, Bool.false_eq_true, if_false]

/-- The device once a table-DMA command has locked its bucket, with a copy of what it holds (R183). -/
def lockTaken (d : Dev) (c : TblCmd) : Dev :=
  { d with fwd := { d.fwd with locks := d.fwd.locks ++ [{ area := c.area, bucket := c.bucket, copy := d.bucket c.area c.bucket }] } }

section RunDma

variable {d : Dev} {c : TblCmd}

/-- A command that asks for no comparison, or whose comparison holds, locks its bucket and writes it (R183). -/
theorem runDma_writes (h : c.cmpv = none ∨ c.cmpv = some (eValid (d.bucket c.area c.bucket))) :
    d.runDma c = (lockTaken d c).setBucket c.area c.bucket (maskedWords (d.bucket c.area c.bucket) c.data c.mask) := by
  obtain h | h := h <;> simp [Dev.runDma, h, lockTaken]

/-- One whose comparison fails is answered so, and takes no lock (R183). -/
theorem runDma_compareFails (h : c.cmpv = some (!eValid (d.bucket c.area c.bucket))) :
    d.runDma c = d.send (.message 7 [c.area, c.bucket, 1]) := by
  simp [Dev.runDma, h]

end RunDma

section TableDma

variable {s : State} {area : Fin 5} {bucket : Fin 16777216} {data : BitVec 512} {mask : Byte} {cmpv : Option Bool}

section Command

variable (hb : s.dev.bucketBarred area bucket = false)

include hb

/-- A command that can lock its bucket runs at once (R183). -/
theorem tableDma_runs (hl : s.dev.lockOf area bucket = none)
    (hn : (s.dev.fwd.locks.filter (fun l => decide (l.area = area.val))).length < 64) {y : Dev}
    (hy : s.dev.runDma { area := area, bucket := bucket, data := data.toNat, mask := mask, cmpv := cmpv } = y) :
    exec (.tableDma area bucket data mask cmpv) s = .next { s with dev := y } := by
  subst hy
  simp only [exec_tableDma, execTableDma, onDev, noteBarred_of_not_barred hb, Dev.tableDma, Dev.canLock, hl, hn, Option.isNone_none, decide_true,
    Bool.and_self, if_true]

/-- A command for a locked bucket waits (R183). -/
theorem tableDma_waits {l : TblLock} (hl : s.dev.lockOf area bucket = some l) : exec (.tableDma area bucket data mask cmpv) s =
    .next { s with dev := { s.dev with fwd := { s.dev.fwd with
      dmaWait := s.dev.fwd.dmaWait ++ [{ area := area, bucket := bucket, data := data.toNat, mask := mask, cmpv := cmpv }] } } } := by
  simp only [exec_tableDma, execTableDma, onDev, noteBarred_of_not_barred hb, Dev.tableDma, Dev.canLock, hl, Option.isNone_some,
    Bool.false_and, Bool.false_eq_true, if_false]

end Command

section Locked

variable {l : TblLock} (hl : s.dev.lockOf area bucket = some l)

include hl

/-- A command that completes releases its lock, and the waiting commands go on (R183). -/
theorem lockRelease_releases : exec (.lockRelease area bucket) s =
    .next { s with dev := ((s.dev.unlock area bucket).send (.message 7 [area.val, bucket.val, 0])).dmaNext } := by
  simp only [exec_lockRelease, execLockRelease, onDev, hl, Option.isSome_some, if_true]

/-- A command that is abandoned gives the copy back, releases its lock, and raises EVT 7.4 (R184). -/
theorem lockTimeout_abandons : exec (.lockTimeout area bucket) s = .next { s with
    dev := (((((s.dev.setBucket area bucket l.copy).unlock area bucket).bump FWD.LOCKTIMEOUT_COUNT (if area.val < 4 then area.val else 0)).raise
      s.time (ev 7 4) (bucket.val + area.val * 2 ^ 24)).send (.message 7 [area.val, bucket.val, 2])).dmaNext } := by
  simp only [exec_lockTimeout, execLockTimeout, onDev, hl]

end Locked

end TableDma

/-! # Learning (R188 to R190) -/

/-! ## The settle window -/

/-- The pending-learn memory without an entry whose settle window has ended (R188). -/
def settled (d : Dev) (pipe n : Nat) : Dev := d.setPend pipe ((d.pendOf pipe).eraseIdx n)

/-- The learn ring with the notification of a pending key, where it has room (R188, R191). -/
def learnPosted (d : Dev) (now : NetTime) (pipe : Nat) (x : PendLearn) : Option Dev :=
  d.hringPush now (learnRing pipe) (learnUnits pipe x (d.bucketsOf pipe x.table x.key).1)

section Settle

variable {s : State} {pipe : Fin 4} {n : Fin 256} {x : PendLearn} (hx : (s.dev.pendOf pipe)[n.val]? = some x)
  (hw : x.first + s.dev.rd LRN.CFG_SETTLE * 1000 ≤ s.time.toNs)

include hx hw

/-- A pending key whose window has passed is posted to the learn ring (R188). -/
theorem settleExpiry_posts {y : Dev} (hp : learnPosted (settled s.dev pipe n) s.time pipe x = some y) :
    exec (.settleExpiry pipe n) s = .next { s with dev := y.bump LRN.NOTIF_COUNT pipe } := by
  unfold learnPosted settled at hp
  simp only [exec_settleExpiry, execSettleExpiry, onDev, hx, Nat.not_lt.2 hw, hp, if_false]

/-- Without room in the ring it goes down the spillway (R189). -/
theorem settleExpiry_spills (hp : learnPosted (settled s.dev pipe n) s.time pipe x = none) :
    exec (.settleExpiry pipe n) s = .next { s with dev := (settled s.dev pipe n).learnSpill s.time pipe } := by
  unfold learnPosted settled at hp
  simp only [exec_settleExpiry, execSettleExpiry, onDev, hx, Nat.not_lt.2 hw, hp, settled, if_false]

end Settle

/-! ## The policy -/

/-- Taking an entry from the learn ring writes the ring's head alone. -/
theorem hringPop_learnRing_rd {g : Fld} (d : Dev) (p i : Nat) (hg : g.id < 1024) (hi : LRN.LHEAD_INDEX.id ≠ g.id)
    (hw : LRN.LHEAD_WRAP.id ≠ g.id) : (d.hringPop (learnRing p)).rd g i = d.rd g i := by
  have index : ∀ v, (d.wr LRN.LHEAD_INDEX p v).rd g i = d.rd g i := fun v => rd_wr_other d v (by decide) hg (.inl hi)
  have wrap : ∀ (y : Dev) v, (y.wr LRN.LHEAD_WRAP p v).rd g i = y.rd g i := fun y v => rd_wr_other y v (by decide) hg (.inl hw)
  unfold Dev.hringPop Dev.hringStep learnRing
  split
  · rfl
  · split
    · exact index _
    · exact (wrap _ _).trans (index 0)

/-- An entry that is not to be damped starts no damping (R190). -/
theorem learnEntry_undamped (d : Dev) (now : NetTime) (p t port polder : Nat) (key : List Byte) :
    (d.learnEntry now p t port polder key false).2 = none := by
  unfold Dev.learnEntry
  split <;> rfl

/-- The policy takes the notification at the head of the ring and, for a first sighting of a key, writes the entry (R190). -/
theorem learnNotification_learns {s : State} {pipe : Fin 4} {seen : Dev} {us : List Nat} {u0 : Nat}
    (hp : s.dev.hringPeek s.time (learnRing pipe) = (seen, us)) (hu : us.getD 0 0 = u0) (he : s.dev.hringEmpty (learnRing pipe) = false)
    (hc : u0.testBit 10 = false) (hm : u0.testBit 11 = false) (hs : (seen.hringPop (learnRing pipe)).rd LRN.POLICY_SPREAD = 0) :
    let key := leBytes (seen.rd FWD.TBL_KEYLEN (16 * pipe.val + bitsOf u0 4 4)) (us.getD 2 0 % 2 ^ 64 + us.getD 3 0 % 2 ^ 64 * 2 ^ 64)
    exec (.learnNotification pipe) s = .next { s with
      dev := ((seen.hringPop (learnRing pipe)).learnEntry s.time pipe (bitsOf u0 4 4) (bitsOf u0 16 5) (bitsOf u0 64 13) key false).1 } := by
  have hspread : seen.rd LRN.POLICY_SPREAD = 0 :=
    (hringPop_learnRing_rd seen pipe 0 (by decide) (by decide) (by decide)).symm.trans hs
  simp only [exec_learnNotification, execLearnNotification, onDev, he, hp, hu, hc, hm, hspread, Bool.or_self, Bool.false_and,
    Bool.false_eq_true, Nat.zero_ne_one, if_false, List.foldl_cons, List.foldl_nil, learnEntry_undamped, Option.or_none]

/-- An entry that has been damped for DAMPTIME is invalidated, with EVT 7.3 (R190). -/
theorem dampExpiry_removes {s : State} {area : Fin 5} {bucket : Fin 16777216} {a b since : Nat}
    (hf : s.dev.fwd.damped.find? (fun e => decide (e.1 = area.val ∧ e.2.1 = bucket.val)) = some (a, b, since))
    (ht : since + s.dev.rd LRN.POLICY_DAMPTIME * 1000000 ≤ s.time.toNs) (hl : s.dev.lockOf area bucket = none)
    (hv : eValid (s.dev.bucket area bucket) = true) (hd : eDamp (s.dev.bucket area bucket) = true) :
    let e := s.dev.bucket area bucket
    exec (.dampExpiry area bucket) s = .next { s with
      dev := (({ s.dev with fwd := { s.dev.fwd with
        damped := s.dev.fwd.damped.filter (fun x => decide (x.1 ≠ area.val ∨ x.2.1 ≠ bucket.val)) } }).setBucket area bucket
          (setBit e 0 false)).raise s.time (ev 7 3) (bucket.val + area.val * 2 ^ 24) (some (ePolder e)) } := by
  simp only [exec_dampExpiry, execDampExpiry, onDev, hf, Nat.not_lt.2 ht, hl, hv, hd, Option.isSome_none, Bool.false_eq_true, or_self,
    if_false, Bool.and_self, if_true]

/-- Settles O17: forwarding tables with their sweeper and table DMA; learning and dampening. -/
theorem forwardingAndLearning : Obligations.ForwardingAndLearning := by
  refine ⟨?tables, ?learning⟩
  case tables =>
    intro s pipe t desc area bucket data mask cmpv p n b mode tick l rest
    refine ⟨areasReady_clears, tableDescriptor_refused, tableDescriptor_written, rfl, markingWrite_marks,
      fun ht hl hv hst hda => ?sweep, fun hb hl hn => ?dma, fun hl => ?locked⟩
    case sweep =>
      have h : SweptEntry s.dev area bucket p n := ⟨ht, hl, hv, hst, hda⟩
      exact ⟨sweepVisit_aged h, sweepVisit_secondChance h⟩
    case dma =>
      exact ⟨fun hc => tableDma_runs hb hl hn (runDma_writes hc), fun hc => tableDma_runs hb hl hn (runDma_compareFails hc)⟩
    case locked => exact ⟨fun hb => tableDma_waits hb hl, lockRelease_releases hl, lockTimeout_abandons hl⟩
  case learning =>
    intro s pipe n area bucket x y since who
    exact ⟨fun hx hw => ⟨settleExpiry_posts hx hw, settleExpiry_spills hx hw⟩, learnNotification_learns rfl rfl, dampExpiry_removes⟩

end Sys2Proof.Proofs
end

section
/-! Proofs of the statement of 08_dispatch_order_completion: the order in which pipelines dispatch, and what the collector takes. -/

namespace Sys2Proof.Proofs

open Sys2Proof.Machine Sys2Proof.Laws

/-! # Lists in an order of rotation (R199, R200, R210) -/

/-- A rotation puts the same numbers in another order. -/
theorem rotated_perm (ptr : Nat) (ks : List Nat) : (rotated ptr ks).Perm ks := by
  have hbelow : (fun k => decide (k < ptr)) = fun k => !decide (ptr ≤ k) := by
    funext k
    rw [← decide_not, decide_eq_decide, Nat.not_le]
  unfold rotated
  rw [hbelow]
  exact List.filter_append_perm _ ks

/-- The one element of a rotation that passes a test alone is all that the test leaves. -/
theorem filter_rotated_range_eq {ptr n j : Nat} {f : Nat → Bool} (hj : j < n) (hf : f j = true) (hother : ∀ i < n, i ≠ j → f i = false) :
    (rotated ptr (List.range n)).filter f = [j] := by
  refine List.perm_singleton.1 (((rotated_perm ptr _).filter f).trans (List.perm_singleton.2 ?_))
  have htest : (List.range n).filter f = (List.range n).filter (· == j) := by
    refine List.filter_congr fun i hi => ?_
    by_cases h : i = j
    · simp [h, hf]
    · simp [h, hother i (List.mem_range.1 hi) h]
  rw [htest, List.filter_beq, List.nodup_range.count, if_pos (List.mem_range.2 hj), List.replicate_one]

/-! # Dispatch (R198 to R203, R207) -/

/-! ## The engines that are chosen (R200) -/

/-- A pipeline chooses no engine that an earlier one chose in the PCLK. -/
theorem chooseEngine_notChosen {d : Dev} {k n : Nat} {chosen : List Nat} (h : d.chooseEngine k chosen = some n) : n ∉ chosen := by
  have hn := (rotated_perm _ _).subset (List.mem_of_find?_eq_some h)
  simp only [List.mem_filter, Bool.and_eq_true, Bool.not_eq_true', List.contains_eq_mem, decide_eq_false_iff_not] at hn
  exact hn.2.2

/-- The engine that a pipeline chooses after others, if its next packet's slot holds an image. -/
def wantedEngine (d : Dev) (k : Nat) (chosen : List Nat) : Option Nat :=
  match d.dispatchNext k with
  | some (_, p) => if (d.slotOf k p).handle = 0 then none else d.chooseEngine k chosen
  | none => none

/-- The pipelines choose one after another, each knowing what was chosen before it. -/
theorem choices_cons (d : Dev) (k : Nat) (ks chosen : List Nat) : d.choices (k :: ks) chosen =
    (wantedEngine d k chosen).elim (d.choices ks chosen) (fun n => (k, n) :: d.choices ks (n :: chosen)) := by
  show (match wantedEngine d k chosen with | some n => (k, n) :: d.choices ks (n :: chosen) | none => d.choices ks chosen) = _
  cases wantedEngine d k chosen <;> rfl

theorem choices_cons_of_none {d : Dev} {k : Nat} {chosen : List Nat} (h : wantedEngine d k chosen = none) (ks : List Nat) :
    d.choices (k :: ks) chosen = d.choices ks chosen := by
  rw [choices_cons, h, Option.elim_none]

theorem choices_cons_of_some {d : Dev} {k n : Nat} {chosen : List Nat} (h : wantedEngine d k chosen = some n) (ks : List Nat) :
    d.choices (k :: ks) chosen = (k, n) :: d.choices ks (n :: chosen) := by
  rw [choices_cons, h, Option.elim_some]

theorem wantedEngine_notChosen {d : Dev} {k n : Nat} {chosen : List Nat} (h : wantedEngine d k chosen = some n) : n ∉ chosen := by
  unfold wantedEngine at h
  split at h
  · split at h
    · cases h
    · exact chooseEngine_notChosen h
  · cases h

/-- The engines chosen in a PCLK are new to it, and no two pipelines choose one engine (R200). -/
theorem choices_distinct (d : Dev) : ∀ ks chosen : List Nat,
    (∀ n ∈ (d.choices ks chosen).map (fun e => e.2), n ∉ chosen) ∧ ((d.choices ks chosen).map (fun e => e.2)).Nodup
  | [], _ => by simp [Dev.choices]
  | k :: ks, chosen => by
    cases hw : wantedEngine d k chosen with
    | none =>
      rw [choices_cons_of_none hw]
      exact choices_distinct d ks chosen
    | some n =>
      obtain ⟨hnew, hnodup⟩ := choices_distinct d ks (n :: chosen)
      rw [choices_cons_of_some hw, List.map_cons]
      refine ⟨fun m hm => ?_, List.nodup_cons.2 ⟨fun hn => hnew n hn List.mem_cons_self, hnodup⟩⟩
      rcases List.mem_cons.1 hm with rfl | hm
      · exact wantedEngine_notChosen hw
      · exact fun hc => hnew m hm (List.mem_cons_of_mem n hc)

/-- Pipelines with nothing to dispatch choose no engine. -/
theorem choices_idle_append {d : Dev} {ks : List Nat} (h : ∀ j ∈ ks, d.dispatchNext j = none) (l chosen : List Nat) :
    d.choices (ks ++ l) chosen = d.choices l chosen := by
  induction ks with
  | nil => rfl
  | cons j ks ih =>
    have hw : wantedEngine d j chosen = none := by simp [wantedEngine, h j List.mem_cons_self]
    rw [List.cons_append, choices_cons_of_none hw, ih fun i hi => h i (List.mem_cons_of_mem j hi)]

theorem choices_idle {d : Dev} {ks : List Nat} (h : ∀ j ∈ ks, d.dispatchNext j = none) (chosen : List Nat) : d.choices ks chosen = [] := by
  simpa [Dev.choices] using choices_idle_append h [] chosen

/-! ## The packets that wait for dispatch (R198) -/

/-- The packets of a pipeline that wait for dispatch: those to be dispatched again, the express queue, the ordinary queue. -/
def waiting (d : Dev) (j : Nat) : List Packet × List Packet × List Packet :=
  (look [] d.dsp.againQ j, look [] d.dsp.exprQ j, look [] d.dsp.ordQ j)

/-- A pipeline has nothing to dispatch exactly where none of its packets waits. -/
theorem dispatchNext_eq_none_iff (d : Dev) (j : Nat) : d.dispatchNext j = none ↔ waiting d j = ([], [], []) := by
  simp only [Dev.dispatchNext, waiting]
  cases look [] d.dsp.againQ j with
  | cons p ps => simp
  | nil =>
    cases look [] d.dsp.exprQ j with
    | nil => cases look [] d.dsp.ordQ j <;> simp
    | cons p ps =>
      cases look [] d.dsp.ordQ j with
      | nil => simp
      | cons o os =>
        simp only [List.isEmpty_nil, Bool.not_true, Bool.false_eq_true, if_false]
        split <;> simp

theorem waiting_of_dsp {d e : Dev} (h : e.dsp = d.dsp) (j : Nat) : waiting e j = waiting d j := by
  simp only [waiting, h]

@[simp] theorem waiting_ordinaryWaits (d : Dev) (k j : Nat) : waiting (d.ordinaryWaits k) j = waiting d j := rfl

@[simp] theorem waiting_raise (d : Dev) (now : NetTime) (src info : Nat) (polder : Option Nat) (j : Nat) :
    waiting (d.raise now src info polder) j = waiting d j :=
  waiting_of_dsp (raise_frame d now src info polder).dsp j

@[simp] theorem waiting_bump (d : Dev) (f : Fld) (i n j : Nat) : waiting (d.bump f i n) j = waiting d j := rfl

/-- Giving a payload's space back touches no dispatch state (R24, R443). -/
theorem leave_dsp (d : Dev) (p : Packet) (sent : Bool) (ts : Option (Nat × Nat)) : (d.leave p sent ts).dsp = d.dsp := by
  unfold Dev.leave
  extract_lets n went last rest sch d1 c adm d2 rng
  have h1 : d1.dsp = d.dsp := by
    simp only [d1]
    split <;> rfl
  have h2 : d2.dsp = d.dsp := by
    simp only [d2]
    split <;> exact h1
  split
  · exact h1
  · split <;> exact h2

@[simp] theorem waiting_freePacket (d : Dev) (p : Packet) (j : Nat) : waiting (d.freePacket p) j = waiting d j :=
  waiting_of_dsp (leave_dsp d p false none) j

/-- The packet that a pipeline takes leaves the other pipelines' packets where they wait. -/
theorem waiting_takeNext {k j : Nat} (h : j ≠ k) (d : Dev) (q : DispatchQueue) : waiting (d.takeNext k q) j = waiting d j := by
  have htaken (t : Tbl (List Packet)) : look [] (put [] t k ((look [] t k).drop 1)) j = look [] t j := look_put_other t _ h
  cases q with
  | again => exact congrArg (·, look [] d.dsp.exprQ j, look [] d.dsp.ordQ j) (htaken d.dsp.againQ)
  | express => exact congrArg (look [] d.dsp.againQ j, ·, look [] d.dsp.ordQ j) (htaken d.dsp.exprQ)
  | ordinary => exact congrArg (look [] d.dsp.againQ j, look [] d.dsp.exprQ j, ·) (htaken d.dsp.ordQ)

@[simp] theorem waiting_startPacket (d : Dev) (n : Nat) (p : Packet) (b : Slot) (j : Nat) : waiting (d.startPacket n p b) j = waiting d j := by
  unfold Dev.startPacket
  split <;> rfl

/-! ## What a pipeline does with its packet (R198 to R200) -/

section DispatchTo

variable {d : Dev} {now : NetTime} {k n : Nat} {q : DispatchQueue} {p : Packet} {e : Option Nat}

/-- A packet whose slot holds no program is dropped with EVT 4.2 (R102). -/
theorem dispatchTo_noProgram (h : (d.slotOf k p).handle = 0) : d.dispatchTo now k q p e =
    (((((d.ordinaryWaits k).takeNext k q).bump PGM.NOSLOT_COUNT).raise now (ev 4 2) (p.slot + k * 256) (some p.polder)).freePacket p) := by
  simp only [Dev.dispatchTo, h, if_true]

theorem dispatchTo_starts (h : (d.slotOf k p).handle ≠ 0) :
    d.dispatchTo now k q p (some n) = ((d.ordinaryWaits k).takeNext k q).startPacket n p (d.slotOf k p) := by
  simp only [Dev.dispatchTo, h, if_false]

/-- A packet without an engine waits, with EVT 8.6 where no bay of the pipeline's mask serves (R200). -/
theorem dispatchTo_waits (h : (d.slotOf k p).handle ≠ 0) : d.dispatchTo now k q p none =
    if d.noEngine k then (d.ordinaryWaits k).raise now (ev 8 6) k else d.ordinaryWaits k := by
  simp only [Dev.dispatchTo, h, if_false]

/-- The dispatch of one pipeline's packet leaves the packets of the others where they wait. -/
theorem waiting_dispatchTo {j : Nat} (hj : j ≠ k) : waiting (d.dispatchTo now k q p e) j = waiting d j := by
  by_cases hb : (d.slotOf k p).handle = 0
  · simp [dispatchTo_noProgram hb, waiting_takeNext hj]
  · cases e with
    | none =>
      rw [dispatchTo_waits hb]
      split <;> simp
    | some n => simp [dispatchTo_starts hb, waiting_takeNext hj]

theorem pipeDispatch_of_next (h : d.dispatchNext k = some (q, p)) : d.pipeDispatch now k e = d.dispatchTo now k q p e := by
  simp only [Dev.pipeDispatch, h]

theorem pipeDispatch_of_idle (h : d.dispatchNext k = none) : d.pipeDispatch now k e = d.ordinaryWaits k := by
  simp only [Dev.pipeDispatch, h]

end DispatchTo

/-! ## Pipelines that have nothing to dispatch -/

/-- The pipelines of a list pass a PCLK in which they dispatch nothing. -/
def waitAll (d : Dev) (l : List Nat) : Dev := l.foldl (fun z j => z.ordinaryWaits j) d

theorem foldl_pipeDispatch_idle (now : NetTime) (engine : Nat → Option Nat) {l : List Nat} :
    ∀ {d : Dev}, (∀ j ∈ l, waiting d j = ([], [], [])) → l.foldl (fun y j => y.pipeDispatch now j (engine j)) d = waitAll d l := by
  induction l with
  | nil => exact fun _ => rfl
  | cons j l ih =>
    intro d h
    have hj : d.dispatchNext j = none := (dispatchNext_eq_none_iff d j).2 (h j List.mem_cons_self)
    rw [List.foldl_cons, pipeDispatch_of_idle hj]
    exact ih fun i hi => h i (List.mem_cons_of_mem j hi)

/-- They change how long ordinary queues have waited, in their own pipelines, and nothing else. -/
theorem waitAll_eq (d : Dev) (l : List Nat) : ∃ w, waitAll d l = { d with dsp := { d.dsp with ordWait := w } } ∧
    ∀ k ∉ l, look 0 w k = look 0 d.dsp.ordWait k := by
  induction l generalizing d with
  | nil => exact ⟨d.dsp.ordWait, rfl, fun _ _ => rfl⟩
  | cons j l ih =>
    obtain ⟨w, hw, hkept⟩ := ih (d.ordinaryWaits j)
    refine ⟨w, hw, fun k hk => ?_⟩
    obtain ⟨hkj, hkl⟩ := not_or.1 (List.mem_cons.not.1 hk)
    rw [hkept k hkl]
    exact look_put_other _ _ hkj

@[simp] theorem waiting_waitAll (d : Dev) (l : List Nat) (j : Nat) : waiting (waitAll d l) j = waiting d j := by
  obtain ⟨w, hw, -⟩ := waitAll_eq d l
  rw [hw]
  rfl

@[simp] theorem slotOf_waitAll (d : Dev) (l : List Nat) (k : Nat) (p : Packet) : (waitAll d l).slotOf k p = d.slotOf k p := by
  obtain ⟨w, hw, -⟩ := waitAll_eq d l
  rw [hw]
  rfl

@[simp] theorem noEngine_waitAll (d : Dev) (l : List Nat) (k : Nat) : (waitAll d l).noEngine k = d.noEngine k := by
  obtain ⟨w, hw, -⟩ := waitAll_eq d l
  rw [hw]
  rfl

/-- What a pipeline takes next does not depend on how long the others have waited. -/
theorem dispatchNext_waitAll {d : Dev} {l : List Nat} {k : Nat} (h : k ∉ l) : (waitAll d l).dispatchNext k = d.dispatchNext k := by
  obtain ⟨w, hw, hkept⟩ := waitAll_eq d l
  have hk := hkept k h
  rw [hw]
  simp only [Dev.dispatchNext, hk]
  rfl

/-! ## A PCLK in which one pipeline dispatches -/

/-- The device with the pipeline with which the next PCLK begins (R200). -/
def turnOf (d : Dev) (f : Nat) : Dev := { d with dsp := { d.dsp with first := f } }

/-- One pipeline has something to dispatch, its packet `p` from queue `q`; `front` and `back` come before and after it in the PCLK. -/
structure DispatchesAlone (d : Dev) (k : Nat) (front back : List Nat) (q : DispatchQueue) (p : Packet) : Prop where
  order : d.pipeOrder = front ++ k :: back
  idle  : ∀ j < 4, j ≠ k → d.dispatchNext j = none
  next  : d.dispatchNext k = some (q, p)

namespace DispatchesAlone

variable {s : State} {d : Dev} {k n : Nat} {front back : List Nat} {q : DispatchQueue} {p : Packet}

/-- The pipelines before and after it in the order of the PCLK are others, and have nothing to dispatch. -/
theorem others_idle (h : DispatchesAlone d k front back q p) : ∀ j ∈ front ++ back, j ≠ k ∧ d.dispatchNext j = none := by
  have hperm : (front ++ k :: back).Perm (List.range 4) := h.order ▸ rotated_perm d.dsp.first (List.range 4)
  obtain ⟨hk, -⟩ := List.nodup_cons.1 (List.nodup_middle.1 (hperm.nodup_iff.2 List.nodup_range))
  intro j hj
  have hjk : j ≠ k := fun e => hk (e ▸ hj)
  have hj4 : j < 4 := List.mem_range.1 (hperm.subset (by
    rcases List.mem_append.1 hj with hj | hj <;> simp [hj]))
  exact ⟨hjk, h.idle j hj4 hjk⟩

theorem front_idle (h : DispatchesAlone d k front back q p) : ∀ j ∈ front, j ≠ k ∧ d.dispatchNext j = none :=
  fun j hj => h.others_idle j (List.mem_append_left back hj)

theorem back_idle (h : DispatchesAlone d k front back q p) : ∀ j ∈ back, j ≠ k ∧ d.dispatchNext j = none :=
  fun j hj => h.others_idle j (List.mem_append_right front hj)

/-- The one choice of the PCLK is the pipeline's own. -/
theorem choices_eq (h : DispatchesAlone d k front back q p) : d.choices d.pipeOrder [] = (wantedEngine d k []).toList.map (k, ·) := by
  rw [h.order, choices_idle_append fun j hj => (h.front_idle j hj).2]
  cases hw : wantedEngine d k [] with
  | none => rw [choices_cons_of_none hw, choices_idle fun j hj => (h.back_idle j hj).2]; rfl
  | some n => rw [choices_cons_of_some hw, choices_idle fun j hj => (h.back_idle j hj).2]; rfl

theorem wantedEngine_eq (h : DispatchesAlone d k front back q p) :
    wantedEngine d k [] = if (d.slotOf k p).handle = 0 then none else d.chooseEngine k := by
  simp only [wantedEngine, h.next]

/-- The PCLK of the four pipelines: those before it wait, it dispatches, those after it wait. -/
theorem foldl_pipeDispatch (h : DispatchesAlone d k front back q p) (now : NetTime) (engine : Nat → Option Nat) :
    d.pipeOrder.foldl (fun y j => y.pipeDispatch now j (engine j)) d =
      waitAll ((waitAll d front).dispatchTo now k q p (engine k)) back := by
  have hfront : ∀ j ∈ front, waiting d j = ([], [], []) := fun j hj => (dispatchNext_eq_none_iff d j).1 (h.front_idle j hj).2
  have hnext : (waitAll d front).dispatchNext k = some (q, p) :=
    (dispatchNext_waitAll fun hk => (h.front_idle k hk).1 rfl).trans h.next
  rw [h.order, List.foldl_append, foldl_pipeDispatch_idle now engine hfront, List.foldl_cons, pipeDispatch_of_next hnext]
  refine foldl_pipeDispatch_idle now engine fun j hj => ?_
  obtain ⟨hjk, hnone⟩ := h.back_idle j hj
  rw [waiting_dispatchTo hjk, waiting_waitAll]
  exact (dispatchNext_eq_none_iff d j).1 hnone

/-- DISPATCH where one pipeline has a packet; the next PCLK begins above it if it chose an engine (R200). -/
theorem exec_dispatch_eq (h : DispatchesAlone s.dev k front back q p) : exec .dispatch s = .next { s with
    dev := turnOf (waitAll ((waitAll s.dev front).dispatchTo s.time k q p (wantedEngine s.dev k [])) back)
      (((wantedEngine s.dev k []).map fun _ => (k + 1) % 4).getD s.dev.dsp.first) } := by
  simp only [exec_dispatch, execDispatch, onDev, turnOf, h.choices_eq, h.foldl_pipeDispatch]
  cases wantedEngine s.dev k [] <;> simp

theorem dispatch_drops (h : DispatchesAlone s.dev k front back q p) (hb : (s.dev.slotOf k p).handle = 0) :
    exec .dispatch s = .next { s with dev := turnOf (waitAll ((((((waitAll s.dev front).ordinaryWaits k).takeNext k q).bump
      PGM.NOSLOT_COUNT).raise s.time (ev 4 2) (p.slot + k * 256) (some p.polder)).freePacket p) back) s.dev.dsp.first } := by
  rw [h.exec_dispatch_eq, h.wantedEngine_eq, if_pos hb, dispatchTo_noProgram ((slotOf_waitAll ..).symm ▸ hb)]
  rfl

theorem dispatch_starts (h : DispatchesAlone s.dev k front back q p) (hb : (s.dev.slotOf k p).handle ≠ 0)
    (hn : s.dev.chooseEngine k = some n) : exec .dispatch s = .next { s with
      dev := turnOf (waitAll ((((waitAll s.dev front).ordinaryWaits k).takeNext k q).startPacket n p (s.dev.slotOf k p)) back)
        ((k + 1) % 4) } := by
  rw [h.exec_dispatch_eq, h.wantedEngine_eq, if_neg hb, hn, dispatchTo_starts ((slotOf_waitAll ..).symm ▸ hb), slotOf_waitAll]
  rfl

theorem dispatch_waits (h : DispatchesAlone s.dev k front back q p) (hb : (s.dev.slotOf k p).handle ≠ 0)
    (hn : s.dev.chooseEngine k = none) : exec .dispatch s = .next { s with
      dev := turnOf (waitAll (if s.dev.noEngine k then ((waitAll s.dev front).ordinaryWaits k).raise s.time (ev 8 6) k
        else (waitAll s.dev front).ordinaryWaits k) back) s.dev.dsp.first } := by
  rw [h.exec_dispatch_eq, h.wantedEngine_eq, if_neg hb, hn, dispatchTo_waits ((slotOf_waitAll ..).symm ▸ hb), noEngine_waitAll]
  rfl

end DispatchesAlone

/-- REDISPATCH: the packet of a failed engine goes before the queues (R207, R209). -/
theorem redispatch_of_again {s : State} {pipe : Fin 4} {p : Packet} (h : s.dev.dispatchNext pipe = some (.again, p)) :
    exec (.redispatch pipe) s = .next { s with dev := s.dev.dispatchTo s.time pipe .again p (s.dev.chooseEngine pipe) } := by
  simp only [exec_redispatch, execRedispatch, onDev, h]

/-! # The completion collector (R210, R211) -/

theorem bayInputs_length_le (xs : List Nat) : (bayInputs xs).length ≤ 12 :=
  (List.length_filterMap_le _ _).trans_eq List.length_range

theorem sharedInputs_length_le (rot : Nat) : ∀ (n : Nat) (xs : List Nat), (sharedInputs rot n xs).length ≤ n
  | 0, _ => Nat.le_refl 0
  | n + 1, xs => by
    simp only [sharedInputs]
    split
    · exact Nat.succ_le_succ (sharedInputs_length_le rot n _)
    · exact Nat.zero_le _

/-- With no retirement left the shared inputs take none. -/
@[simp] theorem sharedInputs_nil (rot : Nat) : ∀ n : Nat, sharedInputs rot n [] = []
  | 0 => rfl
  | n + 1 => by simp [sharedInputs]

/-- One retirement alone comes by the input of its bay. -/
theorem bayInputs_singleton {x : Nat} (h : bayOf x < 12) : bayInputs [x] = [x] := by
  unfold bayInputs
  generalize hb : bayOf x = b at h
  simp only [List.find?_singleton, hb]
  interval_cases b <;> rfl

/-- The discard unit judges nothing where no accepted packet has a tag (R374). -/
theorem judgeAll_untagged {d : Dev} {xs : List Nat} (h : ∀ x ∈ xs, ∀ r, (d.ctx x).packet = some r → r.tag = none) :
    d.judgeAll xs = (d, []) := by
  have hnone : xs.filterMap (fun x => ((d.ctx x).packet).bind (fun p => if p.tag.isSome then some (x, p) else none)) = [] := by
    refine List.filterMap_eq_nil_iff.2 fun x hx => Option.bind_eq_none_iff.2 fun r hr => ?_
    simp [h x hx r hr]
  simp only [Dev.judgeAll, hnone]
  rfl

/-- The device at the start of a PCLK of the collector: after a finding of a sequence checker, what a control core hands over, and the
judging of fault retirements. -/
def collectorStart (d : Dev) (now : NetTime) (inject : Option Injection) (seq : Option (Fin 4)) : Dev :=
  let faulted := match seq with
    | some e => d.seqFault now e
    | none => d
  (match inject with
    | some j => faulted.takeInjection now j
    | none => faulted).judgeFaults now

/-- The control cores that hold a retirement, in the order of their turns. -/
def holdingCores (d : Dev) : List Nat := (rotated d.dsp.coreRot (List.range 12)).filter (fun j => (look none d.dsp.coreRet j).isSome)

/-- Where no core holds a retirement, none has a turn. -/
theorem holdingCores_none {d : Dev} (h : ∀ j < 12, look none d.dsp.coreRet j = none) : holdingCores d = [] := by
  refine List.filter_eq_nil_iff.2 fun j hj => ?_
  simp [h j (List.mem_range.1 ((rotated_perm _ _).subset hj))]

theorem holdingCores_one {d : Dev} {j : Nat} (hj : j < 12) (h : (look none d.dsp.coreRet j).isSome = true)
    (hother : ∀ i < 12, i ≠ j → look none d.dsp.coreRet i = none) : holdingCores d = [j] :=
  filter_rotated_range_eq hj h fun i hi hij => by simp [hother i hi hij]

/-- The device once the collector has seen `n` eligible retirements: the shared inputs' rotation moves on. -/
def collectorTurned (d : Dev) (n : Nat) : Dev :=
  { d.peak DSP.BACKLOG_PEAK 0 n with dsp := { d.dsp with colRot := (d.dsp.colRot + 1) % 12 } }

/-- A PCLK of the collector that accepts all there is: at most one retirement, without a tag, by its bay's input, and then what the
control cores hold. -/
theorem collectorAccept_all {s : State} {inject : Option Injection} {seq : Option (Fin 4)} {dj : Dev} {xs : List Nat}
    (hdj : collectorStart s.dev s.time inject seq = dj) (hxs : dj.eligibleRets = xs) (hbays : bayInputs xs = xs) (hone : xs.length ≤ 1)
    (htag : ∀ x ∈ xs, ∀ r, (dj.ctx x).packet = some r → r.tag = none) (hcores : (holdingCores dj).length ≤ 4) :
    exec (.collectorAccept inject seq) s = .next { s with
      dev := (holdingCores dj).foldl (fun y j => y.acceptCore s.time j)
        (xs.foldl (fun y x => y.acceptCtx s.time x true) (collectorTurned dj xs.length)) } := by
  have hleft : xs.filter (fun x => !xs.contains x) = [] := by simp
  have hlane : xs.foldl (fun l x => dj.inLane x l) [] = xs := by
    match xs, hone with
    | [], _ => rfl
    | [_], _ => rfl
  have hjudge : (collectorTurned dj xs.length).judgeAll xs = (collectorTurned dj xs.length, []) := judgeAll_untagged htag
  simp only [holdingCores, collectorTurned] at hcores hjudge ⊢
  cases inject <;> cases seq <;> simp only [collectorStart] at hdj <;>
  simp only [hdj, exec_collectorAccept, execCollectorAccept, onDev, hxs, hbays, hleft, hlane, sharedInputs_nil, List.append_nil, hjudge,
    List.length_nil, Nat.sub_zero, List.take_of_length_le hcores, List.drop_length, List.foldl_nil, List.contains_nil, Bool.not_false]

/-- Settles O22: the order in which pipelines dispatch, and what the collector takes. -/
theorem dispatchResults : Obligations.DispatchResults := by
  intro s pipe p q n front back inject seq d k gives others turn here b dropped faulted dj xs moved
  refine ⟨(choices_distinct d d.pipeOrder []).2, fun ho hidle hq => ?dispatch, fun hq => ?redispatch,
    ⟨bayInputs_length_le xs, sharedInputs_length_le _ 4 _⟩, fun hxs hcore => ?nothing, fun x hxs hcore hbay htag => ?retirement,
    fun j hj hxs hsome hcore => ?core⟩
  case dispatch =>
    have h : DispatchesAlone s.dev k front back q p := ⟨ho, hidle, hq⟩
    exact ⟨h.dispatch_drops, h.dispatch_starts, h.dispatch_waits⟩
  case redispatch =>
    refine ⟨fun hb => ?_, fun hb hn => ?_, fun hb hn => ?_⟩
    · exact (redispatch_of_again hq).trans (by rw [dispatchTo_noProgram hb])
    · exact (redispatch_of_again hq).trans (by rw [hn, dispatchTo_starts hb])
    · exact (redispatch_of_again hq).trans (by rw [hn, dispatchTo_waits hb])
  case nothing =>
    have hc : holdingCores dj = [] := holdingCores_none hcore
    exact (collectorAccept_all (dj := dj) rfl hxs rfl (by simp) (by simp) (by simp [hc])).trans (by rw [hc]; rfl)
  case retirement =>
    have hc : holdingCores dj = [] := holdingCores_none hcore
    exact (collectorAccept_all (dj := dj) rfl hxs (bayInputs_singleton hbay) (by simp) (by simpa using htag) (by simp [hc])).trans (by rw [hc]; rfl)
  case core =>
    have hc : holdingCores dj = [j] := holdingCores_one hj hsome hcore
    exact (collectorAccept_all (dj := dj) rfl hxs rfl (by simp) (by simp) (by simp [hc])).trans (by rw [hc]; rfl)

end Sys2Proof.Proofs
end

section
/-! Proofs of the statements of 09_tunnels_transports_storage: templates and TUN, the transport unit, and the NVMe personality with
the storage rings. -/

namespace Sys2Proof.Proofs

open Sys2Proof.Machine Sys2Proof.Laws

/-! # A command whose answer depends on a condition -/

section Answers

variable {s : State} {i : Instr} {p : Prop} [Decidable p] {y z : Dev} (h : exec i s = .next { s with dev := if p then y else z })

include h

theorem answers_of_pos (hp : p) : exec i s = .next { s with dev := y } := by rw [h, if_pos hp]

theorem answers_of_neg (hp : ¬p) : exec i s = .next { s with dev := z } := by rw [h, if_neg hp]

end Answers

/-! # Templates and the TUN instructions (R216 to R222) -/

/-! ## What a commit does with the staged template -/

/-- The template in TUN.TSTG as it is judged. -/
def stagedTemplate (d : Dev) : Template := { bytes := d.staged128 }

/-- A template with its counters set from HDR (R217). -/
def withCounters (t : Template) : Template :=
  { t with idctr := beAt t.bytes (t.l3off + 4) 2, seqctr := if t.gre then beAt t.bytes t.greSeq 4 else 0 }

/-- Counters are no part of a template's kind. -/
theorem type_of_counters (bytes : List Byte) (idctr seqctr : Nat) :
    ({ bytes := bytes, idctr := idctr, seqctr := seqctr } : Template).type = ({ bytes := bytes } : Template).type := rfl

section Commit

variable {s : State} {n : Fin 16384}

theorem templateCommit_refuses (h : (stagedTemplate s.dev).ok = false) :
    exec (.templateCommit n) s = .next { s with dev := (s.dev.wr TUN.TCMD_TMPL 0 n).raise s.time (ev 9 0) n } := by
  unfold stagedTemplate at h
  simp only [exec_templateCommit, execTemplateCommit, onDev, Dev.commitTemplate, h, Bool.not_false, if_true]

/-- A sound template whose number named none before is stored, and one more is valid (R216, R217). -/
theorem templateCommit_stores (h : (stagedTemplate s.dev).ok = true) (ht : (stagedTemplate s.dev).type ≠ 0)
    (hnew : ((s.dev.wr TUN.TCMD_TMPL 0 n).template n).type = 0) :
    let named := s.dev.wr TUN.TCMD_TMPL 0 n
    exec (.templateCommit n) s = .next { s with
      dev := ({ named with tmpl := put {} named.tmpl n (withCounters (stagedTemplate s.dev)) }).wr TUN.TSTATUS_VALID 0
        (named.rd TUN.TSTATUS_VALID + 1 - 0) } := by
  unfold stagedTemplate at h ht
  simp only [exec_templateCommit, execTemplateCommit, onDev, Dev.commitTemplate, type_of_counters, h, ht, hnew, Bool.not_true,
    Bool.false_eq_true, if_true, if_false]
  rfl

end Commit

/-! ## The result that a ticket holds -/

/-- The ticket of a TUN operation that answered `r` to a context whose header began at `start`: it locks the header, and holds the
rewritten one (R218). -/
def tunTicket (rd start : Nat) (r : TunResult) : Ticket :=
  { rd := rd, header := true, pend := .toHeader (r.value start) r.s r.bytes r.eg r.tag r.late r.parse, busy := true }

/-- The device with the result of a TUN operation held for a ticket of a context, which goes on. -/
def holdsTun (d : Dev) (x rd k start : Nat) (r : TunResult) : Dev :=
  d.setCtx x ((d.ctx x).setTk k (tunTicket rd start r)).next

/-- A TUN operation that failed is counted with its status. -/
def tunFailed (d : Dev) (status : Nat) : Dev := (d.bump TUN.ERR_COUNT).wr TUN.ERR_LAST 0 status

section Tun

variable {s : State} {x : CtxId} {rd ra : Reg} {k : Tick} {i : Instr} {op : Ctx → Dev × TunResult} {y : Dev} {r : TunResult}
  (hk : ((s.dev.ctx x).tk k).busy = false) (hi : s.dev.issues x { regs := [rd.val, ra.val], header := true } = true)

include hk hi

theorem tunIssue_succeeds (hx : exec i s = .next { s with dev := s.dev.tunIssue x rd ra k op }) (hop : op (s.dev.ctx x) = (y, r))
    (h0 : r.status = 0) : exec i s = .next { s with dev := holdsTun y x rd k (s.dev.ctx x).s r } := by
  refine async_takes hi hk hx (?_ : _ = Except.ok (y, { tunTicket rd (s.dev.ctx x).s r with busy := false }))
  simp only [hop, h0, if_true, OfNat.zero_ne_ofNat, if_false]
  rfl

theorem tunIssue_fails (hx : exec i s = .next { s with dev := s.dev.tunIssue x rd ra k op }) (hop : op (s.dev.ctx x) = (y, r))
    (h0 : r.status ≠ 0) (h7 : r.status ≠ 7) :
    exec i s = .next { s with dev := holdsTun (tunFailed y r.status) x rd k (s.dev.ctx x).s r } := by
  refine async_takes hi hk hx (?_ : _ = Except.ok (tunFailed y r.status, { tunTicket rd (s.dev.ctx x).s r with busy := false }))
  simp only [hop, h0, h7, if_false]
  rfl

end Tun

/-- A template after a use: its IPv4 identification and its GRE sequence number have advanced (R217, R220). -/
def usedTemplate (t : Template) : Template :=
  { t with
    idctr := if t.flag 0 then t.idctr else (t.idctr + 1) % 65536
    seqctr := if t.gre && t.flag 5 then (t.seqctr + 1) % 2 ^ 32 else t.seqctr }

section Operations

variable {s : State} {x : CtxId} {rd ra : Reg} {k : Tick} {a : Nat} {r : TunResult} (hk : ((s.dev.ctx x).tk k).busy = false)
  (hi : s.dev.issues x { regs := [rd.val, ra.val], header := true } = true) (ha : ((s.dev.ctx x).rg ra).toNat = a)

include hk hi ha

/-- An encapsulation that succeeds advances its template (R220). -/
theorem tunEncapsulate_succeeds (hr : (s.dev.ctx x).encapsulate (s.dev.template (a % 16384)) (bitsOf a 16 16) = r) (h0 : r.status = 0) :
    let advanced := { s.dev with tmpl := put {} s.dev.tmpl (a % 16384) (usedTemplate (s.dev.template (a % 16384))) }
    exec (.tunEncapsulate x rd ra k) s =
      .next { s with dev := holdsTun (advanced.bump TUN.ENCAP_COUNT) x rd k (s.dev.ctx x).s r } := by
  refine tunIssue_succeeds hk hi rfl ?_ h0
  simp only [ha, hr, h0, if_true]
  rfl

/-- One that fails leaves it as it is. -/
theorem tunEncapsulate_fails (hr : (s.dev.ctx x).encapsulate (s.dev.template (a % 16384)) (bitsOf a 16 16) = r) (h0 : r.status ≠ 0)
    (h7 : r.status ≠ 7) :
    exec (.tunEncapsulate x rd ra k) s = .next { s with dev := holdsTun (tunFailed s.dev r.status) x rd k (s.dev.ctx x).s r } := by
  refine tunIssue_fails hk hi rfl ?_ h0 h7
  simp only [ha, hr, h0, if_false]

theorem tunDecapsulate_succeeds (hr : s.dev.decapsulate (s.dev.ctx x) (s.dev.template (a % 16384)) (a.testBit 16) = r)
    (h0 : r.status = 0) : exec (.tunDecapsulate x rd ra k) s =
      .next { s with dev := holdsTun (s.dev.bump TUN.DECAP_COUNT) x rd k (s.dev.ctx x).s r } := by
  refine tunIssue_succeeds hk hi rfl ?_ h0
  simp only [ha, hr, h0, true_or, if_true]

theorem tunDecapsulate_fails (hr : s.dev.decapsulate (s.dev.ctx x) (s.dev.template (a % 16384)) (a.testBit 16) = r)
    (h0 : r.status ≠ 0) (h7 : r.status ≠ 7) :
    exec (.tunDecapsulate x rd ra k) s = .next { s with dev := holdsTun (tunFailed s.dev r.status) x rd k (s.dev.ctx x).s r } := by
  refine tunIssue_fails hk hi rfl ?_ h0 h7
  simp only [ha, hr, h0, h7, or_self, if_false]

theorem tunMark_succeeds (hr : (s.dev.ctx x).mark a = r) (h0 : r.status = 0) :
    exec (.tunMark x rd ra k) s = .next { s with dev := holdsTun s.dev x rd k (s.dev.ctx x).s r } :=
  tunIssue_succeeds hk hi rfl (by rw [ha, hr]) h0

theorem tunMark_fails (hr : (s.dev.ctx x).mark a = r) (h0 : r.status ≠ 0) (h7 : r.status ≠ 7) :
    exec (.tunMark x rd ra k) s = .next { s with dev := holdsTun (tunFailed s.dev r.status) x rd k (s.dev.ctx x).s r } :=
  tunIssue_fails hk hi rfl (by rw [ha, hr]) h0 h7

end Operations

/-- Settles O23: the commit of a template, and TUN where it succeeds and where it fails. -/
theorem tunnelResults : Obligations.TunnelResults := by
  intro s n x rd ra k
  refine ⟨templateCommit_refuses, templateCommit_stores, fun _ hk hi => ?_⟩
  exact ⟨tunEncapsulate_succeeds hk hi rfl rfl, tunEncapsulate_fails hk hi rfl rfl, tunDecapsulate_succeeds hk hi rfl rfl,
    tunDecapsulate_fails hk hi rfl rfl, tunMark_succeeds hk hi rfl rfl, tunMark_fails hk hi rfl rfl⟩

/-! # The transport unit (R226 to R229, R238, R239) -/

/-! ## Hand-over and creation -/

/-- A free connection under its new owner, with the state that host software gives (R226). -/
def takenOver (d : Dev) (fn c : Nat) (st : TcpState) : Dev :=
  ((d.wr STO.TCONN_STATE c 2).wr STO.TCONN_POLDER c fn).setConn c
    { recover := (st.una + 2 ^ 32 - 1) % 2 ^ 32, p := st, rto := d.rtoOf st.srtt st.rttvar }

/-- What a function asks for with a queue pair is its own and within the ranges of R229. -/
structure PairFits (d : Dev) (fn : Nat) (req : QpReq) : Prop where
  ring    : d.ownsRing fn kRx req.ring = true
  cq      : d.ownsRing fn kCq req.cq = true
  queue   : d.queuePolder req.queue = some fn
  regions : (d.sto.qps.map (fun e => e.2.p.regions.length)).sum + req.regions.length ≤ 1048576
  ranges  : (req.mtu = 1024 ∨ req.mtu = 2048 ∨ req.mtu = 4096) ∧ 1 ≤ req.t ∧ req.t ≤ 31 ∧ req.retry ≤ 7 ∧ req.rnr ≤ 7

/-- A queue pair as it is created. -/
def newPair (fn : Nat) (req : QpReq) : Qp :=
  { used := true, polder := fn, p := req, spsn := req.spsn % 2 ^ 24, epsn := req.epsn % 2 ^ 24, retry := req.retry, rnr := req.rnr }

section Creation

variable {s : State} {fn : Fn} (hroom : s.dev.answerRoom fn = true)

include hroom

theorem handOver_takes {st : TcpState} {c : Nat} (hc : s.dev.freeConn = some c) (hr : s.dev.ownsRing fn kRx st.ring = true)
    (hq : s.dev.queuePolder st.queue = some fn.val) (h0 : s.dev.rd STO.TCONN_STATE c = 0) :
    exec (.handOver fn none st) s = .next { s with
      dev := ((takenOver s.dev fn c st).wr STO.CONNSTAT_TCP 0 (s.dev.rd STO.CONNSTAT_TCP + 1)).storageAnswer fn c } := by
  simp only [exec_handOver, execHandOver, onDev, hroom, hc, hr, hq, h0, Bool.not_true, Bool.false_eq_true, decide_true, Bool.and_self,
    true_or, if_true, if_false]
  rfl

/-- With no number free the hand-over is refused, with EVT 9.5 (R239). -/
theorem handOver_full {st : TcpState} (hc : s.dev.freeConn = none) : exec (.handOver fn none st) s =
    .next { s with dev := (s.dev.raise s.time (ev 9 5) 0 (some fn)).storageAnswer fn 0 } := by
  simp only [exec_handOver, execHandOver, onDev, hroom, hc, Bool.not_true, Bool.false_eq_true, Option.isNone_none, if_true, if_false]

theorem queuePairCreate_creates {req : QpReq} {q : Nat} (hq : (List.range 65536).find? (fun q => !(s.dev.qp q).used) = some q)
    (hfit : PairFits s.dev fn req) : exec (.queuePairCreate fn req) s = .next { s with
      dev := ((s.dev.setQp q (newPair fn req)).wr STO.CONNSTAT_RC 0 (s.dev.rd STO.CONNSTAT_RC + 1)).storageAnswer fn q } := by
  obtain ⟨hring, hcq, hqueue, hregions, hranges⟩ := hfit
  simp only [exec_queuePairCreate, execQueuePairCreate, onDev, hroom, hq, hring, hcq, hqueue, hregions, hranges, and_self, Bool.not_true,
    Bool.false_eq_true, decide_true, Bool.and_self, if_true, if_false]
  rfl

end Creation

/-! ## TCP -/

/-- The device with the segments that wait for a connection. -/
def withSegs (d : Dev) (conn : Nat) (ps : List Packet) : Dev := { d with sto := { d.sto with segs := put [] d.sto.segs conn ps } }

/-- A connection whose retransmission timer has run out: the timeout doubles up to 60 s, and the window shrinks to one segment (R227). -/
def slowedDown (x : Conn) : Conn :=
  { x with
    rto := min (2 * x.rto) 60000000, fast := false, dups := 0, recover := x.p.nxt
    p := { x.p with ssthresh := max (x.flight / 2) (2 * x.p.mss), cwnd := x.p.mss } }

section Tcp

variable {s : State} {conn : Fin 16384}

/-- The next segment, its cipher jobs merged: it is processed, dropped when its checksum is wrong, or handed to its ring (R227). -/
theorem tcpSegmentReceive_takes {p : Packet} {ps : List Packet}
    (hn : (s.dev.conn conn).nextSegment (look [] s.dev.sto.segs conn) = some (p, ps)) (hp : p.onward = []) :
    let rest := withSegs s.dev conn ps
    exec (.tcpSegmentReceive conn) s = .next { s with
      dev := if s.dev.offloaded conn then
          if tcpSound p.bytes then (rest.leave p true none).tcpSegment s.time conn (readSegment p.bytes) else rest.leave p true none
        else rest.rxDeliver s.time (s.dev.conn conn).p.ring p } := by
  simp only [exec_tcpSegmentReceive, execTcpSegmentReceive, onDev, hn, hp, ne_eq, not_true_eq_false, if_false]
  cases s.dev.offloaded conn <;> rfl

variable (ho : s.dev.offloaded conn = true)

include ho

theorem delayedAck_sends {t : Nat} (ht : (s.dev.conn conn).ackAt = some t) (hd : t + 200000 ≤ s.dev.uptime) :
    exec (.delayedAck conn) s = .next { s with dev := s.dev.tcpAck s.time conn } := by
  simp only [exec_delayedAck, execDelayedAck, onDev, ht, ho, hd, decide_true, Bool.and_self, if_true]

/-- The timer of the oldest segment has run out, and no ACK that waits covers it: it is sent again, or the connection fails (R227, R228). -/
theorem retransmitTimer_expires {g : SentSeg} {gs : List SentSeg} {t : Nat} (hs : (s.dev.conn conn).sent = g :: gs)
    (ht : (s.dev.conn conn).timer = some t) (hd : t + 1000 * (s.dev.conn conn).rto ≤ s.dev.uptime) (ha : s.dev.ackWaits conn g = false) :
    exec (.retransmitTimer conn) s = .next { s with
      dev := if s.dev.rd STO.TCPCFG_MAXRETX ≤ g.retx then s.dev.failConn s.time conn
        else (s.dev.setConn conn (slowedDown (s.dev.conn conn))).tcpResend s.time conn } := by
  simp only [exec_retransmitTimer, execRetransmitTimer, onDev, slowedDown, hs, ht, hd, ha, ho, Bool.not_true, decide_true,
    Bool.or_self, Bool.false_eq_true, if_false]

end Tcp

/-! ## RoCEv2 frames -/

/-- The device once a frame marked CE has been answered by a CNP (R229). -/
def markAnswered (d : Dev) (now : NetTime) (frame : RoceFrame) : Dev := if frame.ce then d.congestion now frame.qpn else d

section Roce

variable {s : State} {bytes read : List Byte} {frame : RoceFrame}

theorem roceFrameReceive_badIcrc (hf : readRoce bytes = some frame) (hi : frame.icrcOk = false) :
    exec (.roceFrameReceive bytes read) s = .next { s with dev := s.dev.bump STO.ICRCERR_COUNT } := by
  simp only [exec_roceFrameReceive, execRoceFrameReceive, onDev, Dev.roceFrame, hf, hi, Bool.not_false, if_true]

variable (hf : readRoce bytes = some frame) (hi : frame.icrcOk = true)

include hf hi

theorem roceFrameReceive_down (hop : frame.opcode < 32) (hu : (s.dev.qp frame.qpn).up = false) :
    exec (.roceFrameReceive bytes read) s = .next { s with dev := s.dev } := by
  simp only [exec_roceFrameReceive, execRoceFrameReceive, onDev, Dev.roceFrame, hf, hi, hu, Nat.not_le.2 hop,
    show frame.opcode ≠ 0x81 by omega, Bool.not_true, Bool.not_false, Bool.false_eq_true, if_true, if_false]

/-- A transport other than RC is counted (R229). -/
theorem roceFrameReceive_otherTransport (hop : 32 ≤ frame.opcode) (hcnp : frame.opcode ≠ 0x81) :
    exec (.roceFrameReceive bytes read) s = .next { s with dev := s.dev.bump STO.BADOPC_COUNT } := by
  simp only [exec_roceFrameReceive, execRoceFrameReceive, onDev, Dev.roceFrame, hf, hi, hop, hcnp, Bool.not_true, Bool.false_eq_true,
    if_true, if_false]

theorem roceFrameReceive_cnp (hcnp : frame.opcode = 0x81) (hu : (s.dev.qp frame.qpn).up = true) :
    exec (.roceFrameReceive bytes read) s = .next { s with dev := s.dev.cnpArrives frame.qpn } := by
  simp only [exec_roceFrameReceive, execRoceFrameReceive, onDev, Dev.roceFrame, hf, hi, hcnp, hu, Bool.not_true, Bool.false_eq_true,
    if_true, if_false]

/-- What a frame of the RC transport does to a queue pair that is up: an ACK, READ data, or a request, once its mark is answered (R229). -/
theorem roceFrameReceive_up (hop : frame.opcode < 32) (hu : (s.dev.qp frame.qpn).up = true) :
    let y := markAnswered s.dev s.time frame
    exec (.roceFrameReceive bytes read) s = .next { s with
      dev := if frame.opcode = 0x11 then y.roceAcked s.time frame.qpn frame.psn frame.syndrome
        else if 0x0D ≤ frame.opcode ∧ frame.opcode ≤ 0x10 then y.roceReadData s.time frame.qpn frame
        else if frame.opcode = 0x12 then y
        else y.roceRequest s.time frame.qpn frame read } := by
  simp only [exec_roceFrameReceive, execRoceFrameReceive, onDev, Dev.roceFrame, hf, hi, hu, Nat.not_le.2 hop,
    show frame.opcode ≠ 0x81 by omega, Bool.not_true, Bool.false_eq_true, if_false, markAnswered]

end Roce

/-! ## The timers of a queue pair, and its work requests -/

/-- The queue pair that an RDMA entry names (16 R438). -/
def entryPair (e : SubEntry) : Nat := bitsOf (e.words.getD 0 0) 32 16

/-- The work request that an RDMA entry spells, without its data (16 R438). -/
def entryWr (ring : Nat) (e : SubEntry) : Wr :=
  let u := fun (i : Nat) => e.words.getD i 0
  { ring := ring, pos := e.pos, opc := bitsOf (u 0) 8 8, signal := (u 0).testBit 16, imm := bitsOf (u 0) 64 32, wrid := bitsOf (u 1) 0 64,
    laddr := bitsOf (u 2) 0 64, len := bitsOf (u 2) 64 32, raddr := bitsOf (u 3) 0 64, rkey := bitsOf (u 3) 64 32 }

section QueuePairs

variable {s : State} {qpn : Fin 65536}

/-- The ACK timer has run out: everything from the oldest packet on is sent again while retries are left, else the queue pair
fails (R229). -/
theorem ackTimeout_expires (hu : (s.dev.qp qpn).up = true) (hw : (s.dev.qp qpn).wrs ≠ []) (hr : (s.dev.qp qpn).rnrWait = false)
    (ht : (s.dev.qp qpn).since + 4096 * 2 ^ (s.dev.qp qpn).p.t ≤ s.dev.uptime) :
    let q := s.dev.qp qpn
    exec (.ackTimeout qpn false) s = .next { s with
      dev := if q.retry = 0 then s.dev.failQp s.time qpn 0x0A
        else (s.dev.setQp qpn { q with retry := q.retry - 1 }).goBack s.time qpn q.oldest } := by
  simp only [exec_ackTimeout, execAckTimeout, onDev, hu, hr, List.isEmpty_eq_false_iff.2 hw, Nat.not_lt.2 ht, Bool.not_true, decide_false,
    Bool.or_self, Bool.false_eq_true, if_false]

theorem rnrTimer_expires (hu : (s.dev.qp qpn).up = true) (hr : (s.dev.qp qpn).rnrWait = true) :
    let q := s.dev.qp qpn
    exec (.rnrTimer qpn) s = .next { s with
      dev := if q.rnr = 0 then s.dev.failQp s.time qpn 0x0A
        else (s.dev.setQp qpn { q with rnrWait := false, rnr := if q.p.rnr = 7 then 7 else q.rnr - 1 }).goBack s.time qpn q.oldest } := by
  simp only [exec_rnrTimer, execRnrTimer, onDev, hu, hr, Bool.not_true, Bool.or_self, Bool.false_eq_true, if_false]

variable {ring : Fin 262144} {e : SubEntry} {data : List Byte} (he : (s.dev.ring kSub ring).nextEntry = some e)
  (hm : (s.dev.ring kSub ring).mode = 3)

include he hm

/-- A READ is posted while fewer than 16 are outstanding; any other request is posted with the data of its local range (R229). -/
theorem rdmaWorkRequest_posts (hu : (s.dev.qp (entryPair e)).up = true)
    (hp : (s.dev.qp (entryPair e)).polder = (s.dev.ring kSub ring).polder)
    (h16 : (entryWr ring e).opc = 4 → ((s.dev.qp (entryPair e)).wrs.filter (fun v => decide (v.opc = 4))).length < 16)
    {bytes : List Byte} (hb : (if (entryWr ring e).opc = 4 then [] else slice data 0 (entryWr ring e).len) = bytes) :
    exec (.rdmaWorkRequest ring data) s = .next { s with
      dev := (s.dev.setRing kSub ring ((s.dev.ring kSub ring).start e.pos)).wrPost s.time (entryPair e)
        { entryWr ring e with data := bytes } } := by
  subst hb
  have hroom : ¬((entryWr ring e).opc = 4 ∧ 16 ≤ ((s.dev.qp (entryPair e)).wrs.filter (fun v => decide (v.opc = 4))).length) :=
    fun h => Nat.not_le.2 (h16 h.1) h.2
  simp only [entryPair, entryWr] at hu hp hroom ⊢
  simp only [exec_rdmaWorkRequest, execRdmaWorkRequest, onDev, he, hm, hu, hp, hroom, ne_eq, not_true_eq_false, Bool.not_true, decide_false,
    Bool.or_self, Bool.false_eq_true, if_false]
  rfl

/-- A request for a queue pair that is down, or another polder's, completes with status 7 (R229). -/
theorem rdmaWorkRequest_flushes
    (h : (s.dev.qp (entryPair e)).up = false ∨ (s.dev.qp (entryPair e)).polder ≠ (s.dev.ring kSub ring).polder) :
    exec (.rdmaWorkRequest ring data) s = .next { s with
      dev := (s.dev.setRing kSub ring ((s.dev.ring kSub ring).start e.pos)).wrDone (entryPair e) (entryWr ring e) 7 } := by
  unfold entryPair at h ⊢
  rcases h with hdown | hother
  · simp only [exec_rdmaWorkRequest, execRdmaWorkRequest, onDev, he, hm, hdown, entryWr, ne_eq, not_true_eq_false, Bool.not_false,
      Bool.true_or, if_true, if_false]
  · simp only [exec_rdmaWorkRequest, execRdmaWorkRequest, onDev, he, hm, hother, entryWr, ne_eq, not_true_eq_false, not_false_eq_true,
      decide_true, Bool.or_true, if_true, if_false]

end QueuePairs

/-- Settles O24: hand-over and creation, TCP segments and timers, RoCEv2 frames, and queue pairs. -/
theorem transportUnit : Obligations.TransportUnit := by
  refine ⟨?creation, ?transport⟩
  case creation =>
    intro s fn st req c q hroom
    exact ⟨handOver_takes hroom, handOver_full hroom, fun hq hring hcq hqueue hregions hmtu h1 h31 hretry hrnr =>
      queuePairCreate_creates hroom hq ⟨hring, hcq, hqueue, hregions, hmtu, h1, h31, hretry, hrnr⟩⟩
  case transport =>
    intro s conn p ps g gs frame bytes read data qpn ring e t
    refine ⟨fun hn hp => ?segment, fun ho => delayedAck_sends ho, fun ho hs ht hd ha => ?retransmit, fun hf => ?frame,
      fun hu hw hr ht => ?ackTimer, fun hu hr h0 => ?rnrFails, fun hu hr h0 => ?rnrResends, fun he hm hu hp => ?request,
      rdmaWorkRequest_flushes⟩
    case segment =>
      have h := tcpSegmentReceive_takes hn hp
      exact ⟨fun ho hsound => answers_of_pos (answers_of_pos h ho) hsound,
        fun ho hbad => answers_of_neg (answers_of_pos h ho) (Bool.eq_false_iff.1 hbad),
        fun ho => answers_of_neg h (Bool.eq_false_iff.1 ho)⟩
    case retransmit =>
      have h := retransmitTimer_expires ho hs ht hd ha
      exact ⟨fun hleft => answers_of_neg h (Nat.not_le.2 hleft), answers_of_pos h⟩
    case frame =>
      refine ⟨roceFrameReceive_badIcrc hf, roceFrameReceive_down hf, roceFrameReceive_otherTransport hf, roceFrameReceive_cnp hf,
        fun hi hu => ⟨fun hop => ?ack, fun hlo hhi => ?readData, fun hop => ?requested⟩⟩
      case ack => exact answers_of_pos (roceFrameReceive_up hf hi (by omega) hu) hop
      case readData => exact answers_of_pos (answers_of_neg (roceFrameReceive_up hf hi (by omega) hu) (by omega)) ⟨hlo, hhi⟩
      case requested =>
        exact answers_of_neg (answers_of_neg (answers_of_neg (roceFrameReceive_up hf hi (by omega) hu) (by omega)) (by omega)) (by omega)
    case ackTimer =>
      have h := ackTimeout_expires hu hw hr ht
      exact ⟨fun hleft => answers_of_neg h (Nat.ne_of_gt hleft), answers_of_pos h⟩
    case rnrFails => exact answers_of_pos (rnrTimer_expires hu hr) h0
    case rnrResends => exact answers_of_neg (rnrTimer_expires hu hr) (Nat.ne_of_gt h0)
    case request =>
      exact ⟨fun hopc => rdmaWorkRequest_posts he hm hu hp (fun h => absurd h hopc) (if_neg hopc),
        fun hopc hroom => rdmaWorkRequest_posts he hm hu hp (fun _ => hroom) (if_pos hopc)⟩

/-! # The NVMe personality and the storage rings (R231 to R236, R238) -/

/-! ## The controller of a function -/

section Controller

variable {s : State} {fn : Fn} (hm : s.dev.memAnswers fn = true) (hp : (s.dev.personaOf fn).isSome = true)

include hm hp

/-- A doorbell of a queue in use takes its value: a completion queue goes on with what waits for it, and the commands that a submission
queue makes known are executed (R233, R238). -/
theorem nvmeQueueDoorbell_takes {index : Fin 256} {value : BitVec 32} {cmds : List NvRead} {n v : Nat} {cq : Bool} {q : NvQueue}
    (hn : index.val / 2 = n) (hcq : decide (index.val % 2 = 1) = cq) (hq : (s.dev.ctl fn).queue n cq = q)
    (hv : bitsOf value.toNat 0 16 = v) (hen : (s.dev.ctl fn).en = true) (hu : q.used = true) (hlt : v < q.size) :
    let x := s.dev.ctl fn
    exec (.nvmeQueueDoorbell fn index value cmds) s = .next { s with
      dev := if cq then (s.dev.setCtl fn (x.setQueue n true { q with head := v })).nvDrain fn n q.wait.length
        else (cmds.take ((v + q.size - q.head) % q.size)).foldl (fun y r => y.nvExec s.time fn n r)
          (s.dev.setCtl fn (x.setQueue n false { q with tail := v })) } := by
  simp only [exec_nvmeQueueDoorbell, execNvmeQueueDoorbell, onDev, hm, Option.isNone_eq_false_iff.2 hp, hn, hcq, hq, hv, hen, hu,
    Nat.not_le.2 hlt, Bool.not_true, decide_false, Bool.or_self, Bool.false_eq_true, if_false]

theorem controllerEnable_enables (hen : (s.dev.ctl fn).en = false) :
    exec (.controllerEnable fn) s = .next { s with dev := s.dev.setCtl fn (s.dev.ctl fn).enable } := by
  simp only [exec_controllerEnable, execControllerEnable, onDev, hm, Option.isNone_eq_false_iff.2 hp, hen, Bool.not_true, Bool.or_self,
    Bool.false_eq_true, if_false]

theorem ccShn_shutsDown {shn : Fin 4} :
    exec (.ccShn fn shn) s = .next { s with dev := s.dev.setCtl fn ((s.dev.ctl fn).shutdown shn s.dev.uptime) } := by
  simp only [exec_ccShn, execCcShn, onDev, hm, Option.isNone_eq_false_iff.2 hp, Bool.not_true, Bool.false_eq_true, if_false]

omit hp

theorem ccEnClear_stops : exec (.ccEnClear fn) s = .next { s with dev := s.dev.nvStop fn } := by
  simp only [exec_ccEnClear, execCcEnClear, onDev, hm, Bool.not_true, Bool.false_eq_true, if_false]

end Controller

/-- A function whose memory does not answer gives Unsupported Request to every access of its controller (15 R402). -/
theorem controller_unsupported {s : State} {fn : Fn} (hm : s.dev.memAnswers fn = false) (index : Fin 256) (value : BitVec 32)
    (cmds : List NvRead) (shn : Fin 4) :
    ∀ i ∈ [Instr.nvmeQueueDoorbell fn index value cmds, .controllerEnable fn, .ccEnClear fn, .ccShn fn shn],
      exec i s = .next { s with dev := s.dev.urAnswer s.time fn } := by
  simp [execNvmeQueueDoorbell, execControllerEnable, execCcEnClear, execCcShn, onDev, hm]

/-- No command of a function is outstanding (R236). -/
theorem no_command_busy {cmds : Tbl (Option NvCmd)} {f : Nat} (h : ∀ m ∈ cmds, ∀ c : NvCmd, m.2 = some c → c.vf ≠ f) :
    cmds.any (fun e => (e.2.map (fun c => decide (c.vf = f))).getD false) = false := by
  refine List.any_eq_false.2 fun m hm => ?_
  cases hc : m.2 with
  | none => simp
  | some c => simpa using h m hm c hc

/-- A shutdown ends once no command is outstanding, or after 500 ms (R236). -/
theorem shutdownComplete_ends {s : State} {fn : Fn} (hp : (s.dev.personaOf fn).isSome = true)
    (h : (∀ m ∈ s.dev.sto.cmds, ∀ c : NvCmd, m.2 = some c → c.vf ≠ fn.val) ∨ (s.dev.ctl fn).stopAt + 500000000 ≤ s.dev.uptime) :
    let x := s.dev.ctl fn
    exec (.shutdownComplete fn) s = .next { s with
      dev := s.dev.setCtl fn { x with rdy := x.rdy && x.en, shst := if x.shst = 1 then 2 else x.shst } } := by
  have hdone : (s.dev.sto.cmds.any (fun e => (e.2.map (fun c => decide (c.vf = fn.val))).getD false) &&
      decide (s.dev.uptime < (s.dev.ctl fn).stopAt + 500000000)) = false := by
    rcases h with hidle | hlate
    · rw [no_command_busy hidle, Bool.false_and]
    · rw [decide_eq_false (Nat.not_lt.2 hlate), Bool.and_false]
  simp only [exec_shutdownComplete, execShutdownComplete, onDev, hdone, Option.isNone_eq_false_iff.2 hp, Bool.or_self, Bool.false_eq_true,
    if_false]

/-! ## The assignment of a personality -/

/-- A personality entry given to a function, with the namespaces mapped to it, and counted (R231, R234). -/
def personaGiven (d : Dev) (v vf : Nat) (ns : List NsReq) : Dev :=
  let given := ((d.wr STO.PVF_FUNC v vf).wr STO.PVF_EN v 1).wr STO.PVF_NSCOUNT v ns.length
  let counted := given.wr STO.PERSONA_COUNT 0 (given.rd STO.PERSONA_COUNT + 1)
  counted.setCtl vf { counted.ctl vf with ns := ns.foldl (fun t s => Tbl.insert t s.nsid (some s)) [] }

/-- What a PF may give the personality to: a VF of its own that does not exist yet, with sound namespaces (R231, R234). -/
structure Assigns (d : Dev) (pf : Pf) (vf : Fn) (ns : List NsReq) : Prop where
  fresh    : d.personaOf vf = none
  disabled : d.fnExists vf = false
  owned    : pfOf vf = pf
  virtual  : vf.val % 4096 ≠ 0
  sound    : ns.all (d.nsOk pf) = true
  distinct : (ns.map (fun s => s.nsid)).Nodup

theorem personalityAssign_gives {s : State} {pf : Pf} {vf : Fn} {ns : List NsReq} {v : Nat}
    (hroom : s.dev.answerRoom (4096 * pf.val) = true) (ha : Assigns s.dev pf vf ns)
    (hv : (List.range 1024).find? (fun v => decide (s.dev.rd STO.PVF_EN v = 0)) = some v) :
    exec (.personalityAssign pf vf ns) s =
      .next { s with dev := (personaGiven s.dev v vf ns).storageAnswer (4096 * pf.val) v } := by
  obtain ⟨hfresh, hdisabled, howned, hvirtual, hsound, hdistinct⟩ := ha
  simp only [exec_personalityAssign, execPersonalityAssign, onDev, hroom, hfresh, hdisabled, howned, hvirtual, hsound, hdistinct, hv, ne_eq,
    not_false_eq_true, and_self, decide_true, Bool.and_self, Option.isNone_none, Bool.not_true, Bool.false_eq_true, if_true, if_false]
  rfl

/-! ## The storage rings -/

/-- The connection or queue pair that a storage entry names (16 R438). -/
def entryConn (e : SubEntry) : Bool × Nat := ((e.words.getD 0 0).testBit 8, bitsOf (e.words.getD 0 0) 32 16)

/-- The job that a storage entry asks for. -/
def entryJob (ring polder : Nat) (bufs : List (Nat × Nat)) (data : List Byte) (e : SubEntry) : NvJob :=
  { src := .ring ring e.pos, conn := entryConn e, sqe := entrySqe e.words, data := data, bufs := bufs, polder := polder
    len := max data.length ((bufs.map (fun b => b.2)).sum) }

section Rings

variable {s : State} {ring : Fin 262144} {bufs : List (Nat × Nat)} {data : List Byte} {e : SubEntry}

/-- The next entry of a storage ring becomes a job on its connection, or completes with Transient Transport Error where the connection
is not its polder's (R233). -/
theorem storageCommand_takes (he : (s.dev.ring kSub ring).nextEntry = some e) (hmode : (s.dev.ring kSub ring).mode = 2) :
    let y := s.dev.ring kSub ring
    let begun := s.dev.setRing kSub ring (y.start e.pos)
    let asked := entryJob ring y.polder bufs data e
    exec (.storageCommand ring bufs data) s = .next { s with
      dev := if begun.connPolder (entryConn e) = y.polder then begun.newJob s.time asked
        else ((begun.bump STO.TTE_COUNT).raise s.time (ev 9 4) (connInfo (entryConn e)) (some y.polder)).jobDone 0 asked tteEntry [] } := by
  simp only [exec_storageCommand, execStorageCommand, onDev, he, hmode, ne_eq, not_true_eq_false, if_false]
  rfl

theorem remoteCompletion_ends {job cqe : Nat} {more : List (Nat × Nat × List Byte)} {j : NvJob}
    (ha : s.dev.sto.arrived = (job, cqe, data) :: more) (hj : look none s.dev.sto.jobs job = some j) :
    exec .remoteCompletion s = .next { s with
      dev := ({ s.dev with sto := { s.dev.sto with arrived := more } } : Dev).jobDone job j cqe data } := by
  simp only [exec_remoteCompletion, execRemoteCompletion, onDev, ha, hj]

end Rings

/-- Settles O25: the life of a controller, the assignment of a personality, and the storage rings. -/
theorem storageResults : Obligations.StorageResults := by
  intro s fn vf pf index value cmds shn ns ring bufs data job v cqe more j e
  refine ⟨fun hm hp => ?controller, shutdownComplete_ends, fun hm => ?unsupported,
    fun hroom hfresh hdis hown hvirt hv hsound hdistinct => ?assign, fun he hmode => ?entry, remoteCompletion_ends⟩
  case controller =>
    refine ⟨fun hen hu hlt hcq => ?_, fun hen hu hlt hcq => ?_, controllerEnable_enables hm hp, ccEnClear_stops hm, ccShn_shutsDown hm hp⟩
    · exact answers_of_pos (nvmeQueueDoorbell_takes hm hp rfl rfl rfl rfl hen hu hlt) hcq
    · exact answers_of_neg (nvmeQueueDoorbell_takes hm hp rfl rfl rfl rfl hen hu hlt) (Bool.eq_false_iff.1 hcq)
  case unsupported => simpa using controller_unsupported hm index value cmds shn
  case assign => exact personalityAssign_gives hroom ⟨hfresh, hdis, hown, hvirt, hsound, hdistinct⟩ hv
  case entry =>
    have h := storageCommand_takes (bufs := bufs) (data := data) he hmode
    exact ⟨answers_of_pos h, answers_of_neg h⟩

end Sys2Proof.Proofs
end

section
/-! Proofs of the statements of 10_cipher_keystore: cipher jobs, the key loader, the battery domain and random numbers. -/

namespace Sys2Proof.Proofs

open Sys2Proof.Machine Sys2Proof.Laws

/-! # Cipher jobs (R243 to R255, R258, R260, R267, R270) -/

/-! ## Issue -/

/-- The descriptor that a CIS of a context names. -/
def cisDesc (c : Ctx) (ra : Nat) : CDesc := readDesc (c.scrBytes (c.rg ra).toNat 64)

/-- The key slot that it names. -/
def cisSlot (c : Ctx) (rb : Nat) : Nat := (c.rg rb).toNat % 131072

/-- What a CIS touches as it issues: an onward one writes no scratch, and takes no data from it. -/
def cisTouch (c : Ctx) (rd ra rb : Nat) (onward : Bool) : Touch :=
  let q := cisDesc c ra
  { regs := [rd, ra, rb], header := true, scratch := ((c.rg ra).toNat, 64)
    scratch2 := if q.fromScr && !onward then (q.start, q.dlen + q.tagLen) else (0, 0)
    scratch3 := if onward then (0, 0) else (q.rdst, q.outLen) }

theorem cisTouch_return (c : Ctx) (rd ra rb : Nat) :
    let q := cisDesc c ra
    cisTouch c rd ra rb false =
      { regs := [rd, ra, rb], header := true, scratch := ((c.rg ra).toNat, 64)
        scratch2 := if q.fromScr then (q.start, q.dlen + q.tagLen) else (0, 0), scratch3 := (q.rdst, q.outLen) } := by
  simp only [cisTouch, Bool.not_false, Bool.and_true, Bool.false_eq_true, if_false]

theorem cisTouch_onward (c : Ctx) (rd ra rb : Nat) :
    cisTouch c rd ra rb true = { regs := [rd, ra, rb], header := true, scratch := ((c.rg ra).toNat, 64) } := by
  simp only [cisTouch, Bool.not_true, Bool.and_false, Bool.false_eq_true, if_false, if_true]

/-- The device once a CIS is counted for its packet, and the read of its slot has found what it finds (R248, R260). -/
def cisCounted (d : Dev) (now : NetTime) (x rb : Nat) (ecc : Ecc) : Dev :=
  (d.setCtx x { d.ctx x with cis := (d.ctx x).cis + 1 }).slotEcc now (cisSlot (d.ctx x) rb) ecc

/-- The key slot as a CIS reads it; a number beyond the store reads as EMPTY. -/
def cisKey (y : Dev) (c : Ctx) (rb : Nat) : KeySlot := if (c.rg rb).toNat < 131072 then y.key (cisSlot c rb) else {}

/-- The queue that a job enters: the return queue, or the onward queue of its packet's kind (R245). -/
def cisQueue (c : Ctx) (onward : Bool) : Nat :=
  if !onward then 0 else if (c.pkt.map (fun p => decide (p.contract ≠ 0))).getD false then 1 else 2

/-- The status of a CIS (R248, R255). -/
def cisVerdict (y : Dev) (c : Ctx) (ra rb : Nat) (onward : Bool) : Nat :=
  y.cisStatus (cisDesc c ra) (cisKey y c rb) onward c.pkt.isSome ((c.pkt.map y.growsFrame).getD false)
    (c.e - c.s + (match c.pkt with | some p => p.tail.length | none => 0)) (y.progPolder c) (cisQueue c onward)

/-- A job that is accepted, and takes the slot's counter where it seals under it (R250). -/
def cisAccepted (y : Dev) (c : Ctx) (x k ra rb : Nat) (onward : Bool) : Dev :=
  let q := cisDesc c ra
  let key := cisKey y c rb
  (if q.enc && decide (q.nsrc = 1) then y.setKey (cisSlot c rb) { key with counter := key.counter + 1 } else y).acceptJob
    (c.makeJob x k (cisSlot c rb) (cisQueue c onward) q key)

/-- An onward job is noted in its packet, and counted. -/
def onwardNoted (y : Dev) (x n : Nat) : Dev :=
  (y.setCtx x { y.ctx x with pkt := (y.ctx x).pkt.map (fun p => { p with onward := p.onward ++ [n] }) }).bump CIP.ONWARD_COUNT

/-- A CIS that neither faults nor finds its ticket busy: its descriptor is aligned in scratch, and its packet has a job left. -/
structure CisReady (d : Dev) (x ra k : Nat) : Prop where
  inScratch : scratchOk x ((d.ctx x).rg ra).toNat 64 = true
  aligned   : ((d.ctx x).rg ra).toNat % 64 = 0
  below     : (d.ctx x).pkt.isSome = true → (d.ctx x).cis < 4
  free      : ((d.ctx x).tk k).busy = false

namespace CisReady

variable {d : Dev} {x ra k : Nat}

theorem address_ok (h : CisReady d x ra k) :
    ¬(!scratchOk x ((d.ctx x).rg ra).toNat 64 || decide (((d.ctx x).rg ra).toNat % 64 ≠ 0)) = true := by
  simp [h.inScratch, h.aligned]

theorem limit_ok (h : CisReady d x ra k) : ¬((d.ctx x).pkt.isSome && decide (4 ≤ (d.ctx x).cis)) = true := by
  simpa using h.below

end CisReady

section Issue

variable {s : State} {x : CtxId} {rd ra rb : Reg} {k : Tick} {ecc : Ecc} (hr : CisReady s.dev x ra k)

include hr

/-- A CIS that is refused answers its status (R248, R255). -/
theorem cis_refuses {i : Instr} {onward : Bool} {y : Dev} {v : Nat}
    (hx : exec i s = .next { s with dev := s.dev.cis s.time x rd ra rb k onward ecc })
    (hi : s.dev.issues x (cisTouch (s.dev.ctx x) rd ra rb onward) = true) (hy : cisCounted s.dev s.time x rb ecc = y)
    (hv : cisVerdict y (s.dev.ctx x) ra rb onward = v) (h0 : v ≠ 0) :
    let z := y.cisRefused s.time v (cisQueue (s.dev.ctx x) onward) (cisSlot (s.dev.ctx x) rb)
    exec i s = .next { s with dev := z.setCtx x ((z.ctx x).setTk k { rd := rd, pend := .value (BitVec.ofNat 64 v), busy := true }).next } := by
  subst hy hv
  exact async_takes hi hr.free hx ((if_neg hr.address_ok).trans ((if_neg hr.limit_ok).trans (if_pos h0)))

/-- A return job that is accepted answers its ticket from its core, into scratch (R254). -/
theorem cisReturn_accepts (hi : s.dev.issues x (cisTouch (s.dev.ctx x) rd ra rb false) = true)
    (h0 : cisVerdict (cisCounted s.dev s.time x rb .good) (s.dev.ctx x) ra rb false = 0) :
    let c := s.dev.ctx x
    let n := (cisCounted s.dev s.time x rb .good).cip.next
    let y := cisAccepted (cisCounted s.dev s.time x rb .good) c x k ra rb false
    exec (.cisReturn x rd ra rb k) s = .next { s with dev := y.setCtx x ((y.ctx x).setTk k
      { rd := rd, scratch := ((cisDesc c ra).rdst, (cisDesc c ra).outLen), pend := .atCipher n, busy := true }).next } :=
  async_takes hi hr.free rfl ((if_neg hr.address_ok).trans ((if_neg hr.limit_ok).trans (if_neg (not_not_intro h0))))

/-- An onward job that is accepted answers at once, and its packet carries its number (R251). -/
theorem cisOnward_accepts (hi : s.dev.issues x (cisTouch (s.dev.ctx x) rd ra rb true) = true)
    (h0 : cisVerdict (cisCounted s.dev s.time x rb ecc) (s.dev.ctx x) ra rb true = 0) :
    let n := (cisCounted s.dev s.time x rb ecc).cip.next
    let y := onwardNoted (cisAccepted (cisCounted s.dev s.time x rb ecc) (s.dev.ctx x) x k ra rb true) x n
    exec (.cisOnward x rd ra rb k ecc) s =
      .next { s with dev := y.setCtx x ((y.ctx x).setTk k { rd := rd, pend := .value 0, busy := true }).next } :=
  async_takes hi hr.free rfl ((if_neg hr.address_ok).trans ((if_neg hr.limit_ok).trans (if_neg (not_not_intro h0))))

end Issue

/-! ## Cores -/

section Cores

variable {s : State} {core : Fin 32} {n : Nat} {j : Job} {ecc : Ecc}

/-- A core that takes a job keeps the one it ran, and those it suspended, for later (R244). -/
def jobTaken (d : Dev) (core n : Nat) : Dev :=
  let y := d.core core
  d.setCore core { run := some n, susp := (match y.run with | some m => [m] | none => []) ++ y.susp.filter (· ≠ n) }

/-- The job leaves its queue, and a job that waited for room there enters it. -/
def jobDequeued (y : Dev) (q n : Nat) : Dev := (y.setCipQueue q ((y.cipQueue q).filter (· ≠ n))).roomInQueue q

/-- At a chunk boundary a core goes on with a job that it suspended, or starts one and fetches its key (R244, R267). -/
theorem chunkBoundary_takes (ho : s.dev.coreOnline core = true) (hn : s.dev.nextJob core = some n) :
    exec (.chunkBoundary core ecc) s = .next { s with
      dev := if (s.dev.core core).susp.contains n then jobTaken s.dev core n
        else (jobDequeued (jobTaken s.dev core n) (s.dev.queueOf n) n).keyFetch s.time core n ecc } := by
  simp only [exec_chunkBoundary, execChunkBoundary, onDev, ho, hn, Bool.not_true, Bool.false_eq_true, if_false]
  rfl

/-- The oldest return job that no core has started is LATE (R245). -/
theorem returnLate_answers {ns : List Nat} (hq : s.dev.cipQueue 0 = n :: ns) (hj : (s.dev.setCipQueue 0 ns).job n = some j)
    (hp : (((s.dev.setCipQueue 0 ns).ctx j.ctx).tk j.tick).pend = .atCipher n) :
    let rest := s.dev.setCipQueue 0 ns
    let told := rest.setCtx j.ctx ((rest.ctx j.ctx).setTk j.tick { (rest.ctx j.ctx).tk j.tick with pend := .value 2 })
    exec .returnLate s = .next { s with dev := ((told.setJob n none).bump CIP.LATE_COUNT).raiseSec s.time (ev 10 2) 0 (j.ctx / 128) } := by
  simp only [exec_returnLate, execReturnLate, onDev, hq, hj, hp, if_true]

/-- The device with a core that runs nothing, and keeps what it suspended. -/
def coreFreed (d : Dev) (core : Nat) : Dev := d.setCore core { d.core core with run := none }

/-- The job that a core ran is finished, and the core is free (R243). -/
theorem jobComplete_finishes (hr : (s.dev.core core).run = some n) (hj : (coreFreed s.dev core).job n = some j) :
    exec (.jobComplete core) s = .next { s with dev := (coreFreed s.dev core).jobFinished s.time n j } := by
  unfold coreFreed at hj ⊢
  simp only [exec_jobComplete, execJobComplete, onDev, hr, hj]

end Cores

/-! ## A job that its core finishes, by its owner -/

section Finished

variable {d : Dev} {now : NetTime} {n m : Nat} {j : Job}

theorem jobFinished_return (ho : j.own = .program) (hq : j.queue = 0) : d.jobFinished now n j = d.returnDone n j := by
  simp only [Dev.jobFinished, ho, hq, if_true]

theorem jobFinished_onward (ho : j.own = .program) (hq : j.queue ≠ 0) :
    d.jobFinished now n j = d.setJob n (if d.jobWanted n then some j.done else none) := by
  simp only [Dev.jobFinished, Dev.onwardDone, ho, hq, if_false]

theorem jobFinished_sealRecord (ho : j.own = .sealRecord m) (hm : (d.conn m).txJobs.contains n = true) :
    d.jobFinished now n j = (d.setJob n (some j.done)).recordsDone now m true (d.conn m).txJobs.length := by
  simp only [Dev.jobFinished, ho, hm, if_true]

theorem jobFinished_openRecord (ho : j.own = .openRecord m) (hm : (d.conn m).rxJobs.contains n = true) :
    d.jobFinished now n j = (d.setJob n (some j.done)).recordsDone now m false (d.conn m).rxJobs.length := by
  simp only [Dev.jobFinished, ho, hm, if_true]

theorem jobFinished_unit {v : NvCmd} (ho : j.own = .unit m) (hv : look none d.sto.cmds m = some v) (hm : v.units.contains n = true) :
    d.jobFinished now n j = (d.setJob n (some j.done)).unitsDone now m := by
  simp only [Dev.jobFinished, ho, hv, hm, Option.map_some, Option.getD_some, if_true]

end Finished

/-! ## The merge of an onward job -/

/-- A packet whose next onward job is this one. -/
def mergeDue (job : Nat) (p : Packet) : Bool := decide (p.onward.head? = some job)

/-- A packet that was accepted waits for the job: in a queue, at a ring, or at a connection (R251). -/
def mergeAwaited (d : Dev) (job : Nat) : Bool :=
  d.sch.queues.any (fun e => e.2.any (mergeDue job)) || d.rng.rxWait.any (fun e => e.2.any (mergeDue job)) ||
    d.sto.segs.any (fun e => e.2.any (mergeDue job))

theorem mergeAwaited_iff (d : Dev) (job : Nat) : mergeAwaited d job = true ↔
    d.sch.queues.any (fun e => e.2.any (mergeDue job)) = true ∨ d.rng.rxWait.any (fun e => e.2.any (mergeDue job)) = true ∨
      d.sto.segs.any (fun e => e.2.any (mergeDue job)) = true := by
  unfold mergeAwaited
  rw [Bool.or_eq_true, Bool.or_eq_true, or_assoc]

/-- Every list of packets in which one may wait for a job, changed. -/
def waitingMapped (d : Dev) (g : List Packet → List Packet) : Dev :=
  { d with
    sch := { d.sch with queues := Tbl.mapKept [] (fun _ l => g l) d.sch.queues }
    rng := { d.rng with rxWait := Tbl.mapKept [] (fun _ l => g l) d.rng.rxWait }
    sto := { d.sto with segs := Tbl.mapKept [] (fun _ l => g l) d.sto.segs } }

/-- The rings at which a packet waited for the job are served, in the packets' own order. -/
def mergeServed (d0 : Dev) (now : NetTime) (job : Nat) (y : Dev) : Dev :=
  ((d0.rng.rxWait.filter (fun e => e.2.any (mergeDue job))).map (fun e => e.1)).foldl
    (fun w r => w.rxServe now r (look [] w.rng.rxWait r).length) y

/-- The packets in scheduler queues that wait for the job. -/
def mergeQueued (d : Dev) (job : Nat) : List Packet := d.sch.queues.flatMap (fun e => e.2.filter (mergeDue job))

/-- The packets at rings and connections that wait for the job. -/
def mergeHeld (d : Dev) (job : Nat) : List Packet :=
  d.rng.rxWait.flatMap (fun e => e.2.filter (mergeDue job)) ++ d.sto.segs.flatMap (fun e => e.2.filter (mergeDue job))

/-- The packets that wait for the job are dropped, and their memory is free (R253). -/
def mergeDropped (d : Dev) (job : Nat) : Dev :=
  (mergeHeld d job).foldl Dev.freePacket ((mergeQueued d job).foldl (fun w p => (w.freePacket p).freeEntry p)
    (waitingMapped d (fun l => l.filter (fun p => !mergeDue job p))))

/-- No core holds the job, and it waits in no queue. -/
structure JobLeft (d : Dev) (job : Nat) (j : Job) : Prop where
  cores : d.cip.cores.any (fun e => decide (e.2.run = some job) || e.2.susp.contains job) = false
  queue : (d.cipQueue j.queue).contains job = false

section Merge

variable {s : State} {job : Nat} {j : Job} (hj : s.dev.job job = some j) (hw : mergeAwaited s.dev job = true)

include hj hw

theorem merge_merges {out tag : List Byte} {esp next : Nat} (hf : j.fail = none) (hr : j.result = some (out, tag, esp, next)) :
    let d0 := s.dev.setJob job none
    let merged := waitingMapped d0 (fun l => l.map (fun p => if mergeDue job p then p.merge j out tag esp next else p))
    exec (.merge job) s = .next { s with dev := mergeServed d0 s.time job merged } := by
  unfold mergeAwaited mergeDue at hw
  simp only [exec_merge, execMerge, onDev, hj, hw, hf, hr, Option.isNone_some, Bool.not_true, Bool.false_and,
    Bool.or_self, Bool.false_eq_true, if_false]
  rfl

/-- A job that failed drops its packet, counted by its status (R253). -/
theorem merge_drops {st : Nat} (hf : j.fail = some st) (hr : j.result = none) (hleft : JobLeft s.dev job j) :
    let d0 := s.dev.setJob job none
    let polder := (mergeQueued d0 job ++ mergeHeld d0 job).head?.map (fun p => p.polder)
    let counted := (mergeDropped d0 job).bump (if st = 6 then CIP.ONFAIL_AUTH else CIP.ONFAIL_OTHER)
    exec (.merge job) s = .next { s with dev := mergeServed d0 s.time job (counted.raiseSec s.time (ev 10 3) 0 st polder) } := by
  unfold mergeAwaited mergeDue at hw
  simp only [exec_merge, execMerge, onDev, hj, hw, hf, hr, hleft.cores, hleft.queue, Option.isNone_some, Bool.not_true,
    Bool.or_self, Bool.and_false, Bool.false_eq_true, if_false]
  rfl

end Merge

/-! ## A RETIRING slot -/

/-- A job that is done, or that another slot's key serves. -/
def leavesSlot (slot : Nat) : Option Job → Prop
  | some i => i.slot ≠ slot ∨ i.result.isSome = true ∨ i.fail.isSome = true
  | none => True

theorem no_open_job {jobs : Tbl (Option Job)} {slot : Nat} (h : ∀ z ∈ jobs, leavesSlot slot z.2) :
    jobs.any (fun e => (e.2.map (fun j => decide (j.slot = slot) && j.result.isNone && j.fail.isNone)).getD false) = false := by
  refine List.any_eq_false.2 fun z hz => ?_
  have hleaves := h z hz
  cases hzj : z.2 with
  | none => simp
  | some i =>
    rw [hzj] at hleaves
    rcases hleaves with hslot | hdone | hfailed
    · simp [hslot]
    · simp [Option.isNone_eq_false_iff.2 hdone]
    · simp [Option.isNone_eq_false_iff.2 hfailed]

theorem retiringDrain_empties {s : State} {slot : Fin 131072} (hst : (s.dev.key slot).st = 2)
    (h : ∀ z ∈ s.dev.cip.jobs, leavesSlot slot z.2) : exec (.retiringDrain slot) s = .next { s with dev := s.dev.setKey slot {} } := by
  simp only [exec_retiringDrain, execRetiringDrain, onDev, hst, no_open_job h, and_self, if_true]

/-- Settles O26: the issue of a CIS, the cores, the end of a job, its merge, and the drain of a slot. -/
theorem cipherJobs : Obligations.CipherJobs := by
  refine ⟨?jobs, ?ends⟩
  case jobs =>
    intro s x rd ra rb k core n ns j ecc
    refine ⟨fun hscr hal hbelow hfree => ?issue, fun ho hn => ?boundary, returnLate_answers, fun hr hj => ?complete, rfl, fun _ => rfl⟩
    case issue =>
      have hr : CisReady s.dev x ra k := ⟨hscr, hal, hbelow, hfree⟩
      refine ⟨fun hi => ?returned, fun hi => ?sent⟩
      case returned =>
        have hi := (congrArg (s.dev.issues x) (cisTouch_return ..)).trans hi
        exact ⟨cis_refuses hr rfl hi rfl rfl, cisReturn_accepts hr hi⟩
      case sent =>
        have hi := (congrArg (s.dev.issues x) (cisTouch_onward ..)).trans hi
        exact ⟨cis_refuses hr rfl hi rfl rfl, cisOnward_accepts hr hi⟩
    case boundary =>
      have h := chunkBoundary_takes (ecc := ecc) ho hn
      exact ⟨answers_of_pos h, fun hnew => answers_of_neg h (Bool.eq_false_iff.1 hnew)⟩
    case complete =>
      have h := jobComplete_finishes hr hj
      exact ⟨fun ho hq => jobFinished_return ho hq ▸ h, fun ho hq => jobFinished_onward ho hq ▸ h,
        fun m ho hm => jobFinished_sealRecord ho hm ▸ h, fun m ho hm => jobFinished_openRecord ho hm ▸ h,
        fun m v ho hv hm => jobFinished_unit ho hv hm ▸ h⟩
  case ends =>
    intro s job j out tag esp next st slot
    refine ⟨fun hj hwaits => ?merge, fun hst h => retiringDrain_empties hst h⟩
    have hw := (mergeAwaited_iff s.dev job).2 hwaits
    exact ⟨merge_merges hj hw, fun hf hr hcores hqueue => merge_drops hj hw hf hr ⟨hcores, hqueue⟩⟩

/-! # The key loader (R258 to R264, R277) -/

/-! ## A guard on a negated test -/

theorem guard_passes {b : Bool} (h : b = true) : ¬(!b) = true := by
  simp [h]

theorem guard_stops {b : Bool} (h : b = false) : (!b) = true := (Bool.not_eq_true' b).mpr h

/-! ## Whose request is served, and what meets it -/

/-- The device with a PF's request in service: the other PF is next, and nothing has met the request (R261, R277). -/
def keyTurned (d : Dev) (pf : Pf) : Dev := { d with cip := { d.cip with keyRot := 1 - pf.val, keyMet := 0 } }

section Turn

variable {s : State} {pf : Pf} {i : Instr} {f : NetTime → Dev → Dev} {req : Nat} (ht : s.dev.keyTurn pf = true)

include ht

theorem key_serves (hx : exec i s = keyServes pf f s) : exec i s = .next { s with dev := f s.time (keyTurned s.dev pf) } := by
  simp only [hx, keyServes, onDev, ht, if_true, keyTurned]

theorem key_serves_unmet (hx : exec i s = keyServesMet pf req f s) (hm : s.dev.cip.keyMet ≠ keyTampered)
    (he : s.dev.cip.keyMet ≠ keyEntropy ∨ req ≠ 3) : exec i s = .next { s with dev := f s.time (keyTurned s.dev pf) } := by
  have hunmet : ¬(s.dev.cip.keyMet = keyTampered ∨ (s.dev.cip.keyMet = keyEntropy ∧ req = 3)) :=
    not_or_intro hm (not_and_or.2 he)
  simp only [hx, keyServesMet, onDev, ht, hunmet, Bool.not_true, Bool.false_eq_true, if_false, keyTurned]

/-- A request that an alarm meets, and a GENERATE that an entropy failure meets, is aborted (R277). -/
theorem key_aborts {code : Nat} (hx : exec i s = keyServesMet pf req f s) (hc : s.dev.cip.keyMet = code)
    (hm : code = keyTampered ∨ (code = keyEntropy ∧ req = 3)) :
    exec i s = .next { s with dev := (keyTurned s.dev pf).keyAnswer s.time pf req code } := by
  simp only [hx, keyServesMet, onDev, ht, hc, hm, Bool.not_true, Bool.false_eq_true, if_false, if_true, keyTurned]

end Turn

/-! ## Sessions and new keys (R261 to R263) -/

/-- The session that a device opens for a PF, and its number. -/
def newSession (d : Dev) (pf : Pf) (hostKey : List Byte) : Nat × List Byte × List Byte :=
  sessionOf (d.drawWords 18).2 pf (look 0 d.cip.sessNo pf + 1) (slice hostKey 0 96)

/-- The device once it has drawn the bits of a session, and holds it for the PF. -/
def sessionHeld (d : Dev) (now : NetTime) (pf : Pf) (hostKey : List Byte) : Dev :=
  let n := look 0 d.cip.sessNo pf + 1
  let y := (((d.drawWords 18).1).drawMask 32).1.drbgRequest now 12
  { y with cip := { y.cip with
    sess := put none y.cip.sess pf (some (n, (newSession d pf hostKey).1)), sessNo := put 0 y.cip.sessNo pf n } }

/-- What GENERATE makes of its attributes and fresh bits (R263). -/
def generated (d : Dev) (now : NetTime) (pf : Pf) (slot : Nat) (attrs : List Byte) : Dev × Nat :=
  let a := slice attrs 0 32
  (((d.drawWords 8).1).drbgRequest now 12).loadKey pf slot (a ++ leBytes 64 ((d.drawWords 8).2 % 2 ^ keyBits (leAt a 0 1)))

/-- What LOAD answers to what its blob unwraps to (R263). -/
def unwrapAnswered (d : Dev) (now : NetTime) (pf slot : Nat) : Option (List Byte) → Dev
  | none => d.keyAnswer now pf 2 keyUnwrapFails
  | some plain => (d.loadKey pf slot plain).1.keyAnswer now pf 2 (d.loadKey pf slot plain).2

section Requests

variable {s : State} {pf : Pf} {slot : Fin 131072} {hostKey blob attrs : List Byte} {reply : Word} {ecc : Ecc} {d : Dev}
  (ht : s.dev.keyTurn pf = true)

section Unmet

variable (hm : s.dev.cip.keyMet ≠ keyTampered) (hd : keyTurned s.dev pf = d)

include ht hm hd

theorem session_opens (hr : d.drbgStopped 12 = false) :
    let x := newSession d pf hostKey
    let shown := (sessionHeld d s.time pf hostKey).wr (if pf.val = 0 then KEY.STATUS_SESS0 else KEY.STATUS_SESS1) 0 1
    exec (.session pf hostKey reply) s = .next { s with
      dev := (shown.keyReply pf reply (x.2.1 ++ leBytes 4 (look 0 d.cip.sessNo pf + 1) ++ x.2.2)).keyAnswer s.time pf 1 0 } := by
  subst hd
  exact answers_of_neg (key_serves_unmet ht (exec_session ..) hm (.inr (by decide))) (Bool.eq_false_iff.1 hr)

theorem session_stopped (hr : d.drbgStopped 12 = true) :
    exec (.session pf hostKey reply) s = .next { s with dev := d.keyAnswer s.time pf 1 keyEntropy } := by
  subst hd
  exact answers_of_pos (key_serves_unmet ht (exec_session ..) hm (.inr (by decide))) hr

section KeyLoad

variable (hn : d.tampered = false)

include hn

theorem keyLoad_noSession (hs : look none d.cip.sess pf = none) :
    exec (.keyLoad pf slot blob) s = .next { s with dev := d.keyAnswer s.time pf 2 keyNoSession } := by
  subst hd
  refine (answers_of_neg (key_serves_unmet ht (exec_keyLoad ..) hm (.inr (by decide))) (Bool.eq_false_iff.1 hn)).trans ?_
  simp only [hs]

/-- With a session, by what the blob unwraps to under its key. The unwrap is a variable in the proof, so that no check of it runs the
cipher. -/
theorem keyLoad_unwraps {e : Nat × Nat} {u : Option (List Byte)} (hs : look none d.cip.sess pf = some e)
    (hu : keyUnwrap (leBytes 32 e.2) (slice blob 0 104) = u) :
    exec (.keyLoad pf slot blob) s = .next { s with dev := unwrapAnswered d s.time pf slot u } := by
  subst hd
  refine (answers_of_neg (key_serves_unmet ht (exec_keyLoad ..) hm (.inr (by decide))) (Bool.eq_false_iff.1 hn)).trans ?_
  obtain ⟨unwrap, hunwrap⟩ : ∃ f, f = keyUnwrap := ⟨_, rfl⟩
  rw [← hunwrap] at hu ⊢
  cases u with
  | none => simp only [hs, hu, unwrapAnswered]
  | some plain => simp only [hs, hu, unwrapAnswered]

end KeyLoad

theorem keyLoad_tampered (hn : d.tampered = true) :
    exec (.keyLoad pf slot blob) s = .next { s with dev := d.keyAnswer s.time pf 2 keyTampered } := by
  subst hd
  exact answers_of_pos (key_serves_unmet ht (exec_keyLoad ..) hm (.inr (by decide))) hn

section KeyImport

variable (hn : d.tampered = false)

include hn

theorem keyImport_untampered :
    let k := d.bat.rootKey
    let nonce := slice blob 16 12
    let ct := slice blob 28 96
    let back := d.loadKey pf slot (cipherText algGcm256 false k nonce ct)
    exec (.keyImport pf slot blob) s = .next { s with
      dev := if !d.armed then d.keyAnswer s.time pf 5 keyNoRoot
        else if slice blob 0 16 ≠ exportHeader ∨ slice blob 124 16 ≠ cipherTag algGcm256 k nonce exportHeader ct then
          d.keyAnswer s.time pf 5 keyUnwrapFails
        else back.1.keyAnswer s.time pf 5 back.2 } := by
  subst hd
  exact answers_of_neg (key_serves_unmet ht (exec_keyImport ..) hm (.inr (by decide))) (Bool.eq_false_iff.1 hn)

/-- Under the root key, IMPORT takes a blob with the right header when its tag holds, and refuses it otherwise (R264). -/
theorem keyImport_opens (harm : d.armed = true) (hh : slice blob 0 16 = exportHeader) :
    let k := d.bat.rootKey
    let nonce := slice blob 16 12
    let ct := slice blob 28 96
    let back := d.loadKey pf slot (cipherText algGcm256 false k nonce ct)
    let sound := slice blob 124 16 = cipherTag algGcm256 k nonce exportHeader ct
    exec (.keyImport pf slot blob) s = .next { s with
      dev := (if sound then back.1 else d).keyAnswer s.time pf 5 (if sound then back.2 else keyUnwrapFails) } := by
  have h := answers_of_neg (keyImport_untampered (slot := slot) (blob := blob) ht hm hd hn) (guard_passes harm)
  intro k nonce ct back sound
  by_cases hs : sound
  · rw [if_pos hs, if_pos hs]
    exact answers_of_neg h (not_or_intro (not_not_intro hh) (not_not_intro hs))
  · rw [if_neg hs, if_neg hs]
    exact answers_of_pos h (.inr hs)

end KeyImport

theorem keyImport_tampered (hn : d.tampered = true) :
    exec (.keyImport pf slot blob) s = .next { s with dev := d.keyAnswer s.time pf 5 keyTampered } := by
  subst hd
  exact answers_of_pos (key_serves_unmet ht (exec_keyImport ..) hm (.inr (by decide))) hn

/-- EXPORT seals a slot that its PF may name, while the root key holds and the slot's attributes let it (R260, R264). -/
theorem keyExport_answers :
    let read := d.slotEcc s.time slot ecc
    let x := read.key slot
    let nonce := leBytes 12 (read.drawWords 2).2
    let ct := cipherText algGcm256 true read.bat.rootKey nonce x.plain
    let blob := exportHeader ++ nonce ++ ct ++ cipherTag algGcm256 read.bat.rootKey nonce exportHeader ct
    exec (.keyExport pf slot reply ecc) s = .next { s with
      dev := if !read.mayNameKey pf slot then read.keyAnswer s.time pf 4 keyBadSlot
        else if !read.armed then read.keyAnswer s.time pf 4 keyNoRoot
        else if !x.exp || decide (x.dirs % 2 = 1 ∧ x.alg ≠ 5) then read.keyAnswer s.time pf 4 keyNoExport
        else if read.drbgStopped 12 then read.keyAnswer s.time pf 4 keyEntropy
        else ((((read.drawWords 2).1).drbgRequest s.time 12).keyReply pf reply blob).keyAnswer s.time pf 4 0 } := by
  subst hd
  exact key_serves_unmet ht (exec_keyExport ..) hm (.inr (by decide))

theorem generate_answers (he : s.dev.cip.keyMet ≠ keyEntropy) : exec (.generate pf slot attrs) s = .next { s with
    dev := if d.tampered then d.keyAnswer s.time pf 3 keyTampered
      else if d.drbgStopped 12 then d.keyAnswer s.time pf 3 keyEntropy
      else (generated d s.time pf slot attrs).1.keyAnswer s.time pf 3 (generated d s.time pf slot attrs).2 } := by
  subst hd
  exact key_serves_unmet ht (exec_generate ..) hm (.inl he)

end Unmet

include ht

theorem retire_answers : exec (.retire pf slot) s = .next { s with
    dev := if !(keyTurned s.dev pf).mayNameKey pf slot then (keyTurned s.dev pf).keyAnswer s.time pf 6 keyBadSlot
      else ((keyTurned s.dev pf).setKey slot { (keyTurned s.dev pf).key slot with st := 2 }).keyAnswer s.time pf 6 0 } :=
  key_serves ht (exec_retire ..)

/-- QUERY of a slot that is not EMPTY goes by its owner's key range (R261). -/
theorem keyQuery_answers (hd : keyTurned s.dev pf = d) (h0 : (d.key slot).st ≠ 0) :
    let x := d.key slot
    exec (.keyQuery pf slot reply) s = .next { s with
      dev := if !d.keyInRange pf x.owner slot then d.keyAnswer s.time pf 7 keyBadSlot
        else (d.keyReply pf reply (x.plain.take 32 ++ leBytes 8 x.st ++ leBytes 8 x.counter)).keyAnswer s.time pf 7 0 } := by
  subst hd
  refine (key_serves ht (exec_keyQuery ..)).trans ?_
  simp only [h0, if_false]

end Requests

/-- What keeps a slot from being sealed, beside the root key: it is not exportable, or seals under another algorithm than XTS (R264). -/
theorem export_forbidden_iff (x : KeySlot) :
    (!x.exp || decide (x.dirs % 2 = 1 ∧ x.alg ≠ 5)) = true ↔ x.exp = false ∨ (x.dirs % 2 = 1 ∧ x.alg ≠ 5) := by
  simp only [Bool.or_eq_true, Bool.not_eq_true', decide_eq_true_eq]

theorem export_allowed {x : KeySlot} (hexp : x.exp = true) (hdirs : x.dirs % 2 = 0 ∨ x.alg = 5) :
    ¬(!x.exp || decide (x.dirs % 2 = 1 ∧ x.alg ≠ 5)) = true := by
  rw [export_forbidden_iff, hexp]
  rcases hdirs with hopen | hxts
  · simp [hopen]
  · simp [hxts]

/-- Settles O27: the requests of the key loader, each in the turn of its PF. -/
theorem keyLoaderResults : Obligations.KeyLoaderResults := by
  intro s pf slot hostKey blob attrs reply e ecc ht
  refine ⟨fun hm => ?unmet, fun hc => ?alarm, fun hc => key_aborts ht (exec_generate ..) hc (.inr ⟨rfl, rfl⟩), fun hmay => ?retires,
    fun hmay => ?retireRefused, fun h0 hmine => ?queried, fun h0 hother => ?queryRefused, key_serves ht (exec_cert ..)⟩
  case unmet =>
    have hexport := keyExport_answers (slot := slot) (reply := reply) (ecc := ecc) ht hm rfl
    refine ⟨fun hr => ⟨session_opens ht hm rfl hr, fun he hn => ?made⟩,
      fun hr => ⟨session_stopped ht hm rfl hr, fun he hn => ?stopped⟩,
      fun hmay harm hexp hdirs hr => ?sealed, fun hmay harm hno => ?kept, fun hmay harm => ?rootless, fun hmay => ?otherSlot,
      fun hn => ⟨fun hs => ?load, keyLoad_noSession ht hm rfl hn, fun harm hh => ?imported, fun harm hh => ?wrongHeader,
        fun harm => ?noRoot⟩,
      fun hn => ⟨keyLoad_tampered ht hm rfl hn, keyImport_tampered ht hm rfl hn,
        fun he => answers_of_pos (generate_answers ht hm rfl he) hn⟩⟩
    case made => exact answers_of_neg (answers_of_neg (generate_answers ht hm rfl he) (Bool.eq_false_iff.1 hn)) (Bool.eq_false_iff.1 hr)
    case stopped => exact answers_of_pos (answers_of_neg (generate_answers ht hm rfl he) (Bool.eq_false_iff.1 hn)) hr
    case sealed =>
      exact answers_of_neg (answers_of_neg (answers_of_neg (answers_of_neg hexport (guard_passes hmay)) (guard_passes harm))
        (export_allowed hexp hdirs)) (Bool.eq_false_iff.1 hr)
    case kept =>
      exact answers_of_pos (answers_of_neg (answers_of_neg hexport (guard_passes hmay)) (guard_passes harm))
        ((export_forbidden_iff _).2 hno)
    case rootless => exact answers_of_pos (answers_of_neg hexport (guard_passes hmay)) (guard_stops harm)
    case otherSlot => exact answers_of_pos hexport (guard_stops hmay)
    case load =>
      cases hu : keyUnwrap (leBytes 32 e.2) (slice blob 0 104) with
      | some plain => exact keyLoad_unwraps ht hm rfl hn hs hu
      | none => exact keyLoad_unwraps ht hm rfl hn hs hu
    case imported => exact keyImport_opens ht hm rfl hn harm hh
    case wrongHeader =>
      exact answers_of_pos (answers_of_neg (keyImport_untampered ht hm rfl hn) (guard_passes harm)) (.inl hh)
    case noRoot => exact answers_of_pos (keyImport_untampered ht hm rfl hn) (guard_stops harm)
  case alarm =>
    exact ⟨key_aborts ht (exec_session ..) hc (.inl rfl), key_aborts ht (exec_keyLoad ..) hc (.inl rfl),
      key_aborts ht (exec_generate ..) hc (.inl rfl), key_aborts ht (exec_keyExport ..) hc (.inl rfl),
      key_aborts ht (exec_keyImport ..) hc (.inl rfl)⟩
  case retires => exact answers_of_neg (retire_answers ht) (guard_passes hmay)
  case retireRefused => exact answers_of_pos (retire_answers ht) (guard_stops hmay)
  case queried => exact answers_of_neg (keyQuery_answers ht rfl h0) (guard_passes hmine)
  case queryRefused => exact answers_of_pos (keyQuery_answers ht rfl h0) (guard_stops hother)

/-! # The battery domain and random numbers (R261, R268, R269, R271 to R276, R279) -/

/-! ## Requests about the domain -/

section Domain

variable {s : State} {pf : Pf} (ht : s.dev.keyTurn pf = true)

include ht

/-- Only PF 0 may ask for a change of the battery domain (R261). -/
theorem domain_notPermitted (h0 : pf.val ≠ 0) (tcfg : BitVec 16) (rtc : BitVec 47) :
    let refuses := fun (i : Instr) (req : Nat) =>
      exec i s = .next { s with dev := (keyTurned s.dev pf).keyAnswer s.time pf req keyNotPermitted }
    refuses (.rootgen pf) 9 ∧ refuses (.tamperAck pf) 10 ∧ refuses (.tamperCfg pf tcfg) 11 ∧ refuses (.setRtc pf rtc) 12 :=
  ⟨answers_of_pos (key_serves ht (exec_rootgen ..)) h0, answers_of_pos (key_serves ht (exec_tamperAck ..)) h0,
    answers_of_pos (key_serves ht (exec_tamperCfg ..)) h0, answers_of_pos (key_serves ht (exec_setRtc ..)) h0⟩

/-- An alarm that the key loader's own request gives meets no request (R261, R273). -/
theorem zeroiseAll_alarms :
    let alarmed := (keyTurned s.dev pf).alarm s.time 64
    exec (.zeroiseAll pf) s = .next { s with
      dev := ({ alarmed with cip := { alarmed.cip with keyMet := 0 } } : Dev).keyAnswer s.time pf 13 0 } :=
  key_serves ht (exec_zeroiseAll ..)

variable {d : Dev} (h0 : pf.val = 0) (hd : keyTurned s.dev pf = d)

include h0 hd

/-- ROOTGEN draws a root key in a domain that is UNINIT (R272). -/
theorem rootgen_byState :
    let root := d.drawWords 4
    let rooted : Dev := { root.1 with bat := { root.1.bat with rootKey := root.2 } }
    exec (.rootgen pf) s = .next { s with
      dev := if d.rd BAT.STATE_ST ≠ 0 then d.keyAnswer s.time pf 9 keyState
        else (rooted.wr BAT.STATE_ST 0 1).keyAnswer s.time pf 9 0 } := by
  subst hd
  exact answers_of_neg (key_serves ht (exec_rootgen ..)) (not_not_intro h0)

/-- TAMPER_ACK ends a tamper state (R276). -/
theorem tamperAck_byState :
    let unseq : Dev := { d with bat := { d.bat with seq := 0 } }
    exec (.tamperAck pf) s = .next { s with
      dev := if !d.tampered then d.keyAnswer s.time pf 10 keyState
        else ((unseq.wr BAT.STATE_ST 0 0).wr CIP.STATUS_TAMPER 0 0).keyAnswer s.time pf 10 0 } := by
  subst hd
  exact answers_of_neg (key_serves ht (exec_tamperAck ..)) (not_not_intro h0)

/-- TAMPER_CFG writes a configuration that is not locked (R273). -/
theorem tamperCfg_byLock {tcfg : BitVec 16} :
    let v := tcfg.toNat
    let enabled := ((d.wr BAT.TCFG_EN 0 (bitsOf v 0 4)).wr BAT.TCFG_POL 0 (bitsOf v 4 4)).wr BAT.TCFG_MESHEN 0 (bitsOf v 8 1)
    exec (.tamperCfg pf tcfg) s = .next { s with
      dev := if d.rd BAT.TCFG_LOCK = 1 then d.keyAnswer s.time pf 11 keyState
        else ((enabled.wr BAT.TCFG_ACLKMON 0 (bitsOf v 9 1)).wr BAT.TCFG_LOCK 0 (bitsOf v 15 1)).keyAnswer s.time pf 11 0 } := by
  subst hd
  exact answers_of_neg (key_serves ht (exec_tamperCfg ..)) (not_not_intro h0)

theorem setRtc_sets {rtc : BitVec 47} :
    let clock : Dev := { d with bat := { d.bat with part := 0 } }
    let set := (clock.wr BAT.RTC_SUB 0 (rtc.toNat % 2 ^ 15)).wr BAT.RTC_SEC 0 (rtc.toNat / 2 ^ 15)
    exec (.setRtc pf rtc) s = .next { s with dev := (set.wr BAT.STATE_RTCVALID 0 1).keyAnswer s.time pf 12 0 } := by
  subst hd
  exact answers_of_neg (key_serves ht (exec_setRtc ..)) (not_not_intro h0)

end Domain

/-! ## Alarms, supplies and the entropy source -/

section Supply

variable {s : State} {inputs : BitVec 4} {low : Bool}

theorem tamperInput_disabled (hi : inputs.toNat &&& s.dev.rd BAT.TCFG_EN = 0) : exec (.tamperInput inputs) s = .next { s with dev := s.dev } :=
  answers_of_pos rfl (by simp [hi])

section Alarms

variable (hr : s.dev.batRuns = true)

include hr

theorem tamperInput_alarms (hi : inputs.toNat &&& s.dev.rd BAT.TCFG_EN ≠ 0) :
    exec (.tamperInput inputs) s = .next { s with dev := s.dev.alarm s.time (inputs.toNat &&& s.dev.rd BAT.TCFG_EN) } :=
  answers_of_neg rfl (by simp [hi, hr])

theorem meshMismatch_alarms (hm : s.dev.rd BAT.TCFG_MESHEN = 1) : exec .meshMismatch s = .next { s with dev := s.dev.alarm s.time 16 } :=
  answers_of_pos rfl (by simp [hm, hr])

theorem aclkStop_alarms (hm : s.dev.rd BAT.TCFG_ACLKMON = 1) : exec .aclkStop s = .next { s with dev := s.dev.alarm s.time 32 } :=
  answers_of_pos rfl (by simp [hm, hr])

end Alarms

/-- Without main supplies a low battery shows nothing (R272). -/
theorem batlow_hidden (hm : s.dev.bat.main = false) :
    let noted : Dev := { s.dev with bat := { s.dev.bat with low := low } }
    exec (.batlow low) s = .next { s with dev := noted.wr BAT.STATE_BATLOW 0 0 } := by
  simp only [exec_batlow, execBatlow, onDev, Dev.showBatlow, hm, Bool.false_and, Bool.false_eq_true, if_false, bitNat]

/-- With them a low battery shows, with EVT 10.12 at most once per hour (R272). -/
theorem batlow_shows (hm : s.dev.bat.main = true) :
    let shown := ({ s.dev with bat := { s.dev.bat with low := low } } : Dev).wr BAT.STATE_BATLOW 0 (bitNat low)
    exec (.batlow low) s = .next { s with dev := if low then shown.raiseHour s.time (ev 10 12) 0 else shown } := by
  simp only [exec_batlow, execBatlow, onDev, Dev.showBatlow, hm, Bool.true_and]

/-- VBAT starts a domain that has no other supply (R272). -/
theorem vbatApplication_applies (hv : s.dev.bat.vbat = false) :
    let started := if s.dev.bat.main then s.dev else s.dev.batStart s.dev.bat.lost
    exec .vbatApplication s = .next { s with dev := { started with bat := { started.bat with vbat := true } } } :=
  answers_of_neg rfl (Bool.eq_false_iff.1 hv)

end Supply

/-! ## Random numbers -/

section Random

variable {s : State} {inst : Fin 14} {pf : Pf}

theorem drbgReseed_reseeds (hs : s.dev.rd CIP.ENTSTAT_OK = 1) :
    exec (.drbgReseed inst) s = .next { s with dev := { s.dev with cip := { s.dev.cip with drbg := put 0 s.dev.cip.drbg inst 0 } } } := by
  simp only [exec_drbgReseed, execDrbgReseed, onDev, Dev.drbgReseed, hs, if_true]

/-- A generator that is due while the entropy source is stopped stops, with EVT 10.8 (R269). -/
theorem drbgReseed_stops (hs : s.dev.rd CIP.ENTSTAT_OK = 0) (hr : s.dev.drbgStopped inst = false) :
    exec (.drbgReseed inst) s = .next { s with dev := (s.dev.wrBit CIP.DRBG_STOPPED 0 inst true).raise s.time (ev 10 8) inst } := by
  simp only [exec_drbgReseed, execDrbgReseed, onDev, Dev.drbgReseed, hs, hr, zero_ne_one, Bool.false_eq_true, if_false]

theorem randccRead_reads (hm : s.dev.memAnswers (4096 * pf.val) = true) : exec (.randccRead pf) s =
    .next { s with dev := (s.dev.takeRandom s.time).1.send (.readData (4096 * pf.val) (s.dev.takeRandom s.time).2) } :=
  answers_of_neg rfl (guard_passes hm)

/-- The control cores' generator gives zero while it is stopped, and a free value otherwise (R279). -/
theorem takeRandom_stopped {d : Dev} {now : NetTime} (hr : d.drbgStopped 13 = true) : d.takeRandom now = (d, 0) :=
  if_pos hr

theorem takeRandom_running {d : Dev} {now : NetTime} (hr : d.drbgStopped 13 = false) :
    d.takeRandom now = ((d.drawn.wr CIP.RANDCC_VALUE 0 d.freeVal.toNat).drbgRequest now 13, d.freeVal) :=
  if_neg (Bool.eq_false_iff.1 hr)

/-- The generator that serves a context: its bay's, or the control cores' (R269). -/
theorem drbgInstance_val (x : CtxId) : ((if isCore x then 13 else x / 128 : CtxId) : Nat) = if isCore x then 13 else x.val / 128 := by
  split
  · rfl
  · rfl

variable {x : CtxId} {rd : Reg} {k : Tick} (hi : s.dev.issues x { regs := [rd.val] } = true) (hk : ((s.dev.ctx x).tk k).busy = false)

include hi hk

/-- RAND of a stopped generator gives zero, and is counted (R268, R269). -/
theorem rand_stopped (hr : s.dev.drbgStopped (if isCore x then 13 else x / 128) = true) :
    let y := s.dev.bump CIP.RANDZERO_COUNT
    exec (.rand x rd k) s =
      .next { s with dev := y.setCtx x ((y.ctx x).setTk k { rd := rd, pend := .value 0, busy := true }).next } := by
  rw [← drbgInstance_val] at hr
  exact async_takes hi hk rfl (if_pos hr)

theorem rand_draws (hr : s.dev.drbgStopped (if isCore x then 13 else x / 128) = false) :
    let y := s.dev.drawn.drbgRequest s.time (if isCore x then 13 else x / 128)
    exec (.rand x rd k) s =
      .next { s with dev := y.setCtx x ((y.ctx x).setTk k { rd := rd, pend := .value s.dev.freeVal, busy := true }).next } := by
  dsimp only
  rw [← drbgInstance_val] at hr ⊢
  exact async_takes hi hk rfl (if_neg (Bool.eq_false_iff.1 hr))

end Random

/-- Settles O28: the requests about the battery domain, its alarms and supplies, and random numbers. -/
theorem securityStateResults : Obligations.SecurityStateResults := by
  intro s pf tcfg rtc inputs x rd k inst
  refine ⟨fun ht => ⟨fun h0 => ?owner, fun h0 => domain_notPermitted ht h0 tcfg rtc, zeroiseAll_alarms ht⟩,
    fun hr => ⟨tamperInput_alarms hr, meshMismatch_alarms hr, aclkStop_alarms hr⟩, tamperInput_disabled, fun hm => ?battery,
    fun hm => ?mains, answers_of_neg rfl, drbgReseed_reseeds, drbgReseed_stops,
    fun hm hr => (randccRead_reads hm).trans (by rw [takeRandom_stopped hr]),
    fun hm hr => (randccRead_reads hm).trans (by rw [takeRandom_running hr]),
    fun hi hk => ⟨rand_stopped hi hk, rand_draws hi hk⟩⟩
  case owner =>
    have root := rootgen_byState ht h0 rfl
    have ack := tamperAck_byState ht h0 rfl
    have cfg := tamperCfg_byLock (tcfg := tcfg) ht h0 rfl
    exact ⟨fun hst => answers_of_neg root (not_not_intro hst), answers_of_pos root, fun hn => answers_of_neg ack (guard_passes hn),
      fun hn => answers_of_pos ack (guard_stops hn), answers_of_neg cfg, answers_of_pos cfg, setRtc_sets ht h0 rfl⟩
  case battery =>
    refine ⟨answers_of_neg rfl (Bool.eq_false_iff.1 hm), fun b => batlow_hidden hm, fun hv => ?applied⟩
    have applied := vbatApplication_applies hv
    rwa [if_neg (Bool.eq_false_iff.1 hm)] at applied
  case mains =>
    refine ⟨answers_of_pos rfl hm, batlow_shows hm, batlow_shows hm, fun hv => ?noted⟩
    have applied := vbatApplication_applies hv
    rwa [if_pos hm] at applied

end Sys2Proof.Proofs
end

section
/-! Proofs of the statement of 11_scheduler_shaping: refills, class buffers, node commands and MTR. -/

namespace Sys2Proof.Proofs

open Sys2Proof.Machine Sys2Proof.Laws

/-! # The scheduler (R285, R288, R290, R292, R293, R303, R305, R309) -/

/-- A refill boundary puts every written record in force and refills its shapers; the shaper of a class waits while its gate is closed
(R288, R290, R297). -/
theorem refill_atBoundary (s : State) : exec .refill s = .next { s with dev := { s.dev with sch := { s.dev.sch with
    nodes := s.dev.sch.nodes.mapKept {} (fun k x => x.atRefill (k / 2 ^ 20)
      (decide (k / 2 ^ 20 = lvlClass) && !s.dev.gateOpen s.time (k % 2 ^ 20 / 8) (k % 2 ^ 20 % 8))) } } } := rfl

/-! ## Node commands (R290, R309) -/

section NodeCommand

variable {s : State} {i : Instr} {w : Writer} {c : NodeCmd} (hx : exec i s = .next { s with dev := s.dev.nodeCommand w c })

include hx

/-- A command of a writer whose last one still waits is ignored, and counted (R309). -/
theorem nodeCommand_counted (hb : s.dev.rd SCH.NSTAT_BUSY w.view = 1) :
    exec i s = .next { s with dev := s.dev.bump SCH.NSTAT_IGNORED w.view } :=
  answers_of_pos hx hb

theorem nodeCommand_waits (hb : s.dev.rd SCH.NSTAT_BUSY w.view ≠ 1) :
    exec i s = .next { s with
      dev := ({ s.dev with sch := { s.dev.sch with waiting := put none s.dev.sch.waiting w.view (some c) } } : Dev).wr
        SCH.NSTAT_BUSY w.view 1 } :=
  answers_of_neg hx hb

end NodeCommand

/-- The device with a writer's command taken to run: it no longer waits, and the next writer's turn has come (R307, R309). -/
def nodeTurn (d : Dev) (w : Writer) : Dev :=
  { d with sch := { d.sch with waiting := put none d.sch.waiting w.view none, cmdRot := turnAfter w } }

section NodeRun

variable {d : Dev} {now : NetTime} {w : Writer} {lvl n : Nat}

/-- A WRITE at its turn writes the staged record, and BUSY clears (R309). -/
theorem nodeRun_write {y : Dev} (h : (nodeTurn d w).nodeWrite now w lvl n ((nodeTurn d w).stagedRec w) = y) :
    d.nodeRun now w { op := 2, lvl := lvl, node := n } = y.wr SCH.NSTAT_BUSY w.view 0 := by
  rw [← h]
  rfl

/-- A READ at its turn stages the record, and BUSY clears (R309). -/
theorem nodeRun_read {y : Dev} (h : (nodeTurn d w).nodeRead w lvl n = y) :
    d.nodeRun now w { op := 1, lvl := lvl, node := n } = y.wr SCH.NSTAT_BUSY w.view 0 := by
  rw [← h]
  rfl

/-- A record that passes is held as written, and enters force at the next refill boundary (R290). -/
theorem nodeWrite_of_passes {r : Rec} (h : d.nodeResult w lvl n r = 0) :
    let coded := d.wr SCH.NSTAT_RESULT w.view (d.nodeResult w lvl n r)
    let old := coded.node lvl n
    d.nodeWrite now w lvl n r =
      coded.setNode lvl n { old with wrote := r, fresh := r.enabled lvl && (old.fresh || !old.wrote.enabled lvl) } :=
  if_pos h

/-- One that does not pass writes nothing but its result, with EVT 11.2 (R309). -/
theorem nodeWrite_of_refused {r : Rec} (h : d.nodeResult w lvl n r ≠ 0) :
    let code := d.nodeResult w lvl n r
    d.nodeWrite now w lvl n r =
      (d.wr SCH.NSTAT_RESULT w.view code).raise now (ev 11 2) (n + lvl * 2 ^ 18 + code * 2 ^ 21) (writerPolder w) :=
  if_neg h

theorem nodeRead_of_exists (h : nodeExists lvl n = true) : d.nodeRead w lvl n =
    ((d.nodeWords lvl n).zipIdx.foldl (fun y z => y.wr SCH.NSTG_DATA (8 * w.view + z.2) z.1) d).wr SCH.NSTAT_RESULT w.view 0 :=
  if_neg (guard_passes h)

end NodeRun

/-! ## Class buffers (R285, R292, R293) -/

/-- A class buffer of a port with its link up and a free place asks its slice for a frame (R285). -/
theorem classBuffer_asks {d : Dev} {port cls : Nat} (hp : d.portExists port = true) (hl : d.linkUp port = true)
    (hb : (d.classBuf port cls).length < 2) : ¬(!d.portExists port || decide (2 ≤ (d.classBuf port cls).length)
      || (!d.linkUp port && decide (d.rd PRT.CTL_DOWNACT port = 1))) = true := by
  simp [hp, hl, hb]

/-- A root that is enabled and within its peak rate may be served (R292). -/
theorem root_serves {x : Node} (he : x.inForce.en = true) (hk : x.peakOk = true) : ¬(!x.inForce.en || !x.peakOk) = true := by
  simp [he, hk]

/-- The frame that the slice selects goes to the class buffer, and the nodes on its path are charged for it (R285, R288, R292, R293). -/
theorem classBufferRequest_takes {s : State} {port : Fin 16} {cls : Fin 8} {f : Found} {p : Packet} {d : Dev}
    (hd : s.dev.quarRemove port = d) (hp : d.portExists port = true) (hl : d.linkUp port = true) (hb : (d.classBuf port cls).length < 2)
    (he : (d.node 0 port).inForce.en = true) (hk : (d.node 0 port).peakOk = true)
    (hf : d.select cls port 4 0 port = some f) (hh : d.readyHead f.queue = some p) :
    let top := d.node 0 port
    let amount := chargeOf (d.sendWire port p) (d.ovh port)
    let paid := ((d.sendWire port p + d.ovh port) * 4096,
      (0, port.val, top.committedOk) :: f.path.map (fun z => (z.lvl, z.node, z.committed)))
    let charged := (d.setNode 0 port (top.charge amount top.committedOk)).applyPath cls amount port f.path
    exec (.classBufferRequest port cls) s = .next { s with
      dev := ((charged.takeHead f.queue port cls paid).settleDeficits cls port f.path).trimClass s.time port cls 2 } := by
  subst hd
  refine (answers_of_neg (answers_of_neg rfl (classBuffer_asks hp hl hb)) (root_serves he hk)).trans ?_
  simp only [hf, hh]

/-! ## Policing (R303, R305) -/

/-- MTR meters the bytes in rb by the policer in ra, and its ticket holds the colour (R303, R305). -/
theorem mtr_colours {s : State} {x : CtxId} {rd ra rb : Reg} {k : Tick}
    (hi : s.dev.issues x { regs := [rd.val, ra.val, rb.val] } = true) (hk : ((s.dev.ctx x).tk k).busy = false) :
    let c := s.dev.ctx x
    let a := (c.rg ra).toNat
    let m := s.dev.police s.time (a % 2 ^ 17) (c.rg rb).toNat (bitsOf a 17 2)
    exec (.mtr x rd ra rb k) s = .next { s with
      dev := m.1.setCtx x ((m.1.ctx x).setTk k { rd := rd, pend := .value (BitVec.ofNat 64 m.2), busy := true }).next } :=
  async_takes hi hk rfl rfl

/-- Settles O29: refills, class buffers, node commands as they come and at their turn, and MTR. -/
theorem schedulerResults : Obligations.SchedulerResults := by
  intro s w lvl n port cls f p x rd ra rb k
  exact ⟨refill_atBoundary s, fun hb => ⟨nodeCommand_counted rfl hb, nodeCommand_counted rfl hb⟩,
    fun hb => ⟨nodeCommand_waits rfl hb, nodeCommand_waits rfl hb⟩, fun hc => nodeRun_write (nodeWrite_of_passes hc),
    fun hc => nodeRun_write (nodeWrite_of_refused hc), fun he => nodeRun_read (nodeRead_of_exists he), classBufferRequest_takes rfl,
    mtr_colours⟩

end Sys2Proof.Proofs
end

section
/-! Proofs of the statements about network time as it runs, and of the block as a whole. -/

namespace Sys2Proof.Proofs

open Sys2Proof.Machine Sys2Proof.Laws

/-! # The rate trim (R311)

A TCLK adds the step that the rate trim gives after everything else the TCLK does (log entry 3). So O53 needs that nothing a TCLK does
writes the trim: one lemma per operation, each that it leaves `trimIn` of the registers. -/

/-- The rate trim in a register store. -/
def trimIn (regs : Tbl Nat) : Nat := look (SLU.TRATE_RATE.coldValue 0) regs (SLU.TRATE_RATE.key 0)

theorem rd_rate (d : Dev) : d.rd SLU.TRATE_RATE = trimIn d.regs := rfl

/-- A field of the map that is not the rate trim. -/
abbrev NotTrim (f : Fld) : Prop := f.id < 1024 ∧ f.id ≠ SLU.TRATE_RATE.id

section Writes

variable (d : Dev) {f : Fld} (i v : Nat)

@[simp] theorem trim_wr (h : NotTrim f) : trimIn (d.wr f i v).regs = trimIn d.regs :=
  rd_wr_other d v h.1 (by decide) (.inl h.2)

@[simp] theorem trim_wrBit (h : NotTrim f) (on : Bool) : trimIn (d.wrBit f i v on).regs = trimIn d.regs :=
  trim_wr d i _ h

@[simp] theorem trim_bump (h : NotTrim f) : trimIn (d.bump f i v).regs = trimIn d.regs :=
  trim_wr d i _ h

end Writes

@[simp] theorem trim_raise (d : Dev) (now : NetTime) (e info : Nat) (p : Option Nat) : trimIn (d.raise now e info p).regs = trimIn d.regs :=
  (raise_leaves d now e info p).rd SLU.TRATE_RATE 0 (by decide) (by decide)

@[simp] theorem trim_raiseSec (d : Dev) (now : NetTime) (e k info : Nat) (p : Option Nat) :
    trimIn (d.raiseSec now e k info p).regs = trimIn d.regs := by
  unfold Dev.raiseSec
  split
  · rfl
  · simp

@[simp] theorem trim_vector (d : Dev) (f v : Nat) : trimIn (d.vector f v).regs = trimIn d.regs :=
  (vector_leaves d f v).rd SLU.TRATE_RATE 0 (by decide) (by decide)

theorem trim_foldl {α : Type} {g : Dev → α → Dev} (h : ∀ y a, trimIn (g y a).regs = trimIn y.regs) :
    ∀ (l : List α) (d : Dev), trimIn (l.foldl g d).regs = trimIn d.regs
  | [], _ => rfl
  | a :: l, d => (trim_foldl h l (g d a)).trans (h d a)

/-! ## The clock of the battery domain (10 R271) -/

@[simp] theorem trim_rtcRun (d : Dev) (n : Nat) : trimIn (d.rtcRun n).regs = trimIn d.regs := by
  unfold Dev.rtcRun
  dsimp only
  split
  · rfl
  · split
    · rfl
    · simp (disch := decide)

/-! ## The commands of the search arrays (06 R160 to R165) -/

@[simp] theorem trim_acsResult (d : Dev) (w : Writer) (pipe code : Nat) : trimIn (d.acsResult w pipe code).regs = trimIn d.regs :=
  trim_wr d _ _ (by decide)

@[simp] theorem trim_acsTouched (d : Dev) (pipe bank : Nat) : trimIn (d.acsTouched pipe bank).regs = trimIn d.regs := by
  refine trim_foldl (fun y w => ?_) _ d
  split
  · split
    · exact trim_wr y _ _ (by decide)
    · rfl
  · rfl

@[simp] theorem trim_acsInvalid (d : Dev) (pipe bank index : Nat) : trimIn (d.acsInvalid pipe bank index).regs = trimIn d.regs := by
  simp [Dev.acsInvalid]

/-- Storing an entry, whatever it holds: a general entry keeps its bits from being computed. -/
theorem trim_storeEntry (d : Dev) (pipe bank index : Nat) (e : AcsEntry) :
    trimIn ((d.setAcsEntry pipe bank index e).acsTouched pipe bank).regs = trimIn d.regs := trim_acsTouched ..

@[simp] theorem trim_acsWrite (d : Dev) (w : Writer) (pipe bank index : Nat) : trimIn (d.acsWrite w pipe bank index).regs = trimIn d.regs := by
  unfold Dev.acsWrite
  extract_lets act bits d1
  have stored : trimIn d1.regs = trimIn d.regs := trim_storeEntry d pipe bank index _
  split
  · exact trim_acsResult ..
  · split
    · exact trim_acsResult ..
    · split
      · exact trim_acsResult ..
      · exact stored

@[simp] theorem trim_acsInvalidate (d : Dev) (w : Writer) (pipe bank index : Nat) :
    trimIn (d.acsInvalidate w pipe bank index).regs = trimIn d.regs := by
  unfold Dev.acsInvalidate
  repeat' split
  all_goals simp

@[simp] theorem trim_acsRead (d : Dev) (w : Writer) (pipe bank index : Nat) : trimIn (d.acsRead w pipe bank index).regs = trimIn d.regs := by
  have staged : ∀ (y : Dev) (i j u v : Nat), trimIn ((y.wr ACS.STGVAL_VAL i u).wr ACS.STGMASK_MASK j v).regs = trimIn y.regs := by
    intros
    simp (disch := decide)
  unfold Dev.acsRead
  split
  · simp
  · simp (disch := decide) only [trim_acsResult, trim_wr]
    exact trim_foldl (fun y j => staged y _ _ _ _) _ d

@[simp] theorem trim_acsFinding (d : Dev) (now : NetTime) {f : Fld} (hf : NotTrim f) (e pipe bank index : Nat) :
    trimIn (d.acsFinding now f e pipe bank index).regs = trimIn d.regs := by
  simp (disch := decide) only [Dev.acsFinding, trim_raise, trim_wr]
  exact trim_bump d pipe 1 hf

@[simp] theorem trim_acsSick (d : Dev) (pipe bank index : Nat) (sick : Bool) : trimIn (d.acsSick pipe bank index sick).regs = trimIn d.regs := rfl

@[simp] theorem trim_searchPass (d : Dev) (now : NetTime) (pipe : Nat) (q : Profile) (key start : Nat) (f : AcsFind) :
    trimIn (d.searchPass now pipe q key start f).1.regs = trimIn d.regs := by
  unfold Dev.searchPass
  dsimp only
  split
  case h_2 =>
    dsimp only
    split <;> rfl
  all_goals try split
  all_goals simp (disch := decide)

@[simp] theorem trim_search (d : Dev) (now : NetTime) (pipe : Nat) (q : Profile) (key : Nat) (f1 f2 : AcsFind) (start : Nat) :
    trimIn (d.search now pipe q key f1 f2 start).1.regs = trimIn d.regs := by
  have first := trim_searchPass d now pipe q key start f1
  unfold Dev.search
  split
  next d1 m h => exact (congrArg (fun r => trimIn r.1.regs) h).symm.trans first
  next d1 m h =>
    have second := trim_searchPass d1 now pipe q key start f2
    rw [h] at first
    exact second.trans first

@[simp] theorem trim_postMatch (d : Dev) (w : Writer) (pipe profile key : Nat) (m : Option (Nat × Nat)) :
    trimIn (d.postMatch w pipe profile key m).regs = trimIn d.regs := by
  unfold Dev.postMatch
  dsimp only
  split <;> simp (disch := decide)

@[simp] theorem trim_acsSearch (d : Dev) (now : NetTime) (w : Writer) (pipe profile : Nat) (f1 f2 : AcsFind) :
    trimIn (d.acsSearch now w pipe profile f1 f2).regs = trimIn d.regs := by
  unfold Dev.acsSearch
  dsimp only
  split
  · simp
  · simp (disch := decide)

@[simp] theorem trim_acsNext (d : Dev) (now : NetTime) (w : Writer) (pipe : Nat) (f1 f2 : AcsFind) :
    trimIn (d.acsNext now w pipe f1 f2).regs = trimIn d.regs := by
  unfold Dev.acsNext
  split
  · simp
  · dsimp only
    split <;> simp

@[simp] theorem trim_acsSetwidth (d : Dev) (w : Writer) (pipe bank width : Nat) : trimIn (d.acsSetwidth w pipe bank width).regs = trimIn d.regs := by
  unfold Dev.acsSetwidth
  dsimp only
  repeat' split
  all_goals simp (disch := decide)

@[simp] theorem trim_acsRun (d : Dev) (now : NetTime) (w : Writer) (pipe : Nat) (c : AcsCmd) :
    trimIn (d.acsRun now w pipe c).regs = trimIn d.regs := by
  unfold Dev.acsRun
  simp (disch := decide) only [trim_wr]
  split <;> simp

@[simp] theorem trim_acsNextWaiting (d : Dev) (now : NetTime) (pipe : Nat) : trimIn (d.acsNextWaiting now pipe).regs = trimIn d.regs := by
  unfold Dev.acsNextWaiting
  dsimp only
  repeat' split
  all_goals simp

@[simp] theorem trim_acsFinish (d : Dev) (pipe : Nat) : trimIn (d.acsFinish pipe).regs = trimIn d.regs := by
  unfold Dev.acsFinish
  split
  · rfl
  · simp (disch := decide)

@[simp] theorem trim_acsTick (d : Dev) (now : NetTime) : trimIn (d.acsTick now).regs = trimIn d.regs := by
  refine trim_foldl (fun y k => ?_) _ d
  split <;> simp

/-! ## The commands of the scheduler (11 R309) -/

@[simp] theorem trim_nodeRead (d : Dev) (w : Writer) (lvl n : Nat) : trimIn (d.nodeRead w lvl n).regs = trimIn d.regs := by
  unfold Dev.nodeRead
  split
  · exact trim_wr d _ _ (by decide)
  · exact (trim_wr _ _ _ (by decide)).trans (trim_foldl (fun y e => trim_wr y _ _ (by decide)) _ d)

@[simp] theorem trim_nodeWrite (d : Dev) (now : NetTime) (w : Writer) (lvl n : Nat) (r : Rec) :
    trimIn (d.nodeWrite now w lvl n r).regs = trimIn d.regs := by
  unfold Dev.nodeWrite
  dsimp only
  split <;> simp (disch := decide)

@[simp] theorem trim_nodeRun (d : Dev) (now : NetTime) (w : Writer) (c : NodeCmd) : trimIn (d.nodeRun now w c).regs = trimIn d.regs := by
  unfold Dev.nodeRun
  simp (disch := decide) only [trim_wr]
  split <;> simp (disch := decide)

@[simp] theorem trim_nodeTick (d : Dev) (now : NetTime) : trimIn (d.nodeTick now).regs = trimIn d.regs := by
  refine trim_foldl (fun y v => ?_) _ d
  split <;> simp

/-! ## The context commands of rings (16 R432 to R434) -/

@[simp] theorem trim_ctxResult (d : Dev) (now : NetTime) (w : Writer) (kind r code : Nat) :
    trimIn (d.ctxResult now w kind r code).regs = trimIn d.regs := by
  unfold Dev.ctxResult
  dsimp only
  split <;> simp (disch := decide)

theorem trim_ctxCommand (d : Dev) (now : NetTime) (w : Writer) (kind r : Nat) {b : Dev × Nat} (hb : trimIn b.1.regs = trimIn d.regs) :
    trimIn (d.ctxCommand now w kind r b).regs = trimIn d.regs := by
  unfold Dev.ctxCommand
  repeat' split
  all_goals simp [hb]

@[simp] theorem trim_ctxWrite (d : Dev) (w : Writer) (kind r : Nat) : trimIn (d.ctxWrite w kind r).1.regs = trimIn d.regs := by
  unfold Dev.ctxWrite
  dsimp only
  split <;> rfl

@[simp] theorem trim_ctxEnable (d : Dev) (kind r : Nat) : trimIn (d.ctxEnable kind r).1.regs = trimIn d.regs := by
  unfold Dev.ctxEnable
  dsimp only
  repeat' split
  all_goals rfl

@[simp] theorem trim_abandonRing (d : Dev) (key : Nat) : trimIn (d.abandonRing key).regs = trimIn d.regs := by
  unfold Dev.abandonRing
  extract_lets mine busy _ d1
  refine (trim_foldl (fun y i => ?_) busy d1).trans rfl
  exact trim_wr _ _ _ (by decide)

@[simp] theorem trim_ctxDisable (d : Dev) (kind r : Nat) : trimIn (d.ctxDisable kind r).1.regs = trimIn d.regs := by
  unfold Dev.ctxDisable
  dsimp only
  split
  · rfl
  · simp only [setRing_regs, dropWaiting_regs]
    repeat' split
    all_goals simp (disch := decide)

@[simp] theorem trim_ctxRead (d : Dev) (w : Writer) (kind r : Nat) : trimIn (d.ctxRead w kind r).1.regs = trimIn d.regs :=
  trim_foldl (fun y e => trim_wr y _ _ (by decide)) _ d

@[simp] theorem trim_ctxRun (d : Dev) (now : NetTime) (w : Writer) (c : CtxCmd) : trimIn (d.ctxRun now w c).regs = trimIn d.regs := by
  unfold Dev.ctxRun
  simp (disch := decide) only [trim_wr]
  split
  · exact trim_ctxCommand _ now w _ _ (trim_ctxWrite ..)
  · exact trim_ctxCommand _ now w _ _ (trim_ctxEnable ..)
  · exact trim_ctxCommand _ now w _ _ (trim_ctxDisable ..)
  · exact trim_ctxCommand _ now w _ _ (trim_ctxRead ..)
  · simp

@[simp] theorem trim_ctxTick (d : Dev) (now : NetTime) : trimIn (d.ctxTick now).regs = trimIn d.regs := by
  refine trim_foldl (fun y v => ?_) _ d
  split <;> simp

/-! ## Packets that wait at receive rings (16 R440) -/

@[simp] theorem trim_freePacket (d : Dev) (p : Packet) : trimIn (d.freePacket p).regs = trimIn d.regs := by
  unfold Dev.freePacket Dev.leave
  dsimp only
  repeat' split
  all_goals rfl

@[simp] theorem trim_rxDrop (d : Dev) (now : NetTime) (r : Nat) (nobuf : Bool) (p : Packet) : trimIn (d.rxDrop now r nobuf p).regs = trimIn d.regs := by
  unfold Dev.rxDrop
  dsimp only
  split <;> simp (disch := decide)

@[simp] theorem trim_rxWrite (d : Dev) (r : Nat) (p : Packet) (bs : List Byte) (used rest : List RxBuf) :
    trimIn (d.rxWrite r p bs used rest).regs = trimIn d.regs := rfl

theorem trim_rxTry {d e : Dev} {now : NetTime} {r : Nat} {p : Packet} (h : d.rxTry now r p = some e) : trimIn e.regs = trimIn d.regs := by
  have pushed : ∀ x : Ring, trimIn ((((d.setRing kRx r x).freePacket p).bump DMA.LTDROP_COUNT).raise now (ev 1 30)
      (ringInfo kRx r) (d.ringPolder kRx r)).regs = trimIn d.regs := by simp (disch := decide)
  have filled : ∀ (c : Prop) [Decidable c] (q : Packet) bs used rest,
      trimIn (if c then d.rxDrop now r false p else d.rxWrite r q bs used rest).regs = trimIn d.regs := by
    intros
    split <;> simp
  revert h
  unfold Dev.rxTry
  extract_lets x cq p1 b0 unit bs
  intro h
  split at h
  · exact Option.some.inj h ▸ trim_rxDrop ..
  · split at h
    · cases h
    · split at h
      · exact Option.some.inj h ▸ pushed _
      · split at h
        · exact Option.some.inj h ▸ filled _ _ _ _ _
        · split at h
          · exact Option.some.inj h ▸ trim_rxDrop ..
          · split at h
            · exact Option.some.inj h ▸ trim_rxDrop ..
            · cases h

@[simp] theorem trim_rxServe (now : NetTime) (r fuel : Nat) (d : Dev) : trimIn (d.rxServe now r fuel).regs = trimIn d.regs := by
  induction fuel generalizing d with
  | zero => rfl
  | succ fuel ih =>
    unfold Dev.rxServe
    split
    · rfl
    · split
      · rfl
      next d1 h => exact (ih _).trans (show trimIn d1.regs = _ from trim_rxTry h)

@[simp] theorem trim_rxTick (d : Dev) (now : NetTime) : trimIn (d.rxTick now).regs = trimIn d.regs := by
  refine trim_foldl (fun y e => ?_) _ d
  split <;> simp

/-! ## Answers and host writes (15 R398; 17 R466, R470) -/

@[simp] theorem trim_askTranslation (d : Dev) (f page : Nat) : trimIn (d.askTranslation f page).regs = trimIn d.regs := by
  unfold Dev.askTranslation
  split <;> rfl

@[simp] theorem trim_writeReq (d : Dev) (f addr : Nat) (bytes : List Byte) (attr : Nat) :
    trimIn (d.writeReq f addr bytes attr).regs = trimIn d.regs := by
  unfold Dev.writeReq
  split
  · exact trim_askTranslation ..
  · rfl

@[simp] theorem trim_writeReqs (f attr : Nat) (reqs : List (Nat × Nat)) (d : Dev) (bytes : List Byte) :
    trimIn (d.writeReqs f attr bytes reqs).regs = trimIn d.regs := by
  induction reqs generalizing d bytes with
  | nil => rfl
  | cons r rs ih => exact (ih _ _).trans (trim_writeReq ..)

@[simp] theorem trim_hostWrite (d : Dev) (f addr : Nat) (bytes : List Byte) : trimIn (d.hostWrite f addr bytes).regs = trimIn d.regs :=
  trim_writeReqs ..

@[simp] theorem trim_showInbox (d : Dev) (f : Nat) : trimIn (d.showInbox f).regs = trimIn d.regs := by
  unfold Dev.showInbox
  simp (disch := decide) only [trim_wr]
  exact trim_foldl (fun y j => trim_wr y _ _ (by decide)) _ d

@[simp] theorem trim_post (d : Dev) (s r svc : Nat) (body : List Byte) (prior : Bool) : trimIn (d.post s r svc body prior).regs = trimIn d.regs := by
  unfold Dev.post
  dsimp only
  repeat' split
  all_goals simp

theorem trim_toFn {d e : Dev} {f svc cap : Nat} {body : List Byte} {prior : Bool} (h : d.toFn f svc body cap prior = some e) :
    trimIn e.regs = trimIn d.regs := by
  unfold Dev.toFn at h
  dsimp only at h
  split at h
  · exact Option.some.inj h ▸ trim_post ..
  · split at h
    · exact Option.some.inj h ▸ rfl
    · cases h

theorem trim_toFn_getD (d : Dev) (f svc cap : Nat) (body : List Byte) (prior : Bool) :
    trimIn ((d.toFn f svc body cap prior).getD d).regs = trimIn d.regs := by
  cases h : d.toFn f svc body cap prior with
  | none => rfl
  | some e => exact trim_toFn h

theorem trim_mbx (d : Dev) (m : Mbx) : trimIn ({ d with mbx := m } : Dev).regs = trimIn d.regs := rfl

@[simp] theorem trim_answer (d : Dev) (f svc : Nat) (body : List Byte) : trimIn (d.answer f svc body).regs = trimIn d.regs :=
  (trim_toFn_getD ..).trans (trim_mbx ..)

/-! ## Lists and trees that a set-up writes (12 R328; 11 R295) -/

@[simp] theorem trim_sluiceChange (d : Dev) (now : NetTime) (p : Nat) : trimIn (d.sluiceChange now p).regs = trimIn d.regs := by
  unfold Dev.sluiceChange
  dsimp only
  split <;> simp (disch := decide)

@[simp] theorem trim_applyList (d : Dev) (now : NetTime) (l : LRec) : trimIn (d.applyList now l).regs = trimIn d.regs := by
  unfold Dev.applyList
  simp (disch := decide) only [trim_wr, trim_sluiceChange]
  split
  all_goals
    refine (trim_foldl (fun y e => ?_) _ _).trans (by simp (disch := decide))
    split
    · exact trim_wr y _ _ (by decide)
    · rfl

/-- Replacing a node, whatever it holds: a general node keeps its words from being computed. -/
theorem trim_setNode (d : Dev) (lvl n : Nat) (x : Node) : trimIn (d.setNode lvl n x).regs = trimIn d.regs := rfl

@[simp] theorem trim_commitQueue (d : Dev) (q inc burst : Nat) : trimIn (d.commitQueue q inc burst).regs = trimIn d.regs := trim_setNode ..

@[simp] theorem trim_raiseNode (d : Dev) (lvl n : Nat) : trimIn (d.raiseNode lvl n).regs = trimIn d.regs := by
  unfold Dev.raiseNode
  dsimp only
  split
  · exact trim_setNode ..
  · rfl

@[simp] theorem trim_raisePath (d : Dev) (q : Nat) : trimIn (d.raisePath q).regs = trimIn d.regs := by
  simp [Dev.raisePath]

/-! ## The commit of a set-up (13 R347 to R349) -/

@[simp] theorem trim_admResult (d : Dev) (fn : Nat) (reply : Word) (v : AdmVerdict) (epoch at_ : Nat) (entries : List (Nat × List Nat)) :
    trimIn (d.admResult fn reply v epoch at_ entries).regs = trimIn d.regs := by
  unfold Dev.admResult
  simp only [trim_answer]
  split <;> simp (disch := decide)

@[simp] theorem trim_refuseSetup (d : Dev) (now : NetTime) (q : SetupReq) (v : AdmVerdict) (entries : List (Nat × List Nat)) :
    trimIn (d.refuseSetup now q v entries).regs = trimIn d.regs := by
  simp (disch := decide) [Dev.refuseSetup]

@[simp] theorem trim_commit (d : Dev) (objs : List (Nat × Nat)) : trimIn (d.commit objs).regs = trimIn d.regs := by
  simp (disch := decide) [Dev.commit]

@[simp] theorem trim_markRing (d : Dev) (r : CRec) (on : Bool) : trimIn (d.markRing r on).regs = trimIn d.regs := by
  unfold Dev.markRing
  dsimp only
  repeat' split
  all_goals rfl

theorem trim_invalidRules (l : List (Nat × Nat × Nat)) (d : Dev) :
    trimIn (l.foldl (fun y x => y.acsInvalid x.1 x.2.1 x.2.2) d).regs = trimIn d.regs := trim_foldl (fun _ _ => trim_acsInvalid ..) l d

@[simp] theorem trim_removeContract (d : Dev) (n : Nat) : trimIn (d.removeContract n).regs = trimIn d.regs := by
  unfold Dev.removeContract
  extract_lets c d1 d2 _ d3
  have h1 : trimIn d1.regs = trimIn d.regs := trim_invalidRules ..
  have h2 : trimIn d2.regs = trimIn d1.regs := by
    refine trim_foldl (fun y q => ?_) _ d1
    exact trim_setNode ..
  have h3 : trimIn d3.regs = trimIn d2.regs := by
    unfold d3
    split
    · rfl
    · exact trim_setNode ..
  have shown : ∀ y : Dev, trimIn ((((((y.markRing c.rcd false).putContract n {}).wr ADM.CSTAT_STATE n 0).wr ADM.CSTAT_CCLASS n 0).wr
      ADM.CSTAT_POLDER n 0).wr ADM.CSTAT_EPOCH n 0).regs = trimIn y.regs := by simp (disch := decide)
  exact (((shown d3).trans h3).trans h2).trans h1

@[simp] theorem trim_writePolicer (d : Dev) (n : Nat) (r : CRec) : trimIn (d.writePolicer n r).regs = trimIn d.regs := trim_setNode ..

theorem trim_raisedQueue (d : Dev) (q : Nat) (x : Node) : trimIn ((d.setNode 4 q x).raisePath q).regs = trimIn d.regs :=
  (trim_raisePath (d.setNode 4 q x) q).trans (trim_setNode d 4 q x)

/-- Writing each queue of a list and raising its path, whatever is written. -/
theorem trim_writeEach (f : Dev → Nat → Node) (l : List Nat) (d : Dev) :
    trimIn (l.foldl (fun y q => (y.setNode 4 q (f y q)).raisePath q) d).regs = trimIn d.regs :=
  trim_foldl (fun y q => trim_raisedQueue y q (f y q)) l d

@[simp] theorem trim_writeQueues (d : Dev) (r : CRec) (rate : Nat) : trimIn (d.writeQueues r rate).regs = trimIn d.regs := by
  unfold Dev.writeQueues
  extract_lets depth
  exact trim_writeEach _ _ _

@[simp] theorem trim_writeRules (d : Dev) (c : Contract) (num : Nat) : trimIn (d.writeRules c num).regs = trimIn d.regs :=
  trim_foldl (fun y _ => trim_storeEntry y _ _ _ _) _ d

@[simp] theorem trim_commitRec (d : Dev) (epoch at_ : Nat) (r : CRec) (num : Nat) (res : Option Nat × Option (List (Nat × Nat × Nat)))
    (bs : List Nat) : trimIn (d.commitRec epoch at_ r num res bs).regs = trimIn d.regs := by
  unfold Dev.commitRec
  split
  · simp
  · simp (disch := decide) [trim_invalidRules]

@[simp] theorem trim_showContracts (d : Dev) : trimIn d.showContracts.regs = trimIn d.regs := by
  unfold Dev.showContracts
  extract_lets cs plan n pool d1 d2 polders
  have h2 : trimIn d2.regs = trimIn d.regs := by simp (disch := decide) [d2, d1]
  exact (trim_foldl (fun y p => (trim_wr _ _ _ (by decide)).trans (trim_wr y _ _ (by decide))) polders d2).trans h2

@[simp] theorem trim_commitSetup (d : Dev) (now : NetTime) (fn : Nat) (reply : Word) (records : List CRec) (lists : List LRec) :
    trimIn (d.commitSetup now fn reply records lists).regs = trimIn d.regs := by
  unfold Dev.commitSetup
  extract_lets nums bounds epoch res d1 gone listed at_ d2
  have h1 : trimIn d1.regs = trimIn d.regs := by simp (disch := decide) [d1]
  have h2 : trimIn gone.regs = trimIn d1.regs := trim_foldl (fun y r => trim_removeContract ..) _ d1
  have h3 : trimIn listed.regs = trimIn gone.regs := trim_foldl (fun y l => trim_applyList ..) _ gone
  have h4 : trimIn d2.regs = trimIn listed.regs := by
    refine trim_foldl (fun y e => ?_) _ listed
    split
    · rfl
    · exact trim_commitRec ..
  have shown : ∀ (y : Dev) (n sec i : Nat) (q : Option Nat) (v : AdmVerdict) (bs : List (Nat × List Nat)),
      trimIn (((((y.wr ADM.ACT_NS 0 n).wr ADM.ACT_SEC 0 sec).showContracts).raise now (ev 13 0) i q).admResult fn reply v i at_ bs).regs
        = trimIn y.regs := by
    intros
    simp (disch := decide) only [trim_admResult, trim_raise, trim_showContracts, trim_wr]
  exact ((((shown ..).trans h4).trans h3).trans h2).trans h1

@[simp] theorem trim_admFinish (d : Dev) (now : NetTime) (q : SetupReq) (late : Option Nat) : trimIn (d.admFinish now q late).regs = trimIn d.regs := by
  unfold Dev.admFinish
  split <;> simp

@[simp] theorem trim_showQueue (d : Dev) : trimIn d.showQueue.regs = trimIn d.regs := by
  simp (disch := decide) [Dev.showQueue]

@[simp] theorem trim_admStart (d : Dev) : trimIn d.admStart.regs = trimIn d.regs := by
  unfold Dev.admStart
  split <;> simp

@[simp] theorem trim_admTick (d : Dev) (now : NetTime) : trimIn (d.admTick now).regs = trimIn d.regs := by
  have finished : ∀ (y : Dev) (q : SetupReq) (late : Option Nat), trimIn ((y.admFinish now q late).showQueue).admStart.regs = trimIn y.regs := by
    simp
  unfold Dev.admTick
  split
  · rfl
  · extract_lets _ idle
    have hidle : trimIn idle.regs = trimIn d.regs := rfl
    split
    · exact (finished ..).trans hidle
    · split
      · rfl
      · split
        · exact (finished ..).trans hidle
        · split
          · exact (finished ..).trans hidle
          · rfl

/-! # Network time runs (R311) -/

/-- The device after what a TCLK does in it, network time's own run aside. -/
def tickedDev (s : State) : Dev :=
  ((((((s.dev.rtcRun 1).countCycles.acsTick s.time).nodeTick s.time).ctxTick s.time).rxTick s.time).admTick s.time).linkPower

theorem trim_tickedDev (s : State) : trimIn (tickedDev s).regs = trimIn s.dev.regs := by
  have power : ∀ d : Dev, trimIn d.linkPower.regs = trimIn d.regs := fun _ => rfl
  have count : ∀ d : Dev, trimIn d.countCycles.regs = trimIn d.regs := fun _ => rfl
  simp [tickedDev, power, count]

theorem tclkStep_tickedDev (s : State) : (tickedDev s).tclkStep = s.dev.tclkStep := by
  unfold Dev.tclkStep
  rw [rd_rate, rd_rate, trim_tickedDev]

/-- With every trim a TCLK adds something: a trim takes less than half of a nanosecond away. -/
theorem tclkStep_pos (d : Dev) : 0 < d.tclkStep := by
  have trim_ge : -(2 : Int) ^ 31 ≤ signedOf (d.rd SLU.TRATE_RATE) 32 := by
    unfold signedOf
    split <;> omega
  unfold Dev.tclkStep
  omega

/-- Short of the end of its range, a TCLK adds its step to network time. -/
theorem timeUnits_tick {s : State} (hsec : s.time.sec + 1 < 2 ^ 48) : timeUnits s.tick.time = timeUnits s.time + s.dev.tclkStep := by
  have hstep : ∀ s1 : State, s1 = { s with dev := tickedDev s } → s1.dev.tclkStep = s.dev.tclkStep ∧ s1.time = s.time := by
    rintro _ rfl
    exact ⟨tclkStep_tickedDev s, rfl⟩
  unfold State.tick
  extract_lets d0 s1 f ns before sec after
  obtain ⟨hs, ht⟩ := hstep s1 rfl
  have hf : f = s.time.frac + s.dev.tclkStep := by rw [← hs, ← ht]
  have hns : ns = s.time.ns + f / 2 ^ 40 := by rw [← ht]
  have hbefore : before.sec = s.time.sec := by rw [← ht]
  have hsec' : sec = s.time.sec + 1 := by rw [← Nat.mod_eq_of_lt hsec, ← ht]
  split <;> simp only [timeUnits] <;> omega

/-- The boundary of a second moves network time on. -/
theorem timeUnits_secondBoundary {s t : State} (hs : LegalTime s.time) (hsec : s.time.sec + 1 < 2 ^ 48) (h : execSecondBoundary s = .next t) :
    timeUnits s.time ≤ timeUnits t.time := by
  obtain ⟨_, hns, hfrac⟩ := hs
  rw [← Host.Outcome.next.inj h]
  simp only [timeUnits, Nat.mod_eq_of_lt hsec]
  omega

/-- Settles O53: a command that does not set network time leaves it, the boundary of a second moves it on, and a TCLK adds its step, which
the trim leaves positive. -/
theorem networkTimeNeverFallsBack : Obligations.NetworkTimeNeverFallsBack := by
  intro s t hs hsec hcmd h
  refine ⟨?_, step_keeps_legalTime hs h, fun hp => ?_⟩
  · unfold step at h
    split at h
    next => rw [← Host.Outcome.next.inj h, timeUnits_tick hsec]; exact Nat.le_add_right ..
    next c rest hp =>
      obtain hc | rfl := hcmd c rest hp
      · exact Nat.le_of_eq (congrArg timeUnits (exec_keeps_time hc h).symm)
      · exact @timeUnits_secondBoundary { s with pending := rest } t hs hsec h
  · unfold step at h
    rw [hp] at h
    rw [← Host.Outcome.next.inj h, timeUnits_tick hsec]
    exact ⟨rfl, Nat.lt_add_of_pos_right (tclkStep_pos _)⟩

/-- Settles O51: each such command is an effect on the device alone. -/
theorem timeRunsOn : Obligations.TimeRunsOn := fun _ _ _ h hc => exec_keeps_time hc h

theorem moved_pending (s : State) (new : NetTime) (how : Nat) : (s.moved new how).pending = s.pending := by
  simp only [State.moved]

/-- A command of the owner of network time leaves the queue alone where the owner's own effect does. -/
theorem asOwner_runs (pf : Pf) {g : State → State} {s : State} (hg : (g s).pending = s.pending) :
    ∃ t, asOwner pf g s = .next t ∧ t.pending = s.pending := by
  refine ⟨_, rfl, ?_⟩
  split
  · exact hg
  · rfl

theorem timeSet_runs (pf : Pf) (s : State) : ∃ t, exec (.timeSet pf) s = .next t ∧ t.pending = s.pending := by
  rw [exec_timeSet, execTimeSet]
  refine asOwner_runs pf ?_
  dsimp only
  split
  · rfl
  · exact moved_pending ..

theorem timeStep_runs (pf : Pf) (s : State) : ∃ t, exec (.timeStep pf) s = .next t ∧ t.pending = s.pending := by
  rw [exec_timeStep, execTimeStep]
  refine asOwner_runs pf ?_
  dsimp only
  split
  · rfl
  · exact moved_pending ..

theorem secondBoundary_runs (s : State) : ∃ t, exec .secondBoundary s = .next t ∧ t.pending = s.pending :=
  ⟨_, rfl, by simp only [State.newSecond]⟩

/-- Settles O50: the commands that set network time keep the queue as well; every other is an effect on the device alone. -/
theorem everyCommandRuns : Obligations.EveryCommandRuns := by
  intro c s
  cases hc : MovesTime c
  case false =>
    obtain ⟨d, hd⟩ := exec_changes_dev hc s
    exact ⟨_, hd, rfl⟩
  case true =>
    obtain ⟨pf, rfl⟩ | ⟨pf, rfl⟩ | rfl | rfl | rfl := movesTime_cases hc
    · exact timeSet_runs pf s
    · exact timeStep_runs pf s
    · exact secondBoundary_runs s
    · exact ⟨_, rfl, rfl⟩
    · exact ⟨_, rfl, rfl⟩

/-- Settles O49: the two cases of `step`. -/
theorem stepRunsFront : Obligations.StepRunsFront := by
  refine ⟨fun c rest s h => ?_, fun s h => ?_⟩ <;> simp only [step, h]

end Sys2Proof.Proofs
end

section
/-! Proofs of the statements of 12_time_gates: network time as software sees it, and the sluices. -/

namespace Sys2Proof.Proofs

open Sys2Proof.Machine Sys2Proof.Laws

/-! # An effect on the device -/

/-- A command that is an effect on the device gives what its effect is shown to be. -/
theorem onDev_gives {i : Instr} {f : NetTime → Dev → Dev} {s : State} {y : Dev} (hx : exec i s = onDev f s) (h : f s.time s.dev = y) :
    exec i s = .next { s with dev := y } := by
  rw [hx, onDev, h]

/-! # Network time (R311 to R314, R316, R332, R568) -/

section Owner

variable {s : State} {pf : Pf}

/-- What the owner of network time commands takes effect (R312). -/
theorem asOwner_owner {g : State → State} (h : s.dev.ownsTime pf = true) : asOwner pf g s = .next (g s) := by
  rw [asOwner, if_pos h]

/-- What the other PF commands is refused (R312). -/
theorem asOwner_other {g : State → State} (h : s.dev.ownsTime pf = false) : asOwner pf g s = .next { s with dev := s.dev.notOwner s.time pf } := by
  rw [asOwner, if_neg (Bool.eq_false_iff.1 h)]

theorem timeSet_sets (h : s.dev.ownsTime pf = true) (hns : s.dev.rd SLU.TSETLO_NS ≤ 999999999) : exec (.timeSet pf) s =
    .next (s.moved { sec := s.dev.rd SLU.TSETHI_SEC % 2 ^ 48, ns := s.dev.rd SLU.TSETLO_NS, frac := 0 } 1) := by
  rw [exec_timeSet, execTimeSet, asOwner_owner h, if_neg (Nat.not_lt.2 hns)]

theorem timeSet_ignored (h : s.dev.ownsTime pf = true) (hns : 999999999 < s.dev.rd SLU.TSETLO_NS) :
    exec (.timeSet pf) s = .next { s with dev := s.dev.bump SLU.TSTAT_IGNORED } := by
  rw [exec_timeSet, execTimeSet, asOwner_owner h, if_pos hns]

/-- The latest legal time in nanoseconds (R10). -/
theorem maxSec_ns : ((maxSec * 1000000000 + 999999999 : Nat) : Int) = 281474976710655999999999 := rfl

/-- A STEP to a legal time moves network time there (R312, R332). -/
theorem timeStep_steps (h : s.dev.ownsTime pf = true) (h0 : 0 ≤ s.time.toNs + signedOf (s.dev.rd SLU.TOFF_OFF) 32)
    (hmax : s.time.toNs + signedOf (s.dev.rd SLU.TOFF_OFF) 32 ≤ 281474976710655999999999) :
    let step : Int := s.time.toNs + signedOf (s.dev.rd SLU.TOFF_OFF) 32
    exec (.timeStep pf) s = .next (s.moved { sec := step.toNat / 1000000000, ns := step.toNat % 1000000000, frac := s.time.frac } 2) := by
  rw [exec_timeStep, execTimeStep, asOwner_owner h, maxSec_ns, if_neg (by omega)]

theorem timeStep_ignored (h : s.dev.ownsTime pf = true) (h0 : s.time.toNs + signedOf (s.dev.rd SLU.TOFF_OFF) 32 < 0) :
    exec (.timeStep pf) s = .next { s with dev := s.dev.bump SLU.TSTAT_IGNORED } := by
  rw [exec_timeStep, execTimeStep, asOwner_owner h, if_pos (.inl h0)]

variable {rate : BitVec 32}

theorem rateWrite_inRange (h : s.dev.ownsTime pf = true) (hlo : -549755813 ≤ rate.toInt) (hhi : rate.toInt ≤ 549755813) :
    exec (.rateWrite pf rate) s = .next { s with
      dev := (s.dev.wr SLU.TRATE_RATE 0 (unsignedOf rate.toInt 32)).wr SLU.TSTAT_CLAMP 0 0 } := by
  refine onDev_gives (exec_rateWrite ..) ((if_pos h).trans ?_)
  simp only [Dev.setRate, if_neg (Int.not_lt.2 hhi), if_neg (Int.not_lt.2 hlo), if_true]

/-- A rate above the range is stored as its upper end, and shown as clamped (R312). -/
theorem rateWrite_clamped (h : s.dev.ownsTime pf = true) (hhi : 549755813 < rate.toInt) :
    exec (.rateWrite pf rate) s = .next { s with dev := (s.dev.wr SLU.TRATE_RATE 0 549755813).wr SLU.TSTAT_CLAMP 0 1 } := by
  have bits : unsignedOf 549755813 32 = 549755813 := by decide
  refine onDev_gives (exec_rateWrite ..) ((if_pos h).trans ?_)
  simp only [Dev.setRate, if_pos hhi, if_neg hhi.ne', bits]

theorem timeSet_other (h : s.dev.ownsTime pf = false) : exec (.timeSet pf) s = .next { s with dev := s.dev.notOwner s.time pf } :=
  (exec_timeSet ..).trans (asOwner_other h)

theorem timeStep_other (h : s.dev.ownsTime pf = false) : exec (.timeStep pf) s = .next { s with dev := s.dev.notOwner s.time pf } :=
  (exec_timeStep ..).trans (asOwner_other h)

theorem rateWrite_other (h : s.dev.ownsTime pf = false) : exec (.rateWrite pf rate) s = .next { s with dev := s.dev.notOwner s.time pf } :=
  onDev_gives (exec_rateWrite ..) (if_neg (Bool.eq_false_iff.1 h))

end Owner

/-- The boundary of a second takes network time to the start of the next (R568). -/
theorem secondBoundary_starts (s : State) :
    let next := (s.time.sec + 1) % 2 ^ 48
    ∃ t, exec .secondBoundary s = .next t ∧ t.time = { sec := next, ns := 0, frac := 0 } ∧ t.pending = s.pending ∧ t.dev = (s.newSecond next).dev := by
  refine ⟨_, exec_secondBoundary s, ?time, ?pending, ?dev⟩
  case pending => simp only [State.newSecond]
  all_goals dsimp only

/-- The fall of PPS_OUT (R314). -/
theorem ppsOutEnd_falls {s : State} (h : s.dev.slu.pps = true) :
    exec .ppsOutEnd s = .next { s with dev := ({ s.dev with slu := { s.dev.slu with pps := false } } : Dev).send (.pin 0 false) } :=
  onDev_gives (exec_ppsOutEnd ..) (if_pos h)

section TwoSteps

variable {s : State} {fn : Fn} {port : Fin 16}

theorem txtsaRead_takes {e : TwoStep} {rest : List TwoStep} (h : (s.dev.port port).twoStep = e :: rest) :
    exec (.txtsaRead fn port) s = .next { s with
      dev := ((((s.dev.setPort port { s.dev.port port with twoStep := rest }).wr SLU.TXTSSTAT_COUNT port rest.length).wr SLU.TXTSB_SEC port e.sec).wr
        SLU.TXTSB_FRAC port e.frac).send (.readData fn (BitVec.ofNat 64 (e.mark % 2 ^ 32 + e.ns * 2 ^ 32))) } := by
  refine onDev_gives (exec_txtsaRead ..) ?_
  simp only [Dev.takeTwoStep, h]

theorem txtsaRead_empty (h : (s.dev.port port).twoStep = []) :
    exec (.txtsaRead fn port) s = .next { s with dev := s.dev.send (.readData fn (BitVec.allOnes 64)) } := by
  refine onDev_gives (exec_txtsaRead ..) ?_
  simp only [Dev.takeTwoStep, h]

end TwoSteps

/-- Settles O30: network time is set, stepped and trimmed by its owner alone; the boundary of a second, the reads and the pins. -/
theorem networkTimeResults : Obligations.NetworkTimeResults := by
  intro s pf rate fn port e rest
  exact ⟨fun h => ⟨timeSet_sets h, timeSet_ignored h, timeStep_steps h, timeStep_ignored h,
      rateWrite_inRange h, rateWrite_clamped h⟩,
    fun h => ⟨timeSet_other h, timeStep_other h, rateWrite_other h⟩, secondBoundary_starts s, rfl, rfl, ppsOutEnd_falls, txtsaRead_takes,
    txtsaRead_empty⟩

/-! # The sluices (R321, R325, R328 to R330) -/

/-! ## Changes of a list -/

section Changes

variable {s : State} {port : Fin 16}

theorem sluiceChange_accepts (h : s.dev.changeResult port = 0) :
    let d := s.dev
    let t0 := d.takeOverTime s.time port
    let mode := d.rd SLU.PCTL_MODE port
    let asked : Pending := { mode := if mode = 3 then 0 else mode, fset := d.rd SLU.PCTL_FSET port, lena := decide (d.rd SLU.PCTL_LENAWARE port = 1), t0 := t0 }
    let passed := d.wr SLU.PSTAT_RESULT port 0
    exec (.sluiceChange port) s = .next { s with dev := (((passed.setSluice port { passed.sluice port with next := some asked }).wr
      SLU.PSTAT_PENDING port 1).wr SLU.PT0LO_NS port (t0 % 1000000000)).wr SLU.PT0HI_SEC port (t0 / 1000000000) } := by
  refine onDev_gives (exec_sluiceChange ..) ?_
  simp only [Dev.sluiceChange, h, ne_eq, not_true, if_false]

theorem sluiceChange_refuses (h : s.dev.changeResult port ≠ 0) : exec (.sluiceChange port) s =
    .next { s with dev := (s.dev.wr SLU.PSTAT_RESULT port (s.dev.changeResult port)).raise s.time (ev 12 4) port } :=
  onDev_gives (exec_sluiceChange ..) (if_pos h)

section Pending

variable {n : Pending} (hn : (s.dev.sluice port).next = some n)

include hn

theorem sluiceCancel_withdraws (h : s.time.toNs / 8 * 8 + 5000 ≤ n.t0) : exec (.sluiceCancel port) s = .next { s with
    dev := ((s.dev.setSluice port { s.dev.sluice port with next := none }).wr SLU.PSTAT_PENDING port 0).raise s.time (ev 12 6) port } := by
  refine onDev_gives (exec_sluiceCancel ..) ?_
  simp only [hn, if_pos h]

theorem sluiceCancel_late (h : n.t0 < s.time.toNs / 8 * 8 + 5000) :
    exec (.sluiceCancel port) s = .next { s with dev := (s.dev.wr SLU.PSTAT_RESULT port 4).raise s.time (ev 12 4) port } := by
  refine onDev_gives (exec_sluiceCancel ..) ?_
  simp only [hn, if_neg (Nat.not_le.2 h)]

theorem takeOver_due (h : n.t0 ≤ s.time.toNs) : exec (.takeOver port) s = .next { s with dev := s.dev.takeOver s.time port } := by
  refine onDev_gives (exec_takeOver ..) ?_
  simp only [hn, if_pos h]

end Pending

theorem copyBackDone_copies (h : s.dev.rd SLU.PSTAT_COPYING port = 1) : exec (.copyBackDone port) s = .next { s with
    dev := (bankFields.foldl (fun (y : Dev) f => y.copyField f.2.1 f.1 (f.2.2 * (s.dev.sluice port).fset) f.2.2) s.dev).wr SLU.PSTAT_COPYING port 0 } :=
  onDev_gives (exec_copyBackDone ..) (if_neg (by omega))

theorem gateChange_enters {l : GateList} (h : s.dev.running port = some l) :
    exec (.gateChange port) s = .next { s with dev := s.dev.enterGate port s.time.toNs } :=
  onDev_gives (exec_gateChange ..) (if_pos (by rw [h]; rfl))

end Changes

/-! ## The berm of a class -/

/-- The sluice of a port notes that the berm of a class runs up to a closing (R324). -/
def bermNoted (d : Dev) (port cls close : Nat) : Dev :=
  d.setSluice port { d.sluice port with inBerm := put 0 (d.sluice port).inBerm cls close }

section Berms

variable {s : State} {port : Fin 16} {c : Fin 8} {len close : Nat} (hc : s.dev.inBerm port c (s.dev.txTime s.time port / 65536) = some close)

include hc

theorem bermStart_notes (h : (bermNoted s.dev port c close).bermPreemptable port c = false ∨ ((bermNoted s.dev port c close).port port).tx = none) :
    exec (.bermStart port (some c) len) s = .next { s with dev := bermNoted s.dev port c close } := by
  unfold bermNoted at h ⊢
  refine onDev_gives (exec_bermStart ..) ?_
  obtain h | h := h
  · simp only [hc, h, Bool.false_eq_true, if_false]
  · simp only [hc, h, ite_self]

theorem bermStart_cuts (hp : (bermNoted s.dev port c close).bermPreemptable port c = true) {t : TxFrame}
    (ht : ((bermNoted s.dev port c close).port port).tx = some t) (htc : t.cls = c)
    (hd : (bermNoted s.dev port c close).divisible port len t = true) :
    exec (.bermStart port (some c) len) s = .next { s with dev := (bermNoted s.dev port c close).cutFrame port len t } := by
  unfold bermNoted at hp ht hd ⊢
  refine onDev_gives (exec_bermStart ..) ?_
  simp only [hc, hp, ht, hd, htc, if_true, decide_true, Option.isNone_some, Bool.false_or, Bool.and_self]

end Berms

/-- Settles O31: changes of a list up to their coming into force and their copy back, the entries of a list, and berms. -/
theorem sluiceResults : Obligations.SluiceResults := by
  intro s port c len close n l
  exact ⟨sluiceChange_accepts, sluiceChange_refuses, fun hn => ⟨sluiceCancel_withdraws hn, sluiceCancel_late hn, takeOver_due hn⟩,
    copyBackDone_copies, gateChange_enters, bermStart_notes, fun _ hc hp ht => bermStart_cuts hc hp ht⟩

end Sys2Proof.Proofs
end

section
/-! Proofs of the statements of 13_admission_guarantees and 14_redundant_paths: set-ups and their compile, queries, revalidation, the path
pairs, and the partner interlock. -/

namespace Sys2Proof.Proofs

open Sys2Proof.Machine Sys2Proof.Laws

/-! # Admission (R336, R347 to R350, R359) -/

/-! ## A set-up comes, and waits or is refused -/

/-- A compiler that works on a set-up takes no other (R349). -/
theorem admStart_busy {d : Dev} {k : Compile} (h : d.adm.compiling = some k) : d.admStart = d := by
  unfold Dev.admStart
  rw [h]

/-- A free compiler takes the oldest set-up that waits (R349). -/
theorem admStart_takes {d : Dev} {q : SetupReq} {qs : List SetupReq} (hc : d.adm.compiling = none) (hq : d.adm.queue = q :: qs) :
    d.admStart = ({ d with adm := { d.adm with compiling := some { req := q, basis := d.setupBasis }, queue := qs } } : Dev).showQueue := by
  unfold Dev.admStart
  rw [hc, hq]

/-- A set-up at the end of the queue, shown (R366). -/
def setupQueued (d : Dev) (q : SetupReq) : Dev := ({ d with adm := { d.adm with queue := d.adm.queue ++ [q] } } : Dev).showQueue

theorem setupQueued_compiling (d : Dev) (q : SetupReq) : (setupQueued d q).adm.compiling = d.adm.compiling := rfl

section Requests

variable {s : State} {fn : Fn} (hroom : s.dev.answerRoom fn = true) (hready : s.dev.rd ADM.STATUS_READY = 1)

include hroom hready

/-- Admission serves a request of a function (R470). -/
theorem admission_serves : ¬(!s.dev.answerRoom fn || decide (s.dev.rd ADM.STATUS_READY = 0)) = true := by
  simp [hroom, hready]

section Setup

variable {reply : Word} {buffer : List Byte} {entries : List (List Nat)}

theorem setup_queues (hlen : s.dev.adm.queue.length < 16) :
    exec (.setup fn reply buffer entries) s = .next { s with dev := (setupQueued s.dev (readSetup fn reply buffer entries)).admStart } :=
  onDev_gives (exec_setup ..) ((if_neg (admission_serves hroom hready)).trans (if_neg (Nat.not_le.2 hlen)))

theorem setup_compiles {q : SetupReq} {qs : List SetupReq} (hlen : s.dev.adm.queue.length < 16) (hc : s.dev.adm.compiling = none)
    (hq : (setupQueued s.dev (readSetup fn reply buffer entries)).adm.queue = q :: qs) :
    let queued := setupQueued s.dev (readSetup fn reply buffer entries)
    exec (.setup fn reply buffer entries) s = .next { s with
      dev := ({ queued with adm := { queued.adm with compiling := some { req := q, basis := queued.setupBasis }, queue := qs } } : Dev).showQueue } := by
  intro queued
  rw [setup_queues hroom hready hlen, admStart_takes ((setupQueued_compiling ..).trans hc) hq]

theorem setup_waits {k : Compile} (hlen : s.dev.adm.queue.length < 16) (hc : s.dev.adm.compiling = some k) :
    exec (.setup fn reply buffer entries) s = .next { s with dev := setupQueued s.dev (readSetup fn reply buffer entries) } := by
  rw [setup_queues hroom hready hlen, admStart_busy ((setupQueued_compiling ..).trans hc)]

/-- A set-up that finds 16 waiting is refused with QUEUE_FULL (R349). -/
theorem setup_queueFull (hlen : 16 ≤ s.dev.adm.queue.length) : exec (.setup fn reply buffer entries) s = .next { s with
    dev := (s.dev.raise s.time (ev 13 6) 0 (some fn.val)).refuseSetup s.time (readSetup fn reply buffer entries) { code := admQueueFull } [] } :=
  onDev_gives (exec_setup ..) ((if_neg (admission_serves hroom hready)).trans (if_pos hlen))

end Setup

/-! ## Queries (R350) -/

section Query

variable {contract : Fin 1048576} {reply : Word}

theorem admQuery_answers (h0 : 0 < contract.val) (h16 : contract.val < 65536) (hc : s.dev.isContract contract = true)
    (ho : ownsPolder fn (s.dev.contract contract).rcd.polder = true) :
    let c := s.dev.contract contract
    exec (.admQuery fn contract reply) s = .next { s with
      dev := (s.dev.hostWrite fn reply.toNat (c.rcd.encode ++ slice (leBytes 4 contract ++ c.bounds.flatMap (leBytes 4) ++ leBytes 4 c.total)
        0 64)).answer fn 2 (leBytes 1 0) } := by
  have named : ¬(contract.val = 0 ∨ 65535 < contract.val ∨ s.dev.isContract contract = false) := by
    simp only [hc, Bool.true_eq_false, or_false]
    omega
  exact onDev_gives (exec_admQuery ..) ((if_neg (admission_serves hroom hready)).trans ((if_neg named).trans (if_neg (guard_passes ho))))

theorem admQuery_notPermitted (h0 : 0 < contract.val) (h16 : contract.val < 65536) (hc : s.dev.isContract contract = true)
    (ho : ownsPolder fn (s.dev.contract contract).rcd.polder = false) :
    exec (.admQuery fn contract reply) s = .next { s with dev := s.dev.answer fn 2 (leBytes 1 admPermitted) } := by
  have named : ¬(contract.val = 0 ∨ 65535 < contract.val ∨ s.dev.isContract contract = false) := by
    simp only [hc, Bool.true_eq_false, or_false]
    omega
  exact onDev_gives (exec_admQuery ..) ((if_neg (admission_serves hroom hready)).trans ((if_neg named).trans (if_pos (guard_stops ho))))

theorem admQuery_noContract (h : contract.val = 0 ∨ 65535 < contract.val ∨ s.dev.isContract contract = false) :
    exec (.admQuery fn contract reply) s = .next { s with dev := s.dev.answer fn 2 (leBytes 1 admNumber) } :=
  onDev_gives (exec_admQuery ..) ((if_neg (admission_serves hroom hready)).trans (if_pos h))

end Query

theorem epochq_answers : exec (.epochq fn) s = .next { s with
    dev := s.dev.answer fn 2 (leBytes 4 0 ++ leBytes 4 (s.dev.rd ADM.EPOCH_EPOCH) ++ leBytes 4 (s.dev.rd ADM.ACT_NS) ++ leBytes 4 (s.dev.rd ADM.ACT_SEC)) } :=
  onDev_gives (exec_epochq ..) (if_neg (admission_serves hroom hready))

end Requests

/-! ## The compile (R347, R349) -/

/-- The compiler with nothing in work. -/
def admIdle (d : Dev) : Dev := { d with adm := { d.adm with compiling := none } }

theorem admFinish_refuses {d : Dev} {now : NetTime} {q : SetupReq} {late : Option Nat} {v : AdmVerdict}
    (h : d.judge now q.fn q.ok q.records q.lists late = some v) :
    d.admFinish now q late = d.refuseSetup now q v (d.setupBounds now q.records q.lists) := by
  unfold Dev.admFinish
  rw [h]

theorem admFinish_commits {d : Dev} {now : NetTime} {q : SetupReq} {late : Option Nat}
    (h : d.judge now q.fn q.ok q.records q.lists late = none) :
    d.admFinish now q late = d.commitSetup now q.fn q.reply q.records q.lists := by
  unfold Dev.admFinish
  rw [h]

section Compiling

variable {d : Dev} {k : Compile} {now : NetTime} (hk : d.adm.compiling = some k) (hg : k.req.gone = false) (hr : d.adm.revalidate = [])

include hk hg hr

theorem admTick_finishes (hb : k.basis = d.setupBasis) : d.admTick now = (((admIdle d).admFinish now k.req none).showQueue).admStart := by
  unfold Dev.admTick admIdle
  simp only [hk, hg, hr, hb, Bool.false_eq_true, List.isEmpty_nil, Bool.not_true, if_true, if_false]

/-- A set-up whose basis changed is compiled again (R347). -/
theorem admTick_returns (hb : k.basis ≠ d.setupBasis) (hn : k.returns < 3) :
    d.admTick now = { d with adm := { d.adm with compiling := some { k with basis := d.setupBasis, returns := k.returns + 1 } } } := by
  unfold Dev.admTick
  simp only [hk, hg, hr, hb, Nat.not_le.2 hn, Bool.false_eq_true, List.isEmpty_nil, Bool.not_true, if_false]

theorem admTick_late (hb : k.basis ≠ d.setupBasis) (hn : 3 ≤ k.returns) :
    d.admTick now = (((admIdle d).admFinish now k.req (some admEpoch)).showQueue).admStart := by
  unfold Dev.admTick admIdle
  simp only [hk, hg, hr, hb, hn, Bool.false_eq_true, List.isEmpty_nil, Bool.not_true, if_true, if_false]

end Compiling

/-! ## Revalidation (R359) -/

/-- The device as a revalidation of a cause begins, with its event. -/
def revalidating (d : Dev) (now : NetTime) (cause : Nat) (rest : List Nat) : Dev :=
  { d with adm := { d.adm with revalidate := rest } }.raise now (ev 13 5) cause

/-- Where everything passes at its full rate, a revalidation degrades nothing of best effort (R359). -/
theorem revalidation_passes {s : State} {cause : Nat} {rest : List Nat} (hr : s.dev.adm.revalidate = cause :: rest)
    (hp : let y := revalidating s.dev s.time cause rest
      y.passAt (y.judged.map (fun n => (n, (y.contract n).rcd.rate))) = true) :
    let y := revalidating s.dev s.time cause rest
    exec .revalidation s = .next { s with
      dev := ((y.ratesAfter y.judged).foldl (fun (z : Dev) e => z.setContractRate s.time cause e.1 e.2) y).showContracts } := by
  refine onDev_gives (exec_revalidation ..) ?_
  unfold revalidating at hp ⊢
  simp only [hr, hp, if_true]

/-- Settles O32: set-ups as they come, the compile's end, activation, queries, and a revalidation that finds everything in place. -/
theorem admissionResults : Obligations.AdmissionResults := by
  intro s fn reply buffer entries q qs k contract v cause rest hroom hready
  refine ⟨setup_compiles hroom hready, setup_waits hroom hready, setup_queueFull hroom hready,
    fun hk hg hr => ⟨fun hb => ⟨fun hj => ?refused, fun hj => ?committed⟩, admTick_returns hk hg hr, fun hb hn hj => ?late⟩, rfl,
    admQuery_answers hroom hready, admQuery_notPermitted hroom hready, admQuery_noContract hroom hready, epochq_answers hroom hready,
    revalidation_passes⟩
  case refused => exact (admTick_finishes hk hg hr hb).trans (congrArg (fun y => y.showQueue.admStart) (admFinish_refuses hj))
  case committed => exact (admTick_finishes hk hg hr hb).trans (congrArg (fun y => y.showQueue.admStart) (admFinish_commits hj))
  case late => exact (admTick_late hk hg hr hb hn).trans (congrArg (fun y => y.showQueue.admStart) (admFinish_refuses hj))

/-! # The path pairs (R377 to R380) -/

section Paths

variable {s : State} {path : Fin 4}

theorem heartbeatSend_due (hp : s.dev.pairOn (path / 2) = true) (hst : s.dev.pathState path ≠ pathDisabled)
    (hsafe : s.dev.portSafe (s.dev.pathPort path) = false) (hl : s.dev.linkUp (s.dev.pathPort path) = true) :
    exec (.heartbeatSend path) s = .next { s with dev := s.dev.setPathSt path { s.dev.pathSt path with hbDue := true } } := by
  refine onDev_gives (exec_heartbeatSend ..) (if_neg ?_)
  simp [hp, hst, hsafe, hl]

/-- The device once a miss of a path is counted (R378). -/
def missCounted (d : Dev) (path : Fin 4) : Dev :=
  (d.bump DUP.PHB_MISS (d.pathPort path)).setPathSt path { d.pathSt path with run := 0 }

section Miss

variable (hp : s.dev.pairOn (path / 2) = true) (hsup : s.dev.supervised path = true) (hm : s.dev.missed s.time path = true)

include hp hsup hm

theorem heartbeatMiss_counts : exec (.heartbeatMiss path) s = .next { s with
    dev :=
      let y := missCounted s.dev path
      let heard := match (y.pathSt (otherPath path)).heard with
        | some t => decide (s.time.toNs < t + y.missTime)
        | none => false
      if heard then y.failPath s.time path
      else if y.rd DUP.PSTAT_PEERLOST (path / 2) = 1 then y
      else (y.wr DUP.PSTAT_PEERLOST (path / 2) 1).raise s.time (ev 14 11) (path / 2) } := by
  refine onDev_gives (exec_heartbeatMiss ..) ((if_neg ?_).trans rfl)
  simp [hp, hsup, hm]

/-- A miss fails its path while the other path is heard (R379). -/
theorem heartbeatMiss_fails {t : Nat} (ht : ((missCounted s.dev path).pathSt (otherPath path)).heard = some t)
    (hlt : s.time.toNs < t + (missCounted s.dev path).missTime) :
    exec (.heartbeatMiss path) s = .next { s with dev := (missCounted s.dev path).failPath s.time path } := by
  rw [heartbeatMiss_counts hp hsup hm]
  simp only [ht, hlt, decide_true, if_true]

section Unheard

variable (hun : ∀ t, ((missCounted s.dev path).pathSt (otherPath path)).heard = some t → t + (missCounted s.dev path).missTime ≤ s.time.toNs)

include hun

theorem heartbeatMiss_unheard : exec (.heartbeatMiss path) s = .next { s with
    dev :=
      let y := missCounted s.dev path
      if y.rd DUP.PSTAT_PEERLOST (path / 2) = 1 then y
      else (y.wr DUP.PSTAT_PEERLOST (path / 2) 1).raise s.time (ev 14 11) (path / 2) } := by
  rw [heartbeatMiss_counts hp hsup hm]
  cases hh : ((missCounted s.dev path).pathSt (otherPath path)).heard with
  | none => simp only [hh, Bool.false_eq_true, if_false]
  | some t => simp only [hh, Nat.not_lt.2 (hun t hh), decide_false, Bool.false_eq_true, if_false]

/-- With neither path heard the partner is lost, with EVT 14.11 (R379). -/
theorem heartbeatMiss_losesPeer (hl : (missCounted s.dev path).rd DUP.PSTAT_PEERLOST (path / 2) ≠ 1) :
    exec (.heartbeatMiss path) s = .next { s with
      dev := ((missCounted s.dev path).wr DUP.PSTAT_PEERLOST (path / 2) 1).raise s.time (ev 14 11) (path / 2) } :=
  answers_of_neg (heartbeatMiss_unheard hp hsup hm hun) hl

theorem heartbeatMiss_peerWasLost (hl : (missCounted s.dev path).rd DUP.PSTAT_PEERLOST (path / 2) = 1) :
    exec (.heartbeatMiss path) s = .next { s with dev := missCounted s.dev path } :=
  answers_of_pos (heartbeatMiss_unheard hp hsup hm hun) hl

end Unheard

end Miss

theorem resyncEnd_up (hst : s.dev.pathState path = pathResync)
    (ht : (s.dev.pathSt path).since + max 1 (s.dev.rd DUP.QCFG_RSYNC) * s.dev.rd DUP.CFG_HBINT * 1000 ≤ s.time.toNs) :
    exec (.resyncEnd path) s = .next { s with
      dev := ((s.dev.enterPath s.time path pathUp).raise s.time (ev 14 2) (s.dev.pathPort path)).revalidate 5 } :=
  onDev_gives (exec_resyncEnd ..) (if_pos ⟨hst, ht⟩)

end Paths

/-! # The partner interlock (R385 to R387) -/

section Interlock

variable {s : State}

theorem ilkOutPeriod_sends (hen : s.dev.rd DUP.ILK_EN = 1) (hs : s.dev.devSafe = false) : exec .ilkOutPeriod s = .next { s with
    dev := s.dev.send (.message 8 [if s.dev.rd DUP.ILK_ROLE = 1 then 150 else 50]) } :=
  onDev_gives (exec_ilkOutPeriod ..) (if_pos ⟨hen, guard_stops hs⟩)

/-- With the other route lost as well no event is raised (R385). -/
theorem ilkInLost_both (h : (s.dev.wr DUP.ILK_CABLE 0 0).rd DUP.ILK_INBAND = 0) :
    exec .ilkInLost s = .next { s with dev := s.dev.wr DUP.ILK_CABLE 0 0 } :=
  onDev_gives (exec_ilkInLost ..) (if_pos h)

/-- With the other route still heard the loss raises EVT 14.9 (R385, R387). -/
theorem inbandLost_alone (h : (s.dev.wr DUP.ILK_INBAND 0 0).rd DUP.ILK_CABLE ≠ 0) :
    exec .inbandLost s = .next { s with dev := (s.dev.wr DUP.ILK_INBAND 0 0).raiseSec s.time (ev 14 9) 1 1 } :=
  onDev_gives (exec_inbandLost ..) (if_neg h)

section Role

variable (hen : s.dev.rd DUP.ILK_EN = 1)

include hen

/-- A standby that hears no partner takes the proxy role (R387). -/
theorem roleDecision_takes (hrole : s.dev.rd DUP.ILK_ROLE = 0) (hel : s.dev.eligible = true) (hc : s.dev.rd DUP.ILK_CABLE = 0)
    (hb : s.dev.rd DUP.ILK_INBAND = 0) : exec .roleDecision s = .next { s with dev := s.dev.takeProxy s.time } := by
  refine onDev_gives (exec_roleDecision ..) ?_
  simp [hen, hrole, hel, hc, hb]

/-- Of two proxies the one with PRIO 1 leaves the role (R387). -/
theorem roleDecision_leaves (hrole : s.dev.rd DUP.ILK_ROLE = 1) (hprio : s.dev.rd DUP.ILK_PRIO = 1) (hc : s.dev.rd DUP.ILK_CABLE = 2)
    (hother : s.dev.dup.partnerPrio ≠ some 1) : exec .roleDecision s = .next { s with dev := s.dev.leaveProxy s.time 0 } := by
  refine onDev_gives (exec_roleDecision ..) ?_
  simp [hen, hrole, hprio, hc, hother]

/-- Two proxies of one PRIO conflict (R387). -/
theorem roleDecision_conflicts (hrole : s.dev.rd DUP.ILK_ROLE = 1) (hc : s.dev.rd DUP.ILK_CABLE = 2)
    (hsame : s.dev.dup.partnerPrio = some (s.dev.rd DUP.ILK_PRIO)) :
    exec .roleDecision s = .next { s with dev := (s.dev.leaveProxy s.time 2).raise s.time (ev 14 10) } := by
  refine onDev_gives (exec_roleDecision ..) ?_
  simp [hen, hrole, hc, hsame]

end Role

end Interlock

/-- Settles O33: heartbeats and their misses, the end of RESYNC, the routes of the interlock, and the decision of the role. -/
theorem redundancyResults : Obligations.RedundancyResults := by
  intro s path high t
  exact ⟨heartbeatSend_due, fun hp hsup hm => heartbeatMiss_fails hp hsup hm,
    fun hp hsup hm hun => ⟨heartbeatMiss_losesPeer hp hsup hm hun, heartbeatMiss_peerWasLost hp hsup hm hun⟩, resyncEnd_up, ilkOutPeriod_sends,
    rfl, ilkInLost_both, inbandLost_alone, fun hen => ⟨roleDecision_takes hen, roleDecision_leaves hen, roleDecision_conflicts hen⟩⟩

end Sys2Proof.Proofs
end

section
/-! Proofs of the statements of 15_host_interface: host links, requests to functions, and what comes back to the device. -/

namespace Sys2Proof.Proofs

open Sys2Proof.Machine Sys2Proof.Laws

/-! # Host links (R392 to R394, R408, R411, R417, R422) -/

section Links

variable {s : State} {l : Fin 2}

/-- What a training shows of a link: rate, width, figure and FLIT mode, and CXL of link 0 (R393, R394, R417). -/
def hostLinkShown (d : Dev) (l : Fin 2) (rate width : Nat) (flit cxl : Bool) : Dev :=
  let shown := ((((d.wr HIF.LSTAT_UP l 1).wr HIF.LSTAT_RATE l rate).wr HIF.LSTAT_WIDTH l width).wr HIF.LSTAT_FIGURE l
    (linkFigure width rate)).wr HIF.LSTAT_FLIT l (if rate = 6 || flit then 1 else 0)
  if l.val = 0 then shown.wr HIF.CXLSTAT_CXL 0 (if cxl && decide (d.rd HIF.CFG_CXLEN = 1 ∧ rate = 6) then 1 else 0) else shown

/-- A link that has trained, with its event, and the revalidation of a figure that changed (R394, R422). -/
def hostLinkTrained (d : Dev) (now : NetTime) (l : Fin 2) (rate width : Nat) (flit cxl : Bool) : Dev :=
  let shown := hostLinkShown d l rate width flit cxl
  let live : Dev := { shown with hif := { shown.hif with inReset := put false shown.hif.inReset l false } }
  (live.raise now (ev 15 l)).figureChanged (d.rd HIF.LSTAT_FIGURE l) l

section Up

variable {rate width : Nat} {flit cxl : Bool} (hdown : s.dev.rd HIF.LSTAT_UP l = 0) (hperst : look false s.dev.hif.perst l = true)
  (h1 : 1 ≤ rate) (h6 : rate ≤ 6) (hw : width ∈ [1, 2, 4, 8, 16]) (hl : width ≤ s.dev.linkLanes l)

include hdown hperst h1 h6 hw hl

/-- A released link trains within its lanes; below its mode EVT 15.2 names it (R393). -/
theorem hostLinkUp_trains : exec (.hostLinkUp l rate width flit cxl) s = .next { s with
    dev := if rate < 6 ∨ width < s.dev.linkLanes l then
        ((hostLinkTrained s.dev s.time l rate width flit cxl).bump HIF.LDOWN_DEGRADE l).raise s.time (ev 15 2) l
      else hostLinkTrained s.dev s.time l rate width flit cxl } := by
  refine onDev_gives (exec_hostLinkUp ..) (if_neg ?_)
  have legal : [1, 2, 4, 8, 16].contains width = true := by simpa using hw
  rw [hdown, hperst, legal]
  simp only [Nat.zero_ne_one, Bool.true_eq_false, Bool.not_true, Bool.false_eq_true, false_or]
  omega

theorem hostLinkUp_full (h : rate = 6) (hf : width = s.dev.linkLanes l) :
    exec (.hostLinkUp l rate width flit cxl) s = .next { s with dev := hostLinkTrained s.dev s.time l rate width flit cxl } :=
  answers_of_neg (hostLinkUp_trains hdown hperst h1 h6 hw hl) (by omega)

theorem hostLinkUp_degraded (h : rate < 6 ∨ width < s.dev.linkLanes l) : exec (.hostLinkUp l rate width flit cxl) s = .next { s with
    dev := ((hostLinkTrained s.dev s.time l rate width flit cxl).bump HIF.LDOWN_DEGRADE l).raise s.time (ev 15 2) l } :=
  answers_of_pos (hostLinkUp_trains hdown hperst h1 h6 hw hl) h

end Up

theorem perstRelease_trains (h : s.dev.linkPresent l = true) : exec (.perstRelease l) s = .next { s with
    dev := ({ s.dev with hif := { s.dev.hif with perst := put false s.dev.hif.perst l true } } : Dev).wr HIF.LSTAT_PRESENT l 1 } :=
  onDev_gives (exec_perstRelease ..) (if_pos h)

section Down

variable (hup : s.dev.rd HIF.LSTAT_UP l = 1)

include hup

theorem hostLinkDown_counts : exec (.hostLinkDown l) s = .next { s with
    dev := ((s.dev.linkReset s.time l).bump HIF.LDOWN_DOWN l).raise s.time (ev 15 l) } :=
  onDev_gives (exec_hostLinkDown ..) (if_neg (by omega))

variable (hp : s.dev.linkPresent l = true)

include hp

/-- PERST# asserted holds the link in reset, and its event is raised (R408, R422). -/
theorem linkReset_perst :
    let down := s.dev.linkReset s.time l
    let held : Dev := { down with hif := { down.hif with perst := put false down.hif.perst l false } }
    exec (.linkReset l true) s = .next { s with dev := held.raise s.time (ev 15 l) } := by
  refine onDev_gives (exec_linkReset ..) ((if_neg (guard_passes hp)).trans ?_)
  simp only [hup, decide_true, if_true]
  rfl

/-- Hot Reset and Link Disable leave PERST# as it is (R408). -/
theorem linkReset_hot : exec (.linkReset l false) s = .next { s with dev := (s.dev.linkReset s.time l).raise s.time (ev 15 l) } := by
  refine onDev_gives (exec_linkReset ..) ((if_neg (guard_passes hp)).trans ?_)
  simp only [hup, decide_true, if_true, Bool.false_eq_true, if_false]
  rfl

end Down

end Links

/-- Settles O34: links come up at and below their mode, are released, and go down or are reset. -/
theorem hostLinkResults : Obligations.HostLinkResults := by
  intro s l rate width flit cxl
  exact ⟨fun hdown hperst h1 h6 hw hl => ⟨hostLinkUp_full hdown hperst h1 h6 hw hl, hostLinkUp_degraded hdown hperst h1 h6 hw hl⟩,
    perstRelease_trains, fun hup => ⟨hostLinkDown_counts hup, fun hp => ⟨linkReset_perst hup hp, linkReset_hot hup hp⟩⟩⟩

/-! # Requests to a function (R396, R402, R406 to R409, R412) -/

section Functions

variable {s : State} {fn : Fn}

/-! ## A function that does not exist, or is in FLR -/

section Absent

variable (he : s.dev.fnExists fn = false)

include he

theorem configRequest_absent (req : CfgReq) : exec (.configRequest fn req) s = .next { s with dev := s.dev.urAnswer s.time fn } :=
  onDev_gives (exec_configRequest ..) (if_pos (guard_stops he))

theorem initiateFlr_absent : exec (.initiateFlr fn) s = .next { s with dev := s.dev.urAnswer s.time fn } :=
  onDev_gives (exec_initiateFlr ..) (if_pos (guard_stops he))

theorem d3hotEntry_absent : exec (.d3hotEntry fn) s = .next { s with dev := s.dev.urAnswer s.time fn } :=
  onDev_gives (exec_d3hotEntry ..) (if_pos (guard_stops he))

theorem d0Return_absent : exec (.d0Return fn) s = .next { s with dev := s.dev.urAnswer s.time fn } :=
  onDev_gives (exec_d0Return ..) (if_pos (guard_stops he))

end Absent

section InFlr

variable (he : s.dev.fnExists fn = true) (hf : (s.dev.fn fn).inFlr = true)

include he hf

theorem configRequest_inFlr (req : CfgReq) : exec (.configRequest fn req) s = .next { s with dev := s.dev.send (.message 4 [fn]) } :=
  onDev_gives (exec_configRequest ..) ((if_neg (guard_passes he)).trans (if_pos (by rw [hf, Bool.true_or])))

theorem initiateFlr_inFlr : exec (.initiateFlr fn) s = .next { s with dev := s.dev.send (.message 4 [fn]) } :=
  onDev_gives (exec_initiateFlr ..) ((if_neg (guard_passes he)).trans (if_pos (by rw [hf, Bool.true_or])))

end InFlr

/-! ## A function that answers -/

section Answering

variable (he : s.dev.fnExists fn = true) (hf : (s.dev.fn fn).inFlr = false)

include he hf

section Configuration

variable (hr : s.dev.ready (38 + linkOf fn) = true)

include hr

omit he in
theorem config_answers : ¬((s.dev.fn fn).inFlr || !s.dev.ready (38 + linkOf fn)) = true := by
  simp [hf, hr]

/-- A dword that the identities fix is read as they have it (R396). -/
theorem configRead_fixed {dw : Fin 1024} {v : Nat} (hv : s.dev.configWord fn dw = some v) :
    exec (.configRequest fn (.read dw)) s = .next { s with dev := s.dev.send (.readData fn (BitVec.ofNat 64 v)) } := by
  refine onDev_gives (exec_configRequest ..) ((if_neg (guard_passes he)).trans ((if_neg (config_answers hf hr)).trans ?_))
  simp only [hv]

/-- Any other dword reads as a free value. -/
theorem configRead_free {dw : Fin 1024} (hv : s.dev.configWord fn dw = none) :
    exec (.configRequest fn (.read dw)) s = .next { s with dev := s.dev.drawn.send (.readData fn (s.dev.freeVal &&& 0xFFFFFFFF)) } := by
  refine onDev_gives (exec_configRequest ..) ((if_neg (guard_passes he)).trans ((if_neg (config_answers hf hr)).trans ?_))
  simp only [hv]

theorem configRequest_aspmL1 (on : Bool) :
    exec (.configRequest fn (.aspmL1 on)) s = .next { s with dev := s.dev.setFn fn { s.dev.fn fn with aspmL1 := on } } :=
  onDev_gives (exec_configRequest ..) ((if_neg (guard_passes he)).trans (if_neg (config_answers hf hr)))

theorem configRequest_memEnable (on : Bool) :
    exec (.configRequest fn (.memEnable on)) s = .next { s with dev := s.dev.setFn fn { s.dev.fn fn with memEnable := on } } :=
  onDev_gives (exec_configRequest ..) ((if_neg (guard_passes he)).trans (if_neg (config_answers hf hr)))

theorem configRequest_busMaster (on : Bool) :
    exec (.configRequest fn (.busMaster on)) s = .next { s with dev := s.dev.setFn fn { s.dev.fn fn with busMaster := on } } :=
  onDev_gives (exec_configRequest ..) ((if_neg (guard_passes he)).trans (if_neg (config_answers hf hr)))

theorem configRequest_maxPayload (code : Fin 3) :
    exec (.configRequest fn (.maxPayload code)) s = .next { s with dev := s.dev.setFn fn { s.dev.fn fn with payload := code.val } } :=
  onDev_gives (exec_configRequest ..) ((if_neg (guard_passes he)).trans (if_neg (config_answers hf hr)))

/-- A change of the function mask sends what is pending and no longer masked (R406). -/
theorem configRequest_msixMask (on : Bool) : exec (.configRequest fn (.msixMask on)) s = .next { s with
    dev := (s.dev.setFn fn { s.dev.fn fn with msixMask := on }).sendPending fn } :=
  onDev_gives (exec_configRequest ..) ((if_neg (guard_passes he)).trans (if_neg (config_answers hf hr)))

theorem initiateFlr_enters :
    let entered := (s.dev.resetFns fn).foldl (fun (y : Dev) f => if (y.fn f).inFlr then y else y.flrEnter f) s.dev
    exec (.initiateFlr fn) s = .next { s with
      dev := ((entered.showFlr.wr HIF.FLRSTAT_LASTFN 0 fn).bump HIF.FLRSTAT_COUNT).raise s.time (ev 15 7) 0 (some fn.val) } :=
  onDev_gives (exec_initiateFlr ..) ((if_neg (guard_passes he)).trans (if_neg (config_answers hf hr)))

end Configuration

theorem d3hotEntry_enters : exec (.d3hotEntry fn) s = .next { s with dev := s.dev.setFn fn { s.dev.fn fn with d3hot := true } } :=
  onDev_gives (exec_d3hotEntry ..) ((if_neg (guard_passes he)).trans (if_neg (Bool.eq_false_iff.1 hf)))

theorem d0Return_returns (hd : (s.dev.fn fn).d3hot = true) :
    exec (.d0Return fn) s = .next { s with dev := (s.dev.setFn fn { s.dev.fn fn with d3hot := false }).inboxVector fn } :=
  onDev_gives (exec_d0Return ..) ((if_neg (guard_passes he)).trans ((if_neg (Bool.eq_false_iff.1 hf)).trans (if_neg (guard_passes hd))))

theorem d0Return_inD0 (hd : (s.dev.fn fn).d3hot = false) : exec (.d0Return fn) s = .next { s with dev := s.dev } :=
  onDev_gives (exec_d0Return ..) ((if_neg (guard_passes he)).trans ((if_neg (Bool.eq_false_iff.1 hf)).trans (if_pos (guard_stops hd))))

end Answering

/-! ## The end of an FLR (R409, R421) -/

/-- The functions that a function's FLR took with it, returned to service. -/
def flrEnded (d : Dev) (now : NetTime) (fn : Nat) : Dev :=
  (((d.resetFns fn).filter (fun f => (d.fn f).inFlr)).reverse).foldl (fun (y : Dev) f => y.flrFinish now f) d

section FlrEnds

variable (hf : (s.dev.fn fn).inFlr = true)

include hf

theorem flrComplete_pf (hpf : fn.val = 4096 * linkOf fn) : exec (.flrComplete fn) s = .next { s with
    dev := ((flrEnded s.dev s.time fn).showExists (linkOf fn)).raise s.time (ev 15 8) 0 (some fn.val) } := by
  refine onDev_gives (exec_flrComplete ..) ((if_neg ?_).trans (congrArg (fun y : Dev => y.raise s.time (ev 15 8) 0 (some fn.val)) (if_pos hpf)))
  simp [hf, ← hpf]

theorem flrComplete_vf (hvf : fn.val ≠ 4096 * linkOf fn) (hp : (s.dev.fn (4096 * linkOf fn)).inFlr = false) :
    exec (.flrComplete fn) s = .next { s with dev := (flrEnded s.dev s.time fn).raise s.time (ev 15 8) 0 (some fn.val) } := by
  refine onDev_gives (exec_flrComplete ..) ((if_neg ?_).trans (congrArg (fun y : Dev => y.raise s.time (ev 15 8) 0 (some fn.val)) (if_neg hvf)))
  simp [hf, hp]

omit hf in
/-- A VF whose PF is in FLR completes with it. -/
theorem flrComplete_vfOfPf (hvf : fn.val ≠ 4096 * linkOf fn) (hp : (s.dev.fn (4096 * linkOf fn)).inFlr = true) :
    exec (.flrComplete fn) s = .next { s with dev := s.dev } := by
  refine onDev_gives (exec_flrComplete ..) (if_pos ?_)
  simp [hp, hvf]

end FlrEnds

/-! ## The expansion ROM and MSI-X (R406, R412) -/

section Rom

variable {off : Fin 1048576} {len : Nat}

theorem romRead_sends (hm : s.dev.memAnswers fn = true) (hpf : fn.val % 4096 = 0) (hr : (s.dev.fn fn).romEnable = true) (h1 : 1 ≤ len)
    (hb : off.val % 64 + len ≤ 64) : exec (.expansionRomRead fn off len) s = .next { s with
      dev := s.dev.send (.reply fn ((List.range len).map (fun i => s.dev.romByte (off + i)))) } := by
  refine onDev_gives (exec_expansionRomRead ..) (if_pos ?_)
  simp [hm, hpf, hr, h1, hb]

theorem romRead_crossing (hb : 64 < off.val % 64 + len) : exec (.expansionRomRead fn off len) s = .next { s with dev := s.dev.urAnswer s.time fn } := by
  refine onDev_gives (exec_expansionRomRead ..) (if_neg ?_)
  simp [Nat.not_le.2 hb]

theorem romRead_disabled (hr : (s.dev.fn fn).romEnable = false) :
    exec (.expansionRomRead fn off len) s = .next { s with dev := s.dev.urAnswer s.time fn } := by
  refine onDev_gives (exec_expansionRomRead ..) (if_neg ?_)
  simp [hr]

end Rom

section Unmask

variable {vec : Fin 2048}

theorem vectorUnmask_ur (hm : s.dev.memAnswers fn = false) : exec (.vectorUnmask fn vec) s = .next { s with dev := s.dev.urAnswer s.time fn } :=
  onDev_gives (exec_vectorUnmask ..) (if_pos (guard_stops hm))

variable (hm : s.dev.memAnswers fn = true) (hv : vec.val < s.dev.rd VIR.PVEC_VECTORS fn)

include hm hv

theorem vectorUnmask_quiet (hp : look false (s.dev.fn fn).pba vec = false) :
    let x := s.dev.fn fn
    exec (.vectorUnmask fn vec) s = .next { s with
      dev := s.dev.setFn fn { x with vecs := put {} x.vecs vec { look {} x.vecs vec with masked := false } } } := by
  refine onDev_gives (exec_vectorUnmask ..) ((if_neg (guard_passes hm)).trans ((if_neg (Nat.not_le.2 hv)).trans (if_neg ?_)))
  simp [hp]

/-- A pending bit of the vector sends its message (R406). -/
theorem vectorUnmask_sends (hp : look false (s.dev.fn fn).pba vec = true) :
    let x := s.dev.fn fn
    let opened := s.dev.setFn fn { x with vecs := put {} x.vecs vec { look {} x.vecs vec with masked := false } }
    exec (.vectorUnmask fn vec) s = .next { s with
      dev := (opened.setFn fn { opened.fn fn with pba := put false x.pba vec false }).vector fn vec } := by
  refine onDev_gives (exec_vectorUnmask ..) ((if_neg (guard_passes hm)).trans ((if_neg (Nat.not_le.2 hv)).trans (if_pos ?_)))
  simp [hp]

end Unmask

end Functions

/-- The vendor and device identity is a PF's (R396). -/
theorem configWord_identity {d : Dev} {f : Nat} (h : f % 4096 = 0) : d.configWord f 0 = some (d.rd HIF.ID_VID + 0x16040000) := by
  simp [Dev.configWord, h]

theorem configWord_vf {d : Dev} {f : Nat} (h : f % 4096 ≠ 0) : d.configWord f 0 = none := by
  simp [Dev.configWord, h]

theorem configWord_other {d : Dev} {f dw : Nat} (h0 : dw ≠ 0) (h2 : dw ≠ 2) (h11 : dw ≠ 11) : d.configWord f dw = none := by
  unfold Dev.configWord
  split
  · exact absurd rfl h0
  · exact absurd rfl h2
  · exact absurd rfl h11
  · rfl

/-- Settles O35: configuration requests, FLR, D3hot, the ROM, and the vectors' masks. -/
theorem functionResults : Obligations.FunctionResults := by
  intro s fn dw on code req off len vec
  exact ⟨rfl, fun he => ⟨configRequest_absent he req, initiateFlr_absent he, d3hotEntry_absent he, d0Return_absent he⟩,
    fun he hf => ⟨configRequest_inFlr he hf req, initiateFlr_inFlr he hf⟩,
    fun he hf => ⟨fun hr => ⟨fun hpf => configRead_fixed he hf hr (configWord_identity hpf), configRead_fixed he hf hr rfl,
        fun hvf => configRead_free he hf hr (configWord_vf hvf), configRead_fixed he hf hr rfl,
        fun h0 h2 h11 => configRead_free he hf hr (configWord_other h0 h2 h11), configRequest_aspmL1 he hf hr on,
        configRequest_memEnable he hf hr on, configRequest_busMaster he hf hr on, configRequest_maxPayload he hf hr code,
        configRequest_msixMask he hf hr on, initiateFlr_enters he hf hr⟩,
      d3hotEntry_enters he hf, d0Return_returns he hf, d0Return_inD0 he hf⟩,
    fun hf => ⟨flrComplete_pf hf, flrComplete_vf hf, flrComplete_vfOfPf⟩, romRead_sends, romRead_crossing, fun _ => romRead_disabled,
    vectorUnmask_quiet, vectorUnmask_sends, vectorUnmask_ur⟩

end Sys2Proof.Proofs
end

section
/-! Proofs of the statement of 15_host_interface about what comes back to the device: completions, translations, snoops and observations. -/

namespace Sys2Proof.Proofs

open Sys2Proof.Machine Sys2Proof.Laws

/-! # Completions of reads (R400, R401, R405) -/

section Completions

variable {s : State} {l : Fin 2} {tag : Fin 16384} {st : CplStatus} {f1 f2 : AcsFind} {ecc : FrameEcc}

section NoRead

variable (hn : s.dev.readOf l tag = none)

include hn

theorem completion_unexpected (hst : st ≠ .malformed) :
    exec (.completionArrival l tag st f1 f2 ecc) s = .next { s with dev := s.dev.aerLog (4096 * l.val) .unexpected } := by
  refine onDev_gives (exec_completionArrival ..) ?_
  simp only [hn, hst, if_false]

theorem completion_malformedUnexpected : exec (.completionArrival l tag .malformed f1 f2 ecc) s = .next { s with
    dev := (s.dev.aerLog (4096 * l.val) .malformed).raise s.time (ev 15 6) l } := by
  refine onDev_gives (exec_completionArrival ..) ?_
  simp only [hn, if_true]

theorem timeout_noRead : exec (.completionTimeout l tag) s = .next { s with dev := s.dev } := by
  refine onDev_gives (exec_completionTimeout ..) ?_
  simp only [hn]

end NoRead

section Read

variable {r : HostRead} (hr : s.dev.readOf l tag = some r)

include hr

theorem completion_malformed : exec (.completionArrival l tag .malformed f1 f2 ecc) s = .next { s with
    dev := (s.dev.aerLog r.fn .malformed).raise s.time (ev 15 6) l } := by
  refine onDev_gives (exec_completionArrival ..) ?_
  simp only [hr, if_true]

theorem timeout_off (ho : (s.dev.fn r.fn).ctoOff = true) : exec (.completionTimeout l tag) s = .next { s with dev := s.dev } := by
  refine onDev_gives (exec_completionTimeout ..) ?_
  simp only [hr, ho, Bool.true_or, if_true]

variable (hf : (s.dev.fn r.fn).inFlr = false) (hd : r.dead = false)

include hf hd

omit hr in
/-- A read whose function is in service, and that nothing gave up. -/
theorem read_wanted : ¬((s.dev.fn r.fn).inFlr || r.dead) = true := by
  simp [hf, hd]

theorem completion_counts : exec (.completionArrival l tag .ok f1 f2 ecc) s = .next { s with
    dev :=
      let got := (s.dev.dropRead l tag).bump DMA.BYTES_COUNT r.group r.len
      if got.chanDone r.group r.chan then got.readsDone s.time r.group r.chan f1 f2 ecc else got } := by
  refine onDev_gives (exec_completionArrival ..) ?_
  simp only [hr, reduceCtorEq, if_neg (read_wanted hf hd), if_true, if_false]

theorem completion_counted (hc : ((s.dev.dropRead l tag).bump DMA.BYTES_COUNT r.group r.len).chanDone r.group r.chan = false) :
    exec (.completionArrival l tag .ok f1 f2 ecc) s = .next { s with dev := (s.dev.dropRead l tag).bump DMA.BYTES_COUNT r.group r.len } :=
  answers_of_neg (completion_counts hr hf hd) (Bool.eq_false_iff.1 hc)

theorem completion_last (hc : ((s.dev.dropRead l tag).bump DMA.BYTES_COUNT r.group r.len).chanDone r.group r.chan = true) :
    exec (.completionArrival l tag .ok f1 f2 ecc) s = .next { s with
      dev := ((s.dev.dropRead l tag).bump DMA.BYTES_COUNT r.group r.len).readsDone s.time r.group r.chan f1 f2 ecc } :=
  answers_of_pos (completion_counts hr hf hd) hc

/-- A completion that fails its read is counted, logged, and fails its descriptor (R401, R405). -/
theorem completion_fails (hok : st ≠ .ok) (hm : st ≠ .malformed) : exec (.completionArrival l tag st f1 f2 ecc) s = .next { s with
    dev := ((((s.dev.dropRead l tag).bump HIF.CTO_CPLERR l).raiseSec s.time (ev 15 4) l l (some r.fn)).readError s.time l r.fn st).payloadFails s.time
      r.group r.chan r.ring r.pos } := by
  refine onDev_gives (exec_completionArrival ..) ?_
  simp only [hr, hok, hm, if_neg (read_wanted hf hd), if_false]

theorem timeout_fails (ho : (s.dev.fn r.fn).ctoOff = false) (ht : r.since + timeoutNs (s.dev.fn r.fn).ctoValue ≤ s.dev.eng.tclks) :
    exec (.completionTimeout l tag) s = .next { s with
      dev := ((((s.dev.dropRead l tag).bump HIF.CTO_TIMEOUT l).raiseSec s.time (ev 15 3) l l (some r.fn)).aerLog r.fn .timeout).payloadFails s.time
        r.group r.chan r.ring r.pos } := by
  refine onDev_gives (exec_completionTimeout ..) ?_
  simp only [hr, ho, Nat.not_lt.2 ht, if_neg (read_wanted hf hd), decide_false, Bool.or_self, Bool.false_eq_true, if_false]

end Read

end Completions

/-! # Translations (R404) -/

/-- A translation that was asked for is held, and what waited for it goes on. -/
theorem translation_held {s : State} {fn : Fn} {page a : Nat} (hw : s.dev.hif.xlWait.contains (fn.val, page) = true)
    (hroom : (s.dev.atcOf (linkOf fn)).length < 16384) :
    let answered : Dev := { s.dev with hif := { s.dev.hif with xlWait := s.dev.hif.xlWait.filter (· ≠ (fn.val, page)) } }
    let cached : Dev := { answered with hif := { answered.hif with atc := answered.hif.atc ++ [(fn.val, page, a)] } }
    exec (.translationCompletion fn page (some a)) s = .next { s with dev := (cached.showAtc (linkOf fn)).releaseHeld fn page } := by
  intro answered cached
  have room : (answered.atcOf (linkOf fn)).length < 16384 := hroom
  refine onDev_gives (exec_translationCompletion ..) ((if_neg (guard_passes hw)).trans ?_)
  simp only [answered] at room
  simp only [room, if_true, cached, answered]

/-! # Snoops of host lines (R419) -/

section Snoops

variable {s : State} {line : Nat}

section Held

variable (h : s.dev.hif.lines.any (fun e => decide (e.1 = line)) = true)

include h

theorem snoop_shares : exec (.cxlSnoop line .cur) s = .next { s with dev := (s.dev.bump HIF.CXLSNP_COUNT).send (.message 6 [line, 2]) } :=
  onDev_gives (exec_cxlSnoop ..) ((if_pos h).trans (if_pos rfl))

theorem snoop_drops {kind : CxlSnoop} (hk : kind ≠ .cur) :
    let snooped := s.dev.bump HIF.CXLSNP_COUNT
    let released : Dev := { snooped with hif := { snooped.hif with lines := snooped.hif.lines.filter (fun e => decide (e.1 ≠ line)) } }
    exec (.cxlSnoop line kind) s = .next { s with dev := released.showLines.send (.message 6 [line, 1]) } :=
  onDev_gives (exec_cxlSnoop ..) ((if_pos h).trans (if_neg hk))

end Held

theorem snoop_misses {kind : CxlSnoop} (h : s.dev.hif.lines.any (fun e => decide (e.1 = line)) = false) :
    exec (.cxlSnoop line kind) s = .next { s with dev := (s.dev.bump HIF.CXLSNP_COUNT).send (.message 6 [line, 0]) } :=
  onDev_gives (exec_cxlSnoop ..) (if_neg (Bool.eq_false_iff.1 h))

end Snoops

/-! # Observations, and the end of caching (R420) -/

section Observations

variable {s : State} {ring : Fin 131072}

/-- The last observation that a completion ring waited for sends its vector, where no access of its function is held. -/
theorem observation_sends (hg : (s.dev.ring kCq ring).gos = 1) (hv : (s.dev.ring kCq ring).vecWait = true)
    (hh : ∀ e ∈ s.dev.hif.held, e.1 ≠ (s.dev.ring kCq ring).polder) :
    let x := s.dev.ring kCq ring
    exec (.globalObservation none ring) s = .next { s with
      dev := (s.dev.setRing kCq ring { x with gos := 0, vecWait := false }).vector x.polder x.vector } :=
  onDev_gives (exec_globalObservation ..) (if_pos ⟨hg, hv, List.all_eq_true.2 fun e he => decide_eq_true (hh e he)⟩)

theorem observation_counts (hg : (s.dev.ring kCq ring).gos ≠ 1) : exec (.globalObservation none ring) s = .next { s with
    dev := s.dev.setRing kCq ring { s.dev.ring kCq ring with gos := (s.dev.ring kCq ring).gos - 1 } } :=
  onDev_gives (exec_globalObservation ..) (if_neg fun h => hg h.1)

theorem cacheEnableClear_drops (h : s.dev.rd HIF.CXLSTAT_CACHEEN = 1) :
    exec .cacheEnableClear s = .next { s with dev := (s.dev.wr HIF.CXLSTAT_CACHEEN 0 0).dropAllLines s.time } :=
  onDev_gives (exec_cacheEnableClear ..) (if_pos h)

theorem writeBackInvalidate_drops (h : s.dev.rd HIF.CXLSTAT_CXL = 1) :
    exec .writeBackInvalidate s = .next { s with dev := s.dev.dropAllLines s.time } :=
  onDev_gives (exec_writeBackInvalidate ..) (if_pos h)

end Observations

/-- Settles O36: completions and their timeouts, translations and invalidations, snoops, observations, and the end of caching. -/
theorem hostRequestResults : Obligations.HostRequestResults := by
  intro s l tag r st f1 f2 ecc fn page a line t ring
  exact ⟨fun hn => ⟨completion_unexpected hn, completion_malformedUnexpected hn, timeout_noRead hn⟩,
    fun hr hf hd => ⟨completion_counted hr hf hd, completion_last hr hf hd, completion_fails hr hf hd, completion_malformed hr,
      timeout_fails hr hf hd, timeout_off hr⟩,
    translation_held, onDev_gives (exec_atsInvalidation ..) rfl,
    fun h => ⟨snoop_shares h, snoop_drops h (by decide), snoop_drops h (by decide)⟩, snoop_misses,
    onDev_gives (exec_globalObservation ..) rfl, observation_sends, observation_counts, cacheEnableClear_drops, writeBackInvalidate_drops⟩

end Sys2Proof.Proofs
end

section
/-! Proofs of the statements of 16_rings_dma: doorbells and the rings of other functions, the end of a ring's stop, descriptors, channels and
completions. -/

namespace Sys2Proof.Proofs

open Sys2Proof.Machine Sys2Proof.Laws

/-! # Doorbells (R430, R433) -/

/-! ## What a host write leaves of the rings (15 R398) -/

theorem askTranslation_rng (d : Dev) (f page : Nat) : (d.askTranslation f page).rng = d.rng := by
  unfold Dev.askTranslation
  split <;> rfl

theorem writeReq_rng (d : Dev) (f addr : Nat) (bytes : List Byte) (attr : Nat) : (d.writeReq f addr bytes attr).rng = d.rng := by
  unfold Dev.writeReq
  split
  · exact askTranslation_rng ..
  · rfl

theorem writeReqs_rng (f attr : Nat) (reqs : List (Nat × Nat)) (d : Dev) (bytes : List Byte) : (d.writeReqs f attr bytes reqs).rng = d.rng := by
  induction reqs generalizing d bytes with
  | nil => rfl
  | cons r rs ih => exact (ih _ _).trans (writeReq_rng ..)

theorem hostWrite_rng (d : Dev) (f addr : Nat) (bytes : List Byte) : (d.hostWrite f addr bytes).rng = d.rng := writeReqs_rng ..

/-! ## What the work on a completion ring leaves of every other ring (R441, R445, R446) -/

theorem ring_setRing_other (d : Dev) {kind r k n : Nat} (x : Ring) (h : ringKey k n ≠ ringKey kind r) : (d.setRing kind r x).ring k n = d.ring k n :=
  look_put_other _ _ h

section OtherRing

variable {r k n : Nat} (h : ringKey k n ≠ ringKey kCq r)

include h

theorem ring_writeUnits_other (us : List Nat) (d : Dev) : (d.writeUnits r us).ring k n = d.ring k n := by
  induction us generalizing d with
  | nil => rfl
  | cons u us ih =>
    refine (ih _).trans ((ring_setRing_other _ _ h).trans ?_)
    rw [Dev.ring, hostWrite_rng, Dev.ring]

theorem ring_ringVector_other (d : Dev) : (d.ringVector r).ring k n = d.ring k n := by
  unfold Dev.ringVector
  dsimp only
  split
  · exact ring_setRing_other _ _ h
  · rw [Dev.ring, (vector_frame ..).rng]
    exact ring_setRing_other _ _ h

theorem ring_coalesce_other (d : Dev) : (d.coalesce r).ring k n = d.ring k n := by
  unfold Dev.coalesce
  dsimp only
  split
  · exact ring_ringVector_other h d
  · rfl

theorem ring_placeCpl_other (d : Dev) (c : Completion) : (d.placeCpl r c).ring k n = d.ring k n :=
  (ring_coalesce_other h _).trans ((ring_setRing_other _ _ h).trans (ring_writeUnits_other h _ d))

theorem ring_drainOverflow_other (fuel : Nat) (d : Dev) : (d.drainOverflow r fuel).ring k n = d.ring k n := by
  have placed (d : Dev) (x : Ring) (c : Completion) : ((d.setRing kCq r x).placeCpl r c).ring k n = d.ring k n :=
    (ring_placeCpl_other h _ c).trans (ring_setRing_other _ _ h)
  induction fuel generalizing d with
  | zero => rfl
  | succ fuel ih =>
    unfold Dev.drainOverflow
    dsimp only
    split
    · split
      · exact (ih _).trans (placed ..)
      · rfl
    · split
      · exact (ih _).trans (placed ..)
      · rfl
    · rfl

end OtherRing

/-- A doorbell that takes effect changes the ring that it names, and no other. -/
theorem ring_dbEffect_other (d : Dev) (v : Word) {k n : Nat} (h : ringKey k n ≠ ringKey (dbKind v) (dbRing v)) :
    (d.dbEffect v).ring k n = d.ring k n := by
  unfold Dev.dbEffect
  dsimp only
  split
  next hk =>
    rw [hk] at h
    split
    · exact (ring_coalesce_other h _).trans ((ring_setRing_other _ _ h).trans ((ring_drainOverflow_other h _ _).trans (ring_setRing_other _ _ h)))
    · exact (ring_drainOverflow_other h _ _).trans (ring_setRing_other _ _ h)
  next => exact ring_setRing_other _ _ h

/-! ## A doorbell names a ring of its function (R430) -/

theorem dbRing_lt (v : Word) : dbRing v < 2 ^ 18 := Nat.mod_lt _ (Nat.two_pow_pos 18)

/-- The key of a ring determines its kind and number. -/
theorem ringKey_inj {k n kind r : Nat} (hn : n < 2 ^ 18) (hr : r < 2 ^ 18) (h : ringKey k n = ringKey kind r) : k = kind ∧ n = r := by
  unfold ringKey at h
  omega

theorem owns_of_dbValid {d : Dev} {fn slot : Nat} {v : Word} (h : d.dbValid fn slot v = true) : d.ownsRing fn (dbKind v) (dbRing v) = true := by
  simp only [Dev.dbValid, Bool.and_eq_true] at h
  obtain ⟨⟨⟨⟨⟨⟨⟨_, _⟩, _⟩, howns⟩, _⟩, _⟩, _⟩, _⟩ := h
  exact howns

theorem ring_doorbell_notOwned (d : Dev) (now : NetTime) (fn slot : Nat) (v : Word) {k n : Nat} (hn : n < 2 ^ 18) (h : d.ownsRing fn k n = false) :
    (d.doorbell now fn slot v).ring k n = d.ring k n := by
  unfold Dev.doorbell
  split
  · rw [Dev.ring, (urAnswer_frame ..).rng, Dev.ring]
  · split
    · rw [Dev.ring, (raiseSec_frame ..).rng]
      rfl
    next hvalid =>
      split
      · rfl
      · refine ring_dbEffect_other d v fun hkey => ?_
        obtain ⟨rfl, rfl⟩ := ringKey_inj hn (dbRing_lt v) hkey
        rw [owns_of_dbValid (by simpa using hvalid)] at h
        cases h

/-- The three doorbells are one effect on the device. -/
theorem exec_doorbell {c : Instr} {fn : Fn} {slot : Nat} {v : Word}
    (hc : c ∈ [.submissionTailDoorbell fn slot v, .receiveTailDoorbell fn slot v, .completionHeadDoorbell fn slot v]) (s : State) :
    exec c s = .next { s with dev := s.dev.doorbell s.time fn slot v } := by
  simp only [List.mem_cons, List.not_mem_nil, or_false] at hc
  obtain rfl | rfl | rfl := hc <;> rfl

/-- Settles O59: a doorbell that takes effect names a ring of its function, and changes that ring alone. -/
theorem doorbellIsolation : Obligations.DoorbellIsolation := by
  intro s t fn slot v kind n c hown hc hx
  rw [exec_doorbell hc] at hx
  rw [← Host.Outcome.next.inj hx]
  exact ring_doorbell_notOwned s.dev s.time fn slot v n.isLt hown

/-! # The end of a ring's stop (R434) -/

/-- A device with a STOPPING submission ring 0 that has no entry left, one of whose completions waits in the overflow of its completion ring. -/
def stoppingWithOverflow : Dev :=
  { ({} : Dev) with rng := { ({} : Dev).rng with
      rings := [(ringKey kSub 0, { st := .stopping }), (ringKey kCq 0, { overflow := [{ units := [], key := ringKey kSub 0 }] })] } }

/-- The ring of `stoppingWithOverflow` still waits, so the ring unit does not end its stop. -/
theorem stoppingWithOverflow_stays :
    exec (.disableDone 0 0) { dev := stoppingWithOverflow, time := {} } = .next { dev := stoppingWithOverflow, time := {} } :=
  onDev_gives (exec_disableDone ..) (if_neg (by decide))

/-- Refutes O37: a ring whose completion waits in the overflow of its completion ring stays STOPPING at DISABLE_DONE (R434), though it has
neither an entry nor a completion of the ring unit outstanding, as `stoppingWithOverflow` shows. -/
theorem not_ringResults : ¬ Obligations.RingResults := by
  intro h
  obtain ⟨_, _, _, _, _, _, _, _, _, hdone, _⟩ := h { dev := stoppingWithOverflow, time := {} } 0 0 0 .pf0 0 0 0 0 0 []
  have hx := stoppingWithOverflow_stays.symm.trans (hdone rfl rfl rfl)
  have hst := congrArg (fun s : State => (s.dev.ring kSub 0).st) (Host.Outcome.next.inj hx)
  simp only [Dev.ring, (raise_frame ..).rng] at hst
  revert hst
  decide

end Sys2Proof.Proofs
end

section
/-! Proofs of the statement of 16_rings_dma about descriptors, channels, completions and their timers. -/

namespace Sys2Proof.Proofs

open Sys2Proof.Machine Sys2Proof.Laws

/-! # Completions and their timers (R441, R443 to R446) -/

section Completions

variable {s : State}

theorem completionWrite_posts {r key : Nat} {c : Completion} (h : nextWritable [] s.dev.rng.cpls = some (r, key, c)) :
    exec .completionWrite s = .next { s with
      dev := ({ s.dev with rng := { s.dev.rng with cpls := s.dev.rng.cpls.filter (fun e => decide (e.2.2.tag ≠ c.tag)) } } : Dev).postCpl s.time
        r key c } := by
  refine onDev_gives (exec_completionWrite ..) ?_
  simp only [h]

variable {ring : Fin 131072}

theorem coalesceTimer_sends (ha : (s.dev.ring kCq ring).armed = true) (hs : 0 < (s.dev.ring kCq ring).since)
    (ht : (s.dev.ring kCq ring).firstAt + 1000 * (s.dev.ring kCq ring).cusec ≤ s.dev.eng.tclks) :
    exec (.coalesceTimer ring) s = .next { s with dev := s.dev.ringVector ring } :=
  onDev_gives (exec_coalesceTimer ..) (if_pos ⟨ha, hs, ht⟩)

theorem coalesceTimer_unarmed (ha : (s.dev.ring kCq ring).armed = false) : exec (.coalesceTimer ring) s = .next { s with dev := s.dev } :=
  onDev_gives (exec_coalesceTimer ..) (if_neg fun h => Bool.false_ne_true (ha.symm.trans h.1))

theorem isolationTimer_isolates (he : (s.dev.ring kCq ring).st = .enabled) (ho : (s.dev.ring kCq ring).overflow ≠ [])
    (ht : (s.dev.ring kCq ring).fullAt + 1000000 * s.dev.rd RNG.CFG_ISOLMS ≤ s.dev.eng.tclks) :
    exec (.isolationTimer ring) s = .next { s with dev := s.dev.isolate s.time ring } := by
  refine onDev_gives (exec_isolationTimer ..) (if_pos ?_)
  simp only [he, ht, List.isEmpty_eq_false_iff.2 ho, decide_true, Bool.not_false, Bool.and_true]

variable {t : TxLeft} {ts : List TxLeft} (hl : s.dev.rng.left = t :: ts)

include hl

/-- The entry of a packet that left is no longer at its ring. -/
theorem transmitCompletion_noEntry
    (hn : (({ s.dev with rng := { s.dev.rng with left := ts } } : Dev).ring kSub t.ring).subs.find? (fun e => decide (e.pos = t.pos)) = none) :
    exec .transmitCompletion s = .next { s with dev := { s.dev with rng := { s.dev.rng with left := ts } } } := by
  refine onDev_gives (exec_transmitCompletion ..) ?_
  simp only [hl, hn]

/-- An entry whose completion is not suppressed queues it for the completion ring of its ring. -/
theorem transmitCompletion_queues {e : SubEntry}
    (he : (({ s.dev with rng := { s.dev.rng with left := ts } } : Dev).ring kSub t.ring).subs.find? (fun e => decide (e.pos = t.pos)) = some e)
    (hb : (e.words.getD 0 0).testBit 9 = false) :
    let rest : Dev := { s.dev with rng := { s.dev.rng with left := ts } }
    let done := (rest.ring kSub t.ring).finish t.pos
    exec .transmitCompletion s = .next { s with dev := (rest.setRing kSub t.ring done).queueCpl done.cq (ringKey kSub t.ring) { units :=
      [cplUnit0 2 2 t.status t.ring (done.posField done.head) t.mark, (t.ts.getD (0, 0)).1 + (t.ts.getD (0, 0)).2 * 2 ^ 64 + t.len * 2 ^ 80] } } := by
  refine onDev_gives (exec_transmitCompletion ..) ?_
  simp only [hl, he, hb, Bool.false_and, Bool.false_eq_true, if_false]
  rfl

end Completions

/-! # Channels and descriptors (R448, R449, R455) -/

section Channels

variable {s : State} {g : Fin 4} {ch : Nat}

theorem dmaBurst_serves {crcOk : Bool} (h : s.dev.nextChan g = some ch) :
    exec (.dmaBurst g crcOk) s = .next { s with dev := s.dev.burst s.time g ch crcOk } := by
  refine onDev_gives (exec_dmaBurst ..) ?_
  simp only [h]

theorem descriptorStart_starts {q : Desc} {payload : List Byte} (hq : s.dev.nextDesc g = some q)
    (hc : (List.range 32).find? (fun n => (s.dev.chan g n).desc.isNone && !(s.dev.chan g n).stop) = some ch) :
    exec (.descriptorStart g payload) s = .next { s with
      dev := ({ s.dev with rng := { s.dev.rng with waiting := dropDesc q s.dev.rng.waiting } } : Dev).startDesc g ch q payload } := by
  refine onDev_gives (exec_descriptorStart ..) ?_
  simp only [hq, hc]

end Channels

/-- Settles O38: completions and their timers, the channels, and the descriptors they take. -/
theorem dmaResults : Obligations.DmaResults := by
  intro s ring g c ch crcOk payload r key cpl t ts q e
  exact ⟨completionWrite_posts, coalesceTimer_sends, coalesceTimer_unarmed, isolationTimer_isolates, onDev_gives (exec_channelStop ..) rfl,
    onDev_gives (exec_channelStart ..) rfl, dmaBurst_serves, transmitCompletion_noEntry,
    fun hl he hb => transmitCompletion_queues hl he hb, descriptorStart_starts⟩

end Sys2Proof.Proofs
end

section
/-! Proofs of the statements of 17_virtualization: messages, and the resources of a polder. -/

namespace Sys2Proof.Proofs

open Sys2Proof.Machine Sys2Proof.Laws

/-! # Messages of functions (R466 to R469) -/

section Functions

variable {s : State} {fn : Fn} {wseq : BitVec 16}

/-- A function in reset is told UR, whatever it asks of its mailbox. -/
theorem mailbox_answersUr (h : s.dev.memAnswers fn = false) :
    exec (.send (.fn fn)) s = .next { s with dev := s.dev.urAnswer s.time fn } ∧
      exec (.withdraw (.fn fn) wseq) s = .next { s with dev := s.dev.urAnswer s.time fn } ∧
      exec (.pop (.fn fn)) s = .next { s with dev := s.dev.urAnswer s.time fn } :=
  ⟨onDev_gives (exec_send ..) (if_pos (guard_stops h)), onDev_gives (exec_withdraw ..) (if_pos (guard_stops h)),
    onDev_gives (exec_pop ..) (if_pos (guard_stops h))⟩

variable (ha : s.dev.memAnswers fn = true)

include ha

theorem send_gives {y : Dev} (h : s.dev.sendMsg fn = y) : exec (.send (.fn fn)) s = .next { s with dev := y } :=
  onDev_gives (exec_send ..) ((if_neg (guard_passes ha)).trans h)

theorem withdraw_gives {y : Dev} (h : s.dev.withdrawMsg fn wseq.toNat = y) : exec (.withdraw (.fn fn) wseq) s = .next { s with dev := y } :=
  onDev_gives (exec_withdraw ..) ((if_neg (guard_passes ha)).trans h)

theorem pop_gives {y : Dev} (h : s.dev.popMsg fn = y) : exec (.pop (.fn fn)) s = .next { s with dev := y } :=
  onDev_gives (exec_pop ..) ((if_neg (guard_passes ha)).trans h)

omit ha

section Target

variable {d : Dev} {f seq r code : Nat}

theorem sendMsg_refused (ht : d.txTarget f = .error code) : d.sendMsg f = d.wr MBX.TXSTAT_RESULT f code := by
  simp only [Dev.sendMsg, ht]

theorem withdrawMsg_refused (ht : d.txTarget f = .error code) : d.withdrawMsg f seq = d.wr MBX.TXSTAT_RESULT f code := by
  simp only [Dev.withdrawMsg, ht]

theorem withdrawMsg_takesBack (ht : d.txTarget f = .ok r) : d.withdrawMsg f seq =
    ((d.withdrawFrom f r seq).1.wr MBX.TXSTAT_RESULT f (d.withdrawFrom f r seq).2).showSent f := by
  simp only [Dev.withdrawMsg, ht]

theorem sendMsg_full (ht : d.txTarget f = .ok r) (hp : 16 ≤ d.pendingOn f r) : d.sendMsg f = d.wr MBX.TXSTAT_RESULT f 1 := by
  simp only [Dev.sendMsg, ht, if_pos hp]

theorem sendMsg_queues (ht : d.txTarget f = .ok r) (hp : d.pendingOn f r < 16) : d.sendMsg f =
    ((((d.wr MBX.TXSTAT_RESULT f 0).wr MBX.TXSTAT_SEQ f (look 0 d.mbx.count (chanKey f r) % 65536)).post f r (d.rd MBX.TXENV_SERVICE f)
      ((List.range 8).flatMap (fun j => leBytes 8 (d.rd MBX.TXDATA_DATA (8 * f + j))))).showSent f) := by
  simp only [Dev.sendMsg, ht, if_neg (Nat.not_le.2 hp)]

theorem popMsg_empty (h : d.inboxOf f = []) : d.popMsg f = d := by
  simp only [Dev.popMsg, h]

/-- An answer of the control service is taken without another interrupt where the function asked for none. -/
theorem popMsg_answer {m : Msg} {ms : List Msg} (h : d.inboxOf f = m :: ms) (hm : m.sender = idControl)
    (he : ((d.setInbox f ms).showInbox f).rd MBX.IRQ_EN f = 0) :
    d.popMsg f = ((d.setInbox f ms).showInbox f).refill f (look [] ((d.setInbox f ms).showInbox f).mbx.overflow f).length := by
  have hs : ¬m.sender < 8192 := by rw [hm]; decide
  simp only [Dev.popMsg, h, he, or_true, if_true, if_neg hs]

end Target

end Functions

/-! # The secure channels (R472) -/

section Secure

variable {s : State} {pf : Pf} (ha : s.dev.memAnswers (4096 * pf.val) = true)

include ha

theorem secureSend_wrongService (h : s.dev.rd MBX.STXENV_SERVICE (4096 * pf.val) ≠ 8) :
    exec (.secureSend pf) s = .next { s with dev := s.dev.wr MBX.STXSTAT_RESULT (4096 * pf.val) 7 } :=
  onDev_gives (exec_secureSend ..) ((if_neg (guard_passes ha)).trans (if_pos h))

theorem secureSend_full (h : s.dev.rd MBX.STXENV_SERVICE (4096 * pf.val) = 8) (hp : 16 ≤ s.dev.pendingOn (4096 * pf.val) idKeys) :
    exec (.secureSend pf) s = .next { s with dev := s.dev.wr MBX.STXSTAT_RESULT (4096 * pf.val) 1 } :=
  onDev_gives (exec_secureSend ..) (((if_neg (guard_passes ha)).trans (if_neg (not_not_intro h))).trans (if_pos hp))

theorem secureSend_queues (h : s.dev.rd MBX.STXENV_SERVICE (4096 * pf.val) = 8) (hp : s.dev.pendingOn (4096 * pf.val) idKeys < 16) :
    let own := 4096 * pf.val
    exec (.secureSend pf) s = .next { s with
      dev := ((s.dev.wr MBX.STXSTAT_RESULT own 0).wr MBX.STXSTAT_SEQ own (look 0 s.dev.mbx.count (chanKey own idKeys) % 65536)).post own idKeys 8
        ((List.range 8).flatMap (fun j => leBytes 8 (s.dev.rd MBX.STXDATA_DATA (8 * own + j)))) } :=
  onDev_gives (exec_secureSend ..) (((if_neg (guard_passes ha)).trans (if_neg (not_not_intro h))).trans (if_neg (Nat.not_le.2 hp)))

theorem secureWithdraw_takesBack {wseq : BitVec 16} :
    let back := s.dev.withdrawFrom (4096 * pf.val) idKeys wseq.toNat
    exec (.secureWithdraw pf wseq) s = .next { s with dev := back.1.wr MBX.STXSTAT_RESULT (4096 * pf.val) back.2 } :=
  onDev_gives (exec_secureWithdraw ..) (if_neg (guard_passes ha))

theorem securePop_takes {m : Msg} {ms : List Msg} (h : s.dev.inboxOf (8196 + pf.val) = m :: ms) :
    exec (.securePop pf) s = .next { s with dev := (s.dev.setInbox (8196 + pf.val) ms).showSecure pf } := by
  refine onDev_gives (exec_securePop ..) ((if_neg (guard_passes ha)).trans ?_)
  simp only [h]

theorem securePop_empty (h : s.dev.inboxOf (8196 + pf.val) = []) : exec (.securePop pf) s = .next { s with dev := s.dev } := by
  refine onDev_gives (exec_securePop ..) ((if_neg (guard_passes ha)).trans ?_)
  simp only [h]

end Secure

/-! # The channels between the control cores and the management controller (R473) -/

section ControlManagement

variable {d : Dev} {who : Nat} (ha : d.cmActs who = true)

include ha

theorem cmSend_full {svc : Nat} {body : List Byte} (hs : svc ≠ 8) (hp : 16 ≤ d.pendingOn who (cmPeer who)) :
    d.cmSend who svc body = d.cmResult who (1, 0) :=
  (if_neg (guard_passes ha)).trans ((if_neg hs).trans (if_pos hp))

theorem cmSend_queues {svc : Nat} {body : List Byte} (hs : svc ≠ 8) (hp : d.pendingOn who (cmPeer who) < 16) :
    d.cmSend who svc body =
      ((d.cmResult who (0, look 0 d.mbx.count (chanKey who (cmPeer who)) % 65536)).post who (cmPeer who) svc body).showCm :=
  (if_neg (guard_passes ha)).trans ((if_neg hs).trans (if_neg (Nat.not_le.2 hp)))

theorem cmPop_takes {m : Msg} {ms : List Msg} (h : d.inboxOf who = m :: ms) : d.cmPop who = (d.setInbox who ms).showCm :=
  (if_neg (guard_passes ha)).trans (congrArg (fun l : List Msg => (d.setInbox who l.tail).showCm) h)

theorem cmWithdraw_takesBack {seq : Nat} : d.cmWithdraw who seq =
    ((d.withdrawFrom who (cmPeer who) seq).1.cmResult who ((d.withdrawFrom who (cmPeer who) seq).2, seq)).showCm :=
  if_neg (guard_passes ha)

end ControlManagement

/-- A service number of a byte other than the secure one. -/
theorem service_open {svc : Byte} (h : svc ≠ 8) : svc.toNat ≠ 8 := fun he => h (BitVec.eq_of_toNat_eq he)

/-! # The control service (R470) -/

section ControlService

variable {s : State}

theorem pickup_nothing (h : s.dev.inboxOf idControl = []) : exec .controlServicePickup s = .next { s with dev := s.dev } := by
  refine onDev_gives (exec_controlServicePickup ..) ?_
  simp only [h, List.map_nil, List.filter_nil, List.foldl_nil, Option.or_none]

/-- The only request is picked up, whichever function the rotating order favours. -/
theorem pickup_only {m : Msg} (h : s.dev.inboxOf idControl = [m]) (hr : s.dev.pickupRoom m.sender = true) (hs : s.dev.serving = true) :
    let empty := s.dev.setInbox idControl []
    exec .controlServicePickup s = .next { s with
      dev := ({ empty with mbx := { empty.mbx with work := s.dev.mbx.work ++ [m], rot := m.sender + 1 } } : Dev).showSent m.sender } := by
  refine onDev_gives (exec_controlServicePickup ..) ?_
  by_cases hm : s.dev.mbx.rot ≤ m.sender
  · simp [h, hr, hs, hm]
  · simp [h, hr, hs, hm]

end ControlService

/-- Settles O39: SEND, WITHDRAW and POP of a function, of the secure channels, of the channels between control cores and manager, and
the control service's pickup. -/
theorem mailboxResults : Obligations.MailboxResults := by
  intro s fn wseq pf r code m ms
  exact ⟨mailbox_answersUr, fun ha => ⟨fun ht => ⟨send_gives ha (sendMsg_refused ht), withdraw_gives ha (withdrawMsg_refused ht)⟩,
      fun ht => ⟨fun hp => send_gives ha (sendMsg_full ht hp), fun hp => send_gives ha (sendMsg_queues ht hp),
        withdraw_gives ha (withdrawMsg_takesBack ht)⟩,
      fun he => pop_gives ha (popMsg_empty he), fun he hm hq => pop_gives ha (popMsg_answer he hm hq)⟩,
    fun ha => ⟨secureSend_wrongService ha, secureSend_full ha, secureSend_queues ha, secureWithdraw_takesBack ha, securePop_takes ha,
      securePop_empty ha⟩,
    fun svc text => ⟨fun ha hs hp => onDev_gives (exec_send ..) (cmSend_queues ha (service_open hs) hp),
      fun ha hs hp => onDev_gives (exec_send ..) (cmSend_full ha (service_open hs) hp),
      fun ha hs hp => onDev_gives (exec_send ..) (cmSend_queues ha (service_open hs) hp),
      fun ha hs hp => onDev_gives (exec_send ..) (cmSend_full ha (service_open hs) hp)⟩,
    fun ha h => onDev_gives (exec_pop ..) (cmPop_takes ha h),
    fun ha => ⟨fun h => onDev_gives (exec_pop ..) (cmPop_takes ha h), onDev_gives (exec_withdraw ..) (cmWithdraw_takesBack ha)⟩,
    pickup_nothing, pickup_only⟩

end Sys2Proof.Proofs
end

section
/-! Proof of the statement of 17_virtualization about the resources of a polder. -/

namespace Sys2Proof.Proofs

open Sys2Proof.Machine Sys2Proof.Laws

/-! # How a request is answered (R459, R462) -/

section Answers

variable {d : Dev} {now : NetTime} {fn code target res : Nat}

theorem resAnswer_refuses (h : res ≠ 0) : d.resAnswer now fn code target res =
    (((d.bump VIR.REFUSED_COUNT).wr VIR.REFUSED_LAST 0 res).raise now (ev 2 2) (res + code * 256) (some fn)).answer fn 3 (leBytes 1 res) := by
  simp only [Dev.resAnswer, if_neg h]

theorem resAnswer_commits (h : code ≠ 3) : d.resAnswer now fn code target 0 =
    ((d.commit [(3, target)]).raise now (ev 2 1) (code * 256) (some target)).answer fn 3 (leBytes 1 0) := by
  simp only [Dev.resAnswer, if_true, if_neg h]

theorem resAnswer_query : d.resAnswer now fn 3 target 0 = d.answer fn 3 (leBytes 1 0) := by
  simp only [Dev.resAnswer, if_true]

variable {i : Instr} {s : State}

/-- A request that is refused names its code and raises EVT 2.2. -/
theorem refuses (hx : exec i s = .next { s with dev := d.resAnswer now fn code target res }) (h : res ≠ 0) : exec i s = .next { s with
    dev := (((d.bump VIR.REFUSED_COUNT).wr VIR.REFUSED_LAST 0 res).raise now (ev 2 2) (res + code * 256) (some fn)).answer fn 3 (leBytes 1 res) } := by
  rw [hx, resAnswer_refuses h]

/-- A request that changed a polder's record commits it and raises EVT 2.1. -/
theorem commits (hx : exec i s = .next { s with dev := d.resAnswer now fn code target 0 }) (h : code ≠ 3) : exec i s = .next { s with
    dev := ((d.commit [(3, target)]).raise now (ev 2 1) (code * 256) (some target)).answer fn 3 (leBytes 1 0) } := by
  rw [hx, resAnswer_commits h]

end Answers

section Requests

variable {s : State} {fn : Fn} {body : List Byte} (hr : s.dev.answerRoom fn = true)

include hr

/-! # GRANT (R459, R461) -/

section Grant

theorem grant_refused (h : s.dev.resTarget fn body 1 (readGrant body).target grantBytes ≠ 0) :
    exec (.grant fn body) s = .next { s with
      dev := s.dev.resAnswer s.time fn 1 (readGrant body).target (s.dev.resTarget fn body 1 (readGrant body).target grantBytes) } :=
  onDev_gives (exec_grant ..) ((if_neg (guard_passes hr)).trans (if_pos h))

variable (ht : s.dev.resTarget fn body 1 (readGrant body).target grantBytes = 0)

include ht

theorem grant_badFormat (h : 2 ^ 20 ≤ (readGrant body).pasid ∨ leAt body 56 4 % 2 ^ 31 / 2 ^ 17 ≠ 0) :
    exec (.grant fn body) s = .next { s with dev := s.dev.resAnswer s.time fn 1 (readGrant body).target resFormat } :=
  onDev_gives (exec_grant ..) ((if_neg (guard_passes hr)).trans ((if_neg (not_not_intro ht)).trans (if_pos h)))

variable (hp : (readGrant body).pasid < 2 ^ 20) (hq : leAt body 56 4 % 2 ^ 31 / 2 ^ 17 = 0)

include hp hq

/-- A GRANT of the right format is judged by its range, and by what the polder still uses. -/
theorem grant_judged : exec (.grant fn body) s = .next { s with
    dev :=
      if !s.dev.grantRange (readGrant body) then s.dev.resAnswer s.time fn 1 (readGrant body).target resRange
      else if s.dev.grantBusy (readGrant body) then s.dev.resAnswer s.time fn 1 (readGrant body).target resBusy
      else (s.dev.writeGrant (readGrant body)).resAnswer s.time fn 1 (readGrant body).target 0 } :=
  onDev_gives (exec_grant ..) ((if_neg (guard_passes hr)).trans ((if_neg (not_not_intro ht)).trans
    (if_neg (not_or.2 ⟨Nat.not_le.2 hp, not_not_intro hq⟩))))

theorem grant_badRange (h : s.dev.grantRange (readGrant body) = false) :
    exec (.grant fn body) s = .next { s with dev := s.dev.resAnswer s.time fn 1 (readGrant body).target resRange } :=
  answers_of_pos (grant_judged hr ht hp hq) (guard_stops h)

variable (hg : s.dev.grantRange (readGrant body) = true)

include hg

theorem grant_busy (h : s.dev.grantBusy (readGrant body) = true) :
    exec (.grant fn body) s = .next { s with dev := s.dev.resAnswer s.time fn 1 (readGrant body).target resBusy } :=
  answers_of_pos (answers_of_neg (grant_judged hr ht hp hq) (guard_passes hg)) h

theorem grant_commits (h : s.dev.grantBusy (readGrant body) = false) : exec (.grant fn body) s = .next { s with
    dev := (s.dev.writeGrant (readGrant body)).resAnswer s.time fn 1 (readGrant body).target 0 } :=
  answers_of_neg (answers_of_neg (grant_judged hr ht hp hq) (guard_passes hg)) (Bool.eq_false_iff.1 h)

end Grant

/-! # LIMITS (R460, R462) -/

section Limits

theorem limits_refused (h : s.dev.resTarget fn body 2 (leAt body 2 2) limitsBytes ≠ 0) : exec (.limits fn body) s = .next { s with
    dev := s.dev.resAnswer s.time fn 2 (leAt body 2 2) (s.dev.resTarget fn body 2 (leAt body 2 2) limitsBytes) } :=
  onDev_gives (exec_limits ..) ((if_neg (guard_passes hr)).trans (if_pos h))

variable (ht : s.dev.resTarget fn body 2 (leAt body 2 2) limitsBytes = 0)

include ht

theorem limits_badWeight (h : leAt body 16 2 = 0 ∨ 4095 < leAt body 16 2) :
    exec (.limits fn body) s = .next { s with dev := s.dev.resAnswer s.time fn 2 (leAt body 2 2) resFormat } :=
  onDev_gives (exec_limits ..) ((if_neg (guard_passes hr)).trans ((if_neg (not_not_intro ht)).trans (if_pos h)))

variable (hl : 1 ≤ leAt body 16 2) (hu : leAt body 16 2 ≤ 4095)

include hl hu

/-- LIMITS of a weight in its range is judged by the contracts that the polder holds. -/
theorem limits_judged : exec (.limits fn body) s = .next { s with
    dev :=
      let p := leAt body 2 2
      let rate := leAt body 24 8
      let count := leAt body 32 2
      if (rate ≠ 0 ∧ rate < s.dev.rd VIR.PCRUSE_RATE p) ∨ (count ≠ 0 ∧ count < s.dev.rd VIR.PUSE_CONTRACTS p) then
        s.dev.resAnswer s.time fn 2 p resLimit
      else (((((s.dev.wr VIR.PPEAK_RATE p (leAt body 8 8)).wr VIR.PCTL_WEIGHT p (leAt body 16 2)).wr VIR.PCRLIM_RATE p rate).wr VIR.PCTL_CNLIM p
        count).writeL2 p (leAt body 8 8) (leAt body 16 2)).resAnswer s.time fn 2 p 0 } :=
  onDev_gives (exec_limits ..) ((if_neg (guard_passes hr)).trans ((if_neg (not_not_intro ht)).trans
    (if_neg (by omega))))

theorem limits_belowUse (h : (leAt body 24 8 ≠ 0 ∧ leAt body 24 8 < s.dev.rd VIR.PCRUSE_RATE (leAt body 2 2)) ∨
      (leAt body 32 2 ≠ 0 ∧ leAt body 32 2 < s.dev.rd VIR.PUSE_CONTRACTS (leAt body 2 2))) :
    exec (.limits fn body) s = .next { s with dev := s.dev.resAnswer s.time fn 2 (leAt body 2 2) resLimit } :=
  answers_of_pos (limits_judged hr ht hl hu) h

theorem limits_commits (hc : leAt body 24 8 = 0 ∨ s.dev.rd VIR.PCRUSE_RATE (leAt body 2 2) ≤ leAt body 24 8)
    (hn : leAt body 32 2 = 0 ∨ s.dev.rd VIR.PUSE_CONTRACTS (leAt body 2 2) ≤ leAt body 32 2) :
    exec (.limits fn body) s = .next { s with
      dev := (((((s.dev.wr VIR.PPEAK_RATE (leAt body 2 2) (leAt body 8 8)).wr VIR.PCTL_WEIGHT (leAt body 2 2) (leAt body 16 2)).wr VIR.PCRLIM_RATE
        (leAt body 2 2) (leAt body 24 8)).wr VIR.PCTL_CNLIM (leAt body 2 2) (leAt body 32 2)).writeL2 (leAt body 2 2) (leAt body 8 8)
        (leAt body 16 2)).resAnswer s.time fn 2 (leAt body 2 2) 0 } :=
  answers_of_neg (limits_judged hr ht hl hu) (by omega)

end Limits

/-! # QUERY (R460) -/

theorem query_refused (h : s.dev.resTarget fn body 3 (leAt body 2 2) queryBytes ≠ 0) : exec (.resourcesQuery fn body) s = .next { s with
    dev := s.dev.resAnswer s.time fn 3 (leAt body 2 2) (s.dev.resTarget fn body 3 (leAt body 2 2) queryBytes) } :=
  onDev_gives (exec_resourcesQuery ..) ((if_neg (guard_passes hr)).trans (if_pos h))

theorem query_answers (ht : s.dev.resTarget fn body 3 (leAt body 2 2) queryBytes = 0) : exec (.resourcesQuery fn body) s = .next { s with
    dev := (s.dev.hostWrite fn (leAt body 8 8) ((s.dev.polderWords (leAt body 2 2)).flatMap (leBytes 8))).answer fn 3 (leBytes 1 0) } :=
  onDev_gives (exec_resourcesQuery ..) (((if_neg (guard_passes hr)).trans (if_neg (not_not_intro ht))).trans resAnswer_query)

end Requests

/-- Settles O40: GRANT, LIMITS and QUERY, each refused with its code or answered. -/
theorem resourceResults : Obligations.ResourceResults := by
  intro s fn body hr
  exact ⟨fun h => refuses (grant_refused hr h) h, fun ht h => refuses (grant_badFormat hr ht h) (by decide),
    fun ht hp hq => ⟨fun h => refuses (grant_badRange hr ht hp hq h) (by decide), fun hg h => refuses (grant_busy hr ht hp hq hg h) (by decide),
      fun hg h => commits (grant_commits hr ht hp hq hg h) (by decide)⟩,
    fun h => refuses (limits_refused hr h) h,
    fun ht => ⟨fun h => refuses (limits_badWeight hr ht h) (by decide),
      fun hl hu => ⟨fun hn hc => refuses (limits_belowUse hr ht hl hu (.inl ⟨hn, hc⟩)) (by decide),
        fun hn hc => refuses (limits_belowUse hr ht hl hu (.inr ⟨hn, hc⟩)) (by decide),
        fun hc hn => commits (limits_commits hr ht hl hu hc hn) (by decide)⟩⟩,
    fun h => refuses (query_refused hr h) h, query_answers hr⟩

end Sys2Proof.Proofs
end

section
/-! Proof of the statement of 18_safety about what the Dikewarden detects. -/

namespace Sys2Proof.Proofs

open Sys2Proof.Machine Sys2Proof.Laws

/-! # The Dikewarden pairs and the reaction block (R479, SM 3, SM 4) -/

section Pairs

variable {s : State} {pair : Fin 2}

/-- The register of a pair, chosen by the pair or by its number. -/
theorem pairField_eq (pair : Fin 2) :
    (if pair.val = 0 then DKW.STATUS_PAIRA else DKW.STATUS_PAIRB) = if pair = 0 then DKW.STATUS_PAIRA else DKW.STATUS_PAIRB := by
  simp only [Fin.val_eq_zero_iff]

theorem pairCheck_signals (h : s.dev.rd (if pair = 0 then DKW.STATUS_PAIRA else DKW.STATUS_PAIRB) ≠ 1) :
    exec (.pairCheck pair true) s = .next { s with dev := { s.dev with dkw := { s.dev.dkw with signalAt := s.dev.eng.tclks } } } := by
  rw [← pairField_eq] at h
  exact onDev_gives (exec_pairCheck ..) (if_neg h)

/-- A pair that has stopped neither signals nor stops again. -/
theorem pairCheck_stopped (h : s.dev.rd (if pair = 0 then DKW.STATUS_PAIRA else DKW.STATUS_PAIRB) = 1) :
    exec (.pairCheck pair true) s = .next { s with dev := s.dev } ∧ exec (.pairCheck pair false) s = .next { s with dev := s.dev } := by
  rw [← pairField_eq] at h
  exact ⟨onDev_gives (exec_pairCheck ..) (if_pos h), onDev_gives (exec_pairCheck ..) (if_pos h)⟩

theorem pairStops_first {d : Dev} {now : NetTime} {f : Fld} (hf : d.rd f = 0) (ha : d.rd DKW.STATUS_PAIRA = 0) (hb : d.rd DKW.STATUS_PAIRB = 0) :
    d.pairStops now f = ((d.wr f 0 1).wr DKW.STATUS_DEGRADED 0 1).raise now (ev 0 2) := by
  simp [Dev.pairStops, hf, ha, hb]

/-- The other pair has stopped before: the second fault is told. -/
theorem pairStops_second {d : Dev} {now : NetTime} {f : Fld} (hf : d.rd f = 0) (hb : d.rd DKW.STATUS_PAIRB = 1) :
    d.pairStops now f = ((((d.wr f 0 1).wr DKW.STATUS_DEGRADED 0 1).raise now (ev 0 2)).wr DKW.STATUS_SECOND 0 1).routeEvent now (ev 0 23) 3 none := by
  simp [Dev.pairStops, hf, hb]

theorem reactionDeadline_early (h : s.dev.eng.tclks < s.dev.dkw.signalAt + 122071) : exec .reactionDeadline s = .next { s with dev := s.dev } :=
  onDev_gives (exec_reactionDeadline ..) (if_pos h)

theorem reactionDeadline_safe (h : s.dev.devSafe = true) : exec .reactionDeadline s = .next { s with dev := s.dev } :=
  onDev_gives (exec_reactionDeadline ..) ((ite_congr rfl (fun _ => rfl) (fun _ => if_pos h)).trans (ite_self _))

theorem reactionDeadline_acts (h : s.dev.devSafe = false) (ht : s.dev.dkw.signalAt + 122071 ≤ s.dev.eng.tclks) :
    exec .reactionDeadline s = .next { s with dev := (s.dev.detected s.time 4 (ev 0 19) 4).safeDevice s.time (4, 4) } :=
  onDev_gives (exec_reactionDeadline ..) ((if_neg (Nat.not_lt.2 ht)).trans (if_neg (Bool.eq_false_iff.1 h)))

end Pairs

/-! # Control cores (SM 1, SM 11) -/

section Cores

variable {s : State} {core : Fin 12}

theorem coreReturn_stays : exec (.controlCoreReturn core false) s = .next { s with dev := s.dev } :=
  onDev_gives (exec_controlCoreReturn ..) (if_neg (by rw [Bool.and_false]; exact Bool.false_ne_true))

theorem coreReturn_runs (h : s.dev.dkw.coresOut.contains core.val = true) : exec (.controlCoreReturn core true) s = .next { s with
    dev := ((({ s.dev with dkw := { s.dev.dkw with coresOut := s.dev.dkw.coresOut.filter (· ≠ core.val) } } : Dev).repaired 1 core).repaired 11
      core).setCtx (1536 + core.val) { st := .run } } :=
  onDev_gives (exec_controlCoreReturn ..) (if_pos (by rw [h]; rfl))

end Cores

/-! # Clock domains (SM 12) -/

section Clocks

variable {d : Dev} {now : NetTime} {dom : Nat}

theorem clockFault_device (h : dom < 7 ∨ dom = 13) : d.clockFault now dom = (d.raise now (ev 0 6) dom).safeDevice now (12, dom) :=
  (if_neg (by omega)).trans (if_neg (by omega))

theorem clockFault_link (h : dom = 7 ∨ dom = 8) : d.clockFault now dom =
    ((d.raise now (ev 0 6) dom).linkPolders (dom - 7)).foldl (fun y p => y.safePolder now (12, dom) p) (d.raise now (ev 0 6) dom) :=
  (if_neg (by omega)).trans (if_pos h)

theorem clockFault_lanes (hl : 9 ≤ dom) (hu : dom ≤ 12) : d.clockFault now dom =
    (List.range 4).foldl (fun y i => y.safePort now (12, dom) (4 * (dom - 9) + i)) (d.raise now (ev 0 6) dom) :=
  if_pos ⟨hl, hu⟩

theorem clockMonitor_stops {s : State} {dom : Fin 14} {y : Dev} (h : s.dev.dkw.present.contains (12, dom.val) = false)
    (hy : ((s.dev.wrBit CLK.STATUS_LOCK 0 dom false).setPresent 12 dom true).clockFault s.time dom = y) :
    exec (.clockMonitor dom false) s = .next { s with dev := y } :=
  onDev_gives (exec_clockMonitor ..) ((if_neg Bool.false_ne_true).trans ((if_neg (Bool.eq_false_iff.1 h)).trans hy))

end Clocks

/-! # Gate comparator and supplies (SM 8, SM 13) -/

section Supplies

variable {s : State}

theorem gateComparator_stops {port : Fin 16} (h : s.dev.dkw.present.contains (8, port.val) = false) :
    exec (.gateComparator port false) s = .next { s with
      dev := ((s.dev.setPresent 8 port true).raise s.time (ev 0 4) port).safePort s.time (8, port.val) port } :=
  onDev_gives (exec_gateComparator ..) ((if_neg Bool.false_ne_true).trans (if_neg (Bool.eq_false_iff.1 h)))

theorem supplyMonitor_stops {rail : Fin 9} (h : s.dev.dkw.present.contains (13, rail.val) = false) :
    exec (.supplyMonitor rail false) s = .next { s with
      dev := ((s.dev.setPresent 13 rail true).raise s.time (ev 0 7) rail).safeDevice s.time (13, rail.val) } :=
  onDev_gives (exec_supplyMonitor ..) ((if_neg Bool.false_ne_true).trans (if_neg (Bool.eq_false_iff.1 h)))

end Supplies

/-! # Temperature (R558, R559; SM 14) -/

section Temperature

/-- The warning threshold lies below the critical one. -/
theorem warning_le_critical (d : Dev) : d.thresholds.1 ≤ d.thresholds.2.1 := by
  unfold Dev.thresholds
  split <;> decide

/-- A sample as the sensor takes it: when the end threshold was last reached. -/
def heatNoted (d : Dev) (temp : Int) : Dev :=
  if d.thresholds.2.2 ≤ temp then { d with dkw := { d.dkw with hotAt := d.eng.tclks } } else d

variable {s : State} {sensor : Fin 16} {temp : Int}

/-- Below the critical threshold the warning starts throttling, and no cause of SM 14 remains. -/
theorem temperature_throttles (hw : s.dev.thresholds.1 ≤ temp) (hc : temp < s.dev.thresholds.2.1)
    (ht : ((heatNoted s.dev temp).raise s.time (ev 1 5) sensor).dkw.throttled = false) :
    let hot := (((((heatNoted s.dev temp).raise s.time (ev 1 5) sensor).setThrottle true).raise s.time (ev 1 6)).revalidate 3)
    exec (.temperatureSample sensor temp) s = .next { s with
      dev := { hot with dkw := { hot.dkw with present := hot.dkw.present.filter (fun c => decide (c.1 ≠ 14)) } } } := by
  unfold heatNoted at ht ⊢
  refine onDev_gives (exec_temperatureSample ..) ?_
  simp only [hw, hc, if_true, ht, Bool.not_false, and_self]

/-- At the critical threshold the device is placed in its safe state, once. -/
theorem temperature_stops (hc : s.dev.thresholds.2.1 ≤ temp)
    (ht : ((heatNoted s.dev temp).raise s.time (ev 1 5) sensor).dkw.throttled = true)
    (hn : ∀ c ∈ ((heatNoted s.dev temp).raise s.time (ev 1 5) sensor).dkw.present, c.1 ≠ 14) :
    exec (.temperatureSample sensor temp) s = .next { s with
      dev := (((((heatNoted s.dev temp).raise s.time (ev 1 5) sensor).setPresent 14 sensor true).raise s.time (ev 0 8) sensor).safeDevice s.time
        (14, sensor)) } := by
  have hw := (warning_le_critical s.dev).trans hc
  have hp := List.any_eq_false.2 fun c hm => decide_eq_true_iff.not.2 (hn c hm)
  unfold heatNoted at ht hp ⊢
  refine onDev_gives (exec_temperatureSample ..) ?_
  simp only [hw, if_true, ht, Bool.not_true, Bool.false_eq_true, and_false, if_false, if_neg (Int.not_lt.2 hc), hp]

theorem throttleEnd_early (h : s.dev.eng.tclks < s.dev.dkw.hotAt + 10000000) : exec .throttleEnd s = .next { s with dev := s.dev } :=
  onDev_gives (exec_throttleEnd ..) (if_neg (by rw [decide_eq_false (Nat.not_le.2 h), Bool.and_false]; exact Bool.false_ne_true))

theorem throttleEnd_idle (h : s.dev.dkw.throttled = false) : exec .throttleEnd s = .next { s with dev := s.dev } :=
  onDev_gives (exec_throttleEnd ..) (if_neg (by rw [h, Bool.false_and]; exact Bool.false_ne_true))

theorem throttleEnd_ends (h : s.dev.dkw.throttled = true) (ht : s.dev.dkw.hotAt + 10000000 ≤ s.dev.eng.tclks) :
    exec .throttleEnd s = .next { s with dev := ((s.dev.setThrottle false).raise s.time (ev 1 7)).revalidate 3 } :=
  onDev_gives (exec_throttleEnd ..) (if_pos (by rw [h, decide_eq_true ht]; rfl))

end Temperature

/-- Settles O41: the pairs, the cores, the management controller, gates, clocks, supplies and temperature. -/
theorem detectionResults : Obligations.DetectionResults := by
  intro s core port dom rail sensor temp pair
  refine ⟨pairCheck_signals, pairCheck_stopped, fun ha hb => onDev_gives (exec_pairCheck ..) (pairStops_first ha ha hb),
    fun ha hb => onDev_gives (exec_pairCheck ..) (pairStops_second ha hb), reactionDeadline_safe, reactionDeadline_early, reactionDeadline_acts,
    fun h => ⟨onDev_gives (exec_lockstepMismatch ..) (if_pos h), onDev_gives (exec_controlHeartbeatMiss ..) (if_pos h), coreReturn_stays,
      coreReturn_runs h⟩,
    fun h => ⟨onDev_gives (exec_lockstepMismatch ..) (if_neg (Bool.eq_false_iff.1 h)),
      onDev_gives (exec_controlHeartbeatMiss ..) (if_neg (Bool.eq_false_iff.1 h))⟩,
    fun h => onDev_gives (exec_mgtLockstepMismatch ..) (if_pos h), fun _ => onDev_gives (exec_mgtLockstepMismatch ..) rfl,
    onDev_gives (exec_gateComparator ..) (if_pos rfl), gateComparator_stops, onDev_gives (exec_clockMonitor ..) (if_pos rfl),
    fun h => ⟨fun hd => clockMonitor_stops h (clockFault_device hd), fun hd => clockMonitor_stops h (clockFault_link hd),
      fun hl hu => clockMonitor_stops h (clockFault_lanes hl hu)⟩,
    onDev_gives (exec_supplyMonitor ..) (if_pos rfl), supplyMonitor_stops, onDev_gives (exec_supplyNearLimit ..) rfl,
    fun hw hc _ ht => temperature_throttles hw hc ht, temperature_stops, fun _ ht => throttleEnd_early ht, throttleEnd_ends, throttleEnd_idle⟩

end Sys2Proof.Proofs
end

section
/-! Proofs of the statements of 18_safety and 19_clocks_reset about the triple store, the ends of safe states, the event unit, references and
trims. -/

namespace Sys2Proof.Proofs

open Sys2Proof.Machine Sys2Proof.Laws

/-! # The triple store (R489, R490) -/

section TripleStore

variable {d : Dev} {now : NetTime} {kind inst : Nat} {vs : List Nat}

theorem readObject_agrees : d.readObject now kind inst .intact .intact .intact = d := by
  simp only [Dev.readObject, copyContent, and_self, if_true]

/-- Two copies outvote a third that holds another content. -/
theorem readObject_outvotes (h : vs ≠ d.objContent kind inst) : d.readObject now kind inst .intact .intact (.holds vs) =
    ((({ d with dkw := { d.dkw with objs := put none d.dkw.objs (objKey kind inst) (some (d.objContent kind inst)) } } : Dev).bump
      DKW.TSTAT_REPAIRS).raise now (ev 0 10) (objInfo kind inst) (objPolder kind inst)) := by
  simp only [Dev.readObject, copyContent, true_and, if_neg (Ne.symm h), true_or, if_true]

theorem readObject_repairsEcc : d.readObject now kind inst .intact .eccFails .intact =
    ((({ d with dkw := { d.dkw with objs := put none d.dkw.objs (objKey kind inst) (some (d.objContent kind inst)) } } : Dev).bump
      DKW.TSTAT_REPAIRS).raise now (ev 0 10) (objInfo kind inst) (objPolder kind inst)) := by
  simp only [Dev.readObject, copyContent, if_true]

end TripleStore

/-! # PSCLR and POLCLR (R484) -/

section Releases

variable {s : State}

section Ports

variable {ports : BitVec 16} (hn : (List.range 16).filter (fun n => ports.getLsbD n && s.dev.portSafe n) ≠ [])

include hn

/-- A device-wide safe state holds its ports. -/
theorem psclr_held (hd : s.dev.devSafe = true) :
    exec (.psclr 0 ports) s = .next { s with dev := s.dev.refuseRelease s.time s.dev.dkw.devCause.1 } :=
  onDev_gives (exec_psclr ..) ((if_neg (not_or.2 ⟨not_not_intro rfl, hn⟩)).trans (if_pos hd))

theorem psclr_releases (hd : s.dev.devSafe = false)
    (hc : ((List.range 16).filter (fun n => ports.getLsbD n && s.dev.portSafe n)).find?
      (fun n => s.dev.causeStands (look (0, 0) s.dev.dkw.portCause n)) = none) :
    let ns := (List.range 16).filter (fun n => ports.getLsbD n && s.dev.portSafe n)
    exec (.psclr 0 ports) s = .next { s with
      dev := (ns.foldl (fun y n => y.freePort s.time n) s.dev).released s.time ((ns.map (fun n => 2 ^ (n + 4))).sum) none } := by
  refine onDev_gives (exec_psclr ..) (((if_neg (not_or.2 ⟨not_not_intro rfl, hn⟩)).trans (if_neg (Bool.eq_false_iff.1 hd))).trans ?_)
  simp only [hc]

end Ports

section Polders

variable {pf : Pf} {polder : Fn}

theorem polclr_notSafe (h : s.dev.polSafe polder = false) : exec (.polclr pf polder) s = .next { s with dev := s.dev } :=
  onDev_gives (exec_polclr ..) (if_pos (.inr (guard_stops h)))

variable (hf : pfOf polder = pf.val) (hs : s.dev.polSafe polder = true) (hd : s.dev.devSafe = false)

include hf hs hd

theorem polclr_refused (hc : s.dev.causeStands (look (0, 0) s.dev.dkw.polCause polder) = true) :
    exec (.polclr pf polder) s = .next { s with dev := s.dev.refuseRelease s.time (look (0, 0) s.dev.dkw.polCause polder).1 } :=
  onDev_gives (exec_polclr ..)
    (((if_neg (not_or.2 ⟨not_not_intro hf, guard_passes hs⟩)).trans (if_neg (Bool.eq_false_iff.1 hd))).trans (if_pos hc))

/-- A polder leaves its safe state while another stays in one of the same cause. -/
theorem polclr_releases (hc : s.dev.causeStands (look (0, 0) s.dev.dkw.polCause polder) = false) :
    let ended := s.dev.wrBit DKW.POLSAFE_MAP (polder / 64) (polder % 64) false
    let freed : Dev := { ended with dkw := { ended.dkw with polCause := put (0, 0) s.dev.dkw.polCause polder (0, 0) } }
    freed.dkw.polCause.any (fun e => decide (e.2 = look (0, 0) s.dev.dkw.polCause polder)) = true →
      exec (.polclr pf polder) s = .next { s with dev := freed.released s.time 1 (some polder.val) } := fun ho =>
  onDev_gives (exec_polclr ..)
    (((if_neg (not_or.2 ⟨not_not_intro hf, guard_passes hs⟩)).trans (if_neg (Bool.eq_false_iff.1 hd))).trans ((if_neg (Bool.eq_false_iff.1 hc)).trans
      (congrArg (fun y : Dev => y.released s.time 1 (some polder.val)) (if_pos ho))))

end Polders

/-! # The device-wide safe state, and FAULT_N (R484, R485) -/

theorem fclrDevice_refused (hd : s.dev.devSafe = true) (hc : s.dev.causeStands s.dev.dkw.devCause = true) :
    exec (.fclrDevice 0) s = .next { s with dev := s.dev.refuseRelease s.time s.dev.dkw.devCause.1 } :=
  onDev_gives (exec_fclrDevice ..) ((if_neg (not_or.2 ⟨not_not_intro rfl, guard_passes hd⟩)).trans (if_pos hc))

theorem fclrDevice_releases (hd : s.dev.devSafe = true) (hc : s.dev.causeStands s.dev.dkw.devCause = false) :
    let freely := (List.range 16).filter (fun n => decide (look (0, 0) s.dev.dkw.portCause n = (0, 0)))
    let lifted : Dev := { s.dev.wr DKW.STATUS_DEVSAFE 0 0 with dkw := { s.dev.dkw with devCause := (0, 0) } }
    let trained := freely.foldl (fun y n => y.freePort s.time n) lifted
    let shown := (List.range 128).foldl (fun y n => y.wr DKW.POLSAFE_MAP n
      (((List.range 64).filter (fun j => decide (look (0, 0) s.dev.dkw.polCause (64 * n + j) ≠ (0, 0)))).map (fun j => 2 ^ j)).sum) trained
    exec (.fclrDevice 0) s = .next { s with
      dev := (shown.repaired s.dev.dkw.devCause.1 s.dev.dkw.devCause.2).released s.time (2 + (freely.map (fun n => 2 ^ (n + 4))).sum) none } :=
  onDev_gives (exec_fclrDevice ..) ((if_neg (not_or.2 ⟨not_not_intro rfl, guard_passes hd⟩)).trans (if_neg (Bool.eq_false_iff.1 hc)))

theorem fclrRelease_refused (ha : s.dev.anySafe = true) (hp : s.dev.dkw.present = []) :
    exec (.fclrRelease 0) s = .next { s with dev := s.dev.refuseRelease s.time s.dev.dkw.devCause.1 } := by
  refine onDev_gives (exec_fclrRelease ..) ((if_neg (not_not_intro rfl)).trans ?_)
  simp only [ha, hp, Bool.true_or, if_true, List.head?_nil, Option.map_none, Option.getD_none]

/-- With nothing left to be afraid of, FAULT_N goes high and the first fault is forgotten. -/
theorem fclrRelease_releases (ha : s.dev.anySafe = false) (hp : s.dev.dkw.present = []) (hf : s.dev.rd DKW.SMSTAT_FAILED = 0)
    (hr : s.dev.ready 36 = true) (hn : s.dev.rd DKW.STATUS_FAULTN ≠ 0) :
    let reset : Dev := { s.dev with dkw := { s.dev.dkw with causeSet := false } }
    let cleared := ((((reset.wr DKW.CAUSE_SOURCE 0 0).wr DKW.CAUSE_SM 0 0).wr DKW.CAUSE_INFO 0 0).wr DKW.FTIME_NS 0 0).wr DKW.FTIME_SEC 0 0
    exec (.fclrRelease 0) s = .next { s with dev := ((cleared.wr DKW.STATUS_FAULTN 0 0).send (.pin 1 true)).raise s.time (ev 0 22) } :=
  onDev_gives (exec_fclrRelease ..)
    (((if_neg (not_not_intro rfl)).trans (if_neg (by simp [ha, hp, hf, hr]))).trans (if_neg hn))

end Releases

/-- Settles O42: the triple store and its hardware copies, and the releases of ports, polders, the device and FAULT_N. -/
theorem releaseResults : Obligations.ReleaseResults := by
  intro s kind inst vs found ports pf polder
  exact ⟨onDev_gives (exec_objectScan ..) readObject_agrees, fun h => onDev_gives (exec_objectScan ..) (readObject_outvotes h),
    onDev_gives (exec_objectScan ..) readObject_repairsEcc, onDev_gives (exec_hwCopyCompare ..) (if_pos rfl),
    fun h => onDev_gives (exec_hwCopyCompare ..) (if_neg h), psclr_held, psclr_releases,
    onDev_gives (exec_psclr ..) (if_pos (.inl (by decide))),
    fun hf hs hd => ⟨polclr_refused hf hs hd, polclr_releases hf hs hd⟩, polclr_notSafe, fclrDevice_refused, fclrDevice_releases,
    onDev_gives (exec_fclrDevice ..) (if_pos (.inl (by decide))), onDev_gives (exec_fclrRelease ..) (if_pos (by decide)),
    fclrRelease_refused, fclrRelease_releases⟩

/-! # The event unit (R495, R496, R499) -/

section Events

variable {d : Dev}

theorem setMask_quiet {pf group v : Nat} :
    let i := 16 * pf + group
    let before := d.rd EVT.PEND_BITS i &&& d.rd EVT.MASK_BITS i
    let masked := d.wr EVT.MASK_BITS i v
    before ||| (masked.rd EVT.PEND_BITS i &&& masked.rd EVT.MASK_BITS i) = before → d.setMask pf group v = masked :=
  fun h => if_pos h

theorem setMask_interrupts {pf group v : Nat} :
    let i := 16 * pf + group
    let before := d.rd EVT.PEND_BITS i &&& d.rd EVT.MASK_BITS i
    let masked := d.wr EVT.MASK_BITS i v
    before ||| (masked.rd EVT.PEND_BITS i &&& masked.rd EVT.MASK_BITS i) ≠ before →
      d.setMask pf group v = masked.vector (4096 * pf) (masked.rd EVT.VEC_VECTOR i) :=
  fun h => if_neg h

theorem takeRecord_empty0 (h : d.evt.recs0 = []) : d.takeRecord 0 = (d, BitVec.allOnes 64) := by
  simp only [Dev.takeRecord, if_true, h]

theorem takeRecord_empty1 (h : d.evt.recs1 = []) : d.takeRecord 1 = (d, BitVec.allOnes 64) := by
  simp only [Dev.takeRecord, Nat.one_ne_zero, if_false, h]

theorem takeRecord_oldest {r : EvRecord} {rs : List EvRecord} (h : d.evt.recs0 = r :: rs) : d.takeRecord 0 =
    (((({ d with evt := { d.evt with recs0 := rs } } : Dev).wr EVT.RECB_NS 0 (r.time.toNat % 2 ^ 32)).wr EVT.RECB_SEC 0 (r.time.toNat / 2 ^ 32)),
      BitVec.ofNat 64 r.reca) := by
  simp only [Dev.takeRecord, if_true, h]

variable {s : State}

theorem recaRead_takes {pf : Pf} {y : Dev} {w : Word} (h : s.dev.takeRecord pf = (y, w)) :
    exec (.recaRead pf) s = .next { s with dev := y.send (.readData (4096 * pf.val) w) } := by
  refine onDev_gives (exec_recaRead ..) ?_
  rw [h]

variable {pf : Pf} {sm : Fin 32} {inst : Nat}

theorem inject_injects (he : s.dev.rd DKW.SMSTAT_INJEN = 1) (hl : 1 ≤ sm.val) (hu : sm.val ≤ 15) :
    exec (.inject pf sm inst) s = .next { s with dev := (s.dev.raise s.time (ev 0 27) sm).testFault s.time sm inst } :=
  onDev_gives (exec_inject ..) (if_pos ⟨he, hl, hu⟩)

theorem inject_ignored (h : s.dev.rd DKW.SMSTAT_INJEN = 0 ∨ sm.val = 0 ∨ 15 < sm.val) :
    exec (.inject pf sm inst) s = .next { s with dev := s.dev } :=
  onDev_gives (exec_inject ..) (if_neg (by omega))

theorem mgtRestart_serves (h : s.dev.dkw.mgtDown = true) :
    let restarted := ({ s.dev with dkw := { s.dev.dkw with mgtDown := false } } : Dev).repaired 2 0
    let serving := (((restarted.wrBit CLK.RGSTAT_INRESET 0 4 false).bump MGT.STATUS_RESTARTS).wr MGT.STATUS_READY 0 1).wrBit TOP.READY_BITS 0 37 true
    exec .mgtRestartDone s = .next { s with dev := serving.raise s.time (ev 1 0) 37 } :=
  onDev_gives (exec_mgtRestartDone ..) (if_neg (guard_passes h))

theorem mgtRestart_idle (h : s.dev.dkw.mgtDown = false) : exec .mgtRestartDone s = .next { s with dev := s.dev } :=
  onDev_gives (exec_mgtRestartDone ..) (if_pos (guard_stops h))

end Events

/-! # References and trims (R516, R518) -/

section Clocks

variable {s : State}

theorem referenceExcursion_counts {input : Fin 4} {f : Fld}
    (hf : ([CLK.REFSTAT_NET, CLK.REFSTAT_PCIE, CLK.REFSTAT_SYS, CLK.REFSTAT_XTAL] : List Fld).getD input CLK.REFSTAT_NET = f) :
    exec (.referenceExcursion input) s = .next { s with
      dev := ((s.dev.wr f 0 0).bump CLK.REFERR_COUNT).raiseSec s.time (ev 1 2) input input } := by
  subst hf
  exact onDev_gives (exec_referenceExcursion ..) rfl

theorem calCommitTimeout_idle (h : s.dev.rd CAL.STATUS_COMMITTED = 1 ∨ s.dev.eng.tclks < 250000000) :
    exec .calCommitTimeout s = .next { s with dev := s.dev } :=
  onDev_gives (exec_calCommitTimeout ..) (if_pos h)

/-- Without a commit the trims of the monitors are zero, and locked. -/
theorem calCommitTimeout_locks (hc : s.dev.rd CAL.STATUS_COMMITTED = 0) (ht : 250000000 ≤ s.dev.eng.tclks) :
    let clear := fun (y : Dev) (u e : Fld) (i : Nat) => (y.wr u i 0).wr e i (e.coldValue i)
    let temps := (List.range 16).foldl (fun (y : Dev) i => clear y CAL.TM_USER CAL.TM_EFF i) s.dev
    let rails := (List.range 9).foldl (fun (y : Dev) i => clear y CAL.VM_USER CAL.VM_EFF i) temps
    exec .calCommitTimeout s = .next { s with dev := rails.wr CAL.STATUS_COMMITTED 0 1 } :=
  onDev_gives (exec_calCommitTimeout ..) (if_neg (by omega))

end Clocks

/-- Settles O43: masks and records, INJECT, the restart of the management controller, references, frequencies and trims. -/
theorem eventsAndClocks : Obligations.EventsAndClocks := by
  refine ⟨fun s pf group value sm inst r rs => ?_, fun s freqs refs => ?_⟩
  · exact ⟨fun h => onDev_gives (exec_maskWrite ..) (setMask_quiet h), fun h => onDev_gives (exec_maskWrite ..) (setMask_interrupts h),
      fun h => recaRead_takes (takeRecord_oldest h), fun h => recaRead_takes (takeRecord_empty0 h), fun h => recaRead_takes (takeRecord_empty1 h),
      inject_injects, inject_ignored, mgtRestart_serves, mgtRestart_idle⟩
  · exact ⟨referenceExcursion_counts rfl, referenceExcursion_counts rfl, referenceExcursion_counts rfl, referenceExcursion_counts rfl,
      onDev_gives (exec_frequencyMeasure ..) rfl, onDev_gives (exec_calCommit ..) (if_pos rfl),
      onDev_gives (exec_calCommit ..) (if_neg (by decide)), fun h => calCommitTimeout_idle (.inl h), fun h => calCommitTimeout_idle (.inr h),
      calCommitTimeout_locks⟩

end Sys2Proof.Proofs
end

section
/-! Proof of the statement of 19_clocks_reset about power, warm resets, and ready and failed functions. -/

namespace Sys2Proof.Proofs

open Sys2Proof.Machine Sys2Proof.Laws

section Resets

variable {s : State}

/-! # Power, and warm resets of PF 0 and the pin (R504 to R506) -/

theorem topReset_resets (h : (s.dev.fn 0).inFlr = false) :
    exec (.topResetWarm 0) s = .next { s with dev := s.dev.warmReset s.time TOP.RSTCAUSE_PF0 } :=
  onDev_gives (exec_topResetWarm ..) (if_neg (not_or.2 ⟨not_not_intro rfl, Bool.eq_false_iff.1 h⟩))

theorem topReset_otherPf : exec (.topResetWarm 1) s = .next { s with dev := s.dev } :=
  onDev_gives (exec_topResetWarm ..) (if_pos (.inl (by decide)))

/-- A source during a warm reset only adds its cause. -/
theorem warmReset_during {d : Dev} {now : NetTime} {cause : Fld} (h : d.warming = true) : d.warmReset now cause = d.wr cause 0 1 := if_pos h

theorem warmResetComplete_counts (hw : s.dev.warming = true) (hl : ∀ l < 2, s.dev.linkPresent l = true → s.dev.ready (38 + l) = true) :
    exec .warmResetComplete s = .next { s with
      dev := (({ s.dev with warming := false } : Dev).bump TOP.WARMCNT_COUNT).raise s.time (ev 1 3) } := by
  refine onDev_gives (exec_warmResetComplete ..) (if_pos ?_)
  rw [hw, Bool.true_and, List.all_eq_true]
  intro l hm
  cases hp : s.dev.linkPresent l with
  | false => rfl
  | true => exact hl l (List.mem_range.1 hm) hp

theorem warmResetComplete_idle (h : s.dev.warming = false) : exec .warmResetComplete s = .next { s with dev := s.dev } :=
  onDev_gives (exec_warmResetComplete ..) (if_neg (by rw [h, Bool.false_and]; exact Bool.false_ne_true))

/-! # Resets over the sideband (20 R523, R538) -/

section Sideband

variable {via : Via} (hm : s.dev.dkw.mgtDown = false) (hv : s.dev.viaUp via = true)

include hm hv

theorem overMctp_recovery {f : Dev → Dev} (hr : s.dev.inRecovery = true) : s.dev.overMctp s.time via f = s.dev.mgtRefuse s.time :=
  (if_neg (by rw [hm, hv]; decide)).trans (if_pos hr)

/-- The path reaches the controller. -/
theorem sideband_reaches : (s.dev.dkw.mgtDown || !s.dev.viaUp via) = false := by
  rw [hm, hv]
  rfl

variable (h37 : s.dev.ready 37 = true)

include h37

theorem overMctp_serves {f : Dev → Dev} (hr : s.dev.inRecovery = false) : s.dev.overMctp s.time via f = f s.dev :=
  ((if_neg (by rw [hm, hv]; decide)).trans (if_neg (Bool.eq_false_iff.1 hr))).trans (if_pos h37)

/-- The requests of an update are served by the controller that is ready. -/
theorem update_reaches : ¬(s.dev.dkw.mgtDown || !s.dev.viaUp via || !(s.dev.ready 37 || s.dev.inRecovery)) = true := by
  rw [sideband_reaches hm hv, h37]
  exact Bool.false_ne_true

theorem activate_refused {self : Bool} (h : s.dev.rd MGT.FWUPD_STATE ≠ 4) :
    exec (.activateFirmware via self) s = .next { s with dev := s.dev.mctpReply via 1 [5, 0x1A, 0x80] } :=
  onDev_gives (exec_activateFirmware ..) ((if_neg (update_reaches hm hv h37)).trans (if_pos h))

/-- A finished update is activated by a warm reset where it is self-contained, and waits for the next one otherwise. -/
theorem activate_activates (h : s.dev.rd MGT.FWUPD_STATE = 4) :
    exec (.activateFirmware via true) s = .next { s with dev := (s.dev.mctpReply via 1 [5, 0x1A, 0]).warmReset s.time TOP.RSTCAUSE_MGT } ∧
      exec (.activateFirmware via false) s = .next { s with dev := (s.dev.mctpReply via 1 [5, 0x1A, 0]).wr MGT.FWUPD_STATE 0 0 } :=
  ⟨onDev_gives (exec_activateFirmware ..) (((if_neg (update_reaches hm hv h37)).trans (if_neg (not_not_intro h))).trans (if_pos rfl)),
    onDev_gives (exec_activateFirmware ..) (((if_neg (update_reaches hm hv h37)).trans (if_neg (not_not_intro h))).trans
      (if_neg Bool.false_ne_true))⟩

end Sideband

/-! # Functions that are ready, and that fail their test (R500 to R503) -/

section Functions

variable {bit : Fin 40}

theorem readyBit_waits {cores : BitVec 32} (h : s.dev.needsMet bit = false) : exec (.readyBitSet bit cores) s = .next { s with dev := s.dev } :=
  onDev_gives (exec_readyBitSet ..) (if_pos (by simp [h]))

variable (hr : s.dev.ready bit = false) (hf : s.dev.rdBit TOP.FAILED_BITS 0 bit = false) (he : s.dev.hasFunction bit = true)

include hr hf he

theorem readyBit_sets {cores : BitVec 32} (hn : s.dev.needsMet bit = true) (hc : bit.val ≠ 33 ∨ cores ≠ 0) :
    exec (.readyBitSet bit cores) s = .next { s with
      dev := (((s.dev.wrBit TOP.READY_BITS 0 bit true).leaveReset (groupsOf bit)).putInService s.time bit cores).raise s.time (ev 1 0) bit } := by
  refine onDev_gives (exec_readyBitSet ..) (if_neg ?_)
  rw [hr, hf, he, hn, decide_eq_false fun h => hc.elim (fun hb => hb h.1) (fun hz => hz h.2)]
  exact Bool.false_ne_true

/-- A function that is there, and neither ready nor failed, may fail its test. -/
theorem selfTest_judges : ¬(s.dev.ready bit || s.dev.rdBit TOP.FAILED_BITS 0 bit || !s.dev.hasFunction bit) = true := by
  rw [hr, hf, he]
  exact Bool.false_ne_true

theorem selfTest_fails {sms : BitVec 16} (hb : bit.val ≠ 36) : exec (.selfTestFail bit sms) s = .next { s with
    dev := ((s.dev.wrBit TOP.FAILED_BITS 0 bit true).leaveReset (groupsOf bit)).raise s.time (ev 1 1) bit } :=
  onDev_gives (exec_selfTestFail ..) ((if_neg (selfTest_judges hr hf he)).trans (if_pos (.inl hb)))

/-- Mechanisms of the Dikewarden that fail are named, and FAULT_N stays asserted. -/
theorem selfTest_failsDikewarden {sms : BitVec 16} (hb : bit.val = 36) (hs : sms.toNat / 2 ≠ 0) :
    exec (.selfTestFail bit sms) s = .next { s with
      dev := ((((((s.dev.wrBit TOP.FAILED_BITS 0 bit true).leaveReset (groupsOf bit)).raise s.time (ev 1 1) bit).wr DKW.SMSTAT_FAILED 0
        (sms.toNat / 2)).raise s.time (ev 0 24) (2 * (sms.toNat / 2))).assertFault s.time) } :=
  onDev_gives (exec_selfTestFail ..)
    ((if_neg (selfTest_judges hr hf he)).trans (if_neg (not_or.2 ⟨not_not_intro hb, hs⟩)))

end Functions

end Resets

/-- Settles O44: power-on and power-down, the warm resets and their end, and the functions that become ready or fail. -/
theorem resetResults : Obligations.ResetResults := by
  intro s bit cores sms via self
  exact ⟨rfl, rfl, topReset_resets, topReset_otherPf, onDev_gives (exec_wrstN ..) rfl, fun h => onDev_gives (exec_wrstN ..) (warmReset_during h),
    fun hm hv h37 => ⟨fun hr => onDev_gives (exec_vendorWarmReset ..) (overMctp_serves hm hv h37 hr),
      fun hr => onDev_gives (exec_vendorWarmReset ..) (overMctp_recovery hm hv hr), activate_refused hm hv h37, activate_activates hm hv h37⟩,
    warmResetComplete_counts, warmResetComplete_idle,
    fun hr hf he => ⟨readyBit_sets hr hf he, readyBit_waits, selfTest_fails hr hf he, selfTest_failsDikewarden hr hf he⟩⟩

end Sys2Proof.Proofs
end

section
/-! Proofs of the statements of 20_management about the sideband, telemetry snapshots, shares, flash updates and user OTP. -/

namespace Sys2Proof.Proofs

open Sys2Proof.Machine Sys2Proof.Laws

/-! # NC-SI (R523, R524) -/

section NcSi

variable {s : State} {n : Fin 16}

/-- A channel of a port, among the channels that a command can name. -/
def portChannel (n : Fin 16) : Fin 32 := ⟨n.val, by omega⟩

/-- A command selects the package (R523). -/
def packageSelected (d : Dev) : Dev := { d with mgt := { d.mgt with pkgSel := true } }

theorem ncsi_away (h : s.dev.mgtServes = false) {ch : Fin 32} {r : NcsiReq} : exec (.ncsiCommand ch r) s = .next { s with dev := s.dev } :=
  onDev_gives (exec_ncsiCommand ..) (if_pos (guard_stops h))

theorem passthrough_away (h : s.dev.mgtServes = false) {frame : List Byte} : exec (.ncsiPassthrough n frame) s = .next { s with dev := s.dev } :=
  onDev_gives (exec_ncsiPassthrough ..) (if_pos (by rw [h]; rfl))

variable (h : s.dev.mgtServes = true)

include h

theorem ncsi_otherRefused {byte : BitVec 8} : exec (.ncsiCommand (portChannel n) (.other byte)) s = .next { s with
    dev := (s.dev.mgtRefuse s.time).ncsiReply n (.other byte) 3 0x7FFF } :=
  onDev_gives (exec_ncsiCommand ..) (if_neg (guard_passes h))

theorem ncsi_selects : exec (.ncsiCommand (portChannel n) .selectPackage) s = .next { s with
    dev := (packageSelected s.dev).ncsiReply n .selectPackage 0 0 } :=
  onDev_gives (exec_ncsiCommand ..) (if_neg (guard_passes h))

/-- A port has its channel, so every other command comes to it. -/
theorem ncsi_clears : exec (.ncsiCommand (portChannel n) .clearInitial) s = .next { s with
    dev := ((packageSelected s.dev).setNcsi n { s.dev.ncsi n with init := true }).ncsiReply n .clearInitial 0 0 } :=
  onDev_gives (exec_ncsiCommand ..) ((if_neg (guard_passes h)).trans (if_neg (Nat.not_le.2 n.isLt)))

theorem ncsi_notInitialised (hi : (s.dev.ncsi n).init = false) : exec (.ncsiCommand (portChannel n) .enableTx) s = .next { s with
    dev := (packageSelected s.dev).ncsiReply n .enableTx 1 1 } :=
  onDev_gives (exec_ncsiCommand ..)
    (((if_neg (guard_passes h)).trans (if_neg (Nat.not_le.2 n.isLt))).trans (if_pos (guard_stops hi)))

section Initialised

variable (hi : (s.dev.ncsi n).init = true)

include hi

theorem ncsi_enablesTx : exec (.ncsiCommand (portChannel n) .enableTx) s = .next { s with
    dev := ((packageSelected s.dev).setNcsi n { s.dev.ncsi n with enTx := true }).ncsiReply n .enableTx 0 0 } :=
  onDev_gives (exec_ncsiCommand ..)
    (((if_neg (guard_passes h)).trans (if_neg (Nat.not_le.2 n.isLt))).trans (if_neg (guard_passes hi)))

theorem ncsi_disablesChannel : exec (.ncsiCommand (portChannel n) .disableChannel) s = .next { s with
    dev := ((packageSelected s.dev).setNcsi n { s.dev.ncsi n with enCh := false }).ncsiReply n .disableChannel 0 0 } :=
  onDev_gives (exec_ncsiCommand ..)
    (((if_neg (guard_passes h)).trans (if_neg (Nat.not_le.2 n.isLt))).trans (if_neg (guard_passes hi)))

theorem ncsi_showsLink : exec (.ncsiCommand (portChannel n) .getLink) s = .next { s with
    dev := (packageSelected s.dev).ncsiReply n .getLink 0 0 [s.dev.rd PRT.STATUS_LINK n, s.dev.rd PRT.STATUS_SPEED n] } :=
  onDev_gives (exec_ncsiCommand ..) (((if_neg (guard_passes h)).trans (if_neg (Nat.not_le.2 n.isLt))).trans (if_pos hi))

theorem ncsi_resetsChannel : exec (.ncsiCommand (portChannel n) .resetChannel) s = .next { s with
    dev := ((packageSelected s.dev).setNcsi n {}).ncsiReply n .resetChannel 0 0 } :=
  onDev_gives (exec_ncsiCommand ..) (((if_neg (guard_passes h)).trans (if_neg (Nat.not_le.2 n.isLt))).trans (if_pos hi))

end Initialised

/-- A frame is discarded while its channel, or the transmission of it, is off. -/
theorem passthrough_discards {frame : List Byte} (hf : frame ≠ []) (ho : s.dev.rd MGT.NCSIQ_EN n = 0 ∨ (s.dev.ncsi n).enTx = false) :
    exec (.ncsiPassthrough n frame) s = .next { s with dev := s.dev.bump PRT.TXDISCARD_COUNT n } := by
  refine onDev_gives (exec_ncsiPassthrough ..) ((if_neg ?_).trans (if_pos ho))
  rw [h, List.isEmpty_eq_false_iff.2 hf]
  exact Bool.false_ne_true

end NcSi

/-! # Snapshots (R525) -/

section Snapshots

variable {s : State} {rs : Readings}

theorem snapshotPeriod_away (h : s.dev.mgtServes = false) : exec (.snapshotPeriod rs) s = .next { s with dev := s.dev } :=
  onDev_gives (exec_snapshotPeriod ..) (if_neg (by rw [h, Bool.false_and]; exact Bool.false_ne_true))

theorem snapshotPeriod_off (h : s.dev.rd MGT.TELCFG_PERIOD = 0) : exec (.snapshotPeriod rs) s = .next { s with dev := s.dev } :=
  onDev_gives (exec_snapshotPeriod ..)
    (if_neg (by rw [decide_eq_false fun hp => hp.1 h, Bool.and_false]; exact Bool.false_ne_true))

theorem snapshotPeriod_latches (h : s.dev.mgtServes = true) (hp : s.dev.rd MGT.TELCFG_PERIOD ≠ 0)
    (ht : s.dev.mgt.periodAt + s.dev.rd MGT.TELCFG_PERIOD * 1000000 ≤ s.dev.eng.tclks) :
    exec (.snapshotPeriod rs) s = .next { s with
      dev := ({ s.dev with mgt := { s.dev.mgt with periodAt := s.dev.eng.tclks } } : Dev).snapshot s.time rs } :=
  onDev_gives (exec_snapshotPeriod ..) (if_pos (by rw [h, decide_eq_true ⟨hp, ht⟩]; rfl))

end Snapshots

/-! # MCTP and PLDM (R523) -/

section Messages

variable {s : State} {via : Via} (hm : s.dev.dkw.mgtDown = false) (hv : s.dev.viaUp via = true)

include hm hv

theorem messages_refused (hr : s.dev.inRecovery = true) :
    exec (.mctpMessage via .getEid) s = .next { s with dev := s.dev.mgtRefuse s.time } ∧
      exec (.pldmRequest via .getTid) s = .next { s with dev := s.dev.mgtRefuse s.time } :=
  ⟨onDev_gives (exec_mctpMessage ..) (overMctp_recovery hm hv hr), onDev_gives (exec_pldmRequest ..) (overMctp_recovery hm hv hr)⟩

variable (h37 : s.dev.ready 37 = true) (hr : s.dev.inRecovery = false)

include h37 hr

theorem mctp_setsEid {e : BitVec 8} (hl : 8 ≤ e.toNat) (hu : e.toNat < 255) : exec (.mctpMessage via (.setEid e)) s = .next { s with
    dev := (s.dev.wr MGT.SIDEBAND_EID 0 e.toNat).mctpReply via 0 [1, 0, e.toNat] } :=
  onDev_gives (exec_mctpMessage ..) ((overMctp_serves hm hv h37 hr).trans (if_pos ⟨hl, hu⟩))

variable {set : Fin 2} {block : Nat}

theorem snapshotRead_beyond (hb : 1366 ≤ block) : exec (.vendorSnapshotRead via set block) s = .next { s with
    dev := (s.dev.mgtRefuse s.time).mctpReply via 0x7E [3, 2] } :=
  onDev_gives (exec_vendorSnapshotRead ..) ((overMctp_serves hm hv h37 hr).trans (if_pos hb))

/-- A block is read; its set is being read until the last one. -/
theorem snapshotRead_reads (on : Bool) (hb : block < 1366) (ho : decide (block = 1365) = !on) :
    exec (.vendorSnapshotRead via set block) s = .next { s with
      dev := ((({ s.dev with mgt := { s.dev.mgt with reading := if on then some set.val else none } } : Dev).wr MGT.SNAPSTAT_READING 0
        (bitNat on)).mctpReply via 0x7E ([3, 0] ++ s.dev.snapBlock set block)) } := by
  refine onDev_gives (exec_vendorSnapshotRead ..) ((overMctp_serves hm hv h37 hr).trans ?_)
  simp only [if_neg (Nat.not_le.2 hb), ho]
  cases on <;> rfl

end Messages

/-- Settles O45: the sideband's commands, messages and snapshots. -/
theorem sidebandResults : Obligations.SidebandResults := by
  intro s n byte frame via rs pf set block
  exact ⟨onDev_gives (exec_sidebandLost ..) rfl,
    fun h => ⟨ncsi_away h, passthrough_away h, snapshotPeriod_away h, onDev_gives (exec_snapreq ..) (if_neg (Bool.eq_false_iff.1 h))⟩,
    fun h => ⟨ncsi_otherRefused h, ncsi_selects h, ncsi_clears h, ncsi_notInitialised h,
      fun hi => ⟨ncsi_enablesTx h hi, ncsi_disablesChannel h hi, ncsi_showsLink h hi, ncsi_resetsChannel h hi⟩, passthrough_discards h,
      onDev_gives (exec_snapreq ..) (if_pos h), snapshotPeriod_off, snapshotPeriod_latches h⟩,
    fun hm hv => ⟨messages_refused hm hv, fun hr h37 => ⟨onDev_gives (exec_mctpMessage ..) (overMctp_serves hm hv h37 hr),
      mctp_setsEid hm hv h37 hr, onDev_gives (exec_mctpMessage ..) (overMctp_serves hm hv h37 hr),
      onDev_gives (exec_pldmRequest ..) (overMctp_serves hm hv h37 hr),
      onDev_gives (exec_vendorSnapshotRequest ..) (overMctp_serves hm hv h37 hr),
      fun hb => snapshotRead_reads hm hv h37 hr true (by omega) (decide_eq_false (by omega)),
      fun hb => snapshotRead_reads hm hv h37 hr false (by omega) (decide_eq_true hb),
      snapshotRead_beyond hm hv h37 hr⟩⟩⟩

/-! # Shares (R527, R528) -/

section Shares

variable {s : State} {a b c : ShareUse} {busy : Fin 101}

theorem shareWindow_early (h : s.dev.eng.tclks < s.dev.mgt.windowAt + 1000000) :
    exec (.shareWindow a b c busy) s = .next { s with dev := s.dev } :=
  onDev_gives (exec_shareWindow ..) (if_pos h)

/-- A window that has run shows its loads, judges its shares and takes the shares of the next one. -/
theorem shareWindow_judges (h : s.dev.mgt.windowAt + 1000000 ≤ s.dev.eng.tclks) :
    let d := s.dev
    let want := (d.rd MGT.CCSHARE_MBOX, d.rd MGT.CCSHARE_LEARN, d.rd MGT.CCSHARE_EXC)
    let share := d.mgt.shares.getD want
    let loads := (((d.wr MGT.CCLOAD_MBOX 0 a.got).wr MGT.CCLOAD_LEARN 0 b.got).wr MGT.CCLOAD_EXC 0 c.got).wr MGT.CCLOAD_BUSY 0 busy
    let judged := ((loads.judgeShare s.time MGT.CCSAT_MBOX 0 share.1 a).judgeShare s.time MGT.CCSAT_LEARN 1 share.2.1 b).judgeShare s.time
      MGT.CCSAT_EXC 2 share.2.2 c
    exec (.shareWindow a b c busy) s = .next { s with
      dev := { judged with mgt := { judged.mgt with shares := some want, windowAt := d.eng.tclks } } } :=
  onDev_gives (exec_shareWindow ..) (if_neg (Nat.not_lt.2 h))

end Shares

/-! # Flash updates (R538) -/

section Updates

variable {s : State} {via : Via} {components : Nat}

theorem update_away (h : s.dev.dkw.mgtDown = true) : exec (.requestUpdate via components) s = .next { s with dev := s.dev } :=
  onDev_gives (exec_requestUpdate ..) (if_pos (by rw [h]; rfl))

theorem verify_away {x : FwReceived} (h : s.dev.dkw.mgtDown = true) : exec (.verifyComplete x) s = .next { s with dev := s.dev } :=
  onDev_gives (exec_verifyComplete ..) (if_pos (.inl h))

section Request

variable (hm : s.dev.dkw.mgtDown = false) (hv : s.dev.viaUp via = true) (h37 : s.dev.ready 37 = true)

include hm hv h37

theorem update_oneComponent (h : components ≠ 1) : exec (.requestUpdate via components) s = .next { s with
    dev := (s.dev.mgtRefuse s.time).mctpReply via 1 [5, 0x10, 2] } :=
  onDev_gives (exec_requestUpdate ..) ((if_neg (update_reaches hm hv h37)).trans (if_pos h))

theorem update_underWay (hl : 1 ≤ s.dev.rd MGT.FWUPD_STATE) (hu : s.dev.rd MGT.FWUPD_STATE ≤ 4) :
    exec (.requestUpdate via 1) s = .next { s with dev := s.dev.mctpReply via 1 [5, 0x10, 0x81] } :=
  onDev_gives (exec_requestUpdate ..)
    (((if_neg (update_reaches hm hv h37)).trans (if_neg (not_not_intro rfl))).trans (if_pos ⟨hl, hu⟩))

theorem update_starts (h : s.dev.rd MGT.FWUPD_STATE = 0) :
    let idle : Dev := { s.dev with mgt := { s.dev.mgt with update := none } }
    let started := (((idle.wr MGT.FWUPD_STATE 0 1).wr MGT.FWUPD_SLOT 0 s.dev.updateSlot).wr MGT.FWUPD_SOURCE 0 via).wr MGT.FWUPD_ERR 0 0
    exec (.requestUpdate via 1) s = .next { s with dev := (started.wr MGT.FWUPD_BYTES 0 0).mctpReply via 1 [5, 0x10, 0] } :=
  onDev_gives (exec_requestUpdate ..)
    (((if_neg (update_reaches hm hv h37)).trans (if_neg (not_not_intro rfl))).trans (if_neg (by omega)))

end Request

section Verify

variable {x : FwReceived} (hm : s.dev.dkw.mgtDown = false) (h : s.dev.rd MGT.FWUPD_STATE = 1)

include hm h

/-- The controller that serves checks the image of an update that receives one. -/
theorem verify_checks : ¬(s.dev.dkw.mgtDown ∨ ¬(s.dev.rd MGT.FWUPD_STATE = 1 ∨ s.dev.rd MGT.FWUPD_STATE = 2)) :=
  not_or.2 ⟨Bool.eq_false_iff.1 hm, not_not_intro (.inl h)⟩

theorem verify_refuses {err : Nat} (he : s.dev.imageError x = some err) :
    exec (.verifyComplete x) s = .next { s with
      dev := ((((s.dev.wr MGT.FWUPD_BYTES 0 (min x.bytes (2 ^ 32 - 1))).wr MGT.FWUPD_STATE 0 5).wr MGT.FWUPD_ERR 0 err).raise s.time (ev 1 17)) } := by
  refine onDev_gives (exec_verifyComplete ..) ((if_neg (verify_checks hm h)).trans ?_)
  simp only [he]

theorem verify_holds (he : s.dev.imageError x = none) :
    let read := s.dev.wr MGT.FWUPD_BYTES 0 (min x.bytes (2 ^ 32 - 1))
    let image : FwImage := { good := x.good, version := x.version.toNat, content := x.content }
    exec (.verifyComplete x) s = .next { s with
      dev := ({ read with mgt := { read.mgt with update := some image } } : Dev).wr MGT.FWUPD_STATE 0 3 } := by
  refine onDev_gives (exec_verifyComplete ..) ((if_neg (verify_checks hm h)).trans ?_)
  simp only [he]

end Verify

theorem apply_nothing {ok : Bool} (h : s.dev.mgt.update = none) : exec (.applyComplete ok) s = .next { s with dev := s.dev } := by
  refine onDev_gives (exec_applyComplete ..) ?_
  simp only [h]

/-- The slot holds the image as it was written, whether the writing succeeded or not. -/
theorem apply_writes {y : FwImage} {ok : Bool} (hy : s.dev.mgt.update = some y) (hm : s.dev.dkw.mgtDown = false)
    (h : s.dev.rd MGT.FWUPD_STATE = 3) :
    let written : Dev := { s.dev with mgt := { s.dev.mgt with
      update := none, flash := Tbl.insert s.dev.mgt.flash (s.dev.rd MGT.FWUPD_SLOT) { y with good := y.good && ok } } }
    exec (.applyComplete ok) s = .next { s with
      dev := if ok then (written.wr MGT.FWUPD_STATE 0 4).raise s.time (ev 1 16) else (written.wr MGT.FWUPD_STATE 0 5).wr MGT.FWUPD_ERR 0 4 } := by
  refine onDev_gives (exec_applyComplete ..) ?_
  simp only [hy, hm, h, Bool.false_eq_true, ne_eq, not_true_eq_false, or_self, if_false]

end Updates

/-! # User OTP (R539) -/

section Otp

variable {s : State}

theorem otpProg_otherPf : exec (.otpProg 1) s = .next { s with dev := s.dev } :=
  onDev_gives (exec_otpProg ..) (if_pos (by decide))

theorem otpProg_away (h : s.dev.mgtServes = false) : exec (.otpProg 0) s = .next { s with dev := s.dev.bump TOP.NOTREADY_COUNT } :=
  onDev_gives (exec_otpProg ..) ((if_neg (not_not_intro rfl)).trans (if_pos (guard_stops h)))

variable (h : s.dev.mgtServes = true)

include h

theorem otpProg_programs (hp : s.dev.rd MGT.OTPSTG_PROGRAMMED = 0) :
    exec (.otpProg 0) s = .next { s with
      dev := ({ s.dev with mgt := { s.dev.mgt with
        otp := some (s.dev.rd MGT.OTPSTG_BIFMODE, s.dev.rd MGT.OTPSTG_CXLEN, s.dev.rd MGT.OTPSTG_SMBADDR) } } : Dev).wr MGT.OTPSTG_PROGRAMMED 0 1 } :=
  onDev_gives (exec_otpProg ..)
    (((if_neg (not_not_intro rfl)).trans (if_neg (guard_passes h))).trans (if_neg (by omega)))

theorem otpProg_again (hp : s.dev.rd MGT.OTPSTG_PROGRAMMED = 1) :
    exec (.otpProg 0) s = .next { s with dev := s.dev.raiseSec s.time (ev 1 21) 0 } :=
  onDev_gives (exec_otpProg ..) (((if_neg (not_not_intro rfl)).trans (if_neg (guard_passes h))).trans (if_pos hp))

end Otp

/-- Settles O46: control-core shares, flash updates, and the user OTP. -/
theorem updateResults : Obligations.UpdateResults := by
  intro s a b c busy via components x y err
  exact ⟨shareWindow_judges, shareWindow_early, fun h => ⟨update_away h, verify_away h⟩,
    fun hm hv h37 => ⟨update_oneComponent hm hv h37, update_underWay hm hv h37, update_starts hm hv h37⟩,
    fun hm h => ⟨verify_refuses hm h, verify_holds hm h⟩, fun hy hm h => ⟨apply_writes hy hm h, apply_writes hy hm h⟩, apply_nothing,
    otpProg_otherPf, otpProg_away, fun h => ⟨otpProg_programs h, otpProg_again h⟩⟩

end Sys2Proof.Proofs
end

section
/-! Proof of the statement of 20_management about the module bus: its segments, presence scans and polls. -/

namespace Sys2Proof.Proofs

open Sys2Proof.Machine Sys2Proof.Laws

variable {s : State}

/-! # Segments and the trunk (R533, R534) -/

section Segments

variable {seg : Fin 32} {line : SdaLine} {lines : List SdaLine}

theorem busStuck_away (h : s.dev.busServes = false) : exec (.busStuck seg line) s = .next { s with dev := s.dev } :=
  onDev_gives (exec_busStuck ..) (if_neg (by rw [h, Bool.false_and]; exact Bool.false_ne_true))

theorem probe_away (h : s.dev.busServes = false) {low : Bool} : exec (.moduleBusProbe low lines) s = .next { s with dev := s.dev } :=
  onDev_gives (exec_moduleBusProbe ..) (if_pos (guard_stops h))

theorem segmentRetry_otherPf : exec (.segmentRetry 1 seg line) s = .next { s with dev := s.dev } :=
  onDev_gives (exec_segmentRetry ..) (if_pos rfl)

theorem segmentRetry_closed (h : s.dev.rd MBS.SEGCTL_OPEN seg = 0) : exec (.segmentRetry 0 seg line) s = .next { s with dev := s.dev } :=
  onDev_gives (exec_segmentRetry ..) (if_pos (by rw [decide_eq_true h, Bool.or_true]))

theorem mbsRetry_otherPf {low : Bool} : exec (.mbsRetry 1 low) s = .next { s with dev := s.dev } :=
  onDev_gives (exec_mbsRetry ..) (if_pos rfl)

theorem mbsRetry_stillLow : exec (.mbsRetry 0 true) s = .next { s with dev := s.dev } :=
  onDev_gives (exec_mbsRetry ..) (if_pos (Bool.or_true _))

/-- A trunk whose line is high again serves; the segments that are open stay marked. -/
theorem mbsRetry_returns (hs : s.dev.mgtServes = true) (ht : s.dev.rd MBS.STATUS_TRUNK = 1) :
    let still := ((List.range 32).filter (fun k => decide (s.dev.rd MBS.SEGCTL_OPEN k = 1))).map (fun k => 2 ^ k)
    exec (.mbsRetry 0 false) s = .next { s with
      dev := ((s.dev.wr MBS.STATUS_TRUNK 0 0).wr MBS.STATUS_STUCK 0 still.sum).showCages } :=
  onDev_gives (exec_mbsRetry ..) (if_neg (by rw [hs, ht]; decide))

section Serving

variable (h : s.dev.busServes = true)

include h

theorem busStuck_recovers (ho : s.dev.rd MBS.SEGCTL_OPEN seg = 0) :
    exec (.busStuck seg line) s = .next { s with dev := s.dev.recoverSegment s.time seg line } :=
  onDev_gives (exec_busStuck ..) (if_pos (by rw [h, decide_eq_true ho]; rfl))

theorem probe_trunkLow : exec (.moduleBusProbe true lines) s = .next { s with dev := s.dev.trunkStuck } :=
  onDev_gives (exec_moduleBusProbe ..) ((if_neg (guard_passes h)).trans (if_pos rfl))

theorem segmentRetry_recovers (ho : s.dev.rd MBS.SEGCTL_OPEN seg = 1) : exec (.segmentRetry 0 seg line) s = .next { s with
    dev := (((s.dev.wr MBS.SEGCTL_OPEN seg 0).wrBit MBS.STATUS_STUCK 0 seg false).showCages).recoverSegment s.time seg line } :=
  onDev_gives (exec_segmentRetry ..) (if_neg (by rw [h, ho]; decide))

end Serving

end Segments

/-! # Presence (R536) -/

section Presence

variable {cage : Fin 16} {present : Bool}

theorem presenceChange_same (h : s.dev.rdBit MBS.PRSNOW_LEVEL 0 cage = present) :
    exec (.presenceChange cage present) s = .next { s with dev := s.dev } :=
  onDev_gives (exec_presenceChange ..) (if_pos h)

theorem presenceChange_latches (h : s.dev.rdBit MBS.PRSNOW_LEVEL 0 cage ≠ present) :
    exec (.presenceChange cage present) s = .next { s with
      dev := (s.dev.wrBit MBS.PRSNOW_LEVEL 0 cage present).wrBit MBS.PRSLATCH_CHG 0 cage true } :=
  onDev_gives (exec_presenceChange ..) (if_neg h)

theorem presenceScan_otherPf : exec (.presenceScan (some 1)) s = .next { s with dev := s.dev } :=
  onDev_gives (exec_presenceScan ..) (ite_self _)

section Idle

variable (hs : s.dev.mgtServes = true) (hn : s.dev.mgt.scan1 = none)

include hs hn

/-- The controller serves, and no scan runs. -/
theorem scan_idle : ¬(s.dev.mgtServes = false ∨ s.dev.mgt.scan1.isSome = true) := by
  rw [hs, hn]
  decide

theorem presenceScan_commanded : exec (.presenceScan (some 0)) s = .next { s with dev := s.dev.scanStart 0 } :=
  onDev_gives (exec_presenceScan ..) ((if_neg (scan_idle hs hn)).trans (if_pos rfl))

theorem presenceScan_due (hd : s.dev.scanDue = true) : exec (.presenceScan none) s = .next { s with
    dev := ({ s.dev with mgt := { s.dev.mgt with scanAt := s.dev.eng.tclks } } : Dev).scanStart 0 } :=
  onDev_gives (exec_presenceScan ..) ((if_neg (scan_idle hs hn)).trans (if_pos hd))

theorem presenceScan_early (hd : s.dev.scanDue = false) : exec (.presenceScan none) s = .next { s with dev := s.dev } :=
  onDev_gives (exec_presenceScan ..) ((if_neg (scan_idle hs hn)).trans (if_neg (Bool.eq_false_iff.1 hd)))

end Idle

theorem scanSettle_noScan (h : s.dev.mgt.scan1 = none) : exec .scanSettle s = .next { s with dev := s.dev } := by
  refine onDev_gives (exec_scanSettle ..) ?_
  simp only [h]

theorem scanSettle_early (h : s.dev.eng.tclks < s.dev.mgt.settleAt + 10000000) : exec .scanSettle s = .next { s with dev := s.dev } := by
  cases hn : s.dev.mgt.scan1 with
  | none => exact scanSettle_noScan hn
  | some levels =>
    refine onDev_gives (exec_scanSettle ..) ?_
    simp only [hn, h, decide_true, Bool.or_true, if_true]

section Settled

variable (hs : s.dev.mgtServes = true) (hn : s.dev.mgt.scan1 ≠ none) (ht : s.dev.mgt.settleAt + 10000000 ≤ s.dev.eng.tclks)

include hs hn ht

omit hn in
/-- A scan that has settled under a controller that serves is judged. -/
theorem scan_settled : (!s.dev.mgtServes || decide (s.dev.eng.tclks < s.dev.mgt.settleAt + 10000000)) = false := by
  rw [hs, decide_eq_false (Nat.not_lt.2 ht)]
  rfl

theorem scanSettle_gives (hl : s.dev.rd MBS.PRSLATCH_CHG = 0) :
    exec .scanSettle s = .next { s with dev := s.dev.scanResult s.time (s.dev.rd MBS.PRSNOW_LEVEL) } := by
  obtain ⟨levels, hv⟩ := Option.ne_none_iff_exists'.1 hn
  refine onDev_gives (exec_scanSettle ..) ?_
  simp only [hv, scan_settled hs ht, Bool.false_eq_true, if_false, if_pos hl]

theorem scanSettle_again (hl : s.dev.rd MBS.PRSLATCH_CHG ≠ 0) (hr : s.dev.mgt.rescans < 3) :
    exec .scanSettle s = .next { s with dev := (s.dev.wr MBS.SCAN_CDS 0 1).scanStart (s.dev.mgt.rescans + 1) } := by
  obtain ⟨levels, hv⟩ := Option.ne_none_iff_exists'.1 hn
  refine onDev_gives (exec_scanSettle ..) ?_
  simp only [hv, scan_settled hs ht, Bool.false_eq_true, if_false, if_neg hl, if_pos hr]

end Settled

end Presence

/-! # Modules (R535) -/

section Modules

variable {cage : Fin 16}

theorem poll_away {a : ModuleAnswer} (h : s.dev.busServes = false) : exec (.modulePoll cage a) s = .next { s with dev := s.dev } :=
  onDev_gives (exec_modulePoll ..) (if_pos (by rw [h]; rfl))

variable (h : s.dev.busServes = true) (he : s.dev.rd MBS.CAGE_EN cage ≠ 0) (hl : 1 ≤ s.dev.rd MBS.CAGE_STATE cage)
  (hu : s.dev.rd MBS.CAGE_STATE cage < 4)

include h he hl hu

/-- An enabled cage whose module may answer is polled. -/
theorem poll_polls :
    ¬(!s.dev.busServes || decide (s.dev.rd MBS.CAGE_EN cage = 0 ∨ s.dev.rd MBS.CAGE_STATE cage = 0 ∨ 4 ≤ s.dev.rd MBS.CAGE_STATE cage)) = true := by
  rw [h, decide_eq_false (by omega)]
  exact Bool.false_ne_true

theorem poll_silent (hc : s.dev.rd MBS.CAGE_STATE cage = 1) (ht : look 0 s.dev.mgt.stableAt cage + 2000000000 ≤ s.dev.eng.tclks) :
    exec (.modulePoll cage .silent) s = .next { s with dev := s.dev.setCage cage 3 } :=
  onDev_gives (exec_modulePoll ..) ((if_neg (poll_polls h he hl hu)).trans (if_pos ⟨hc, ht⟩))

/-- Silence changes nothing before its time, nor in a cage that answered or failed before. -/
theorem poll_patient (hc : ¬(s.dev.rd MBS.CAGE_STATE cage = 1 ∧ look 0 s.dev.mgt.stableAt cage + 2000000000 ≤ s.dev.eng.tclks)) :
    exec (.modulePoll cage .silent) s = .next { s with dev := s.dev } :=
  onDev_gives (exec_modulePoll ..) ((if_neg (poll_polls h he hl hu)).trans (if_neg hc))

theorem poll_answers : exec (.modulePoll cage .answers) s = .next { s with
    dev := (s.dev.setCage cage 2).send (.message 13 [cage.val, 1 - s.dev.rd PRT.CTL_EN (s.dev.rd MBS.CAGE_PORT cage),
      look 0 s.dev.mac.mode (s.dev.rd MBS.CAGE_PORT cage / 4)]) } :=
  onDev_gives (exec_modulePoll ..) (if_neg (poll_polls h he hl hu))

end Modules

/-- Settles O47: the segments and the trunk, presence and its scans, and the polls of modules. -/
theorem moduleBusResults : Obligations.ModuleBusResults := by
  intro s seg line lines cage present
  exact ⟨fun h ho => ⟨busStuck_recovers h ho, busStuck_recovers h ho, segmentRetry_closed ho⟩,
    fun h => ⟨busStuck_away h, probe_away h, poll_away h⟩, probe_trunkLow, mbsRetry_otherPf, segmentRetry_otherPf,
    fun hs ht => ⟨mbsRetry_stillLow, mbsRetry_returns hs ht⟩, segmentRetry_recovers, presenceChange_same, presenceChange_latches,
    presenceScan_otherPf,
    fun hs hn => ⟨presenceScan_due hs hn, presenceScan_early hs hn, presenceScan_commanded hs hn⟩, scanSettle_noScan, scanSettle_early,
    fun hs hn ht => ⟨scanSettle_gives hs hn ht, scanSettle_again hs hn ht⟩,
    fun h he hl hu => ⟨poll_silent h he hl hu, fun _ ht => poll_patient h he hl hu fun hc => Nat.not_le.2 ht hc.2,
      fun hc => poll_patient h he hl hu fun hp => hc hp.1, poll_answers h he hl hu⟩⟩

end Sys2Proof.Proofs
end
